-- ==== Sys2Proof/Word.lean ====
section
/-! DEFINITION. The words the machine works on, and the sparse table every register file and memory is kept in. -/
namespace Sys2Proof

/-- A byte (R4). -/
abbrev Byte := BitVec 8
/-- A 32-bit instruction word, scalar or lane word (R11, R24). -/
abbrev W32 := BitVec 32
/-- A 64-bit control register (R24). -/
abbrev Word := BitVec 64
/-- A v row, ring entry, CB row or scratchpad row: 32 lane words (R24, R264). -/
abbrev Row := BitVec 1024
/-- An AB or WB row: 256 bytes (R264). -/
abbrev BufRow := BitVec 2048
/-- A sparse table by number: numbers rising, each listed once; an unlisted number holds the table's default. -/
abbrev Tab (α : Type) := List (Nat × α)

end Sys2Proof
end

