-- ==== Sys2Proof/Config.lean ====
section
/-! DEFINITION. What an implementation fixes, and the values the manual leaves open (opaque: no proof can see one). -/
namespace Sys2Proof.Config

/-- An undefined 32-bit value (R5): a fresh one for each count of State.fresh (log 6). -/
opaque freeWord : Nat → W32
/-- An undefined row of lane words (R5, R30-R32): a fresh one for each count of State.fresh (log 6). -/
opaque freeRow : Nat → Row
/-- Which of the values near enough to the exact one a special function gives: a fixed function of the function code and the input bits
(R205, R206; log 12). -/
opaque specialSlip : Nat → W32 → Nat
/-- The scale byte of a quantised group whose exponent lies above 127, for which E8M0 has no code (R199, R202; log 6). -/
opaque wideScale : Int → BitVec 8
/-- Where context 5 of plaza 0 of die d starts at the end of start-up: the device runtime's choice (R82, R370; log 5). -/
opaque dispatcherEntry : Nat → Word
/-- Virtual address of the n-th allocation of code memory (R257; log 21). -/
opaque codeVa : Nat → Word
/-- Frame in near memory of the n-th allocation of code memory (R257; log 21). -/
opaque codeFrame : Nat → Nat
/-- How many finished texts the rewriter cache holds (R257; log 21). -/
opaque rewriteRoom : Nat
/-- The milliseconds since power-on that the n-th entry of the start journal holds in a start (R371; log 24). -/
opaque journalMs : Nat → Nat → W32

/-- FQRY word 0 on silicon revision A0 (R1). -/
def revision : W32 := 0x094000A0
/-- Lane group width, FQRY word 4 (R55, R259). -/
def laneWidth : Nat := 32
/-- Plazas per die and per module (R2). -/
def plazasPerDie : Nat := 24
def plazas : Nat := 192
def dies : Nat := 8
/-- Near memory of one die: spacing of the die ranges and their length, 144 GiB (R101). -/
def dieSpan : Nat := 0x2400000000
/-- First address of the second tier and the length of a port's window (R101). -/
def tierBase : Nat := 0x100000000000
def tierSpan : Nat := 0x10000000000
/-- Largest scratchpad in bytes (R144). -/
def scratchMax : Nat := 294912
/-- The module field that names this module, and the two hosts (R101). -/
def thisModule : Nat := 0x100
def hostA : Nat := 0x101
def hostB : Nat := 0x102

end Sys2Proof.Config
end

