-- ==== Sys2Proof/Syntax.lean ====
section
/-! DEFINITION. The instructions and steps of the part: one constructor per row of spec/opcode_table.json. Fields are
the raw field values of the encodings (R15, R18-R20), under the letters of the table where it names them; the rows
without an encoding are the module's own steps and the events that reach it from outside, with their inputs. -/
namespace Sys2Proof

/-- Who waits for a publish to be acknowledged (R327-R330): a control context, a lane group, the home that evicts an
RRT entry for a word, a host read, or the home on another module. -/
inductive Requester where
  | ctx (p c : Nat)
  | lane (p l : Nat)
  | evict (word : Nat)
  | host
  | remote (module tag : Nat)
  | plaza (p : Nat)
  | fetch (p u : Nat)
  | cmd (p id : Nat)
  deriving DecidableEq, Repr

/-- Who is delayed at a view block (R348): a control context, a lane group, the copy engine's command, or the hosts' reads (R361). -/
inductive Reader where
  | ctx (c : Nat)
  | lane (l : Nat)
  | copy
  | host
  deriving DecidableEq, Repr

/-- A PUTH payload's arrival (R98, R135): what g1-g3 receive, the handler's address, the job, the sender's command, and
for a payload from another module its bytes. -/
structure Arrival where
  loc     : Word
  len     : Nat
  sender  : Nat
  handler : Word
  job     : Nat
  cmd     : Nat
  data    : List Byte
  deriving DecidableEq, Repr

/-- A flit's header with its length and nonce (R352, R354), and what its payload says: the request's tag, address, size, operation and data. -/
structure Flit where
  kind : Nat
  dmod : Nat
  smod : Nat
  ddie : Nat
  sdie : Nat
  vc   : Nat
  seq  : Nat
  link : Nat
  len  : Nat
  nonce : BitVec 96
  tag  : Nat
  addr : Nat
  size : Nat
  op   : Nat
  ok   : Bool
  data : List Byte
  deriving DecidableEq, Repr

/-- A host's write of a doubleword to a register of the management window that has a row of its own (R360): which host, and the value. -/
structure HostWrite where
  host  : Nat
  value : Nat
  deriving DecidableEq, Repr

/-- What start-up finds (R370): units that fail, and the second-tier capacities in GiB; with `upTo`, how many units it comes through before power or
an alarm may cut it short (R371, R376). -/
structure StartUp where
  ctlFails  : Bool
  baseFails : Bool
  deadDies  : List Nat
  deadPlazas : List Nat
  deadPorts : List Nat
  deadLinks : List Nat
  deadDispatchers : List Nat
  capacity  : Tab Nat
  upTo      : Option Nat
  deriving DecidableEq, Repr

/-- The rows of spec/opcode_table.json. -/
inductive Instr where
  /-- ADD: Adds two registers at width w. (R38) -/
  | add (d a b x : Nat)
  /-- SUB: Subtracts rb from ra at width w. (R38) -/
  | sub (d a b x : Nat)
  /-- AND: Bitwise AND of two registers. (R38) -/
  | and (d a b x : Nat)
  /-- OR: Bitwise OR of two registers. (R38) -/
  | or (d a b x : Nat)
  /-- XOR: Bitwise XOR of two registers. (R38) -/
  | xor (d a b x : Nat)
  /-- ANDN: ra AND NOT rb. (R38) -/
  | andn (d a b x : Nat)
  /-- SHL: Shifts ra left by rb mod w. (R38) -/
  | shl (d a b x : Nat)
  /-- SHR: Logical right shift by rb mod w. (R38) -/
  | shr (d a b x : Nat)
  /-- SRA: Arithmetic right shift by rb mod w. (R38) -/
  | sra (d a b x : Nat)
  /-- MUL: Low w bits of the product. (R38) -/
  | mul (d a b x : Nat)
  /-- MULHS: High w bits of the signed product. (R38) -/
  | mulhs (d a b x : Nat)
  /-- MULHN: High w bits of the unsigned product. (R38) -/
  | mulhn (d a b x : Nat)
  /-- DIVS: Signed quotient, defined for every operand pair; control-only. (R39) -/
  | divs (d a b x : Nat)
  /-- DIVN: Unsigned quotient; control-only. (R39) -/
  | divn (d a b x : Nat)
  /-- REMS: Signed remainder; control-only. (R39) -/
  | rems (d a b x : Nat)
  /-- REMN: Unsigned remainder; control-only. (R39) -/
  | remn (d a b x : Nat)
  /-- MIN: Signed minimum. (R38) -/
  | min (d a b x : Nat)
  /-- MAX: Signed maximum. (R38) -/
  | max (d a b x : Nat)
  /-- MINN: Unsigned minimum. (R38) -/
  | minn (d a b x : Nat)
  /-- MAXN: Unsigned maximum. (R38) -/
  | maxn (d a b x : Nat)
  /-- SLT: 1 if ra < rb signed. (R38) -/
  | slt (d a b x : Nat)
  /-- SLTN: 1 if ra < rb unsigned. (R38) -/
  | sltn (d a b x : Nat)
  /-- SEQ: 1 if ra = rb. (R38) -/
  | seq (d a b x : Nat)
  /-- SH1ADD: (ra << 1) + rb. (R38) -/
  | sh1add (d a b x : Nat)
  /-- SH2ADD: (ra << 2) + rb. (R38) -/
  | sh2add (d a b x : Nat)
  /-- SH3ADD: (ra << 3) + rb. (R38) -/
  | sh3add (d a b x : Nat)
  /-- CLZ: Counts leading zeros of ra at width w. (R38) -/
  | clz (d a x : Nat)
  /-- POPC: Counts one bits of ra at width w. (R38) -/
  | popc (d a x : Nat)
  /-- SNE: 1 if ra differs from rb. (R38) -/
  | sne (d a b x : Nat)
  /-- ADDI: Adds a sign-extended 9-bit immediate. (R40) -/
  | addi (d a i : Nat)
  /-- ANDI: ANDs with a sign-extended immediate. (R40) -/
  | andi (d a i : Nat)
  /-- ORI: ORs with a sign-extended immediate. (R40) -/
  | ori (d a i : Nat)
  /-- XORI: XORs with a sign-extended immediate. (R40) -/
  | xori (d a i : Nat)
  /-- SHLI: Shifts left by an immediate count. (R40) -/
  | shli (d a i : Nat)
  /-- SHRI: Logical right shift by an immediate count. (R40) -/
  | shri (d a i : Nat)
  /-- SRAI: Arithmetic right shift by an immediate count. (R40) -/
  | srai (d a i : Nat)
  /-- SLTI: 1 if ra < immediate, signed. (R40) -/
  | slti (d a i : Nat)
  /-- SLTNI: 1 if ra < sign-extended immediate, unsigned. (R40) -/
  | sltni (d a i : Nat)
  /-- LI: Loads a sign-extended 17-bit immediate. (R41) -/
  | li (d i : Nat)
  /-- LIH: Places a 16-bit immediate in bits 31:16, keeping bits 15:0. (R41) -/
  | lih (d i : Nat)
  /-- BEQ: Branches when ra = rb. (R42) -/
  | beq (a b o : Nat)
  /-- BNE: Branches when ra differs from rb. (R42) -/
  | bne (a b o : Nat)
  /-- BLT: Branches when ra < rb signed. (R42) -/
  | blt (a b o : Nat)
  /-- BGE: Branches when ra >= rb signed. (R42) -/
  | bge (a b o : Nat)
  /-- BLTN: Branches when ra < rb unsigned. (R42) -/
  | bltn (a b o : Nat)
  /-- BGEN: Branches when ra >= rb unsigned. (R42) -/
  | bgen (a b o : Nat)
  /-- J: Jumps by a 25-bit word offset. (R43) -/
  | j (o : Nat)
  /-- CALL: Writes g31 and jumps, pushing the return predictor. (R43) -/
  | call (o : Nat)
  /-- JALR: Jumps to register plus offset, linking in rd. (R44) -/
  | jalr (d a i : Nat)
  /-- LOOP: Starts a hardware loop level with a register trip count, checking the body. (R49) -/
  | loop (c b l m p : Nat)
  /-- LOOPI: Starts a hardware loop level with an immediate trip count. (R49) -/
  | loopi (c b l m p : Nat)
  /-- FENCE: Orders the agent's accesses of the masked classes. (R54) -/
  | fence (m : Nat)
  /-- FQRY: Reads a feature and configuration word. (R55) -/
  | fqry (d w : Nat)
  /-- NOP: Does nothing. (R56) -/
  | nop
  /-- LDB: Loads a sign-extended byte. (R58) -/
  | ldb (d a c i : Nat)
  /-- LDBN: Loads a zero-extended byte. (R58) -/
  | ldbn (d a c i : Nat)
  /-- LDH: Loads a sign-extended halfword. (R58) -/
  | ldh (d a c i : Nat)
  /-- LDHN: Loads a zero-extended halfword. (R58) -/
  | ldhn (d a c i : Nat)
  /-- LDW: Loads a sign-extended word. (R58) -/
  | ldw (d a c i : Nat)
  /-- LDWN: Loads a zero-extended word. (R58) -/
  | ldwn (d a c i : Nat)
  /-- LDD: Loads a doubleword. (R58) -/
  | ldd (d a c i : Nat)
  /-- STB: Stores a byte. (R58) -/
  | stb (r a c i : Nat)
  /-- STH: Stores a halfword. (R58) -/
  | sth (r a c i : Nat)
  /-- STW: Stores a word. (R58) -/
  | stw (r a c i : Nat)
  /-- STD: Stores a doubleword. (R58) -/
  | std (r a c i : Nat)
  /-- LDA: Acquire load at a scope, publishing the releaser and self-invalidating at K or D. (R60) -/
  | lda (d a c s z o : Nat)
  /-- STREL: Release store written through to the home with an RRT entry. (R60) -/
  | strel (r a c s z o : Nat)
  /-- AMO: Read-modify-write of one word at its home, ops 0-8. (R64) -/
  | amo (d a b z s o p : Nat)
  /-- AMO_ADDC: Commutative integer add into the plaza's update line. (R65) -/
  | amoAddc (a b z : Nat)
  /-- AMO_FADDC: Commutative FP32 add into the plaza's update line. (R65) -/
  | amoFaddc (a b : Nat)
  /-- WAITM: Waits until a word meets a condition, ending with an acquire load. (R61) -/
  | waitm (d a b z s c : Nat)
  /-- CSRR: Reads a CSR. (R68) -/
  | csrr (d c : Nat)
  /-- CSRW: Swaps a CSR with a register. (R68) -/
  | csrw (d a c : Nat)
  /-- CSRS: Sets CSR bits, returning the old value. (R68) -/
  | csrs (d a c : Nat)
  /-- CSRC: Clears CSR bits, returning the old value. (R68) -/
  | csrc (d a c : Nat)
  /-- ICPF: Hints a fill of an instruction line. (R72) -/
  | icpf (a : Nat)
  /-- ICINV: Invalidates one instruction line in every instruction cache of the module. (R73) -/
  | icinv (a : Nat)
  /-- ICINV_ALL: Invalidates every instruction line of the job's PASID module-wide. (R73) -/
  | icinvAll
  /-- DCPF: Hints a fill of a data line into the L1D, merging any update line. (R72) -/
  | dcpf (a : Nat)
  /-- DCWB: Writes back the plaza's dirty bytes and update line for a line. (R74) -/
  | dcwb (a : Nat)
  /-- DCINV: Writes back, merges and invalidates a line in both L1s. (R74) -/
  | dcinv (a : Nat)
  /-- XLT: Translates a VA into a handle with requested permissions. (R109) -/
  | xlt (n a p : Nat)
  /-- HINV: Makes one handle EMPTY. (R110) -/
  | hinv (n : Nat)
  /-- HINV_ALL: Makes every handle EMPTY. (R110) -/
  | hinvAll
  /-- HGET: Reads a handle's value. (R111) -/
  | hget (d n : Nat)
  /-- HGETVA: Reads a handle's source VA. (R111) -/
  | hgetva (d n : Nat)
  /-- SHLD: Loads a shape register from 64 bytes of memory. (R122) -/
  | shld (n a c : Nat)
  /-- SHST: Stores a shape register to memory. (R122) -/
  | shst (n a c : Nat)
  /-- SHSET: Writes one shape-register field. (R122) -/
  | shset (n a f : Nat)
  /-- SHGET: Reads one shape-register field. (R122) -/
  | shget (d n f : Nat)
  /-- POPP: Pops the oldest poppable alley entry, waiting if none. (R139) -/
  | popp (d b : Nat)
  /-- POPPN: Pops an alley entry or returns empty without waiting. (R139) -/
  | poppn (d b : Nat)
  /-- BCANCEL: Cancels every block at or above a sequence number. (R140) -/
  | bcancel (d a : Nat)
  /-- BSEQ: Reads avtail, avhead or the poppable count. (R141) -/
  | bseq (d s : Nat)
  /-- BWAIT: Waits until every block below a sequence has retired or been discarded. (R141) -/
  | bwait (a : Nat)
  /-- TWAIT: Waits until a token leaves OUTSTANDING. (R127) -/
  | twait (n : Nat)
  /-- TWAITM: Waits until no masked token is OUTSTANDING. (R127) -/
  | twaitm (a : Nat)
  /-- TTEST: Reads one token's state. (R127) -/
  | ttest (d n : Nat)
  /-- TTEST_OUT: Reads the mask of OUTSTANDING tokens. (R127) -/
  | ttestOut (d : Nat)
  /-- TTEST_FAILED: Reads the mask of FAILED tokens. (R127) -/
  | ttestFailed (d : Nat)
  /-- TFREE: Frees a token after it leaves OUTSTANDING. (R127) -/
  | tfree (n : Nat)
  /-- TFREEM: Frees every masked token. (R127) -/
  | tfreem (a : Nat)
  /-- EXIT: Writes the exit status and ends the context. (R76) -/
  | exit (a : Nat)
  /-- TRAP: Completes, then raises TRAPINSN with a code. (R76) -/
  | trap (c : Nat)
  /-- SRET: Ends a delivery, restarting or halting a context, and continues the supervisor. (R76) -/
  | sret (d a b : Nat)
  /-- HRET: Makes a handler dormant or starts it on the next arrival. (R76) -/
  | hret
  /-- WAKE: Starts a dormant handler context. (R76) -/
  | wake (d a b : Nat)
  /-- CKPT: Releases at K and writes the checkpoint word, recording a restart point. (R76) -/
  | ckpt (a : Nat)
  /-- TBR: Completes, then raises BREAK. (R76) -/
  | tbr
  /-- LIX: Loads a sign-extended 32-bit immediate. (R67) -/
  | lix (d i : Nat)
  /-- LIXH: Writes the high 32 bits of a register. (R67) -/
  | lixh (d i : Nat)
  /-- CAS: Compare-and-swap at the home. (R66) -/
  | cas (d a b z s o c : Nat)
  /-- EMIT: Appends a block to the avenue. (R136) -/
  | emit (d a b e o t : Nat)
  /-- SPLIT: Emits up to two blocks split by a predicate. (R137) -/
  | split (d a b p e o t f : Nat)
  /-- CPY: Queues a shaped copy command. (R131) -/
  | cpy (a b n t u v w : Nat)
  /-- CPYG: Queues a gathering copy command. (R134) -/
  | cpyg (a b n t u v w : Nat)
  /-- PUTH: Queues a remote copy that starts a handler at the target. (R135) -/
  | puth (a b n t u v w : Nat)
  /-- MNSET_LVL: Writes one level of the shadow nest. (R283) -/
  | mnsetLvl (n a f : Nat)
  /-- MNSET_BASE: Writes bases and rings of the shadow nest. (R283) -/
  | mnsetBase (a r q : Nat)
  /-- MNSET_CTL: Writes mode, output and strides of the shadow nest. (R283) -/
  | mnsetCtl (a b : Nat)
  /-- MGO: Checks the shadow nest and copies it into the pending slot. (R284) -/
  | mgo (t u v w : Nat)
  /-- RSET: Writes a ring descriptor and resets the ring. (R285) -/
  | rset (n a : Nat)
  /-- RWAIT: Waits on a ring condition. (R286) -/
  | rwait (d n c : Nat)
  /-- RMARK: Forces ring stage states and cursors. (R287) -/
  | rmark (n a : Nat)
  /-- BFSET: Queues a bank-format register write in the copy queue. (R288) -/
  | bfset (n a t u v w : Nat)
  /-- CBLD: Queues a codebook slot load. (R289) -/
  | cbld (n a h t u v w : Nat)
  /-- LAUNCH: Submits a launch record to the Job Placer. (R143) -/
  | launch (d a : Nat)
  /-- JWAIT: Waits for a job's completion value. (R145) -/
  | jwait (d a i : Nat)
  /-- JBAR: Barrier among the placements of a GANG job. (R302) -/
  | jbar (d m : Nat)
  /-- VIEWREG: Registers a derived view. (R297) -/
  | viewreg (d a : Nat)
  /-- VIEWDROP: Drops a live view. (R298) -/
  | viewdrop (d a : Nat)
  /-- VIEWPOL: Changes a view's read policy. (R299) -/
  | viewpol (d a p : Nat)
  /-- VIEWTAG: Reads a generation, KG or tag at its home. (R300) -/
  | viewtag (d a s : Nat)
  /-- VIEWSYNC: Publishes and waits until every view of a master is current. (R301) -/
  | viewsync (d a : Nat)
  /-- LSCHED: Queues loading a link schedule into a slot. (R304) -/
  | lsched (n a b t u v w : Nat)
  /-- LGO: Queues starting a loaded schedule at a time. (R306) -/
  | lgo (n a t u v w : Nat)
  /-- MSTAT: Reads matrix-engine, ring or bank-format state. (R290) -/
  | mstat (d s a : Nat)
  /-- VFADD: FP32 add per lane. (R148) -/
  | vfadd (d a b p w k : Nat)
  /-- VFSUB: FP32 subtract per lane. (R148) -/
  | vfsub (d a b p w k : Nat)
  /-- VFMUL: FP32 multiply per lane. (R148) -/
  | vfmul (d a b p w k : Nat)
  /-- VFMIN: FP32 minimum per lane. (R148) -/
  | vfmin (d a b p w k : Nat)
  /-- VFMAX: FP32 maximum per lane. (R148) -/
  | vfmax (d a b p w k : Nat)
  /-- VIADD: 32-bit integer add per lane. (R148) -/
  | viadd (d a b p w k : Nat)
  /-- VISUB: 32-bit integer subtract per lane. (R148) -/
  | visub (d a b p w k : Nat)
  /-- VIMUL: Low 32 bits of a product per lane. (R148) -/
  | vimul (d a b p w k : Nat)
  /-- VIMIN: I32 minimum per lane. (R148) -/
  | vimin (d a b p w k : Nat)
  /-- VIMAX: I32 maximum per lane. (R148) -/
  | vimax (d a b p w k : Nat)
  /-- VNMIN: N32 minimum per lane. (R148) -/
  | vnmin (d a b p w k : Nat)
  /-- VNMAX: N32 maximum per lane. (R148) -/
  | vnmax (d a b p w k : Nat)
  /-- VAND: Bitwise AND per lane. (R148) -/
  | vand (d a b p w k : Nat)
  /-- VOR: Bitwise OR per lane. (R148) -/
  | vor (d a b p w k : Nat)
  /-- VXOR: Bitwise XOR per lane. (R148) -/
  | vxor (d a b p w k : Nat)
  /-- VSHL: Left shift per lane. (R148) -/
  | vshl (d a b p w k : Nat)
  /-- VSHR: Logical right shift per lane. (R148) -/
  | vshr (d a b p w k : Nat)
  /-- VSRA: Arithmetic right shift per lane. (R148) -/
  | vsra (d a b p w k : Nat)
  /-- VMOV: Copies an operand's lane word. (R150) -/
  | vmov (d a p w k : Nat)
  /-- VMOV_SCALAR: Broadcasts scalar s0-s127. (R150) -/
  | vmovScalar (d a p w k : Nat)
  /-- VMOV_SCALAR_HIGH: Broadcasts scalar s128-s191. (R150) -/
  | vmovScalarHigh (d a p w k : Nat)
  /-- VLID: Writes lane index plus an operand. (R151) -/
  | vlid (d b p w k : Nat)
  /-- VWIN: Sets the window base from a scalar. (R152) -/
  | vwin (a w k : Nat)
  /-- VWINADD: Adds a scalar to the window base. (R152) -/
  | vwinadd (a w k : Nat)
  /-- VWAIT: Holds the next packet for cycles and counter limits. (R154) -/
  | vwait (c l s : Nat)
  /-- VBEND: Ends the block's issue. (R155) -/
  | vbend
  /-- VRGN: Region marker: holds issue until the block is quiet. (R156) -/
  | vrgn
  /-- PAND: ANDs two predicates. (R157) -/
  | pand (d a b w k : Nat)
  /-- POR: ORs two predicates. (R157) -/
  | por (d a b w k : Nat)
  /-- PXOR: XORs two predicates. (R157) -/
  | pxor (d a b w k : Nat)
  /-- PANDN: pA AND NOT pB. (R157) -/
  | pandn (d a b w k : Nat)
  /-- PBAL: Writes a masked predicate into a scalar. (R157) -/
  | pbal (d a b w k : Nat)
  /-- PSET: Sets a predicate from a scalar. (R157) -/
  | pset (d b s w k : Nat)
  /-- PPOPC: Counts set bits of a masked predicate. (R157) -/
  | ppopc (d a b w k : Nat)
  /-- PFIRST: Index of the lowest set bit, or 32. (R157) -/
  | pfirst (d a b w k : Nat)
  /-- PUSHP: Stages an alley push. (R162) -/
  | pushp (a b s w k : Nat)
  /-- VALU: Typed elementwise arithmetic. (R212) -/
  | valu (d a b o t q v w k : Nat)
  /-- VFMA: Fused multiply-add. (R213) -/
  | vfma (d a b c n t q v w k : Nat)
  /-- VCVT: Type conversion. (R214) -/
  | vcvt (d a c t g r s f q v w k : Nat)
  /-- VCMP: Compares into a predicate. (R158) -/
  | vcmp (d a b c t q v w k : Nat)
  /-- VSEL: Selects lane words by a predicate. (R159) -/
  | vsel (d a b g i q v w k : Nat)
  /-- VSFN: FP32 special function. (R215) -/
  | vsfn (d a f q v w k : Nat)
  /-- VRED: Segmented reduction. (R216) -/
  | vred (d a o g t q v w k : Nat)
  /-- VSCAN: Segmented scan. (R217) -/
  | vscan (d a o x g t q v w k : Nat)
  /-- VSHFL: Cross-lane shuffle. (R160) -/
  | vshfl (d a b m g o q v w k : Nat)
  /-- VPERM: Element permutation by index. (R218) -/
  | vperm (d a b c z t q v w k : Nat)
  /-- VROTM: Misaligned byte span from two rows. (R219) -/
  | vrotm (d a b c z o q v w k : Nat)
  /-- VDOT: Packed dot product with addend. (R223) -/
  | vdot (d a b c t g q v w k : Nat)
  /-- VMXQ: Quantises FP32 lanes into an MX group. (R224) -/
  | vmxq (d a c x f m q v w k : Nat)
  /-- VBIT: Bit-field operations. (R222) -/
  | vbit (d a b c o q v w k : Nat)
  /-- VBCAST: Broadcasts one element. (R220) -/
  | vbcast (d a b z i t q v w k : Nat)
  /-- VGETL: Reads one lane's word into a scalar. (R221) -/
  | vgetl (d a b i q v w k : Nat)
  /-- VLDS: Loads a scratchpad row. (R161) -/
  | vlds (d a i c q v w k : Nat)
  /-- VSTS: Stores a scratchpad row. (R161) -/
  | vsts (a b i c q v w k : Nat)
  /-- VLDG: Gathers elements through a handle. (R161) -/
  | vldg (d a b h t c q v w k : Nat)
  /-- VSTG: Scatters elements through a handle. (R161) -/
  | vstg (a b y h t c q v w k : Nat)
  /-- VLDU: Contiguous global load through a handle. (R161) -/
  | vldu (d a h i c q v w k : Nat)
  /-- VSTU: Contiguous global store through a handle. (R161) -/
  | vstu (a b h i c q v w k : Nat)
  /-- VAMO: Per-lane atomics through a handle. (R225) -/
  | vamo (d a b y h s r o t c q v w k : Nat)
  /-- VLDB: Loads 128 bytes of a typed-buffer row. (R227) -/
  | vldb (d a g z i c q v w k : Nat)
  /-- VSTB: Stores 128 bytes into an AB or CB row. (R227) -/
  | vstb (a b g z i c q v w k : Nat)
  /-- CONDITION_MET: A WAITING context's blocking instruction finds its condition met and retires. (R83) -/
  | conditionMet (p c : Nat)
  /-- WAITM_WAKE: A write to the watched line wakes a sleeping WAITM to reload. (R61) -/
  | waitmWake (p c : Nat)
  /-- WATCHDOG: A WAITM sleep reaching WDOG cycles raises WATCHDOG. (R62) -/
  | watchdog (p c : Nat)
  /-- ENGINE_TRAP: ENGINE is raised at the issuing context's next instruction boundary after a command failed. (R93) -/
  | engineTrap (p c : Nat)
  /-- ICACHE_FILL: An instruction-line fill is installed or cancelled. (R78) -/
  | icacheFill (p i : Nat)
  /-- L1_FILL_RETURN: A data-line fill returns, installing or serving waiters once. (R316) -/
  | l1FillReturn (p i : Nat)
  /-- TRANSLATION_WALK_END: An XLT walk ends, making the handle VALID or FAULTED. (R109) -/
  | translationWalkEnd (p h : Nat)
  /-- HANDLE_REFRESH: A STALE handle's refresh walk ends, validating it or faulting the user. (R114) -/
  | handleRefresh (p h : Nat)
  /-- ATS_INVALIDATION: A translation invalidation request is received and begins clearing TLBs and handles. (R113) -/
  | atsInvalidation (n v l : Nat)
  /-- INVALIDATION_COMPLETE: An invalidation completes once no entry, handle or old access remains, and is reported. (R113) -/
  | invalidationComplete (i : Nat)
  /-- PAGE_PUBLISH: Every L1 writes back and merges the migrating page; RRT entries then move. (R117) -/
  | pagePublish (o n l : Nat)
  /-- COPY_START: A queued copy command whose waits are met starts executing. (R129) -/
  | copyStart (p : Nat)
  /-- COPY_COMPLETE: A copy completes, releasing its writes and making its token DONE. (R126) -/
  | copyComplete (p : Nat)
  /-- COPY_FAILURE: A copy fails during execution, failing its token and writing a snapshot. (R133) -/
  | copyFailure (p : Nat)
  /-- BANK_FORMAT_WRITE: BFSET executes in the copy queue and writes the bank-format register. (R288) -/
  | bankFormatWrite (p : Nat)
  /-- CODEBOOK_WRITE: CBLD executes, reading 2 KiB into a codebook slot. (R289) -/
  | codebookWrite (p : Nat)
  /-- PUTH_ARRIVAL: A PUTH payload is written at the target plaza and a handler is started or queued. (R135) -/
  | puthArrival (p : Nat) (x : Arrival)
  /-- BLOCK_DISPATCH: The oldest eligible block is dispatched onto a free lane group. (R168) -/
  | blockDispatch (p : Nat)
  /-- LANE_RESULT_LANDS: A lane result or ring entry lands within its bound. (R29) -/
  | laneResultLands (p l n : Nat)
  /-- LANE_STORE_PERFORMS: A lane store performs and leaves the store counter. (R167) -/
  | laneStorePerforms (p l n : Nat)
  /-- REGION_MARKER: A waiting VRGN or VAMO marker records the region state once the group is quiet. (R156) -/
  | regionMarker (p l : Nat)
  /-- BLOCK_COMPLETE: A block that issued VBEND completes once results and stores are done. (R155) -/
  | blockComplete (p l : Nat)
  /-- BLOCK_RETIRE: The oldest complete block retires, committing its pushes and freeing its group. (R170) -/
  | blockRetire (p : Nat)
  /-- ALLEY_ENTRY_POPPABLE: A committed alley entry becomes poppable 4 cycles after commit. (R139) -/
  | alleyEntryPoppable (p : Nat)
  /-- FREEZE_SETTLE: Once older blocks retire, the lane-fault record is built and delivered. (R182) -/
  | freezeSettle (p : Nat)
  /-- QDEADLOCK: The deadlock count passes 65,536 and raises QDEADLOCK. (R186) -/
  | qdeadlock (p : Nat)
  /-- NEST_ACTIVATE: The pending nest becomes active when the engine is idle and its waits are met. (R280) -/
  | nestActivate (p : Nat)
  /-- NEST_STAGE_TAKE: A nest iteration takes the FULL stage at cc. (R276) -/
  | nestStageTake (p : Nat)
  /-- NEST_DRAIN: A drain writes the sub-array tiles to CB and swaps planes. (R279) -/
  | nestDrain (p : Nat)
  /-- NEST_COMPLETE: A nest completes, releasing its CB writes. (R281) -/
  | nestComplete (p : Nat)
  /-- SCHEDULE_LOAD: LSCHED executes, checking steps and loading the slot. (R304) -/
  | scheduleLoad (p : Nat)
  /-- SCHEDULE_START: LGO executes and starts a schedule at S. (R306) -/
  | scheduleStart (p : Nat)
  /-- SCHEDULE_STEP: A schedule step runs when due and ready. (R305) -/
  | scheduleStep (d n : Nat)
  /-- PAUSE: A step not ready when due raises a pause that delays later steps by Tp. (R306) -/
  | pause (d n t g : Nat)
  /-- SCHEDULE_COMPLETE: The last step writes and the schedule's token completes. (R306) -/
  | scheduleComplete (d n : Nat)
  /-- SWEEPER_WRITEBACK: A dirty line reaching SWEEPAGE is written back and becomes clean. (R311) -/
  | sweeperWriteback (p k n : Nat)
  /-- PUBLISH_REQUEST: A plaza receives Publish(s) and acknowledges or starts a publish. (R329) -/
  | publishRequest (p n : Nat) (x : Requester)
  /-- PUBLISH_COMPLETE: A publish completes once all writebacks and notices are acknowledged. (R329) -/
  | publishComplete (p : Nat)
  /-- PUBLISH_ACKNOWLEDGEMENT: A home receives a publish acknowledgement, dropping an entry or ending an acquire's wait. (R327) -/
  | publishAcknowledgement (g n f : Nat) (x : Requester)
  /-- KG_NOTICE: A view-block home receives a KG notice and raises its known generation. (R341) -/
  | kgNotice (i : Nat)
  /-- VIEW_DERIVATION: A view engine snapshots a master block and derives each live view. (R344) -/
  | viewDerivation (e : Nat)
  /-- VIEW_BLOCK_WRITE: Once no pin is held, the engine replaces a view block whole. (R346) -/
  | viewBlockWrite (e : Nat)
  /-- DELAYED_READ_RECHECK: A delayed view read is checked again when a derivation lands. (R348) -/
  | delayedReadRecheck (p : Nat) (x : Reader)
  /-- LAUNCH_ACCEPT: The Job Placer accepts a launch, assigns a job id and queues it. (R235) -/
  | launchAccept
  /-- JOB_PLACE: The Job Placer places the head job's owed placements on free plazas. (R241) -/
  | jobPlace
  /-- AGING: A launch waiting AGESTEP moves up one priority level. (R237) -/
  | aging
  /-- SAVE_COMPLETE: A pre-empted placement's save completes; its plaza frees and it is owed. (R338) -/
  | saveComplete (p : Nat)
  /-- PLACEMENT_START: A placement starts: L1 segments move, scratchpad zeroed, contexts started. (R231) -/
  | placementStart (p : Nat)
  /-- PLACEMENT_RESUME: A pre-empted placement is restored on a plaza and redelivers its records. (R247) -/
  | placementResume (p : Nat)
  /-- PLACEMENT_END: A placement ends when all its work is done and its plaza frees. (R248) -/
  | placementEnd (p : Nat)
  /-- READ_REQUEST: A remote read request flit is performed at the home. (R353) -/
  | readRequest (f : Flit)
  /-- READ_DATA: Read data returns to the requester. (R353) -/
  | readData (f : Flit)
  /-- REMOTE_WRITE: A write flit performs at the home. (R353) -/
  | remoteWrite (f : Flit)
  /-- REMOTE_ATOMIC: An atomic flit performs at the home. (R353) -/
  | remoteAtomic (f : Flit)
  /-- ATOMIC_RESPONSE: An atomic response returns to the requester. (R353) -/
  | atomicResponse (f : Flit)
  /-- COPY_DATA: A copy data flit is written at its destination. (R353) -/
  | copyData (f : Flit)
  /-- SCHEDULE_DATA: Schedule data arrives and is held by step index. (R305) -/
  | scheduleData (d n i : Nat) (x : List Byte)
  /-- CREDIT: A credit flit returns link flow-control credit. (R353) -/
  | credit (l v n : Nat)
  /-- TIMEBASE_EXCHANGE: A timebase exchange flit locks or slews the domain timebase. (R356) -/
  | timebaseExchange (t : Nat)
  /-- LINK_DOWN: A link that cannot deliver for 1 us goes down and traffic reroutes. (R355) -/
  | linkDown (l : Nat)
  /-- PATH_TIMEOUT: An access with no path 1 ms after issue fails as LINKDOWN. (R355) -/
  | pathTimeout (i : Nat)
  /-- LINK_REKEY: A link stops and is rekeyed before its counter reaches 2^48. (R354) -/
  | linkRekey (l : Nat)
  /-- BAR2_READ: A host read through BAR2 performs at the home, acting as an acquire where an RRT entry exists. (R361) -/
  | bar2Read (h o n : Nat)
  /-- BAR2_WRITE: A host write through BAR2 performs at the home. (R361) -/
  | bar2Write (h o : Nat) (x : List Byte)
  /-- PARTMODE_WRITE: Sets the partition mode, ignored while any job runs. (R363) -/
  | partmodeWrite (h v : Nat)
  /-- TAKEOVER: The standby host requests takeover, honoured after 10 ms of primary link loss. (R364) -/
  | takeover (h v : Nat)
  /-- INVQTAIL_WRITE: Posting invalidation queue entries starts their processing. (R360) -/
  | invqtailWrite (x : HostWrite)
  /-- DIEPWR_WRITE: Requests a die power state, applied or ignored per the rules. (R368) -/
  | diepwrWrite (d : Nat) (x : HostWrite)
  /-- DIE_POWER_ON_COMPLETE: A die's return to ON completes and its dispatcher restarts. (R368) -/
  | diePowerOnComplete (d : Nat)
  /-- PASIDBIND: Binds a PASID to a key slot. (R373) -/
  | pasidbind (x : HostWrite)
  /-- KEY_LOAD: An SPDM session loads or erases a tenant key slot. (R373) -/
  | keyLoad (n f m : Nat)
  /-- JOURNALCLR: Marks every start-journal entry absent. (R372) -/
  | journalclr (x : HostWrite)
  /-- ALARMACK: Acknowledges an alarm so key slots can be loaded again. (R375) -/
  | alarmack (x : HostWrite)
  /-- REGISTER_WRITE: A write to a management register without behaviour of its own. (R360) -/
  | registerWrite (h o : Nat) (x : List Byte)
  /-- SECOND_TIER_PORT_DOWN: A second-tier port goes down and its window's accesses fail as LINKDOWN. (R366) -/
  | secondTierPortDown (n : Nat)
  /-- POWER_HOLD: The 1 ms power average above 6,000 W holds issue one cycle in four. (R367) -/
  | powerHold (n : Nat)
  /-- POWER_REMOVAL: Module power is removed and everything stops. (R369) -/
  | powerRemoval
  /-- START_UP: Start-up runs its seven journalled steps. (R370) -/
  | startUp (x : StartUp)
  /-- SECURITY_ALARM: An alarm erases keys, halts the module and records a fuse entry. (R375) -/
  | securityAlarm (n : Nat)
  /-- JWAIT_TIMEOUT: A JWAIT whose timeout of E x 1,024 cycles runs out before the job ends writes g[rd] := 0 and retires. (R145) -/
  | jwaitTimeout (p c : Nat)
  /-- UNCORRECTABLE_ERROR: An uncorrectable error in an L1, the L2 or near memory poisons its 64-byte unit. (R315) -/
  | uncorrectableError (n : Nat)
  /-- HOST_PORT_LINK_DOWN: A host port's link goes down, starting the 10 ms that TAKEOVER requires of the primary. (R364) -/
  | hostPortLinkDown (h : Nat)
  /-- PLAZA_RESTART: The host restarts, through the management window, a plaza stopped by a supervisor fault. (R90) -/
  | plazaRestart (p : Nat)
  /-- WRITEBACK_ACKNOWLEDGEMENT: The home acknowledges a writeback, letting DCWB or DCINV retire and a placement start's step 1 or a page publish end. (R74) -/
  | writebackAcknowledgement (p c : Nat)
  /-- CXL_HOST_ACCESS: A host reads or writes device memory over CXL.cache, performing at the home, acting as an acquire at D on an RRT unit and advancing generations. (R330) -/
  | cxlHostAccess (h a n : Nat) (x : List Byte)
  deriving DecidableEq, Repr

end Sys2Proof
end

