-- ==== Sys2Proof/Machine/State.lean ====
section
/-! DEFINITION. The state of one module of the domain, and the state before start-up. Plain data; the rules that name each
piece are cited at its field, and INVENTORY.md lists them with their reset values. -/
namespace Sys2Proof.Machine

/-- The trap causes (R92). -/
inductive Cause where
  | illegal | privileged | misaligned | page | fetch | protect | hbounds | hunmapped | bankconflict | tokenfailed
  | engine | viewstale | viewpoison | qdeadlock | memerr | trapinsn | breakpoint | ringstate | nestinvalid | linkdown | watchdog
  deriving DecidableEq, Repr

/-- What kind of agent's instruction is running (R319): a control context, a lane group (or half), or a unit of the device. -/
inductive Agent where
  | device
  | control (p c : Nat)
  | lane (p l : Nat)
  deriving DecidableEq, Repr

/-- The states of a control context (R83). -/
inductive CtxState where
  | dormant | running | waiting | trapped | ended
  deriving DecidableEq, Repr

/-- A hardware loop level (R49). -/
structure Level where
  active    : Bool
  first     : Word
  last      : Word
  remaining : Nat
  mode      : Nat
  param     : Nat
  iteration : Nat
  deriving DecidableEq, Repr

/-- A trap record, field by field (R91), with the cycle of its trap, which orders the traps of one cycle (R89). -/
structure Record where
  cause   : Cause
  async   : Bool
  ctx     : Nat
  module  : Nat
  plaza   : Nat
  job     : Nat
  index   : Nat
  seq     : Nat
  pc      : Word
  faddr   : Word
  pc2     : Word
  avtail  : Nat
  avhead  : Nat
  altail  : Nat
  alhead  : Nat
  lanes   : W32
  hvalid  : Bool
  hnum    : Nat
  token   : Nat
  handle  : Word
  va      : Word
  snap    : Word
  detail  : Nat
  lgroup  : Nat
  engine  : Nat
  paddr   : Nat
  time    : Nat
  cycle   : Nat
  deriving DecidableEq, Repr

/-- An acquire at K or D, or another access, that has performed at the home and waits before it retires (R328, R353): the
value it returns, the release it read (plaza, seq), and whether the publish it waits for was acknowledged or failed. -/
structure Acquire where
  value    : Word
  plaza    : Nat
  seq      : Nat
  selfRel  : Bool
  done     : Bool
  failed   : Bool
  deriving DecidableEq, Repr

/-- A read delayed at a view block (R348): view id, block, the KG it first saw, the policy then in force; once the view is dropped, the
pieces of the block at their homes, the bytes as they then stood, and the poisoned units among them (R298, R315). -/
structure Delay where
  view   : Nat
  block  : Nat
  kg     : Nat
  policy : Nat
  pieces : List (Nat × Nat)
  kept   : List Host.Cell
  bad    : List Nat
  deriving DecidableEq, Repr

/-- An arrival of a JBAR (R302, R307): on which plaza, how many publishes that plaza had begun, and the mask it named. -/
structure Arrived where
  plaza : Nat
  seq   : Nat
  mask  : Nat
  deriving DecidableEq, Repr

/-- A control context (R24, R49, R69, R83, R302). `arrLog` holds its JBAR arrivals in order, that of episode n at place n; `sync` holds a VIEWSYNC's T(b) once its publish is done (R301). `sleep` is the line on which a WAITM at
scope P sleeps (R61); `asked` holds the instruction lines that a fetch has asked for ahead of their line access, each with whether it was valid
then; `counting` says that the instruction now running was counted as a line access, a hit or a miss, which is taken back if it does not retire
(R70); `ending` is the exit status of a
halt that has come while its instruction was in progress (R95). -/
structure Ctx where
  g          : Tab Word
  pc         : Word
  prev       : Word
  state      : CtxState
  wait       : Option Instr
  since      : Nat
  levels     : Tab Level
  ras        : List Word
  insret     : Word
  ichit      : Word
  icmiss     : Word
  wdog       : Word
  lineAccess : Bool
  exitStatus : Option W32
  halted     : Bool
  restart    : Option Word
  sleep      : Option Nat
  asked      : List (Nat × Bool)
  counting   : Option Bool
  ending     : Option W32
  arrivals   : Nat
  arrived    : Bool
  arrLog     : List Arrived
  sync       : List Nat
  acq        : Option Acquire
  delays     : List Delay
  w0         : Nat
  w1         : Nat
  deriving DecidableEq, Repr

/-- The states of a handle (R107). -/
inductive HandleState where
  | empty | pending | valid | stale | faulted
  deriving DecidableEq, Repr

/-- A handle register: its value (R106), the source VA and requested permissions, whether the page is plaza-private (R103), the context of the latest XLT, and the
user whose refresh walk is in flight (R114): a lane group with its lanes and offset, or an engine command's number with its offset; once a
lane group's walk has failed, the cause that its instruction raises. -/
structure Handle where
  st    : HandleState
  value : Word
  va    : Word
  perms : Nat
  priv  : Bool
  owner : Nat
  user  : Option (Option Nat × Nat × Nat)
  fail  : Option Cause
  deriving DecidableEq, Repr

/-- The states of a token (R123). -/
inductive TokState where
  | free | outstanding | done | failed
  deriving DecidableEq, Repr

/-- A token and the command that produces it (R123, R124). -/
structure Token where
  st       : TokState
  producer : Nat
  deriving DecidableEq, Repr

/-- A wait on the producer a token had at issue (R124). -/
inductive Wait where
  | met | failed
  | on (producer : Nat)
  deriving DecidableEq, Repr

/-- The states of a block (R174); a SPENT block may still be running. -/
inductive BlockState where
  | queued | running | complete | faulted | spentRunning | spentComplete | cancelled
  deriving DecidableEq, Repr

/-- A staged push or an alley entry's contents (R139, R162). -/
structure Push where
  mask   : W32
  scalar : W32
  deriving DecidableEq, Repr

/-- A block of the avenue (R136, R174); `readyAt` is the first cycle in which it may be dispatched (R168). -/
structure Block where
  seq     : Nat
  entry   : Nat
  trip    : Nat
  mask    : W32
  window  : Nat
  op0     : W32
  op1     : W32
  op2     : W32
  op3     : W32
  wait    : Wait
  ordered : Bool
  nonidem : Bool
  emitter : Nat
  st      : BlockState
  lane    : Option Nat
  pushes  : List Push
  readyAt : Nat
  deriving DecidableEq, Repr

/-- An alley entry (R139). -/
structure AlleyEntry where
  mask      : W32
  scalar    : W32
  seq       : Nat
  committed : Nat
  poppable  : Bool
  deriving DecidableEq, Repr

/-- A lane register destination fixed at issue (R32): a CB row or none, a ring entry, a predicate or a scalar. -/
inductive Dest where
  | row (r : Nat)
  | pred (n : Nat)
  | scalar (n : Nat)
  | none
  deriving DecidableEq, Repr

/-- A lane result issued and not yet readable (R29-R32, R153). `ring` is the ring entry's number, 0 for none; `mask` the lane
words it writes; `clash` the words left undefined by another result to the same destination; `landed` once it has landed. A
result for a predicate or scalar stands in word 0 of its data. -/
structure Result where
  id      : Nat
  at_     : Nat
  bound   : Nat
  counted : Bool
  dest    : Dest
  ring    : Nat
  data    : Row
  mask    : W32
  clash   : W32
  landed  : Bool
  deriving DecidableEq, Repr

/-- A lane group's entry of the operand ring (R31): its number, contents and whether they were ever written. -/
structure RingEntry where
  id      : Nat
  data    : Row
  written : Bool
  deriving DecidableEq, Repr

/-- Where a lane store goes (R161, R227): memory, the scratchpad, AB or CB. -/
inductive StoreSpace where
  | mem | scratch | ab | cb
  deriving DecidableEq, Repr

/-- A lane store issued and not yet performed (R153, R167): its class and its parts, (place, size, value): a home key, or
row × row size + offset. -/
structure LaneStore where
  id    : Nat
  cls   : Nat
  space : StoreSpace
  parts : List (Nat × Nat × Nat)
  priv  : Bool
  deriving DecidableEq, Repr

/-- What a region marker records (R156, R181). -/
structure Marker where
  pc     : Word
  s      : Tab W32
  p      : Tab W32
  window : Nat
  levels : Tab Level
  pushes : List Push
  amo    : W32
  deriving DecidableEq, Repr

/-- What a VAMO in progress has done (R225, R226): the lanes performed since its (re)start with their old values, the releases
(plaza, seq) whose publish its acquire still needs, whether the acquire invalidates, and from its issue on the accesses of its lanes as their checks
gave them: lane, offset, home key, private (R108). -/
structure VamoWork where
  mask  : W32
  olds  : Row
  pubs  : List (Nat × Nat)
  inval : Bool
  held  : Option (List (Nat × Nat × Nat × Bool))
  deriving DecidableEq, Repr

/-- A lane group, or a half of one in a W16 kernel (R172, R258). `window` is the base in issue order, `oldWindow` the one before
the VWIN of cycle `windowAt`, and `base` the one the packet being issued resolves its v registers with (R152); `dispatched` is the cycle of dispatch (R179), `freeAt` the first cycle in which a free group may
take a block (R175). -/
structure Lane where
  busy       : Bool
  seq        : Nat
  pc         : Word
  s          : Tab W32
  p          : Tab W32
  window     : Nat
  oldWindow  : Nat
  windowAt   : Nat
  windowPick : Nat
  base       : Nat
  ring       : List RingEntry
  levels     : Tab Level
  results    : List Result
  stores     : List LaneStore
  nextAt     : Nat
  packetWait : Nat
  loadLimit  : Nat
  storeLimit : Nat
  fence      : Nat
  marking    : Bool
  ended      : Bool
  stopped    : Bool
  draining   : Bool
  marker     : Marker
  pushes     : List Push
  amo        : W32
  dispatched : Nat
  freeAt     : Nat
  delays     : List Delay
  acq        : Option Acquire
  vamo       : VamoWork
  deriving DecidableEq, Repr

/-- A freeze of the avenue (R182): the faulting block, its trap as built so far, and whether it has settled. -/
structure Freeze where
  seq     : Nat
  record  : Record
  settled : Bool
  deriving DecidableEq, Repr

/-- A write by a unit of the device that has met a migrating page and waits (R117): the plaza whose TLB it uses, address space, address,
bytes, and whether it appends a record to the fault queue at that address (R96). -/
structure HeldWrite where
  plaza  : Nat
  pasid  : Nat
  va     : Word
  bytes  : List Byte
  append : Bool
  deriving DecidableEq, Repr

/-- How an engine command fails (R133): the cause, the VA, the handle it used and the physical address of a MEMERR. -/
structure Failure where
  cause  : Cause
  faddr  : Word
  hvalid : Bool
  hnum   : Nat
  handle : Word
  va     : Word
  paddr  : Nat
  deriving DecidableEq, Repr

/-- A row of WB or AB, or the bytes of it that hold a run's scales, that an engine has still to write (R266, R270). -/
structure RowWrite where
  wb    : Bool
  row   : Nat
  scale : Bool
  bytes : List Byte
  deriving DecidableEq, Repr

/-- An engine command (R128) with its waits (R124) and, once it executes, how far it has come: units moved in order and
beyond, the ring stage it fills, the view reads it is delayed on and the view blocks it has pinned, how it failed, the handles as it read
them (R108), and the rows of its latest units, first and how many, that are still to be written one by one (R266). -/
structure Cmd where
  id        : Nat
  major     : Nat
  shape     : BitVec 512
  opa       : Word
  opb       : Word
  e         : Nat
  arg       : Nat
  pc        : Word
  job       : Nat
  index     : Nat
  ctx       : Nat
  tok       : Nat
  waits     : List Wait
  started   : Bool
  next      : Nat
  beyond    : List Nat
  stage     : Option (Nat × Nat)
  fail      : Option Failure
  delays    : List Delay
  pinned    : List (Nat × Nat)
  sent      : Bool
  held      : List (Nat × Handle)
  todo      : List RowWrite
  batch     : Nat × Nat
  flying    : Bool
  got       : List (Nat × Nat × List Byte)
  reread    : Bool
  deriving DecidableEq, Repr

/-- The states of a ring stage (R273). -/
inductive StageState where
  | empty | filling | full | draining
  deriving DecidableEq, Repr

/-- A ring (R272): descriptor, cursors, stage states. -/
structure Ring where
  desc   : Word
  pc     : Nat
  cc     : Nat
  stages : List StageState
  deriving DecidableEq, Repr

/-- A level of a nest (R275, R283). -/
structure NestLevel where
  count : Nat
  sa    : Int
  sb    : Int
  sc    : Int
  k     : Bool
  drain : Bool
  adva  : Bool
  advb  : Bool
  deriving DecidableEq, Repr

/-- A nest (R275): six levels, bases and rings, control. -/
structure Nest where
  levels : List NestLevel
  abase  : Nat
  bbase  : Nat
  cbase  : Nat
  ringa  : Nat
  ringb  : Nat
  mode   : Nat
  out    : Nat
  add    : Bool
  sa     : Int
  sb     : Int
  sc     : Int
  deriving DecidableEq, Repr

/-- Where a running nest stands (R276, R281): at the start of a step, in it, waiting for the planes to swap, at its end, or discarded while a drain
goes on. -/
inductive NestPhase where
  | take | step | swap | finished | discarded
  deriving DecidableEq, Repr

/-- A row that a step reads (R266, R274, R276): of WB or AB, by the stream with that offset, which of its rows, and whether it is the row of the
scales. -/
structure RowRead where
  wb     : Bool
  stream : Nat
  row    : Nat
  scales : Bool
  deriving DecidableEq, Repr
/-- A row read by a step: the payload row's number, its bank's register at the read, and the bytes. -/
structure RowGot where
  read  : RowRead
  at_   : Nat
  reg   : Nat
  bytes : List Byte
  deriving DecidableEq, Repr

/-- The plane that drains (R274, R279): the tuple that ended, its sums, the sub-array being written and the rows of its tile that are left. -/
structure Drain where
  idx     : List Nat
  acc     : List (List (List W32))
  spoiled : List Bool
  sub     : Nat
  rows    : List Nat
  deriving DecidableEq, Repr

/-- The active nest (R274, R276): its table and command, indices, held stages, the k values per row fixed by MGO, the accumulating plane by
sub-array, m and n (FP32 bits or an I32), the sub-arrays whose outputs are spoiled, the rows its step has still to read and those read, and the
plane that drains. -/
structure Active where
  nest    : Nest
  cmd     : Cmd
  idx     : List Nat
  phase   : NestPhase
  stageA  : Option Nat
  stageB  : Option Nat
  kprA    : Nat
  kprB    : Nat
  acc     : List (List (List W32))
  spoiled : List Bool
  todo    : List RowRead
  got     : List RowGot
  drain   : Option Drain
  drains  : Nat
  deriving DecidableEq, Repr

/-- An entry of the kernel's block table (R252). -/
structure BlockEntry where
  entry   : Word
  nonidem : Bool
  ordered : Bool
  deriving DecidableEq, Repr

/-- A row of CB that a VSTB of a lane group has written in a cycle: what it held before, and the words written (R180, R228). -/
structure Torn where
  row   : Nat
  lane  : Nat
  cycle : Nat
  old   : Row
  words : W32
  deriving DecidableEq, Repr

/-- A placement: everything saved and restored with it (R242-R247), but the buffers. `qmoved` says that a pop, an append, a dispatch or a retirement took place in this cycle (R186); `pipes` holds each pipe's current lane group
and the cycle after its last issue (R179), `dispatchAt` the first cycle that may dispatch again (R175). -/
structure Place where
  job       : Nat
  index     : Nat
  pasid     : Nat
  argva     : Word
  ckptwa    : Word
  scrsize   : Nat
  faultq    : Word
  viewflags : Bool
  features  : W32
  w16       : Bool
  groups    : Nat
  gang      : Bool
  table     : List BlockEntry
  ctx       : Tab Ctx
  handles   : Tab Handle
  shapes    : Tab (BitVec 512)
  tokens    : Tab Token
  avtail    : Nat
  blocks    : List Block
  alley     : List AlleyEntry
  altail    : Nat
  alhead    : Nat
  qdead     : Nat
  qmoved    : Bool
  freeze    : Option Freeze
  copyQ     : List Cmd
  linkQ     : List Cmd
  async     : List Record
  records   : List Record
  refused   : List Record
  rings     : Tab Ring
  wbf       : Tab W32
  abf       : Tab W32
  rowUse    : Tab Nat
  cbk       : Tab (BitVec 64)
  shadow    : Nest
  pendingN  : Option (Nest × Cmd)
  active    : Option Active
  arrivals  : List Arrival
  lanes     : Tab Lane
  pipes     : Tab (Nat × Nat)
  dispatchAt : Nat
  halted    : Bool
  haltAt    : Nat
  haltCtx   : Nat
  deriving DecidableEq, Repr

/-- Whether a placement is on the plaza: none, assigned and not started (R231), resuming (R247), or resident. -/
inductive Residency where
  | free | starting | resuming | resident
  deriving DecidableEq, Repr

/-- A line of the instruction cache (R85): address space, virtual line number, its 64 bytes, whether that unit is
poisoned (R315), the location it was read from (R91), order of last use. -/
structure ILine where
  pasid : Nat
  line  : Nat
  data  : BitVec 512
  bad   : Bool
  home  : Nat
  used  : Nat
  deriving DecidableEq, Repr

/-- An addition held in an update-only line (R65): byte offset in the line, whether 8 bytes wide, whether FP32, the sum. -/
structure Update where
  off   : Nat
  wide  : Bool
  fp    : Bool
  value : Word
  deriving DecidableEq, Repr

/-- A line of an L1 (R230, R309-R311) or an update-only line (R65): home line number, way (lanes' L1), bytes held, dirty
bytes, data, poisoned 64-byte units, plaza-private page, cycle it went dirty, order of last use. -/
structure Line where
  key     : Nat
  way     : Nat
  held    : BitVec 128
  dirty   : BitVec 128
  data    : Row
  poison  : BitVec 2
  priv    : Bool
  dirtyAt : Nat
  used    : Nat
  upd     : Bool
  sums    : List Update
  deriving DecidableEq, Repr

/-- A data fill in flight (R72, R316): home line, whether its page is private, and whether an invalidation cancelled it. -/
structure Fill where
  key       : Nat
  priv      : Bool
  cancelled : Bool
  deriving DecidableEq, Repr

/-- An instruction fill in flight since a cycle, of the location its address had then (R72, R73, R78). -/
structure IFill where
  pasid     : Nat
  line      : Nat
  key       : Nat
  since     : Nat
  cancelled : Bool
  deriving DecidableEq, Repr

/-- A translation (R103, R106): module field, page base, page size in bytes, permissions, page attributes. -/
structure Trans where
  mod    : Nat
  base   : Nat
  size   : Nat
  read   : Bool
  write  : Bool
  atomic : Bool
  exec   : Bool
  master : Bool
  priv   : Bool
  deriving DecidableEq, Repr

/-- A TLB entry (R105): address space, first virtual address of the page, translation. -/
structure TlbEntry where
  pasid : Nat
  va    : Nat
  trans : Trans
  deriving DecidableEq, Repr

/-- A publish in progress (R329): its number, who waits for it, whether some home could not be reached, and whether lines of pages that move are
still to be written, to their new frames (R334). -/
structure Publish where
  number  : Nat
  waiting : List (Nat × Requester)
  failed  : Bool
  held    : Bool
  deriving DecidableEq, Repr

/-- A plaza (R2): its supervisor context, caches, buffers and the placement on it; `sweepAt` is the cycle in which SWEEPAGE last took another value (R311), `startAt` lies 16 cycles after the first in which
that may begin step 1 of R231 (R242), or after the one in which it did; `begun` says that it has, and from which cycle the zeroing of step 3
counts; `torn` holds the rows of CB that VSTBs have written in this cycle (R180), `wakeAt` lies one cycle after that of the last WAKE of a handler (R98), `freeAt` is the first in which it is free again (R248), `await` the publish its start, resume or end waits for. -/
structure Plaza where
  ctx5     : Ctx
  roles    : Word
  sweepage : Word
  sweepAt  : Nat
  trapvec  : Word
  trapslot : Word
  svepc    : Word
  icache   : List ILine
  ifills   : List IFill
  tlb      : List TlbEntry
  l1d      : List Line
  l1v      : List Line
  fills    : List Fill
  pubBegun : Nat
  pubDone  : Nat
  publish  : Option Publish
  pubQueue : List (Nat × Requester)
  segments : Nat
  open_    : Option Record
  pending  : List Record
  snaps    : List (Nat × Word)
  snapNext : Nat
  stopped  : Bool
  tenant   : Option (Nat × Nat)
  wb       : Tab BufRow
  ab       : Tab BufRow
  cb       : Tab Row
  torn     : List Torn
  scratch  : Tab Row
  res      : Residency
  place    : Place
  preempt  : Bool
  wakeDue  : Bool
  wakeAt   : Nat
  startAt  : Nat
  begun    : Option Nat
  freeAt   : Nat
  await    : Option Acquire
  deriving DecidableEq, Repr

/-- An entry of a Release Record Table (R326, R327). -/
structure RrtEntry where
  word        : Nat
  plaza       : Nat
  scope       : Nat
  seq         : Nat
  age         : Nat
  unreachable : Bool
  deriving DecidableEq, Repr

/-- A registered master (R294, R339): its fields, its pages as (virtual address, home key, size), its block generations. -/
structure Master where
  pasid  : Nat
  mva    : Nat
  rows   : Nat
  cols   : Nat
  stride : Nat
  fmt    : Nat
  pages  : List (Nat × Nat × Nat)
  gens   : Tab Nat
  deriving DecidableEq, Repr

/-- One view block's state at its home (R341, R346, R349). -/
structure ViewBlock where
  kg     : Nat
  tag    : Nat
  never  : Bool
  poison : Bool
  pins   : Nat
  deriving DecidableEq, Repr

/-- A live view (R295-R299): its fields, the virtual address of its status word, its pages as (virtual address, home key, size). -/
structure View where
  id     : Nat
  pasid  : Nat
  mva    : Nat
  bases  : List Nat
  cbva   : Nat
  br     : Nat
  bc     : Nat
  policy : Nat
  axis   : Nat
  layout : Nat
  tfmt   : Nat
  fq     : Word
  status : Nat
  job    : Option Nat
  pages  : List (Nat × Nat × Nat)
  blocks : Tab ViewBlock
  deriving DecidableEq, Repr

/-- A derivation in progress (R344): the block, the snapshot's generation and the elements, the views still to write. -/
structure Derivation where
  pasid : Nat
  mva   : Nat
  block : Nat
  gen   : Nat
  elems : List W32
  bad   : Option (Nat × Nat)
  views : List Nat
  deriving DecidableEq, Repr

/-- A view engine (R343): its FIFO of (PASID, master, block) and the derivation in progress. -/
structure ViewEngine where
  fifo : List (Nat × Nat × Nat)
  work : Option Derivation
  deriving DecidableEq, Repr

/-- A KG notice on its way (R341): view id, block, generation, the plaza here whose write caused it; the request under which it has gone to a
view-block home on another module; and the module, tag and answer of another module's write or notice that waits for it. -/
structure Notice where
  view  : Nat
  block : Nat
  gen   : Nat
  plaza : Option Nat
  tag   : Option Nat
  asker : Option (Nat × Nat × List Byte)
  deriving DecidableEq, Repr

/-- The launch a job was accepted with (R144, R252, R255): `plaza` and `seq` the launching plaza and the publishes it had begun (R143), `data`
a portable image's data sections, `code` the address, frame and length of its finished text (R257), `sites` the addresses of the selected
variant's CKPT sites, `record` the launch record (R260). -/
structure Launch where
  pasid    : Nat
  argva    : Word
  donewa   : Word
  diemask  : Nat
  preempt  : Bool
  gang     : Bool
  prio     : Nat
  scratch  : Nat
  ckptva   : Word
  extents  : List Nat
  kinds    : List Nat
  features : W32
  w16      : Bool
  groups   : Nat
  roles    : List (Option Word)
  table    : List BlockEntry
  rings    : List (Nat × Word)
  never    : Bool
  plaza    : Nat
  seq      : Nat
  data     : List Byte
  code     : Option (Word × Nat × Nat)
  sites    : List Word
  record   : List Byte
  deriving DecidableEq, Repr

/-- The states of a job (R238). -/
inductive JobState where
  | queued | running | requeued
  deriving DecidableEq, Repr

/-- A pre-empted placement in its save slot (R246), the plaza it left and the publishes that plaza had begun. -/
structure Saved where
  place   : Place
  wb      : Tab BufRow
  ab      : Tab BufRow
  cb      : Tab Row
  scratch : Tab Row
  plaza   : Nat
  seq     : Nat
  deriving DecidableEq, Repr

/-- The JBAR arrivals that a role context of an ended placement has left (R302): placement, context, count, and each
arrival. -/
structure Left where
  index : Nat
  ctx   : Nat
  count : Nat
  log   : List Arrived
  deriving DecidableEq, Repr

/-- What a placement keeps when its job restarts on another revision (R188, R260): its index, checkpoint word and counters, and for contexts
0-2 the index of the last CKPT site retired. -/
structure Restart where
  index  : Nat
  word   : Word
  avtail : Nat
  altail : Nat
  alhead : Nat
  qdead  : Nat
  sites  : List (Option Nat)
  deriving DecidableEq, Repr

/-- A job that the device runtime moves to this module, on plaza `plaza` of which it runs (R260): its id, address space and launch record, how
far it had come, and its placements that had started and not ended. -/
structure Move where
  id       : Nat
  plaza    : Nat
  pasid    : Nat
  record   : List Byte
  first    : Nat
  ended    : Nat
  ends     : List Nat
  left     : List Left
  halt     : Option (Nat × Nat × W32)
  restarts : List Restart
  deriving DecidableEq, Repr

/-- A job that has not ended (R238, R241, R242). `first` is the index of the first placement never started; `saves` its
pre-empted placements; `restarts` those it owes anew (R260); `left` the barrier arrivals of those that have ended; `ends` the plazas on which its placements ended; `halt` the first halt's exit status. -/
structure Job where
  id     : Nat
  launch : Launch
  st     : JobState
  total  : Nat
  first  : Nat
  saves  : List Saved
  restarts : List Restart
  left   : List Left
  ended  : Nat
  ends   : List Nat
  halt   : Option (Nat × Nat × W32)
  level  : Nat
  since  : Nat
  prio   : Nat
  slots  : Nat
  deriving DecidableEq, Repr

/-- A launch record that LAUNCH has read and checked and the Job Placer has not yet accepted (R143, R235). -/
structure Request where
  plaza  : Nat
  ctx    : Nat
  at_    : Nat
  launch : Launch
  total  : Nat
  deriving DecidableEq, Repr

/-- A completion kept for JWAIT (R145): the job, its completion value, the plazas its placements ended on, and the release of the last end:
its plaza and the publishes that had begun (R328). -/
structure Completion where
  job   : Nat
  value : Word
  ends  : List Nat
  plaza : Nat
  seq   : Nat
  deriving DecidableEq, Repr

/-- A rewriter cache entry (R257): key slot and generation, object bytes, variant index; the finished text's address, frame and length. -/
structure Rewrite where
  slot    : Nat
  gen     : Nat
  object  : List Byte
  variant : Nat
  va      : Word
  frame   : Nat
  len     : Nat
  deriving DecidableEq, Repr

/-- A mapping of code memory or of a portable image's data copy in a job's PASID (R257): execute-only text, or read-write data. -/
structure CodeMap where
  job   : Nat
  pasid : Nat
  va    : Nat
  frame : Nat
  len   : Nat
  text  : Bool
  deriving DecidableEq, Repr

/-- The Job Placer (R234-R249). -/
structure Placer where
  agestep   : Nat
  savebase  : Nat
  saveslots : Nat
  spillbase : Nat
  spillcap  : Nat
  disparea  : Tab Nat
  nextId    : Nat
  requests  : List Request
  jobs      : List Job
  fifo      : List Nat
  completed : List Completion
  rewrites  : List Rewrite
  codeMaps  : List CodeMap
  codeCount : Nat
  deriving DecidableEq, Repr

/-- An access to another module that waits for its response (R353, R355): its tag, who asked, what it carried, the response once it
came, whether an invalidation of its line has cancelled the install (R316), and the time in ns at which it was issued. Kind 0 is a release that
waits for room in a Release Record Table (R327); a writeback is asked by its plaza. -/
structure Remote where
  tag       : Nat
  who       : Requester
  kind      : Nat
  addr      : Nat
  size      : Nat
  data      : List Byte
  reply     : Option (List Byte)
  failed    : Bool
  cancelled : Bool
  since     : Nat
  deriving DecidableEq, Repr

/-- A Umaem link (R352-R355, R360). -/
structure Link where
  up      : Bool
  counter : Nat
  dropped : Nat
  failed  : Nat
  keygen  : Nat
  credit  : Nat
  deriving DecidableEq, Repr

/-- A step of a link schedule (R304). -/
structure SchedStep where
  tslot : Nat
  op    : Nat
  port  : Nat
  tok   : Nat
  aux   : Nat
  sh    : Nat
  soff  : Nat
  dh    : Nat
  doff  : Nat
  count : Nat
  sfmt  : Nat
  wfmt  : Nat
  dfmt  : Nat
  deriving DecidableEq, Repr

/-- A schedule slot of a die's link engine (R304-R306): the job and placement that loaded it, its steps and period; while it runs the
plaza of that placement, the start time, the next step, the pauses by time with the step of its own that raised it, the plaza and
number of the command whose token it completes; the data that has arrived by step index, what the next step has computed and not
yet written, and how the schedule failed. -/
structure Slot where
  job     : Option Nat
  index   : Nat
  plaza   : Nat
  steps   : List SchedStep
  period  : Nat
  running : Bool
  start   : Nat
  next    : Nat
  pauses  : List (Nat × Option Nat)
  cmd     : Option (Nat × Nat)
  data    : Tab (List Byte)
  result  : Option (List Byte)
  fail    : Option Failure
  deriving DecidableEq, Repr

/-- A host's read of `size` bytes that waits: at view blocks (R348), or for publishes (R328, R330); then the bytes and the poisoned units among
them (R315) were read with the entries, and are returned when the publishes (plaza, number) are acknowledged. -/
structure HostRead where
  host   : Nat
  addr   : Nat
  size   : Nat
  needs  : List (Nat × Nat)
  bytes  : List Byte
  bad    : List Nat
  delays : List Delay
  deriving DecidableEq, Repr

/-- What a host's access is answered (R315, R360, R361): bytes with the poisoned 64-byte units among them, Unsupported Request, or Completer Abort. -/
inductive HostAnswer where
  | data (bytes : List Byte) (bad : List Nat)
  | unsupported
  | abort
  deriving DecidableEq, Repr

/-- The host side (R359-R364): BAR0 registers, roles, ports, MSI-X; `reading` holds the reads that wait,
`answers` what reads and refused accesses were answered: host, address (or offset in BAR0), answer. -/
structure HostSide where
  partmode : Nat
  bPrimary : Bool
  invqbase : Nat
  invqsize : Nat
  invqtail : Nat
  invqhead : Nat
  bar2org  : Nat
  routes   : Tab Nat
  tbmaster : Nat
  pauseprop : Nat
  msix     : Tab Word
  pba      : Tab Bool
  signals  : List (Nat × Nat)
  portUp   : List Bool
  downAt   : List Nat
  reading  : List HostRead
  answers  : List (Nat × Nat × HostAnswer)
  owner    : Tab Nat
  bar2win  : List (Nat × Nat)
  deriving DecidableEq, Repr

/-- An invalidation in progress (R113): PASID, range, and the queue entry it came from (none for an ATS request). -/
structure Invalidation where
  pasid : Nat
  base  : Nat
  len   : Nat
  entry : Option Nat
  deriving DecidableEq, Repr

/-- A page move in progress, from the mark on (R117, R334): the page's old home range and new base, whether its page publish has begun, and whether
its RRT entries have moved; it ends at the remap, or where its copy fails (R366). -/
structure PageMove where
  old   : Nat
  new   : Nat
  len   : Nat
  published : Bool
  moved : Bool
  deriving DecidableEq, Repr

/-- A start-journal entry (R371). -/
structure JournalEntry where
  start   : Nat
  step    : Nat
  unit    : Nat
  plaza   : Nat
  outcome : Nat
  ms      : Nat
  absent  : Bool
  deriving DecidableEq, Repr

/-- A tenant key slot (R373). -/
structure KeySlot where
  gen    : Nat
  loaded : Bool
  masked : Nat
  deriving DecidableEq, Repr

/-- The states of a die (R368): enabled or not, and its power state (0 ON, 1 IDLE, 2 OFF), with a return to ON pending. -/
structure Die where
  enabled   : Bool
  power     : Nat
  returning : Bool
  deriving DecidableEq, Repr

/-- Phase of the module (R369, R370, R375): before start-up, in start-up, up, stopped in it, halted by an alarm, without power. -/
inductive Phase where
  | reset | starting | up | startStopped | halted | unpowered
  deriving DecidableEq, Repr

/-- The parts of the module outside its plazas. `startPos` counts the units that start-up has come through, `startLog` the journal's entries when it
began (R370, R371). -/
structure Device where
  phase    : Phase
  modNum   : Nat
  cycle    : Nat
  ns       : Nat
  locked   : Bool
  slewed   : Nat
  starts   : Nat
  startPos : Nat
  startLog : Nat
  journal  : List JournalEntry
  alarms   : List (Nat × Nat)
  alarmDue : Bool
  hold     : Bool
  dies     : Tab Die
  disabled : List Nat
  tierUp   : Tab Bool
  tierCap  : Tab Nat
  tierHome : Tab Nat
  keys     : Tab KeySlot
  pasidKey : Tab Nat
  links    : Tab Link
  host     : HostSide
  deriving DecidableEq, Repr

/-- One move of the module: which agent acts next, which event reaches it, how much time passes, which unit of a copy moves,
which resident line a cache loses, which other module's or host's bytes change, where the device runtime keeps a PASID's entry and which
host owns its process (R102), where a host's BAR2 window onto this module lies (R104), that the runtime has marked a page, remapped it, or left it where it was because its copy failed (R117, R366), a KG notice that arrives from another module (R341, R353), the timebase and credits that leave for one (R353, R356), and words of a row that are written before its others (R180). The
agenda holds them (log 1). -/
inductive Choice where
  | control (p c : Nat)
  | lane (p l : Nat)
  | event (i : Instr)
  | tick (cycles ns : Nat)
  | nestStep (p k : Nat)
  | nestDrain (p k : Nat)
  | copyUnit (p k j : Nat)
  | evictLine (p : Nat) (lanes : Bool) (key : Nat)
  | evictTlb (p pasid va : Nat)
  | refetch (p pasid line word : Nat)
  | hostStore (key : Nat) (x : Byte)
  | pasidEntry (n : Nat) (a : Option Nat) (owner : Nat)
  | bar2Window (h base size : Nat)
  | markPage (old new len : Nat)
  | remap (old : Nat)
  | keepPage (old : Nat)
  | notice (f : Flit)
  | exchange (m : Nat)
  | giveCredit (l v n : Nat)
  | landPart (p l n : Nat) (words : W32)
  | jobIn (m : Move)
  | moveJob (id p : Nat)
  | boot
  | auto (p : Nat)
  | autoModule
  deriving DecidableEq, Repr

/-- The running agent and the words of its instruction, set by the step before it runs (log 1). -/
structure Current where
  agent : Agent
  pc    : Word
  w0    : Nat
  w1    : Nat
  len   : Nat
  deriving DecidableEq, Repr

/-- The module. -/
structure State where
  dev      : Device
  mem      : List Host.Cell
  poison   : List Nat
  pasids   : Tab Nat
  runtime  : Nat
  plazas   : Tab Plaza
  rrt      : Tab (List RrtEntry)
  requests : List (Nat × Nat × Requester)
  acks     : List (Nat × Nat × Nat × Requester)
  notices  : List Notice
  masters  : List Master
  views    : List View
  engines  : Tab ViewEngine
  placer   : Placer
  remotes  : List Remote
  outbox   : List Flit
  waiting  : List Flit
  inbox    : List Flit
  slots    : Tab Slot
  invals   : List Invalidation
  moves    : List PageMove
  writes   : List HeldWrite
  agenda   : List Choice
  phaseNo  : Nat
  cur      : Current
  fresh    : Nat
  deriving DecidableEq, Repr

/-- Why a module to which nothing happens makes no further step of its own. All three are safe: the spec says that the module stops; whatever
the outside does to it meanwhile is a step (`takes`). -/
inductive Fault where
  /-- R369: module power is removed, and every part of the module stops; raised by a step with nothing on the agenda. Safe. -/
  | unpowered
  /-- R370: a mandatory start-up step without an alternate failed, and start-up stops; raised by a step with nothing on the agenda. Safe. -/
  | startUpStopped
  /-- R375: a security alarm halted the module until power is removed; raised by a step with nothing on the agenda. Safe. -/
  | alarmHalted
  deriving DecidableEq, Repr

/-- What the model gives no meaning. -/
inductive Refusal where
  /-- An instruction whose meaning has not been written; raised by its arm of `exec`. Safe. -/
  | notModelled (mnemonic : String)
  deriving DecidableEq, Repr

/-- An inactive loop level (R243). -/
def Level.off : Level := ⟨false, 0, 0, 0, 0, 0, 0⟩

/-- A context as R243 leaves a dormant or ended one; context 5 before start-up (log 4). -/
def Ctx.off (st : CtxState) : Ctx :=
  { g := [], pc := 0, prev := 0, state := st, wait := none, since := 0, levels := [], ras := [], insret := 0, ichit := 0,
    icmiss := 0, wdog := 0, lineAccess := true, exitStatus := none, halted := false, restart := none, sleep := none, asked := [], counting := none, ending := none, arrivals := 0,
    arrived := false, arrLog := [], sync := [], acq := none, delays := [], w0 := 0, w1 := 0 }

/-- An EMPTY handle (R107). -/
def Handle.off : Handle := ⟨.empty, 0, 0, 0, false, 0, none, none⟩
/-- A ring that is not set up (R272). -/
def Ring.off : Ring := ⟨0, 0, 0, []⟩
/-- An absent level of a nest (R275). -/
def NestLevel.off : NestLevel := ⟨0, 0, 0, 0, false, false, false, false⟩
/-- The shadow nest at placement start (R283). -/
def Nest.off : Nest :=
  { levels := [.off, .off, .off, .off, .off, .off], abase := 0, bbase := 0, cbase := 0, ringa := 15, ringb := 15, mode := 0,
    out := 0, add := false, sa := 0, sb := 0, sc := 0 }

/-- A lane group that runs no block (R172). -/
def Lane.off : Lane :=
  { busy := false, seq := 0, pc := 0, s := [], p := [], window := 0, oldWindow := 0, windowAt := 0, windowPick := 0, base := 0, ring := [], levels := [],
    results := [], stores := [], nextAt := 0, packetWait := 0, loadLimit := 127, storeLimit := 127, fence := 0, marking := false,
    ended := false, stopped := false, draining := false, marker := ⟨0, [], [], 0, [], [], 0⟩, pushes := [], amo := 0,
    dispatched := 0, freeAt := 0, delays := [], acq := none, vamo := ⟨0, 0, [], false, none⟩ }

/-- The placement state of a plaza on which none is resident (R243). -/
def Place.off : Place :=
  { job := 0, index := 0, pasid := 0, argva := 0, ckptwa := 0, scrsize := 0, faultq := 0, viewflags := false, features := 0,
    w16 := false, groups := 16, gang := false, table := [], ctx := [], handles := [], shapes := [], tokens := [], avtail := 0,
    blocks := [], alley := [], altail := 0, alhead := 0, qdead := 0, qmoved := false, freeze := none, copyQ := [], linkQ := [], async := [],
    records := [], refused := [], rings := [], wbf := [], abf := [], rowUse := [], cbk := [], shadow := .off, pendingN := none,
    active := none, arrivals := [], lanes := [], pipes := [], dispatchAt := 0, halted := false, haltAt := 0, haltCtx := 0 }

/-- A plaza before start-up: every L1 line invalid, S = 0 (R229), the CSRs of R69 at their reset values. -/
def Plaza.off : Plaza :=
  { ctx5 := .off .dormant, roles := 0, sweepage := 4096, sweepAt := 0, trapvec := 0, trapslot := 0, svepc := 0, icache := [], ifills := [],
    tlb := [], l1d := [], l1v := [], fills := [], pubBegun := 0, pubDone := 0, publish := none, pubQueue := [], segments := 0,
    open_ := none, pending := [], snaps := [], snapNext := 0, stopped := false, tenant := none, wb := [], ab := [], cb := [], torn := [],
    scratch := [], res := .free, place := .off, preempt := false, wakeDue := false, wakeAt := 0, startAt := 0, begun := none, freeAt := 0, await := none }

/-- A die before start-up. -/
def Die.off : Die := ⟨false, 0, false⟩
/-- A key slot without a key (R370). -/
def KeySlot.off : KeySlot := ⟨0, false, 0⟩
/-- A link that is down (R370). -/
def Link.off : Link := ⟨false, 0, 0, 0, 0, 0⟩
/-- An empty schedule slot (R304). -/
def Slot.off : Slot := ⟨none, 0, 0, [], 0, false, 0, 0, [], none, [], none, none⟩
/-- An idle view engine (R343). -/
def ViewEngine.off : ViewEngine := ⟨[], none⟩
/-- A view block that was never derived (R297). -/
def ViewBlock.off : ViewBlock := ⟨0, 0, true, false, 0⟩

/-- The Job Placer at reset (R236). -/
def Placer.off : Placer :=
  { agestep := 2000, savebase := 0, saveslots := 0, spillbase := 0, spillcap := 0, disparea := [], nextId := 1, requests := [],
    jobs := [], fifo := [], completed := [], rewrites := [], codeMaps := [], codeCount := 0 }

/-- The host side at reset (R360); no port's link is up before step 2 of start-up (R370). -/
def HostSide.off : HostSide :=
  { partmode := 0, bPrimary := false, invqbase := 0, invqsize := 0, invqtail := 0, invqhead := 0, bar2org := 0, routes := [],
    tbmaster := 0, pauseprop := 0, msix := [], pba := [], signals := [], portUp := [false, false], downAt := [0, 0],
    reading := [], answers := [], owner := [], bar2win := [] }

/-- The module right after reset, before start-up has run (R369, R370; log 2, log 4). -/
def State.reset : State :=
  { dev := { phase := .reset, modNum := 0, cycle := 0, ns := 0, locked := false, slewed := 0, starts := 0, startPos := 0, startLog := 0, journal := [], alarms := [],
             alarmDue := false, hold := false, dies := [], disabled := [], tierUp := [], tierCap := [], tierHome := [], keys := [],
             pasidKey := [], links := [], host := .off },
    mem := [], poison := [], pasids := [], runtime := 0, plazas := [], rrt := [], requests := [], acks := [], notices := [],
    masters := [], views := [], engines := [], placer := .off, remotes := [], outbox := [], waiting := [], inbox := [], slots := [], invals := [],
    moves := [], writes := [], agenda := [], phaseNo := 0, cur := ⟨.device, 0, 0, 0, 0⟩, fresh := 0 }

end Sys2Proof.Machine
end

