-- ==== Sys2Proof/Machine/Bits.lean ====
section
/-! DEFINITION. Sparse tables, little-endian bytes (R4), the byte memory and its canonical form, and bit-field helpers (R9). -/
namespace Sys2Proof.Machine

/-- The entry of table t under number k, or the default d. -/
def tabGet {α : Type} (d : α) : Tab α → Nat → α
  | [], _ => d
  | (j, v) :: t, k => if j = k then v else tabGet d t k
/-- The table without number k. -/
def tabErase {α : Type} : Tab α → Nat → Tab α
  | [], _ => []
  | (j, v) :: t, k => if j = k then tabErase t k else (j, v) :: tabErase t k
/-- The table with number k inserted before the first larger number. -/
def tabInsert {α : Type} : Tab α → Nat → α → Tab α
  | [], k, v => [(k, v)]
  | (j, w) :: t, k, v => if k < j then (k, v) :: (j, w) :: t else (j, w) :: tabInsert t k v
/-- The table with v under number k. -/
def tabSet {α : Type} (t : Tab α) (k : Nat) (v : α) : Tab α := tabInsert (tabErase t k) k v
/-- The table with v under number k, in canonical form: the default is not listed. -/
def tabPut {α : Type} [DecidableEq α] (d : α) (t : Tab α) (k : Nat) (v : α) : Tab α :=
  if v = d then tabErase t k else tabSet t k v

/-- What a byte of memory that nothing has written reads as (log 3: DESIGN CHOICE, unsafe). -/
def emptyByte : Byte := 0
/-- The byte at key a. -/
def memByte (m : List Host.Cell) (a : Nat) : Byte := tabGet emptyByte m a
/-- The memory with byte b at key a, in canonical form. -/
def memPut (m : List Host.Cell) (a : Nat) (b : Byte) : List Host.Cell := tabPut emptyByte m a b
/-- The canonical form of a memory: keys strictly rising, and no listed byte equal to an unlisted one. -/
def memWf : List Host.Cell → Bool
  | [] => true
  | [(_, b)] => b != emptyByte
  | (a, b) :: (a', b') :: t => b != emptyByte && decide (a < a') && memWf ((a', b') :: t)
/-- n bytes from key a, little-endian (R4). -/
def memRead (m : List Host.Cell) (a : Nat) : Nat → Nat
  | 0 => 0
  | n + 1 => (memByte m a).toNat + 256 * memRead m (a + 1) n
/-- n bytes of v written from key a, little-endian (R4). -/
def memWrite (m : List Host.Cell) (a : Nat) : Nat → Nat → List Host.Cell
  | 0, _ => m
  | n + 1, v => memWrite (memPut m a (BitVec.ofNat 8 v)) (a + 1) n (v / 256)
/-- The n bytes from key a. -/
def memBytes (m : List Host.Cell) (a n : Nat) : List Byte := (List.range n).map fun i => memByte m (a + i)
/-- A list of bytes written from key a. -/
def memPutBytes (m : List Host.Cell) (a : Nat) : List Byte → List Host.Cell
  | [] => m
  | b :: t => memPutBytes (memPut m a b) (a + 1) t
/-- Little-endian value of bytes (R4). -/
def leNat : List Byte → Nat
  | [] => 0
  | b :: t => b.toNat + 256 * leNat t
/-- The n little-endian bytes of v (R4). -/
def leBytes : Nat → Nat → List Byte
  | 0, _ => []
  | n + 1, v => BitVec.ofNat 8 v :: leBytes n (v / 256)

/-- Bits hi to lo of a number (R9). -/
def bits (v hi lo : Nat) : Nat := v / 2 ^ lo % 2 ^ (hi + 1 - lo)
/-- Bit i of a number (R9). -/
def bit (v i : Nat) : Bool := v / 2 ^ i % 2 == 1
/-- A truth value as 0 or 1. -/
def b2n (b : Bool) : Nat := if b then 1 else 0
/-- SignExt (R9): the n-bit number v as a 64-bit word. -/
def sext64 (n v : Nat) : Word := (BitVec.ofNat n v).signExtend 64
/-- The n-bit number v read as signed (R10). -/
def sgn (n v : Nat) : Int := (BitVec.ofNat n v).toInt
/-- An integer reduced modulo 2^n. -/
def wrapInt (n : Nat) (v : Int) : Nat := (v % (2 ^ n : Int)).toNat
/-- Lane word i of a row (R23). -/
def rowWord (r : Row) (i : Nat) : W32 := r.extractLsb' (32 * i) 32
/-- The row whose lane word i is f i (R23). -/
def rowOf (f : Nat → W32) : Row :=
  (List.range 32).foldl (fun acc i => acc ||| ((f i).setWidth 1024 <<< (32 * i))) 0
/-- Row a where the mask's bit is set, row b elsewhere, lane word by lane word (R23). -/
def rowMix (mask : W32) (a b : Row) : Row := rowOf fun i => if mask.getLsbD i then rowWord a i else rowWord b i
/-- n bytes of v from byte i. -/
def vecBytes {w : Nat} (v : BitVec w) (i n : Nat) : Nat := v.toNat / 2 ^ (8 * i) % 2 ^ (8 * n)
/-- v with n bytes from byte i replaced by x. -/
def vecPut {w : Nat} (v : BitVec w) (i n x : Nat) : BitVec w :=
  (v &&& ~~~ (BitVec.ofNat w (2 ^ (8 * n) - 1) <<< (8 * i))) ||| (BitVec.ofNat w (x % 2 ^ (8 * n)) <<< (8 * i))
/-- The byte mask of n bytes from byte i of a line. -/
def byteMask (i n : Nat) : BitVec 128 := BitVec.ofNat 128 ((2 ^ n - 1) * 2 ^ i)
/-- The bit mask of a byte mask. -/
def spreadMask (m : BitVec 128) : Row :=
  (List.range 128).foldl (fun acc i => if m.getLsbD i then acc ||| ((255 : Row) <<< (8 * i)) else acc) 0
/-- Bytes of a where m is set, of b elsewhere. -/
def lineMix (m : BitVec 128) (a b : Row) : Row :=
  if m = 0 then b else let k := spreadMask m; (a &&& k) ||| (b &&& ~~~ k)
/-- Number of set bits. -/
def popCount (v n : Nat) : Nat := (List.range n).foldl (fun acc i => acc + v / 2 ^ i % 2) 0
/-- The first element that meets a test, with its place. -/
def findIdx {α : Type} (f : α → Bool) : List α → Nat → Option (Nat × α)
  | [], _ => none
  | x :: t, i => if f x then some (i, x) else findIdx f t (i + 1)
/-- The list with element i changed. -/
def listMod {α : Type} : List α → Nat → (α → α) → List α
  | [], _, _ => []
  | x :: t, 0, f => f x :: t
  | x :: t, i + 1, f => x :: listMod t i f
/-- The smallest of a list, if any. -/
def listMin : List Nat → Option Nat
  | [] => none
  | x :: t => match listMin t with
    | none => some x
    | some m => some (if x < m then x else m)
/-- The largest of a list, 0 if empty. -/
def listMax : List Nat → Nat
  | [] => 0
  | x :: t => Nat.max x (listMax t)
/-- A comparison modulo 2^32 (R339): a is below b. -/
def genBelow (a b : Nat) : Bool := let d := (b + 2 ^ 32 - a % 2 ^ 32) % 2 ^ 32; 1 ≤ d && d ≤ 2 ^ 31 - 1

end Sys2Proof.Machine
end

