-- ==== Sys2Proof/WellFormed.lean ====
section
/-! DEFINITION. Which instruction terms are well formed: every field within its width, and no reserved value or
combination that the spec refuses from the words alone (R14, and the rules of each instruction). The decoder answers only such terms. -/
namespace Sys2Proof

/-- The CSR numbers of R69. -/
def csrKnown (c : Nat) : Bool := c < 10 || c == 0x10 || c == 0x11 || (0x20 ≤ c && c ≤ 0x25)
/-- The CSRs that are not marked R (R68, R69). -/
def csrWritable (c : Nat) : Bool := (3 ≤ c && c ≤ 5) || c == 0x10 || c == 0x11 || (0x20 ≤ c && c ≤ 0x25)
/-- A wait field of a token block (R19). -/
def waitOk (x : Nat) : Bool := x < 64 || x == 127
/-- The token block's waits: legal, and none names the token produced (R19). -/
def tokOk (t u v w : Nat) : Bool := waitOk u && waitOk v && waitOk w && u != t && v != t && w != t
/-- Element width in bits of a type code (R22). -/
def typeWidth (t : Nat) : Nat :=
  if t == 0 || t == 11 || t == 12 then 32 else if t == 1 || t == 2 || t == 9 || t == 10 then 16 else if t == 5 then 4 else 8
/-- The arithmetic types 0, 1, 2 and 7-12 (R211). -/
def arithType (t : Nat) : Bool := t < 3 || (7 ≤ t && t < 13)
/-- VALU's operations by type (R212). -/
def valuOk (b o t : Nat) : Bool :=
  arithType t && o < 12 && (7 ≤ t || o < 7) && (!(o == 5 || o == 6) || b == 0)
/-- VCVT's part and merge source (R214). -/
def vcvtOk (c t g f : Nat) : Bool :=
  t < 13 && g < 13 &&
    (if typeWidth g < typeWidth t then f < typeWidth t / typeWidth g
     else c == 0 && f < typeWidth g / typeWidth t)
/-- VRED and VSCAN (R216, R217). -/
def vredOk (o g t : Nat) : Bool := arithType t && g < 5 && o < 6 && (7 ≤ t || o < 3)
/-- VSHFL's mode, segment and delta (R160). -/
def vshflOk (b m g o : Nat) : Bool :=
  g < 5 && (if m == 0 then o == 0 else b == 0) && (m != 3 || o < 32 / 2 ^ g)
/-- VDOT's type pairs (R223). -/
def vdotOk (t g : Nat) : Bool :=
  ((t == 1 || t == 2) && (g == 1 || g == 2)) || ((t == 3 || t == 4) && (g == 3 || g == 4)) ||
    ((t == 7 || t == 8) && (g == 7 || g == 8))
/-- VBIT's operand use (R222). -/
def vbitOk (b c o : Nat) : Bool := o < 7 && (3 ≤ o || b == 0) && (5 ≤ o || c == 0)
/-- VAMO's combinations (R225). -/
def vamoOk (d s r o t : Nat) : Bool :=
  s < 3 && (r != 0 || s == 0) && o < 11 && (if o == 10 then t == 0 else t == 11 || t == 12) &&
    (o < 9 || (d == 0 && r == 0 && s == 0))

/-- A term the control core's slice may hold: fields in range, registers g0-g31, no reserved value (R14, R16, R18). -/
def Instr.wfControl : Instr → Bool
  | .add d a b x => d < 256 && a < 256 && b < 256 && x < 2 && (d < 32 && a < 32 && b < 32)
  | .sub d a b x => d < 256 && a < 256 && b < 256 && x < 2 && (d < 32 && a < 32 && b < 32)
  | .and d a b x => d < 256 && a < 256 && b < 256 && x < 2 && (d < 32 && a < 32 && b < 32)
  | .or d a b x => d < 256 && a < 256 && b < 256 && x < 2 && (d < 32 && a < 32 && b < 32)
  | .xor d a b x => d < 256 && a < 256 && b < 256 && x < 2 && (d < 32 && a < 32 && b < 32)
  | .andn d a b x => d < 256 && a < 256 && b < 256 && x < 2 && (d < 32 && a < 32 && b < 32)
  | .shl d a b x => d < 256 && a < 256 && b < 256 && x < 2 && (d < 32 && a < 32 && b < 32)
  | .shr d a b x => d < 256 && a < 256 && b < 256 && x < 2 && (d < 32 && a < 32 && b < 32)
  | .sra d a b x => d < 256 && a < 256 && b < 256 && x < 2 && (d < 32 && a < 32 && b < 32)
  | .mul d a b x => d < 256 && a < 256 && b < 256 && x < 2 && (d < 32 && a < 32 && b < 32)
  | .mulhs d a b x => d < 256 && a < 256 && b < 256 && x < 2 && (d < 32 && a < 32 && b < 32)
  | .mulhn d a b x => d < 256 && a < 256 && b < 256 && x < 2 && (d < 32 && a < 32 && b < 32)
  | .divs d a b x => d < 256 && a < 256 && b < 256 && x < 2 && (d < 32 && a < 32 && b < 32)
  | .divn d a b x => d < 256 && a < 256 && b < 256 && x < 2 && (d < 32 && a < 32 && b < 32)
  | .rems d a b x => d < 256 && a < 256 && b < 256 && x < 2 && (d < 32 && a < 32 && b < 32)
  | .remn d a b x => d < 256 && a < 256 && b < 256 && x < 2 && (d < 32 && a < 32 && b < 32)
  | .min d a b x => d < 256 && a < 256 && b < 256 && x < 2 && (d < 32 && a < 32 && b < 32)
  | .max d a b x => d < 256 && a < 256 && b < 256 && x < 2 && (d < 32 && a < 32 && b < 32)
  | .minn d a b x => d < 256 && a < 256 && b < 256 && x < 2 && (d < 32 && a < 32 && b < 32)
  | .maxn d a b x => d < 256 && a < 256 && b < 256 && x < 2 && (d < 32 && a < 32 && b < 32)
  | .slt d a b x => d < 256 && a < 256 && b < 256 && x < 2 && (d < 32 && a < 32 && b < 32)
  | .sltn d a b x => d < 256 && a < 256 && b < 256 && x < 2 && (d < 32 && a < 32 && b < 32)
  | .seq d a b x => d < 256 && a < 256 && b < 256 && x < 2 && (d < 32 && a < 32 && b < 32)
  | .sh1add d a b x => d < 256 && a < 256 && b < 256 && x < 2 && (d < 32 && a < 32 && b < 32)
  | .sh2add d a b x => d < 256 && a < 256 && b < 256 && x < 2 && (d < 32 && a < 32 && b < 32)
  | .sh3add d a b x => d < 256 && a < 256 && b < 256 && x < 2 && (d < 32 && a < 32 && b < 32)
  | .clz d a x => d < 256 && a < 256 && x < 2 && (d < 32 && a < 32)
  | .popc d a x => d < 256 && a < 256 && x < 2 && (d < 32 && a < 32)
  | .sne d a b x => d < 256 && a < 256 && b < 256 && x < 2 && (d < 32 && a < 32 && b < 32)
  | .addi d a i => d < 256 && a < 256 && i < 512 && (d < 32 && a < 32)
  | .andi d a i => d < 256 && a < 256 && i < 512 && (d < 32 && a < 32)
  | .ori d a i => d < 256 && a < 256 && i < 512 && (d < 32 && a < 32)
  | .xori d a i => d < 256 && a < 256 && i < 512 && (d < 32 && a < 32)
  | .shli d a i => d < 256 && a < 256 && i < 512 && (d < 32 && a < 32 && i < 64)
  | .shri d a i => d < 256 && a < 256 && i < 512 && (d < 32 && a < 32 && i < 64)
  | .srai d a i => d < 256 && a < 256 && i < 512 && (d < 32 && a < 32 && i < 64)
  | .slti d a i => d < 256 && a < 256 && i < 512 && (d < 32 && a < 32)
  | .sltni d a i => d < 256 && a < 256 && i < 512 && (d < 32 && a < 32)
  | .li d i => d < 256 && i < 131072 && (d < 32)
  | .lih d i => d < 256 && i < 65536 && (d < 32)
  | .beq a b o => a < 256 && b < 256 && o < 512 && (a < 32 && b < 32)
  | .bne a b o => a < 256 && b < 256 && o < 512 && (a < 32 && b < 32)
  | .blt a b o => a < 256 && b < 256 && o < 512 && (a < 32 && b < 32)
  | .bge a b o => a < 256 && b < 256 && o < 512 && (a < 32 && b < 32)
  | .bltn a b o => a < 256 && b < 256 && o < 512 && (a < 32 && b < 32)
  | .bgen a b o => a < 256 && b < 256 && o < 512 && (a < 32 && b < 32)
  | .j o => o < 33554432
  | .call o => o < 33554432
  | .jalr d a i => d < 256 && a < 256 && i < 512 && (d < 32 && a < 32)
  | .loop c b l m p => c < 256 && b < 512 && l < 4 && m < 4 && p < 16 && (c < 32 && (b != 0) && ((m == 0 && p == 0)))
  | .loopi c b l m p => c < 256 && b < 512 && l < 4 && m < 4 && p < 16 && ((b != 0) && ((m == 0 && p == 0)))
  | .fence m => m < 65536
  | .fqry d w => d < 256 && w < 256 && (d < 32)
  | .nop => true
  | .ldb d a c i => d < 32 && a < 32 && c < 16 && i < 2048
  | .ldbn d a c i => d < 32 && a < 32 && c < 16 && i < 2048
  | .ldh d a c i => d < 32 && a < 32 && c < 16 && i < 2048
  | .ldhn d a c i => d < 32 && a < 32 && c < 16 && i < 2048
  | .ldw d a c i => d < 32 && a < 32 && c < 16 && i < 2048
  | .ldwn d a c i => d < 32 && a < 32 && c < 16 && i < 2048
  | .ldd d a c i => d < 32 && a < 32 && c < 16 && i < 2048
  | .stb r a c i => r < 32 && a < 32 && c < 16 && i < 2048
  | .sth r a c i => r < 32 && a < 32 && c < 16 && i < 2048
  | .stw r a c i => r < 32 && a < 32 && c < 16 && i < 2048
  | .std r a c i => r < 32 && a < 32 && c < 16 && i < 2048
  | .lda d a c s z o => d < 32 && a < 32 && c < 16 && s < 4 && z < 2 && o < 256 && (s < 3)
  | .strel r a c s z o => r < 32 && a < 32 && c < 16 && s < 4 && z < 2 && o < 256 && (s < 3)
  | .amo d a b z s o p => d < 32 && a < 32 && b < 32 && z < 2 && s < 4 && o < 4 && p < 16 && (s < 3 && (o != 0 || s == 0) && p < 9)
  | .amoAddc a b z => a < 32 && b < 32 && z < 2
  | .amoFaddc a b => a < 32 && b < 32
  | .waitm d a b z s c => d < 32 && a < 32 && b < 32 && z < 2 && s < 4 && c < 8 && (s < 3 && c < 7)
  | .csrr d c => d < 32 && c < 256 && (csrKnown c)
  | .csrw d a c => d < 32 && a < 32 && c < 256 && (csrWritable c)
  | .csrs d a c => d < 32 && a < 32 && c < 256 && (csrWritable c)
  | .csrc d a c => d < 32 && a < 32 && c < 256 && (csrWritable c)
  | .icpf a => a < 32
  | .icinv a => a < 32
  | .icinvAll => true
  | .dcpf a => a < 32
  | .dcwb a => a < 32
  | .dcinv a => a < 32
  | .xlt n a p => n < 32 && a < 32 && p < 8 && (p == 1 || p == 2 || p == 3 || p == 7)
  | .hinv n => n < 32
  | .hinvAll => true
  | .hget d n => d < 32 && n < 32
  | .hgetva d n => d < 32 && n < 32
  | .shld n a c => n < 32 && a < 32 && c < 16 && (n < 16)
  | .shst n a c => n < 32 && a < 32 && c < 16 && (n < 16)
  | .shset n a f => n < 32 && a < 32 && f < 1024 && (n < 16 && f < 14)
  | .shget d n f => d < 32 && n < 32 && f < 1024 && (n < 16 && f < 14)
  | .popp d b => d < 32 && b < 32
  | .poppn d b => d < 32 && b < 32
  | .bcancel d a => d < 32 && a < 32
  | .bseq d s => d < 32 && s < 4 && (s < 3)
  | .bwait a => a < 32
  | .twait n => n < 64
  | .twaitm a => a < 32
  | .ttest d n => d < 32 && n < 64
  | .ttestOut d => d < 32
  | .ttestFailed d => d < 32
  | .tfree n => n < 64
  | .tfreem a => a < 32
  | .exit a => a < 32
  | .trap c => c < 64
  | .sret d a b => d < 32 && a < 32 && b < 32
  | .hret => true
  | .wake d a b => d < 32 && a < 32 && b < 32
  | .ckpt a => a < 32
  | .tbr => true
  | .lix d i => d < 32 && i < 4294967296
  | .lixh d i => d < 32 && i < 4294967296
  | .cas d a b z s o c => d < 32 && a < 32 && b < 32 && z < 2 && s < 4 && o < 4 && c < 32 && (s < 3 && (o != 0 || s == 0))
  | .emit d a b e o t => d < 32 && a < 32 && b < 32 && e < 256 && o < 2 && t < 128 && ((b % 2 == 0) && (t < 64 || t == 127))
  | .split d a b p e o t f => d < 32 && a < 32 && b < 32 && p < 32 && e < 256 && o < 2 && t < 128 && f < 256 && ((b % 2 == 0) && (t < 64 || t == 127))
  | .cpy a b n t u v w => a < 32 && b < 32 && n < 16 && t < 64 && u < 128 && v < 128 && w < 128 && (tokOk t u v w)
  | .cpyg a b n t u v w => a < 32 && b < 32 && n < 16 && t < 64 && u < 128 && v < 128 && w < 128 && (tokOk t u v w)
  | .puth a b n t u v w => a < 32 && b < 32 && n < 16 && t < 64 && u < 128 && v < 128 && w < 128 && (tokOk t u v w)
  | .mnsetLvl n a f => n < 8 && a < 32 && f < 16 && (n < 6)
  | .mnsetBase a r q => a < 32 && r < 16 && q < 16 && ((r < 8 || r == 15) && (q < 8 || q == 15))
  | .mnsetCtl a b => a < 32 && b < 32
  | .mgo t u v w => t < 64 && u < 128 && v < 128 && w < 128 && (tokOk t u v w)
  | .rset n a => n < 8 && a < 32
  | .rwait d n c => d < 32 && n < 8 && c < 4 && (c < 3)
  | .rmark n a => n < 8 && a < 32
  | .bfset n a t u v w => n < 16 && a < 32 && t < 64 && u < 128 && v < 128 && w < 128 && (tokOk t u v w)
  | .cbld n a h t u v w => n < 32 && a < 32 && h < 32 && t < 64 && u < 128 && v < 128 && w < 128 && (n < 4 && tokOk t u v w)
  | .launch d a => d < 32 && a < 32
  | .jwait d a i => d < 32 && a < 32 && i < 4294967296
  | .jbar d m => d < 32 && m < 8 && (m != 0)
  | .viewreg d a => d < 32 && a < 32
  | .viewdrop d a => d < 32 && a < 32
  | .viewpol d a p => d < 32 && a < 32 && p < 4 && (p < 3)
  | .viewtag d a s => d < 32 && a < 32 && s < 4 && (s < 3)
  | .viewsync d a => d < 32 && a < 32
  | .lsched n a b t u v w => n < 4 && a < 32 && b < 32 && t < 64 && u < 128 && v < 128 && w < 128 && (tokOk t u v w)
  | .lgo n a t u v w => n < 4 && a < 32 && t < 64 && u < 128 && v < 128 && w < 128 && (tokOk t u v w)
  | .mstat d s a => d < 32 && s < 8 && a < 32 && (s < 6 && (2 < s || a == 0))
  | _ => false

/-- A term a lane block may hold: fields in range, registers s0-s191, no reserved value, no control-only word (R14, R16, R20). -/
def Instr.wfLane : Instr → Bool
  | .add d a b x => d < 256 && a < 256 && b < 256 && x < 2 && (d < 192 && a < 192 && b < 192 && x == 0)
  | .sub d a b x => d < 256 && a < 256 && b < 256 && x < 2 && (d < 192 && a < 192 && b < 192 && x == 0)
  | .and d a b x => d < 256 && a < 256 && b < 256 && x < 2 && (d < 192 && a < 192 && b < 192 && x == 0)
  | .or d a b x => d < 256 && a < 256 && b < 256 && x < 2 && (d < 192 && a < 192 && b < 192 && x == 0)
  | .xor d a b x => d < 256 && a < 256 && b < 256 && x < 2 && (d < 192 && a < 192 && b < 192 && x == 0)
  | .andn d a b x => d < 256 && a < 256 && b < 256 && x < 2 && (d < 192 && a < 192 && b < 192 && x == 0)
  | .shl d a b x => d < 256 && a < 256 && b < 256 && x < 2 && (d < 192 && a < 192 && b < 192 && x == 0)
  | .shr d a b x => d < 256 && a < 256 && b < 256 && x < 2 && (d < 192 && a < 192 && b < 192 && x == 0)
  | .sra d a b x => d < 256 && a < 256 && b < 256 && x < 2 && (d < 192 && a < 192 && b < 192 && x == 0)
  | .mul d a b x => d < 256 && a < 256 && b < 256 && x < 2 && (d < 192 && a < 192 && b < 192 && x == 0)
  | .mulhs d a b x => d < 256 && a < 256 && b < 256 && x < 2 && (d < 192 && a < 192 && b < 192 && x == 0)
  | .mulhn d a b x => d < 256 && a < 256 && b < 256 && x < 2 && (d < 192 && a < 192 && b < 192 && x == 0)
  | .min d a b x => d < 256 && a < 256 && b < 256 && x < 2 && (d < 192 && a < 192 && b < 192 && x == 0)
  | .max d a b x => d < 256 && a < 256 && b < 256 && x < 2 && (d < 192 && a < 192 && b < 192 && x == 0)
  | .minn d a b x => d < 256 && a < 256 && b < 256 && x < 2 && (d < 192 && a < 192 && b < 192 && x == 0)
  | .maxn d a b x => d < 256 && a < 256 && b < 256 && x < 2 && (d < 192 && a < 192 && b < 192 && x == 0)
  | .slt d a b x => d < 256 && a < 256 && b < 256 && x < 2 && (d < 192 && a < 192 && b < 192 && x == 0)
  | .sltn d a b x => d < 256 && a < 256 && b < 256 && x < 2 && (d < 192 && a < 192 && b < 192 && x == 0)
  | .seq d a b x => d < 256 && a < 256 && b < 256 && x < 2 && (d < 192 && a < 192 && b < 192 && x == 0)
  | .sh1add d a b x => d < 256 && a < 256 && b < 256 && x < 2 && (d < 192 && a < 192 && b < 192 && x == 0)
  | .sh2add d a b x => d < 256 && a < 256 && b < 256 && x < 2 && (d < 192 && a < 192 && b < 192 && x == 0)
  | .sh3add d a b x => d < 256 && a < 256 && b < 256 && x < 2 && (d < 192 && a < 192 && b < 192 && x == 0)
  | .clz d a x => d < 256 && a < 256 && x < 2 && (d < 192 && a < 192 && x == 0)
  | .popc d a x => d < 256 && a < 256 && x < 2 && (d < 192 && a < 192 && x == 0)
  | .sne d a b x => d < 256 && a < 256 && b < 256 && x < 2 && (d < 192 && a < 192 && b < 192 && x == 0)
  | .addi d a i => d < 256 && a < 256 && i < 512 && (d < 192 && a < 192)
  | .andi d a i => d < 256 && a < 256 && i < 512 && (d < 192 && a < 192)
  | .ori d a i => d < 256 && a < 256 && i < 512 && (d < 192 && a < 192)
  | .xori d a i => d < 256 && a < 256 && i < 512 && (d < 192 && a < 192)
  | .shli d a i => d < 256 && a < 256 && i < 512 && (d < 192 && a < 192 && i < 32)
  | .shri d a i => d < 256 && a < 256 && i < 512 && (d < 192 && a < 192 && i < 32)
  | .srai d a i => d < 256 && a < 256 && i < 512 && (d < 192 && a < 192 && i < 32)
  | .slti d a i => d < 256 && a < 256 && i < 512 && (d < 192 && a < 192)
  | .sltni d a i => d < 256 && a < 256 && i < 512 && (d < 192 && a < 192)
  | .li d i => d < 256 && i < 131072 && (d < 192)
  | .lih d i => d < 256 && i < 65536 && (d < 192)
  | .loop c b l m p => c < 256 && b < 512 && l < 4 && m < 4 && p < 16 && (c < 192 && (b != 0) && ((m == 0 && p == 0) || (m == 1 && p != 0) || (m == 2 && p != 0 && p < 5) || m == 3))
  | .loopi c b l m p => c < 256 && b < 512 && l < 4 && m < 4 && p < 16 && ((b != 0) && ((m == 0 && p == 0) || (m == 1 && p != 0) || (m == 2 && p != 0 && p < 5) || m == 3))
  | .fence m => m < 65536
  | .fqry d w => d < 256 && w < 256 && (d < 192)
  | .nop => true
  | .vfadd d a b p w k => d < 64 && a < 128 && b < 128 && p < 4 && w < 4 && k < 2
  | .vfsub d a b p w k => d < 64 && a < 128 && b < 128 && p < 4 && w < 4 && k < 2
  | .vfmul d a b p w k => d < 64 && a < 128 && b < 128 && p < 4 && w < 4 && k < 2
  | .vfmin d a b p w k => d < 64 && a < 128 && b < 128 && p < 4 && w < 4 && k < 2
  | .vfmax d a b p w k => d < 64 && a < 128 && b < 128 && p < 4 && w < 4 && k < 2
  | .viadd d a b p w k => d < 64 && a < 128 && b < 128 && p < 4 && w < 4 && k < 2
  | .visub d a b p w k => d < 64 && a < 128 && b < 128 && p < 4 && w < 4 && k < 2
  | .vimul d a b p w k => d < 64 && a < 128 && b < 128 && p < 4 && w < 4 && k < 2
  | .vimin d a b p w k => d < 64 && a < 128 && b < 128 && p < 4 && w < 4 && k < 2
  | .vimax d a b p w k => d < 64 && a < 128 && b < 128 && p < 4 && w < 4 && k < 2
  | .vnmin d a b p w k => d < 64 && a < 128 && b < 128 && p < 4 && w < 4 && k < 2
  | .vnmax d a b p w k => d < 64 && a < 128 && b < 128 && p < 4 && w < 4 && k < 2
  | .vand d a b p w k => d < 64 && a < 128 && b < 128 && p < 4 && w < 4 && k < 2
  | .vor d a b p w k => d < 64 && a < 128 && b < 128 && p < 4 && w < 4 && k < 2
  | .vxor d a b p w k => d < 64 && a < 128 && b < 128 && p < 4 && w < 4 && k < 2
  | .vshl d a b p w k => d < 64 && a < 128 && b < 128 && p < 4 && w < 4 && k < 2
  | .vshr d a b p w k => d < 64 && a < 128 && b < 128 && p < 4 && w < 4 && k < 2
  | .vsra d a b p w k => d < 64 && a < 128 && b < 128 && p < 4 && w < 4 && k < 2
  | .vmov d a p w k => d < 64 && a < 128 && p < 4 && w < 4 && k < 2
  | .vmovScalar d a p w k => d < 64 && a < 128 && p < 4 && w < 4 && k < 2
  | .vmovScalarHigh d a p w k => d < 64 && a < 128 && p < 4 && w < 4 && k < 2 && (a < 64)
  | .vlid d b p w k => d < 64 && b < 128 && p < 4 && w < 4 && k < 2
  | .vwin a w k => a < 128 && w < 4 && k < 2 && (72 ≤ a)
  | .vwinadd a w k => a < 128 && w < 4 && k < 2 && (72 ≤ a)
  | .vwait c l s => c < 64 && l < 128 && s < 128 && ((l < 64 || l == 127) && (s < 64 || s == 127))
  | .vbend => true
  | .vrgn => true
  | .pand d a b w k => d < 8 && a < 8 && b < 8 && w < 4 && k < 2 && (d != 0)
  | .por d a b w k => d < 8 && a < 8 && b < 8 && w < 4 && k < 2 && (d != 0)
  | .pxor d a b w k => d < 8 && a < 8 && b < 8 && w < 4 && k < 2 && (d != 0)
  | .pandn d a b w k => d < 8 && a < 8 && b < 8 && w < 4 && k < 2 && (d != 0)
  | .pbal d a b w k => d < 256 && a < 8 && b < 8 && w < 4 && k < 2 && (d < 192)
  | .pset d b s w k => d < 8 && b < 8 && s < 256 && w < 4 && k < 2 && (d != 0 && s < 192)
  | .ppopc d a b w k => d < 256 && a < 8 && b < 8 && w < 4 && k < 2 && (d < 192)
  | .pfirst d a b w k => d < 256 && a < 8 && b < 8 && w < 4 && k < 2 && (d < 192)
  | .pushp a b s w k => a < 8 && b < 8 && s < 256 && w < 4 && k < 2 && (s < 192)
  | .valu d a b o t q v w k => d < 64 && a < 128 && b < 128 && o < 32 && t < 16 && q < 8 && v < 2 && w < 4 && k < 2 && (valuOk b o t)
  | .vfma d a b c n t q v w k => d < 64 && a < 128 && b < 128 && c < 128 && n < 4 && t < 16 && q < 8 && v < 2 && w < 4 && k < 2 && (t < 3)
  | .vcvt d a c t g r s f q v w k => d < 64 && a < 128 && c < 128 && t < 16 && g < 16 && r < 4 && s < 2 && f < 8 && q < 8 && v < 2 && w < 4 && k < 2 && (vcvtOk c t g f)
  | .vcmp d a b c t q v w k => d < 8 && a < 128 && b < 128 && c < 8 && t < 16 && q < 8 && v < 2 && w < 4 && k < 2 && (d != 0 && c < 7 && (t == 0 || ((t == 11 || t == 12) && c < 6)))
  | .vsel d a b g i q v w k => d < 64 && a < 128 && b < 128 && g < 8 && i < 2 && q < 8 && v < 2 && w < 4 && k < 2
  | .vsfn d a f q v w k => d < 64 && a < 128 && f < 8 && q < 8 && v < 2 && w < 4 && k < 2
  | .vred d a o g t q v w k => d < 64 && a < 128 && o < 8 && g < 8 && t < 16 && q < 8 && v < 2 && w < 4 && k < 2 && (vredOk o g t)
  | .vscan d a o x g t q v w k => d < 64 && a < 128 && o < 8 && x < 2 && g < 8 && t < 16 && q < 8 && v < 2 && w < 4 && k < 2 && (vredOk o g t)
  | .vshfl d a b m g o q v w k => d < 64 && a < 128 && b < 128 && m < 4 && g < 8 && o < 32 && q < 8 && v < 2 && w < 4 && k < 2 && (vshflOk b m g o)
  | .vperm d a b c z t q v w k => d < 64 && a < 128 && b < 128 && c < 128 && z < 2 && t < 16 && q < 8 && v < 2 && w < 4 && k < 2 && ((t < 13 && t != 5) && (z == 1 || c == 0))
  | .vrotm d a b c z o q v w k => d < 64 && a < 128 && b < 128 && c < 128 && z < 2 && o < 128 && q < 8 && v < 2 && w < 4 && k < 2 && ((z == 0 && c == 0) || (z == 1 && 72 ≤ c && o == 0))
  | .vdot d a b c t g q v w k => d < 64 && a < 128 && b < 128 && c < 128 && t < 16 && g < 16 && q < 8 && v < 2 && w < 4 && k < 2 && (vdotOk t g)
  | .vmxq d a c x f m q v w k => d < 64 && a < 128 && c < 128 && x < 256 && f < 8 && m < 4 && q < 8 && v < 2 && w < 4 && k < 2 && (x < 192 && m < 3 && (m == 2 || f < 4))
  | .vbit d a b c o q v w k => d < 64 && a < 128 && b < 128 && c < 128 && o < 16 && q < 8 && v < 2 && w < 4 && k < 2 && (vbitOk b c o)
  | .vbcast d a b z i t q v w k => d < 64 && a < 128 && b < 128 && z < 2 && i < 128 && t < 16 && q < 8 && v < 2 && w < 4 && k < 2 && ((t < 13 && t != 5) && ((z == 0 && b == 0) || (z == 1 && 72 ≤ b && i == 0)))
  | .vgetl d a b i q v w k => d < 256 && a < 128 && b < 128 && i < 32 && q < 8 && v < 2 && w < 4 && k < 2 && (d < 192 && (b == 0 || (72 ≤ b && i == 0)))
  | .vlds d a i c q v w k => d < 64 && a < 128 && i < 256 && c < 16 && q < 8 && v < 2 && w < 4 && k < 2 && (72 ≤ a)
  | .vsts a b i c q v w k => a < 128 && b < 128 && i < 256 && c < 16 && q < 8 && v < 2 && w < 4 && k < 2 && (72 ≤ a)
  | .vldg d a b h t c q v w k => d < 64 && a < 128 && b < 128 && h < 32 && t < 16 && c < 16 && q < 8 && v < 2 && w < 4 && k < 2 && (t == 0 || (7 ≤ t && t < 13))
  | .vstg a b y h t c q v w k => a < 128 && b < 128 && y < 128 && h < 32 && t < 16 && c < 16 && q < 8 && v < 2 && w < 4 && k < 2 && (t == 0 || (7 ≤ t && t < 13))
  | .vldu d a h i c q v w k => d < 64 && a < 128 && h < 32 && i < 256 && c < 16 && q < 8 && v < 2 && w < 4 && k < 2 && (72 ≤ a)
  | .vstu a b h i c q v w k => a < 128 && b < 128 && h < 32 && i < 256 && c < 16 && q < 8 && v < 2 && w < 4 && k < 2 && (72 ≤ a)
  | .vamo d a b y h s r o t c q v w k => d < 64 && a < 128 && b < 128 && y < 128 && h < 32 && s < 4 && r < 4 && o < 16 && t < 16 && c < 16 && q < 8 && v < 2 && w < 4 && k < 2 && (vamoOk d s r o t)
  | .vldb d a g z i c q v w k => d < 64 && a < 128 && g < 4 && z < 2 && i < 256 && c < 16 && q < 8 && v < 2 && w < 4 && k < 2 && (72 ≤ a && g < 3 && (g < 2 || z == 0))
  | .vstb a b g z i c q v w k => a < 128 && b < 128 && g < 4 && z < 2 && i < 256 && c < 16 && q < 8 && v < 2 && w < 4 && k < 2 && (72 ≤ a && (g == 0 || (g == 2 && z == 0)))
  | _ => false

/-- Plaza and context, plaza and lane group half, die and slot numbers of the steps that name them (R2, R82, R171, R304). -/
def Instr.wfEvent : Instr → Bool
  | .conditionMet p c => p < 192 && c < 6
  | .waitmWake p c => p < 192 && c < 6
  | .watchdog p c => p < 192 && c < 6
  | .engineTrap p c => p < 192 && c < 6
  | .icacheFill p _ => p < 192
  | .l1FillReturn p _ => p < 192
  | .translationWalkEnd p h => p < 192 && h < 32
  | .handleRefresh p h => p < 192 && h < 32
  | .atsInvalidation _ _ _ => true
  | .invalidationComplete _ => true
  | .pagePublish _ _ _ => true
  | .copyStart p => p < 192
  | .copyComplete p => p < 192
  | .copyFailure p => p < 192
  | .bankFormatWrite p => p < 192
  | .codebookWrite p => p < 192
  | .puthArrival p _ => p < 192
  | .blockDispatch p => p < 192
  | .laneResultLands p l _ => p < 192 && l < 32
  | .laneStorePerforms p l _ => p < 192 && l < 32
  | .regionMarker p l => p < 192 && l < 32
  | .blockComplete p l => p < 192 && l < 32
  | .blockRetire p => p < 192
  | .alleyEntryPoppable p => p < 192
  | .freezeSettle p => p < 192
  | .qdeadlock p => p < 192
  | .nestActivate p => p < 192
  | .nestStageTake p => p < 192
  | .nestDrain p => p < 192
  | .nestComplete p => p < 192
  | .scheduleLoad p => p < 192
  | .scheduleStart p => p < 192
  | .scheduleStep d n => d < 8 && n < 4
  | .pause d n _ _ => d < 8 && n < 4
  | .scheduleComplete d n => d < 8 && n < 4
  | .sweeperWriteback p _ _ => p < 192
  | .publishRequest p _ _ => p < 192
  | .publishComplete p => p < 192
  | .publishAcknowledgement _ _ _ _ => true
  | .kgNotice _ => true
  | .viewDerivation e => e < 64
  | .viewBlockWrite e => e < 64
  | .delayedReadRecheck p _ => p < 192
  | .launchAccept => true
  | .jobPlace => true
  | .aging => true
  | .saveComplete p => p < 192
  | .placementStart p => p < 192
  | .placementResume p => p < 192
  | .placementEnd p => p < 192
  | .readRequest _ => true
  | .readData _ => true
  | .remoteWrite _ => true
  | .remoteAtomic _ => true
  | .atomicResponse _ => true
  | .copyData _ => true
  | .scheduleData d n _ _ => d < 8 && n < 4
  | .credit l _ _ => l < 24
  | .timebaseExchange _ => true
  | .linkDown l => l < 24
  | .pathTimeout _ => true
  | .linkRekey l => l < 24
  | .bar2Read h _ _ => h < 2
  | .bar2Write h _ _ => h < 2
  | .partmodeWrite h _ => h < 2
  | .takeover h _ => h < 2
  | .invqtailWrite x => x.host < 2
  | .diepwrWrite d x => x.host < 2 && d < 8
  | .diePowerOnComplete d => d < 8
  | .pasidbind x => x.host < 2
  | .keyLoad n _ _ => n < 64
  | .journalclr x => x.host < 2
  | .alarmack x => x.host < 2
  | .registerWrite h _ _ => h < 2
  | .secondTierPortDown n => n < 16
  | .powerHold _ => true
  | .powerRemoval => true
  | .startUp _ => true
  | .securityAlarm n => n < 16
  | .jwaitTimeout p c => p < 192 && c < 6
  | .uncorrectableError _ => true
  | .hostPortLinkDown h => h < 2
  | .plazaRestart p => p < 192
  | .writebackAcknowledgement p c => p < 192 && (c < 6 || c = 9)
  | .cxlHostAccess h _ _ _ => h < 2
  | _ => false

/-- Well formed for the slice or unit that runs it. -/
def Instr.wf (i : Instr) : Bool := i.wfControl || i.wfLane || i.wfEvent

end Sys2Proof
end

