-- ==== Sys2Proof/Machine/Float.lean ====
section
/-! DEFINITION. Number formats and arithmetic (R190-R210): exact values, one rounding, conversions, MX and VQ2 groups, special
functions. -/
namespace Sys2Proof.Machine

/-- An exact value: NaN, an infinity, or (-1)^neg × m × 2^e (R194). -/
inductive Val where
  | nan
  | inf (neg : Bool)
  | fin (neg : Bool) (m : Nat) (e : Int)
  deriving DecidableEq, Repr

/-- A float format (R190): exponent and mantissa widths, bias, code of the largest finite magnitude, code of infinity and of
the canonical NaN where it has them. -/
structure Fmt where
  eb      : Nat
  mb      : Nat
  bias    : Nat
  maxCode : Nat
  infCode : Option Nat
  nanCode : Option Nat
  deriving DecidableEq, Repr

/-- FP32 (R190). -/
def fp32 : Fmt := ⟨8, 23, 127, 0x7F7FFFFF, some 0x7F800000, some 0x7FC00000⟩
/-- BF16 (R190). -/
def bf16 : Fmt := ⟨8, 7, 127, 0x7F7F, some 0x7F80, some 0x7FC0⟩
/-- FP16 (R190). -/
def fp16 : Fmt := ⟨5, 10, 15, 0x7BFF, some 0x7C00, some 0x7E00⟩
/-- E4M3 (R190). -/
def e4m3 : Fmt := ⟨4, 3, 7, 0x7E, none, some 0x7F⟩
/-- E5M2 (R190). -/
def e5m2 : Fmt := ⟨5, 2, 15, 0x7B, some 0x7C, some 0x7E⟩
/-- E2M1 (R190, R191). -/
def e2m1 : Fmt := ⟨2, 1, 1, 7, none, none⟩
/-- Place of the sign bit. -/
def Fmt.signAt (f : Fmt) : Nat := f.eb + f.mb

/-- The value of a code (R190). -/
def decodeF (f : Fmt) (code : Nat) : Val :=
  let neg := bit code f.signAt
  let mag := code % 2 ^ f.signAt
  if some mag = f.infCode then .inf neg
  else if f.maxCode < mag then .nan
  else
    let e := mag / 2 ^ f.mb
    let m := mag % 2 ^ f.mb
    if e = 0 then .fin neg m (1 - f.bias - f.mb) else .fin neg (2 ^ f.mb + m) ((e : Int) - f.bias - f.mb)

/-- The code with a sign. -/
def signCode (f : Fmt) (neg : Bool) (mag : Nat) : Nat := if neg then mag + 2 ^ f.signAt else mag
/-- The canonical NaN of a format; +0 where it has none (R195). -/
def nanOf (f : Fmt) : Nat := f.nanCode.getD 0

/-- Whether a magnitude n plus a rest rounds up (R194): rnd 0 nearest-even, 1 toward zero, 2 down, 3 up. `rem` of `full` is the
discarded part, `sticky` a part beyond it. -/
def roundsUp (rnd : Nat) (neg : Bool) (n rem full : Nat) (sticky : Bool) : Bool :=
  let inexact := rem != 0 || sticky
  if rnd = 0 then full < 2 * rem || (2 * rem == full && full != 0 && (sticky || n % 2 == 1))
  else if rnd = 1 then false
  else if rnd = 2 then neg && inexact
  else !neg && inexact

/-- The unbounded-exponent code of m × 2^e, m > 0 (R194): the format's mantissa width and subnormal spacing. -/
def roundCode (f : Fmt) (rnd : Nat) (neg : Bool) (m : Nat) (e : Int) (sticky : Bool) : Nat :=
  let emin : Int := 1 - f.bias
  let ex : Int := Nat.log2 m + e
  let ex' : Int := if ex < emin then emin else ex
  let sh : Int := ex' - f.mb - e
  let n := if sh ≤ 0 then m * 2 ^ (-sh).toNat else m / 2 ^ sh.toNat
  let full := if sh ≤ 0 then 0 else 2 ^ sh.toNat
  let rem := if sh ≤ 0 then 0 else m % 2 ^ sh.toNat
  (ex' - emin).toNat * 2 ^ f.mb + n + b2n (roundsUp rnd neg n rem full sticky)

/-- The result of a magnitude beyond the format (R195, rows 3 to 6); `finite` says whether the source was. -/
def overflowCode (f : Fmt) (rnd : Nat) (sat finite neg : Bool) : Nat :=
  let towardZero := rnd == 1 || (rnd == 2 && !neg) || (rnd == 3 && neg)
  if sat || (finite && towardZero) then f.maxCode
  else match f.infCode with
    | some i => i
    | none => f.nanCode.getD f.maxCode

/-- Rounds a value with a sticky part into a format (R194, R195). -/
def roundSticky (f : Fmt) (rnd : Nat) (sat : Bool) (v : Val) (sticky : Bool) : Nat :=
  match v with
  | .nan => nanOf f
  | .inf neg => signCode f neg (overflowCode f rnd sat false neg)
  | .fin neg m e =>
    if m = 0 then signCode f neg 0
    else
      let c := roundCode f rnd neg m e sticky
      signCode f neg (if c ≤ f.maxCode then c else overflowCode f rnd sat true neg)
/-- Rounds an exact value into a format (R194, R195). -/
def roundTo (f : Fmt) (rnd : Nat) (sat : Bool) (v : Val) : Nat := roundSticky f rnd sat v false
/-- RoundNE (R9) without saturation. -/
def roundNE (f : Fmt) (v : Val) : Nat := roundTo f 0 false v

/-- The sign of a value. -/
def Val.neg : Val → Bool
  | .nan => false
  | .inf n => n
  | .fin n _ _ => n
/-- The value with its sign changed. -/
def Val.flip : Val → Val
  | .nan => .nan
  | .inf n => .inf (!n)
  | .fin n m e => .fin (!n) m e
/-- The magnitude. -/
def Val.abs : Val → Val
  | .nan => .nan
  | .inf _ => .inf false
  | .fin _ m e => .fin false m e
/-- A finite value times 2^k. -/
def Val.scale (v : Val) (k : Int) : Val :=
  match v with
  | .fin n m e => .fin n m (e + k)
  | o => o
/-- NaN. -/
def Val.isNan (v : Val) : Bool := v == .nan
/-- Zero of either sign. -/
def Val.isZero : Val → Bool
  | .fin _ m _ => m == 0
  | _ => false
/-- An integer as an exact value. -/
def Val.ofInt (z : Int) : Val := .fin (decide (z < 0)) z.natAbs 0
/-- The signed integer m × 2^(e - lo) of a finite value, lo ≤ e. -/
def scaledInt (neg : Bool) (m : Nat) (e lo : Int) : Int :=
  let n : Int := (m * 2 ^ (e - lo).toNat : Nat)
  if neg then -n else n
/-- Exact sum (R203): an exact zero sum is +0, except when both terms are -0. -/
def Val.add (a b : Val) : Val :=
  match a, b with
  | .nan, _ => .nan
  | _, .nan => .nan
  | .inf x, .inf y => if x == y then .inf x else .nan
  | .inf x, _ => .inf x
  | _, .inf y => .inf y
  | .fin x m e, .fin y n d =>
    if m = 0 then (if n = 0 then .fin (x && y) 0 0 else .fin y n d)
    else if n = 0 then .fin x m e
    else
      let lo := if e < d then e else d
      let z := scaledInt x m e lo + scaledInt y n d lo
      if z = 0 then .fin false 0 0 else .fin (decide (z < 0)) z.natAbs lo
/-- Exact difference. -/
def Val.sub (a b : Val) : Val := a.add b.flip
/-- Exact product; 0 × ∞ is NaN. -/
def Val.mul (a b : Val) : Val :=
  match a, b with
  | .nan, _ => .nan
  | _, .nan => .nan
  | .inf x, .inf y => .inf (x != y)
  | .inf x, .fin y n _ => if n = 0 then .nan else .inf (x != y)
  | .fin x m _, .inf y => if m = 0 then .nan else .inf (x != y)
  | .fin x m e, .fin y n d => .fin (x != y) (m * n) (e + d)
/-- Comparison of finite or infinite values as numbers (-0 = +0): -1, 0 or 1; none if either is NaN. -/
def Val.cmp (a b : Val) : Option Int :=
  match a, b with
  | .nan, _ => none
  | _, .nan => none
  | .inf x, .inf y => some (if x == y then 0 else if x then -1 else 1)
  | .inf x, _ => some (if x then -1 else 1)
  | _, .inf y => some (if y then 1 else -1)
  | .fin x m e, .fin y n d =>
    let lo := if e < d then e else d
    let p := scaledInt x m e lo
    let q := scaledInt y n d lo
    some (if p < q then -1 else if p = q then 0 else 1)
/-- a < b. -/
def Val.lt (a b : Val) : Bool := a.cmp b == some (-1)

/-- The value of an FP32 word. -/
def f32 (w : W32) : Val := decodeF fp32 w.toNat
/-- RoundNE into FP32. -/
def toF32 (v : Val) : W32 := BitVec.ofNat 32 (roundNE fp32 v)
/-- FP32 sum, rounded once (R64, R209). -/
def fadd32 (a b : W32) : W32 := toF32 ((f32 a).add (f32 b))

/-- The float format of an element type code 0-5 (R22). -/
def typeFmt (t : Nat) : Option Fmt :=
  if t = 0 then some fp32 else if t = 1 then some bf16 else if t = 2 then some fp16 else if t = 3 then some e4m3
  else if t = 4 then some e5m2 else if t = 5 then some e2m1 else none
/-- A signed integer type (R22). -/
def typeSigned (t : Nat) : Bool := t == 7 || t == 9 || t == 11
/-- The value of an E8M0 code (R192). -/
def decodeE8 (c : Nat) : Val := if c = 255 then .nan else .fin false 1 ((c : Int) - 127)
/-- The integer of an integer element (R193). -/
def elemInt (t code : Nat) : Int := if typeSigned t then sgn (typeWidth t) code else (code : Int)
/-- The exact value of an element of type t (R190-R193). -/
def elemVal (t code : Nat) : Val :=
  match typeFmt t with
  | some f => decodeF f code
  | none => if t = 6 then decodeE8 code else .ofInt (elemInt t code)

/-- The exponent of the largest power of two not above m × 2^e, m > 0. -/
def floorLog2 (m : Nat) (e : Int) : Int := Nat.log2 m + e
/-- Conversion into E8M0 (R197). -/
def toE8 (rnd : Nat) (sat : Bool) (v : Val) : Nat :=
  match v with
  | .nan => 255
  | .inf _ => 255
  | .fin neg m e =>
    if neg || m = 0 then 0
    else
      let l := Nat.log2 m
      let lo := floorLog2 m e
      let exact := m == 2 ^ l
      let tie := 2 * m == 3 * 2 ^ l
      let up := !exact && (rnd == 3 || (rnd == 0 && (3 * 2 ^ l < 2 * m || (tie && (lo + 127) % 2 != 0))))
      let ex := if up then lo + 1 else lo
      if ex < -127 then 0 else if 127 < ex then (if sat then 254 else 255) else (ex + 127).toNat
/-- A value rounded to an integer (R196). -/
def toInt (rnd : Nat) (neg : Bool) (m : Nat) (e : Int) : Int :=
  let n := if 0 ≤ e then m * 2 ^ e.toNat else m / 2 ^ (-e).toNat
  let full := if 0 ≤ e then 0 else 2 ^ (-e).toNat
  let rem := if 0 ≤ e then 0 else m % 2 ^ (-e).toNat
  let r : Int := (n + b2n (roundsUp rnd neg n rem full false) : Nat)
  if neg then -r else r
/-- Smallest and largest value of an integer type. -/
def intMin (t : Nat) : Int := if typeSigned t then -(2 ^ (typeWidth t - 1) : Int) else 0
def intMax (t : Nat) : Int := if typeSigned t then (2 ^ (typeWidth t - 1) : Int) - 1 else (2 ^ typeWidth t : Int) - 1
/-- An integer clamped to a type's range. -/
def clampInt (t : Nat) (z : Int) : Int := if z < intMin t then intMin t else if intMax t < z then intMax t else z
/-- Code of an integer in type t. -/
def intCode (t : Nat) (z : Int) : Nat := wrapInt (typeWidth t) z
/-- Conversion of an exact value into element type t (R195-R197); `fromInt` says that the source type is an integer. -/
def convVal (t rnd : Nat) (sat fromInt : Bool) (v : Val) : Nat :=
  match typeFmt t with
  | some f => roundTo f rnd sat v
  | none =>
    if t = 6 then toE8 rnd sat v
    else match v with
      | .nan => 0
      | .inf neg => intCode t (if neg then intMin t else intMax t)
      | .fin neg m e =>
        let z := toInt rnd neg m e
        if fromInt && !sat then intCode t z else intCode t (clampInt t z)
/-- Conversion of an element of type g into type t (R194-R197). -/
def convElem (g t rnd : Nat) (sat : Bool) (code : Nat) : Nat := convVal t rnd sat (decide (7 ≤ g)) (elemVal g code)

/-- The element format and emax of an MX format code 0x10-0x12 (R120, R199). -/
def mxFmt (f : Nat) : Fmt := if f = 0x10 then e4m3 else if f = 0x11 then e5m2 else e2m1
def mxEmax (f : Nat) : Int := if f = 0x10 then 8 else if f = 0x11 then 15 else 2
/-- NaN or infinite. -/
def Val.special : Val → Bool
  | .fin _ _ _ => false
  | _ => true
/-- The exponent of the largest magnitude of a group, none if every element is zero (R199, R202). -/
def groupExp : List Val → Option Int
  | [] => none
  | .fin _ m e :: t =>
    if m = 0 then groupExp t
    else match groupExp t with
      | none => some (floorLog2 m e)
      | some x => some (if x < floorLog2 m e then floorLog2 m e else x)
  | _ :: t => groupExp t
/-- The scale byte of a group with exponent x (R199, R202): x + 127. Above 127 E8M0 has no code for it (R192) and no rule states the byte: a
free value (log 6). -/
def scaleCode (x : Int) : Nat := if x ≤ 127 then (x + 127).toNat else (Config.wideScale x).toNat
/-- Quantises a group into an MX format: the scale and the codes (R199). -/
def quantMx (f : Nat) (xs : List Val) : Nat × List Nat :=
  if xs.any Val.special then (255, xs.map fun _ => 0)
  else match groupExp xs with
    | none => (0, xs.map fun v => signCode (mxFmt f) v.neg 0)
    | some ex =>
      let x := if ex - mxEmax f < -127 then -127 else ex - mxEmax f
      (scaleCode x, xs.map fun v => roundTo (mxFmt f) 0 true (v.scale (-x)))
/-- The decoded value of an MX element under a scale byte (R198). -/
def decodeMx (f scale code : Nat) : Val :=
  if scale = 255 then .nan else (decodeF (mxFmt f) code).scale ((scale : Int) - 127)
/-- The magnitude of a codebook byte (R200). -/
def bookMag (b : Nat) : Val := decodeF e4m3 (b % 128)
/-- The value of weight i of a VQ2 index under a scale byte, with the shape's table bytes as one 64-bit word (R201). -/
def decodeVq (scale index : Nat) (shape : BitVec 64) (i : Nat) : Val :=
  if scale = 255 then .nan
  else
    let v := (bookMag (vecBytes shape i 1)).scale ((scale : Int) - 127)
    if bit index (8 + i) then v.flip else v
/-- The distance of a run of eight from a shape (R202), as FP32 bits. -/
def vqDist (ys : List Val) (shape : BitVec 64) : W32 :=
  (ys.zip (List.range 8)).foldl (fun d yi =>
    let e := f32 (toF32 (yi.1.abs.sub (bookMag (vecBytes shape yi.2 1))))
    toF32 ((f32 d).add (f32 (toF32 (e.mul e))))) 0
/-- The better of two candidate shapes: the finite, smaller distance; ties to the first (R202). -/
def vqBetter (a b : Nat × W32) : Nat × W32 :=
  if (f32 a.2).isNan then (if (f32 b.2).isNan then a else b) else if (f32 b.2).lt (f32 a.2) then b else a
/-- The shape chosen for a run of eight (R202). -/
def vqShape (book : Nat → BitVec 64) (ys : List Val) : Nat :=
  let first := (0, vqDist ys (book 0))
  (((List.range 256).drop 1).foldl (fun best t => vqBetter best (t, vqDist ys (book t))) first).1
/-- The largest magnitude's exponent over a codebook table, none if it is zero (R202). -/
def bookExp (book : Nat → BitVec 64) : Option Int :=
  groupExp ((List.range 256).flatMap fun t => (List.range 8).map fun i => bookMag (vecBytes (book t) i 1))
/-- Quantises a group of 32 into VQ2: the scale and the four indices (R202). -/
def quantVq (book : Nat → BitVec 64) (xs : List Val) : Nat × List Nat :=
  if xs.any Val.special then (255, [0, 0, 0, 0])
  else match groupExp xs, bookExp book with
    | some a, some t =>
      let x := if a - t < -127 then -127 else a - t
      (scaleCode x, (List.range 4).map fun r =>
        let run := (xs.drop (8 * r)).take 8
        let ys := run.map fun v => f32 (toF32 (v.scale (-x)))
        let signs := (run.zip (List.range 8)).foldl (fun acc vi => acc + b2n (vi.1.neg && !vi.1.isZero) * 2 ^ vi.2) 0
        signs * 256 + vqShape book ys)
    | _, _ => (0, [0, 0, 0, 0])

/-- Fixed-point places of the special functions' working values. -/
def fixBits : Nat := 128
/-- ln 2 and π in fixed point. -/
def fixLn2 : Nat := 0xb17217f7d1cf79abc9e3b39803f2f6af
def fixPi : Nat := 0x3243f6a8885a308d313198a2e03707344
/-- Product of two fixed-point numbers. -/
def fixMul (a b : Nat) : Nat := a * b / 2 ^ fixBits
/-- Sum of x^k / k! for k from i on, `term` being the i-th; n more terms. -/
def expSeries (x : Nat) : Nat → Nat → Nat → Nat
  | 0, _, _ => 0
  | n + 1, i, term => term + expSeries x n (i + 1) (fixMul term x / (i + 1))
/-- e^x of a fixed-point x below 2. -/
def fixExp (x : Nat) : Nat := expSeries x 48 0 (2 ^ fixBits)
/-- Fraction bits of log2 of y, 1 ≤ y < 2 in fixed point, by repeated squaring; n bits of weight 2^-1 and below. -/
def logBits : Nat → Nat → Nat → Nat
  | 0, _, acc => acc
  | n + 1, y, acc =>
    let z := fixMul y y
    if 2 ^ (fixBits + 1) ≤ z then logBits n (z / 2) (2 * acc + 1) else logBits n z (2 * acc)
/-- Integer square root by bits: the largest r below 2^n with r² ≤ v. -/
def isqrtBits (v : Nat) : Nat → Nat → Nat
  | 0, r => r
  | n + 1, r => let t := r + 2 ^ n; if t * t ≤ v then isqrtBits v n t else isqrtBits v n r
/-- Integer square root. -/
def isqrt (v : Nat) : Nat := isqrtBits v (Nat.log2 v / 2 + 1) 0
/-- 1 - z/6 × (1 - z/20 × …), the factor of sin t = t × factor with z = t²; n terms from i on. -/
def sinFactor (z : Nat) : Nat → Nat → Nat
  | 0, _ => 2 ^ fixBits
  | n + 1, i => 2 ^ fixBits - fixMul z (sinFactor z n (i + 1)) / ((2 * i) * (2 * i + 1))

/-- An approximation as m × 2^e, and whether it is the exact result. -/
structure Approx where
  neg   : Bool
  m     : Nat
  e     : Int
  exact : Bool

/-- 2^x for x = ±m × 2^e (R205): of an x that is no whole number, more than a power of two, which keeps what rounds down to one on its side. -/
def approxExp2 (neg : Bool) (m : Nat) (e : Int) : Approx :=
  let fx : Int := scaledInt neg m 0 0
  let v : Int := if 0 ≤ e + fixBits then fx * 2 ^ (e + fixBits).toNat else fx / 2 ^ (-(e + fixBits)).toNat
  let i : Int := v / 2 ^ fixBits
  let f : Nat := (v % 2 ^ fixBits).toNat
  let whole := 0 ≤ e || m % 2 ^ (-e).toNat == 0
  if whole then ⟨false, 1, i, true⟩ else ⟨false, Nat.max (2 ^ fixBits + 1) (fixExp (fixMul f fixLn2)), i - fixBits, false⟩
/-- log2 x for x = m × 2^e > 0 (R205). -/
def approxLog2 (m : Nat) (e : Int) : Approx :=
  let l := Nat.log2 m
  let y := m * 2 ^ fixBits / 2 ^ l
  let frac := logBits 100 y 0
  let v : Int := ((l : Int) + e) * 2 ^ 100 + frac
  ⟨decide (v < 0), v.natAbs, -100, m == 2 ^ l⟩
/-- 1/√x for x = m × 2^e > 0 (R205). -/
def approxRsqrt (m : Nat) (e : Int) : Approx :=
  let odd := e % 2 != 0
  let m' := if odd then 2 * m else m
  let e' : Int := if odd then e - 1 else e
  let k := 80 + Nat.log2 m'
  let q := 2 ^ (2 * k) / m'
  let r := isqrt q
  ⟨false, r, -(k : Int) - e' / 2, decide (2 ^ (2 * k) % m' = 0 ∧ r * r = q)⟩
/-- tanh x for x = m × 2^e > 0 (R205). -/
def approxTanh (neg : Bool) (m : Nat) (e : Int) : Approx :=
  let ex := floorLog2 m e
  if ex < -20 then
    let z := m * m * 2 ^ fixBits / 2 ^ (-2 * e).toNat
    let factor := 2 ^ fixBits - z / 3 + fixMul z z * 2 / 15
    ⟨neg, m * factor - 1, e - fixBits, false⟩
  else if 6 < ex then ⟨neg, 2 ^ fixBits - 1, -(fixBits : Int), false⟩
  else
    let x := if 0 ≤ e then m * 2 ^ (e.toNat + fixBits) else m * 2 ^ fixBits / 2 ^ (-e).toNat
    let t := fixMul (2 * x) (2 ^ (2 * fixBits) / fixLn2)
    let i := t / 2 ^ fixBits
    let u := 2 ^ (2 * fixBits) / (fixExp (fixMul (t % 2 ^ fixBits) fixLn2) * 2 ^ i)
    ⟨neg, (2 ^ fixBits - u) * 2 ^ fixBits / (2 ^ fixBits + u), -(fixBits : Int), false⟩
/-- sin(π r) for r = m × 2^e with 0 < r ≤ 1/2. -/
def approxSinPi (neg : Bool) (m : Nat) (e : Int) : Approx :=
  let t := if 0 ≤ e + fixBits then m * 2 ^ (e + fixBits).toNat else m / 2 ^ (-(e + fixBits)).toNat
  let x := fixMul t fixPi
  ⟨neg, fixMul (m * 2 ^ fixBits) fixPi * sinFactor (fixMul x x) 30 1, e - 2 * fixBits, false⟩
/-- sin(π x) for the fraction x = n / 2^k, n ≥ 0, not a whole number: reduced to 0 < r ≤ 1/2 (R205). -/
def sinPiFrac (neg : Bool) (n k : Nat) : Approx :=
  let r := n % 2 ^ (k + 1)
  let neg' := neg != decide (2 ^ k < r)
  let r1 := if 2 ^ k < r then r - 2 ^ k else r
  let r2 := if 2 ^ k < 2 * r1 then 2 ^ k - r1 else r1
  if 2 * r2 = 2 ^ k then ⟨neg', 1, 0, true⟩ else approxSinPi neg' r2 (-(k : Int))

/-- The magnitude that a code of FP32 stands for, in units of 2^low. -/
def codeUnits (code : Nat) (low : Int) : Nat :=
  let x : Nat := code / 2 ^ 23
  let shift : Int := (if x = 0 then 1 else (x : Int)) - 150 - low
  (if x = 0 then code else code % 2 ^ 23 + 2 ^ 23) * 2 ^ shift.toNat
/-- A finite code at most two units of the last place from the exact result: the unit is the spacing of FP32 at that result (R205). -/
def Approx.near (a : Approx) (code : Nat) : Bool :=
  let unit := (if floorLog2 a.m a.e < -126 then -126 else floorLog2 a.m a.e) - 23
  let low := if a.e < -149 then a.e else -149
  code < 0x7F800000 && ((codeUnits code low : Int) - (a.m * 2 ^ (a.e - low).toNat : Nat)).natAbs ≤ 2 * 2 ^ (unit - low).toNat
/-- A result known to be below 1 in magnitude (R205). -/
def Approx.belowOne (a : Approx) : Approx :=
  if a.exact || floorLog2 a.m a.e < 0 then a else ⟨a.neg, 2 ^ fixBits - 1, -(fixBits : Int), false⟩
/-- An FP32 value at most two units of the last place from the exact result, chosen by a slip among all there are (R205, log 12). -/
def slipCode (slip : Nat) (a : Approx) : W32 :=
  let c := roundCode fp32 1 false a.m a.e false
  let near := ((List.range 9).map fun i => c + i - 4).filter a.near
  BitVec.ofNat 32 (signCode fp32 a.neg (near.getD (slip % Nat.max 1 near.length) c))

/-- RCP, correctly rounded (R205, R206). -/
def sfnRcp (v : Val) : W32 :=
  match v with
  | .nan => 0x7FC00000
  | .inf n => BitVec.ofNat 32 (signCode fp32 n 0)
  | .fin n m e =>
    if m = 0 then BitVec.ofNat 32 (signCode fp32 n 0x7F800000)
    else
      let k := Nat.log2 m + 40
      BitVec.ofNat 32 (roundSticky fp32 0 false (.fin n (2 ^ k / m) (-(k : Int) - e)) (2 ^ k % m != 0))
/-- SQRT, correctly rounded (R205, R206). -/
def sfnSqrt (v : Val) : W32 :=
  match v with
  | .nan => 0x7FC00000
  | .inf n => if n then 0x7FC00000 else 0x7F800000
  | .fin n m e =>
    if m = 0 then BitVec.ofNat 32 (signCode fp32 n 0)
    else if n then 0x7FC00000
    else
      let m' := if e % 2 != 0 then m * 2 ^ 61 else m * 2 ^ 60
      let e' : Int := if e % 2 != 0 then e - 61 else e - 60
      let r := isqrt m'
      BitVec.ofNat 32 (roundSticky fp32 0 false (.fin false r (e' / 2)) (r * r != m'))
/-- Functions within 2 ulp (R205) with the special values of R206: 2 RSQRT, 3 EXP2, 4 LOG2, 5 SIN, 6 COS, 7 TANH. -/
def sfnNear (slip : Nat) (fn : Nat) (v : Val) : W32 :=
  let nan : W32 := 0x7FC00000
  match v with
  | .nan => nan
  | .inf n =>
    if fn = 2 then (if n then nan else 0) else if fn = 3 then (if n then 0 else 0x7F800000)
    else if fn = 4 then (if n then nan else 0x7F800000) else if fn = 7 then (if n then 0xBF800000 else 0x3F800000) else nan
  | .fin n m e =>
    let whole := decide (0 ≤ e) || m % 2 ^ (-e).toNat == 0
    let k := if 0 ≤ e then 0 else (-e).toNat
    let num := if 0 ≤ e then m * 2 ^ e.toNat else m
    if fn = 2 then
      if m = 0 then (if n then 0xFF800000 else 0x7F800000) else if n then nan else slipCode slip (approxRsqrt m e)
    else if fn = 3 then
      if !n && 7 ≤ floorLog2 m e && m != 0 then 0x7F800000
      else if m = 0 then 0x3F800000
      else if n && 9 ≤ floorLog2 m e then slipCode slip ⟨false, 1, -600, false⟩
      else
        let a := approxExp2 n m e
        if a.exact && -149 ≤ a.e then BitVec.ofNat 32 (roundNE fp32 (.fin false a.m a.e)) else slipCode slip { a with exact := false }
    else if fn = 4 then
      if m = 0 then 0xFF800000 else if n then nan
      else if whole && num = 1 && k = 0 then 0 else if num = 2 ^ k then 0 else slipCode slip (approxLog2 m e)
    else if fn = 5 then
      if m = 0 then BitVec.ofNat 32 (signCode fp32 n 0)
      else if whole then BitVec.ofNat 32 (signCode fp32 n 0)
      else slipCode slip (sinPiFrac n num k).belowOne
    else if fn = 6 then
      if whole then (if num / 2 ^ k % 2 = 0 then 0x3F800000 else 0xBF800000)
      else if num % 2 ^ k = 2 ^ (k - 1) then 0
      else slipCode slip (sinPiFrac false (2 * num + 2 ^ k) (k + 1)).belowOne
    else if m = 0 then BitVec.ofNat 32 (signCode fp32 n 0) else slipCode slip (approxTanh n m e).belowOne
/-- VSFN's function of one FP32 word (R205, R206, R215): 0 RCP, 1 SQRT, others within 2 ulp. -/
def sfn (fn : Nat) (x : W32) : W32 :=
  if fn = 0 then sfnRcp (f32 x) else if fn = 1 then sfnSqrt (f32 x)
  else sfnNear (Config.specialSlip fn x) fn (f32 x)

end Sys2Proof.Machine
end

