-- ==== Sys2Proof/Machine/Flags.lean ====
section
/-! DEFINITION. Comparisons: the part has no flags (R37), so every condition is a result of its own: branches (R42), set
instructions (R38, R40), WAITM (R61), VCMP (R158), minimum and maximum (R149). -/
namespace Sys2Proof.Machine

/-- 1 or 0 at width w. -/
def bv1 {w : Nat} (b : Bool) : BitVec w := if b then 1 else 0
/-- WAITM's conditions at the access width (R61): 0 eq, 1 ne, 2 ge, 3 gen, 4 lt, 5 ltn, 6 any. -/
def waitCond {w : Nat} (cond : Nat) (v b : BitVec w) : Bool :=
  if cond = 0 then v == b else if cond = 1 then v != b else if cond = 2 then b.sle v else if cond = 3 then b.ule v
  else if cond = 4 then v.slt b else if cond = 5 then v.ult b else v &&& b != 0
/-- VCMP's conditions (R158): 0 eq, 1 ne, 2 lt, 3 le, 4 gt, 5 ge, 6 un, from a comparison that is none for unordered. -/
def compareCond (cond : Nat) (c : Option Int) : Bool :=
  match c with
  | none => cond == 1 || cond == 6
  | some z =>
    if cond = 0 then z == 0 else if cond = 1 then z != 0 else if cond = 2 then decide (z < 0) else if cond = 3 then decide (z ≤ 0)
    else if cond = 4 then decide (0 < z) else if cond = 5 then decide (0 ≤ z) else false
/-- The comparison of two integers as -1, 0 or 1. -/
def intCmp (a b : Int) : Int := if a < b then -1 else if a = b then 0 else 1
/-- Two words of type t (0 FP32, 11 I32, 12 N32) compared (R158). -/
def typedCmp (t : Nat) (a b : W32) : Option Int :=
  if t = 0 then (f32 a).cmp (f32 b) else if t = 11 then some (intCmp a.toInt b.toInt) else some (intCmp a.toNat b.toNat)
/-- Float minimum or maximum over codes of one format (R149): the non-NaN operand, the canonical NaN if both are NaN, -0 below +0. -/
def floatPick (f : Fmt) (max : Bool) (a b : Nat) : Nat :=
  let x := decodeF f a
  let y := decodeF f b
  if x.isNan then (if y.isNan then nanOf f else b)
  else if y.isNan then a
  else
    let less := x.lt y || (x.isZero && y.isZero && x.neg && !y.neg)
    if less != max then a else b
/-- VFMIN and VFMAX (R149). -/
def fpick32 (max : Bool) (a b : W32) : W32 := BitVec.ofNat 32 (floatPick fp32 max a.toNat b.toNat)

end Sys2Proof.Machine
end

