-- ==== Sys2Proof/Decode.lean ====
section
/-! DEFINITION. The decoder of each slice (R12-R27), total on any words, refusing by `none` what raises ILLEGAL by the words
alone (R14), and after it the encoder. A word is a number below 2^32; the extension word E is 0 where the class has none. -/
namespace Sys2Proof

/-- Bits hi to lo of a word (R9). -/
def fld (w hi lo : Nat) : Nat := w / 2 ^ lo % 2 ^ (hi + 1 - lo)
/-- The major opcode (R11). -/
def major (w : Nat) : Nat := fld w 31 25
/-- A double-word class: majors 0x60-0x7F (R12). -/
def isDouble (w : Nat) : Bool := 0x60 ≤ major w

/-- Shared subset as the control core reads it (R16, R25): majors 0x00-0x07. -/
def sharedControl0 (m w _e : Nat) : Option Instr :=
  if m == 0x1 then
    if ((fld w 24 17) < 32 && (fld w 16 9) < 32 && (fld w 8 1) < 32) then some (.add (fld w 24 17) (fld w 16 9) (fld w 8 1) (fld w 0 0))
    else none
  else if m == 0x2 then
    if ((fld w 24 17) < 32 && (fld w 16 9) < 32 && (fld w 8 1) < 32) then some (.sub (fld w 24 17) (fld w 16 9) (fld w 8 1) (fld w 0 0))
    else none
  else if m == 0x3 then
    if ((fld w 24 17) < 32 && (fld w 16 9) < 32 && (fld w 8 1) < 32) then some (.and (fld w 24 17) (fld w 16 9) (fld w 8 1) (fld w 0 0))
    else none
  else if m == 0x4 then
    if ((fld w 24 17) < 32 && (fld w 16 9) < 32 && (fld w 8 1) < 32) then some (.or (fld w 24 17) (fld w 16 9) (fld w 8 1) (fld w 0 0))
    else none
  else if m == 0x5 then
    if ((fld w 24 17) < 32 && (fld w 16 9) < 32 && (fld w 8 1) < 32) then some (.xor (fld w 24 17) (fld w 16 9) (fld w 8 1) (fld w 0 0))
    else none
  else if m == 0x6 then
    if ((fld w 24 17) < 32 && (fld w 16 9) < 32 && (fld w 8 1) < 32) then some (.andn (fld w 24 17) (fld w 16 9) (fld w 8 1) (fld w 0 0))
    else none
  else if m == 0x7 then
    if ((fld w 24 17) < 32 && (fld w 16 9) < 32 && (fld w 8 1) < 32) then some (.shl (fld w 24 17) (fld w 16 9) (fld w 8 1) (fld w 0 0))
    else none
  else none

/-- Shared subset as the control core reads it (R16, R25): majors 0x08-0x0f. -/
def sharedControl1 (m w _e : Nat) : Option Instr :=
  if m == 0x8 then
    if ((fld w 24 17) < 32 && (fld w 16 9) < 32 && (fld w 8 1) < 32) then some (.shr (fld w 24 17) (fld w 16 9) (fld w 8 1) (fld w 0 0))
    else none
  else if m == 0x9 then
    if ((fld w 24 17) < 32 && (fld w 16 9) < 32 && (fld w 8 1) < 32) then some (.sra (fld w 24 17) (fld w 16 9) (fld w 8 1) (fld w 0 0))
    else none
  else if m == 0xa then
    if ((fld w 24 17) < 32 && (fld w 16 9) < 32 && (fld w 8 1) < 32) then some (.mul (fld w 24 17) (fld w 16 9) (fld w 8 1) (fld w 0 0))
    else none
  else if m == 0xb then
    if ((fld w 24 17) < 32 && (fld w 16 9) < 32 && (fld w 8 1) < 32) then some (.mulhs (fld w 24 17) (fld w 16 9) (fld w 8 1) (fld w 0 0))
    else none
  else if m == 0xc then
    if ((fld w 24 17) < 32 && (fld w 16 9) < 32 && (fld w 8 1) < 32) then some (.mulhn (fld w 24 17) (fld w 16 9) (fld w 8 1) (fld w 0 0))
    else none
  else if m == 0xd then
    if ((fld w 24 17) < 32 && (fld w 16 9) < 32 && (fld w 8 1) < 32) then some (.divs (fld w 24 17) (fld w 16 9) (fld w 8 1) (fld w 0 0))
    else none
  else if m == 0xe then
    if ((fld w 24 17) < 32 && (fld w 16 9) < 32 && (fld w 8 1) < 32) then some (.divn (fld w 24 17) (fld w 16 9) (fld w 8 1) (fld w 0 0))
    else none
  else if m == 0xf then
    if ((fld w 24 17) < 32 && (fld w 16 9) < 32 && (fld w 8 1) < 32) then some (.rems (fld w 24 17) (fld w 16 9) (fld w 8 1) (fld w 0 0))
    else none
  else none

/-- Shared subset as the control core reads it (R16, R25): majors 0x10-0x17. -/
def sharedControl2 (m w _e : Nat) : Option Instr :=
  if m == 0x10 then
    if ((fld w 24 17) < 32 && (fld w 16 9) < 32 && (fld w 8 1) < 32) then some (.remn (fld w 24 17) (fld w 16 9) (fld w 8 1) (fld w 0 0))
    else none
  else if m == 0x11 then
    if ((fld w 24 17) < 32 && (fld w 16 9) < 32 && (fld w 8 1) < 32) then some (.min (fld w 24 17) (fld w 16 9) (fld w 8 1) (fld w 0 0))
    else none
  else if m == 0x12 then
    if ((fld w 24 17) < 32 && (fld w 16 9) < 32 && (fld w 8 1) < 32) then some (.max (fld w 24 17) (fld w 16 9) (fld w 8 1) (fld w 0 0))
    else none
  else if m == 0x13 then
    if ((fld w 24 17) < 32 && (fld w 16 9) < 32 && (fld w 8 1) < 32) then some (.minn (fld w 24 17) (fld w 16 9) (fld w 8 1) (fld w 0 0))
    else none
  else if m == 0x14 then
    if ((fld w 24 17) < 32 && (fld w 16 9) < 32 && (fld w 8 1) < 32) then some (.maxn (fld w 24 17) (fld w 16 9) (fld w 8 1) (fld w 0 0))
    else none
  else if m == 0x15 then
    if ((fld w 24 17) < 32 && (fld w 16 9) < 32 && (fld w 8 1) < 32) then some (.slt (fld w 24 17) (fld w 16 9) (fld w 8 1) (fld w 0 0))
    else none
  else if m == 0x16 then
    if ((fld w 24 17) < 32 && (fld w 16 9) < 32 && (fld w 8 1) < 32) then some (.sltn (fld w 24 17) (fld w 16 9) (fld w 8 1) (fld w 0 0))
    else none
  else if m == 0x17 then
    if ((fld w 24 17) < 32 && (fld w 16 9) < 32 && (fld w 8 1) < 32) then some (.seq (fld w 24 17) (fld w 16 9) (fld w 8 1) (fld w 0 0))
    else none
  else none

/-- Shared subset as the control core reads it (R16, R25): majors 0x18-0x1f. -/
def sharedControl3 (m w _e : Nat) : Option Instr :=
  if m == 0x18 then
    if ((fld w 24 17) < 32 && (fld w 16 9) < 32 && (fld w 8 1) < 32) then some (.sh1add (fld w 24 17) (fld w 16 9) (fld w 8 1) (fld w 0 0))
    else none
  else if m == 0x19 then
    if ((fld w 24 17) < 32 && (fld w 16 9) < 32 && (fld w 8 1) < 32) then some (.sh2add (fld w 24 17) (fld w 16 9) (fld w 8 1) (fld w 0 0))
    else none
  else if m == 0x1a then
    if ((fld w 24 17) < 32 && (fld w 16 9) < 32 && (fld w 8 1) < 32) then some (.sh3add (fld w 24 17) (fld w 16 9) (fld w 8 1) (fld w 0 0))
    else none
  else if m == 0x1b then
    if fld w 8 1 == 0 && ((fld w 24 17) < 32 && (fld w 16 9) < 32) then some (.clz (fld w 24 17) (fld w 16 9) (fld w 0 0))
    else none
  else if m == 0x1c then
    if fld w 8 1 == 0 && ((fld w 24 17) < 32 && (fld w 16 9) < 32) then some (.popc (fld w 24 17) (fld w 16 9) (fld w 0 0))
    else none
  else if m == 0x1d then
    if ((fld w 24 17) < 32 && (fld w 16 9) < 32 && (fld w 8 1) < 32) then some (.sne (fld w 24 17) (fld w 16 9) (fld w 8 1) (fld w 0 0))
    else none
  else if m == 0x1e then
    if ((fld w 24 17) < 32 && (fld w 16 9) < 32) then some (.addi (fld w 24 17) (fld w 16 9) (fld w 8 0))
    else none
  else if m == 0x1f then
    if ((fld w 24 17) < 32 && (fld w 16 9) < 32) then some (.andi (fld w 24 17) (fld w 16 9) (fld w 8 0))
    else none
  else none

/-- Shared subset as the control core reads it (R16, R25): majors 0x20-0x27. -/
def sharedControl4 (m w _e : Nat) : Option Instr :=
  if m == 0x20 then
    if ((fld w 24 17) < 32 && (fld w 16 9) < 32) then some (.ori (fld w 24 17) (fld w 16 9) (fld w 8 0))
    else none
  else if m == 0x21 then
    if ((fld w 24 17) < 32 && (fld w 16 9) < 32) then some (.xori (fld w 24 17) (fld w 16 9) (fld w 8 0))
    else none
  else if m == 0x22 then
    if ((fld w 24 17) < 32 && (fld w 16 9) < 32 && (fld w 8 0) < 64) then some (.shli (fld w 24 17) (fld w 16 9) (fld w 8 0))
    else none
  else if m == 0x23 then
    if ((fld w 24 17) < 32 && (fld w 16 9) < 32 && (fld w 8 0) < 64) then some (.shri (fld w 24 17) (fld w 16 9) (fld w 8 0))
    else none
  else if m == 0x24 then
    if ((fld w 24 17) < 32 && (fld w 16 9) < 32 && (fld w 8 0) < 64) then some (.srai (fld w 24 17) (fld w 16 9) (fld w 8 0))
    else none
  else if m == 0x25 then
    if ((fld w 24 17) < 32 && (fld w 16 9) < 32) then some (.slti (fld w 24 17) (fld w 16 9) (fld w 8 0))
    else none
  else if m == 0x26 then
    if ((fld w 24 17) < 32 && (fld w 16 9) < 32) then some (.sltni (fld w 24 17) (fld w 16 9) (fld w 8 0))
    else none
  else if m == 0x27 then
    if ((fld w 24 17) < 32) then some (.li (fld w 24 17) (fld w 16 0))
    else none
  else none

/-- Shared subset as the control core reads it (R16, R25): majors 0x28-0x2f. -/
def sharedControl5 (m w _e : Nat) : Option Instr :=
  if m == 0x28 then
    if fld w 16 16 == 0 && ((fld w 24 17) < 32) then some (.lih (fld w 24 17) (fld w 15 0))
    else none
  else if m == 0x29 then
    if ((fld w 24 17) < 32 && (fld w 16 9) < 32) then some (.beq (fld w 24 17) (fld w 16 9) (fld w 8 0))
    else none
  else if m == 0x2a then
    if ((fld w 24 17) < 32 && (fld w 16 9) < 32) then some (.bne (fld w 24 17) (fld w 16 9) (fld w 8 0))
    else none
  else if m == 0x2b then
    if ((fld w 24 17) < 32 && (fld w 16 9) < 32) then some (.blt (fld w 24 17) (fld w 16 9) (fld w 8 0))
    else none
  else if m == 0x2c then
    if ((fld w 24 17) < 32 && (fld w 16 9) < 32) then some (.bge (fld w 24 17) (fld w 16 9) (fld w 8 0))
    else none
  else if m == 0x2d then
    if ((fld w 24 17) < 32 && (fld w 16 9) < 32) then some (.bltn (fld w 24 17) (fld w 16 9) (fld w 8 0))
    else none
  else if m == 0x2e then
    if ((fld w 24 17) < 32 && (fld w 16 9) < 32) then some (.bgen (fld w 24 17) (fld w 16 9) (fld w 8 0))
    else none
  else if m == 0x2f then
    if true then some (.j (fld w 24 0))
    else none
  else none

/-- Shared subset as the control core reads it (R16, R25): majors 0x30-0x37. -/
def sharedControl6 (m w _e : Nat) : Option Instr :=
  if m == 0x30 then
    if true then some (.call (fld w 24 0))
    else none
  else if m == 0x31 then
    if ((fld w 24 17) < 32 && (fld w 16 9) < 32) then some (.jalr (fld w 24 17) (fld w 16 9) (fld w 8 0))
    else none
  else if m == 0x32 then
    if ((fld w 24 17) < 32 && ((fld w 16 8) != 0) && (((fld w 5 4) == 0 && (fld w 3 0) == 0))) then some (.loop (fld w 24 17) (fld w 16 8) (fld w 7 6) (fld w 5 4) (fld w 3 0))
    else none
  else if m == 0x33 then
    if (((fld w 16 8) != 0) && (((fld w 5 4) == 0 && (fld w 3 0) == 0))) then some (.loopi (fld w 24 17) (fld w 16 8) (fld w 7 6) (fld w 5 4) (fld w 3 0))
    else none
  else if m == 0x34 then
    if fld w 24 16 == 0 then some (.fence (fld w 15 0))
    else none
  else if m == 0x35 then
    if fld w 16 8 == 0 && ((fld w 24 17) < 32) then some (.fqry (fld w 24 17) (fld w 7 0))
    else none
  else none

/-- Shared subset as the control core reads it (R16, R25): majors 0x38-0x3f. -/
def sharedControl7 (m w _e : Nat) : Option Instr :=
  if m == 0x3f then
    if fld w 24 0 == 0 then some (.nop)
    else none
  else none

/-- Shared subset as the lanes read it (R16, R25): majors 0x00-0x07. -/
def sharedLane0 (m w _e : Nat) : Option Instr :=
  if m == 0x1 then
    if ((fld w 24 17) < 192 && (fld w 16 9) < 192 && (fld w 8 1) < 192 && (fld w 0 0) == 0) then some (.add (fld w 24 17) (fld w 16 9) (fld w 8 1) (fld w 0 0))
    else none
  else if m == 0x2 then
    if ((fld w 24 17) < 192 && (fld w 16 9) < 192 && (fld w 8 1) < 192 && (fld w 0 0) == 0) then some (.sub (fld w 24 17) (fld w 16 9) (fld w 8 1) (fld w 0 0))
    else none
  else if m == 0x3 then
    if ((fld w 24 17) < 192 && (fld w 16 9) < 192 && (fld w 8 1) < 192 && (fld w 0 0) == 0) then some (.and (fld w 24 17) (fld w 16 9) (fld w 8 1) (fld w 0 0))
    else none
  else if m == 0x4 then
    if ((fld w 24 17) < 192 && (fld w 16 9) < 192 && (fld w 8 1) < 192 && (fld w 0 0) == 0) then some (.or (fld w 24 17) (fld w 16 9) (fld w 8 1) (fld w 0 0))
    else none
  else if m == 0x5 then
    if ((fld w 24 17) < 192 && (fld w 16 9) < 192 && (fld w 8 1) < 192 && (fld w 0 0) == 0) then some (.xor (fld w 24 17) (fld w 16 9) (fld w 8 1) (fld w 0 0))
    else none
  else if m == 0x6 then
    if ((fld w 24 17) < 192 && (fld w 16 9) < 192 && (fld w 8 1) < 192 && (fld w 0 0) == 0) then some (.andn (fld w 24 17) (fld w 16 9) (fld w 8 1) (fld w 0 0))
    else none
  else if m == 0x7 then
    if ((fld w 24 17) < 192 && (fld w 16 9) < 192 && (fld w 8 1) < 192 && (fld w 0 0) == 0) then some (.shl (fld w 24 17) (fld w 16 9) (fld w 8 1) (fld w 0 0))
    else none
  else none

/-- Shared subset as the lanes read it (R16, R25): majors 0x08-0x0f. -/
def sharedLane1 (m w _e : Nat) : Option Instr :=
  if m == 0x8 then
    if ((fld w 24 17) < 192 && (fld w 16 9) < 192 && (fld w 8 1) < 192 && (fld w 0 0) == 0) then some (.shr (fld w 24 17) (fld w 16 9) (fld w 8 1) (fld w 0 0))
    else none
  else if m == 0x9 then
    if ((fld w 24 17) < 192 && (fld w 16 9) < 192 && (fld w 8 1) < 192 && (fld w 0 0) == 0) then some (.sra (fld w 24 17) (fld w 16 9) (fld w 8 1) (fld w 0 0))
    else none
  else if m == 0xa then
    if ((fld w 24 17) < 192 && (fld w 16 9) < 192 && (fld w 8 1) < 192 && (fld w 0 0) == 0) then some (.mul (fld w 24 17) (fld w 16 9) (fld w 8 1) (fld w 0 0))
    else none
  else if m == 0xb then
    if ((fld w 24 17) < 192 && (fld w 16 9) < 192 && (fld w 8 1) < 192 && (fld w 0 0) == 0) then some (.mulhs (fld w 24 17) (fld w 16 9) (fld w 8 1) (fld w 0 0))
    else none
  else if m == 0xc then
    if ((fld w 24 17) < 192 && (fld w 16 9) < 192 && (fld w 8 1) < 192 && (fld w 0 0) == 0) then some (.mulhn (fld w 24 17) (fld w 16 9) (fld w 8 1) (fld w 0 0))
    else none
  else none

/-- Shared subset as the lanes read it (R16, R25): majors 0x10-0x17. -/
def sharedLane2 (m w _e : Nat) : Option Instr :=
  if m == 0x11 then
    if ((fld w 24 17) < 192 && (fld w 16 9) < 192 && (fld w 8 1) < 192 && (fld w 0 0) == 0) then some (.min (fld w 24 17) (fld w 16 9) (fld w 8 1) (fld w 0 0))
    else none
  else if m == 0x12 then
    if ((fld w 24 17) < 192 && (fld w 16 9) < 192 && (fld w 8 1) < 192 && (fld w 0 0) == 0) then some (.max (fld w 24 17) (fld w 16 9) (fld w 8 1) (fld w 0 0))
    else none
  else if m == 0x13 then
    if ((fld w 24 17) < 192 && (fld w 16 9) < 192 && (fld w 8 1) < 192 && (fld w 0 0) == 0) then some (.minn (fld w 24 17) (fld w 16 9) (fld w 8 1) (fld w 0 0))
    else none
  else if m == 0x14 then
    if ((fld w 24 17) < 192 && (fld w 16 9) < 192 && (fld w 8 1) < 192 && (fld w 0 0) == 0) then some (.maxn (fld w 24 17) (fld w 16 9) (fld w 8 1) (fld w 0 0))
    else none
  else if m == 0x15 then
    if ((fld w 24 17) < 192 && (fld w 16 9) < 192 && (fld w 8 1) < 192 && (fld w 0 0) == 0) then some (.slt (fld w 24 17) (fld w 16 9) (fld w 8 1) (fld w 0 0))
    else none
  else if m == 0x16 then
    if ((fld w 24 17) < 192 && (fld w 16 9) < 192 && (fld w 8 1) < 192 && (fld w 0 0) == 0) then some (.sltn (fld w 24 17) (fld w 16 9) (fld w 8 1) (fld w 0 0))
    else none
  else if m == 0x17 then
    if ((fld w 24 17) < 192 && (fld w 16 9) < 192 && (fld w 8 1) < 192 && (fld w 0 0) == 0) then some (.seq (fld w 24 17) (fld w 16 9) (fld w 8 1) (fld w 0 0))
    else none
  else none

/-- Shared subset as the lanes read it (R16, R25): majors 0x18-0x1f. -/
def sharedLane3 (m w _e : Nat) : Option Instr :=
  if m == 0x18 then
    if ((fld w 24 17) < 192 && (fld w 16 9) < 192 && (fld w 8 1) < 192 && (fld w 0 0) == 0) then some (.sh1add (fld w 24 17) (fld w 16 9) (fld w 8 1) (fld w 0 0))
    else none
  else if m == 0x19 then
    if ((fld w 24 17) < 192 && (fld w 16 9) < 192 && (fld w 8 1) < 192 && (fld w 0 0) == 0) then some (.sh2add (fld w 24 17) (fld w 16 9) (fld w 8 1) (fld w 0 0))
    else none
  else if m == 0x1a then
    if ((fld w 24 17) < 192 && (fld w 16 9) < 192 && (fld w 8 1) < 192 && (fld w 0 0) == 0) then some (.sh3add (fld w 24 17) (fld w 16 9) (fld w 8 1) (fld w 0 0))
    else none
  else if m == 0x1b then
    if fld w 8 1 == 0 && ((fld w 24 17) < 192 && (fld w 16 9) < 192 && (fld w 0 0) == 0) then some (.clz (fld w 24 17) (fld w 16 9) (fld w 0 0))
    else none
  else if m == 0x1c then
    if fld w 8 1 == 0 && ((fld w 24 17) < 192 && (fld w 16 9) < 192 && (fld w 0 0) == 0) then some (.popc (fld w 24 17) (fld w 16 9) (fld w 0 0))
    else none
  else if m == 0x1d then
    if ((fld w 24 17) < 192 && (fld w 16 9) < 192 && (fld w 8 1) < 192 && (fld w 0 0) == 0) then some (.sne (fld w 24 17) (fld w 16 9) (fld w 8 1) (fld w 0 0))
    else none
  else if m == 0x1e then
    if ((fld w 24 17) < 192 && (fld w 16 9) < 192) then some (.addi (fld w 24 17) (fld w 16 9) (fld w 8 0))
    else none
  else if m == 0x1f then
    if ((fld w 24 17) < 192 && (fld w 16 9) < 192) then some (.andi (fld w 24 17) (fld w 16 9) (fld w 8 0))
    else none
  else none

/-- Shared subset as the lanes read it (R16, R25): majors 0x20-0x27. -/
def sharedLane4 (m w _e : Nat) : Option Instr :=
  if m == 0x20 then
    if ((fld w 24 17) < 192 && (fld w 16 9) < 192) then some (.ori (fld w 24 17) (fld w 16 9) (fld w 8 0))
    else none
  else if m == 0x21 then
    if ((fld w 24 17) < 192 && (fld w 16 9) < 192) then some (.xori (fld w 24 17) (fld w 16 9) (fld w 8 0))
    else none
  else if m == 0x22 then
    if ((fld w 24 17) < 192 && (fld w 16 9) < 192 && (fld w 8 0) < 32) then some (.shli (fld w 24 17) (fld w 16 9) (fld w 8 0))
    else none
  else if m == 0x23 then
    if ((fld w 24 17) < 192 && (fld w 16 9) < 192 && (fld w 8 0) < 32) then some (.shri (fld w 24 17) (fld w 16 9) (fld w 8 0))
    else none
  else if m == 0x24 then
    if ((fld w 24 17) < 192 && (fld w 16 9) < 192 && (fld w 8 0) < 32) then some (.srai (fld w 24 17) (fld w 16 9) (fld w 8 0))
    else none
  else if m == 0x25 then
    if ((fld w 24 17) < 192 && (fld w 16 9) < 192) then some (.slti (fld w 24 17) (fld w 16 9) (fld w 8 0))
    else none
  else if m == 0x26 then
    if ((fld w 24 17) < 192 && (fld w 16 9) < 192) then some (.sltni (fld w 24 17) (fld w 16 9) (fld w 8 0))
    else none
  else if m == 0x27 then
    if ((fld w 24 17) < 192) then some (.li (fld w 24 17) (fld w 16 0))
    else none
  else none

/-- Shared subset as the lanes read it (R16, R25): majors 0x28-0x2f. -/
def sharedLane5 (m w _e : Nat) : Option Instr :=
  if m == 0x28 then
    if fld w 16 16 == 0 && ((fld w 24 17) < 192) then some (.lih (fld w 24 17) (fld w 15 0))
    else none
  else none

/-- Shared subset as the lanes read it (R16, R25): majors 0x30-0x37. -/
def sharedLane6 (m w _e : Nat) : Option Instr :=
  if m == 0x32 then
    if ((fld w 24 17) < 192 && ((fld w 16 8) != 0) && (((fld w 5 4) == 0 && (fld w 3 0) == 0) || ((fld w 5 4) == 1 && (fld w 3 0) != 0) || ((fld w 5 4) == 2 && (fld w 3 0) != 0 && (fld w 3 0) < 5) || (fld w 5 4) == 3)) then some (.loop (fld w 24 17) (fld w 16 8) (fld w 7 6) (fld w 5 4) (fld w 3 0))
    else none
  else if m == 0x33 then
    if (((fld w 16 8) != 0) && (((fld w 5 4) == 0 && (fld w 3 0) == 0) || ((fld w 5 4) == 1 && (fld w 3 0) != 0) || ((fld w 5 4) == 2 && (fld w 3 0) != 0 && (fld w 3 0) < 5) || (fld w 5 4) == 3)) then some (.loopi (fld w 24 17) (fld w 16 8) (fld w 7 6) (fld w 5 4) (fld w 3 0))
    else none
  else if m == 0x34 then
    if fld w 24 16 == 0 then some (.fence (fld w 15 0))
    else none
  else if m == 0x35 then
    if fld w 16 8 == 0 && ((fld w 24 17) < 192) then some (.fqry (fld w 24 17) (fld w 7 0))
    else none
  else none

/-- Shared subset as the lanes read it (R16, R25): majors 0x38-0x3f. -/
def sharedLane7 (m w _e : Nat) : Option Instr :=
  if m == 0x3f then
    if fld w 24 0 == 0 then some (.nop)
    else none
  else none

/-- Control-private majors (R26): majors 0x40-0x47. -/
def privateControl8 (m w _e : Nat) : Option Instr :=
  if m == 0x40 then
    if true then some (.ldb (fld w 24 20) (fld w 19 15) (fld w 14 11) (fld w 10 0))
    else none
  else if m == 0x41 then
    if true then some (.ldbn (fld w 24 20) (fld w 19 15) (fld w 14 11) (fld w 10 0))
    else none
  else if m == 0x42 then
    if true then some (.ldh (fld w 24 20) (fld w 19 15) (fld w 14 11) (fld w 10 0))
    else none
  else if m == 0x43 then
    if true then some (.ldhn (fld w 24 20) (fld w 19 15) (fld w 14 11) (fld w 10 0))
    else none
  else if m == 0x44 then
    if true then some (.ldw (fld w 24 20) (fld w 19 15) (fld w 14 11) (fld w 10 0))
    else none
  else if m == 0x45 then
    if true then some (.ldwn (fld w 24 20) (fld w 19 15) (fld w 14 11) (fld w 10 0))
    else none
  else if m == 0x46 then
    if true then some (.ldd (fld w 24 20) (fld w 19 15) (fld w 14 11) (fld w 10 0))
    else none
  else if m == 0x47 then
    if true then some (.stb (fld w 24 20) (fld w 19 15) (fld w 14 11) (fld w 10 0))
    else none
  else none

/-- Control-private majors (R26): majors 0x48-0x4f. -/
def privateControl9 (m w _e : Nat) : Option Instr :=
  if m == 0x48 then
    if true then some (.sth (fld w 24 20) (fld w 19 15) (fld w 14 11) (fld w 10 0))
    else none
  else if m == 0x49 then
    if true then some (.stw (fld w 24 20) (fld w 19 15) (fld w 14 11) (fld w 10 0))
    else none
  else if m == 0x4a then
    if true then some (.std (fld w 24 20) (fld w 19 15) (fld w 14 11) (fld w 10 0))
    else none
  else if m == 0x4b then
    if ((fld w 10 9) < 3) then some (.lda (fld w 24 20) (fld w 19 15) (fld w 14 11) (fld w 10 9) (fld w 8 8) (fld w 7 0))
    else none
  else if m == 0x4c then
    if ((fld w 10 9) < 3) then some (.strel (fld w 24 20) (fld w 19 15) (fld w 14 11) (fld w 10 9) (fld w 8 8) (fld w 7 0))
    else none
  else if m == 0x4d then
    if fld w 9 9 == 0 && ((fld w 7 6) < 3 && ((fld w 5 4) != 0 || (fld w 7 6) == 0) && (fld w 3 0) < 9) then some (.amo (fld w 24 20) (fld w 19 15) (fld w 14 10) (fld w 8 8) (fld w 7 6) (fld w 5 4) (fld w 3 0))
    else if fld w 7 0 == 9 && fld w 9 9 == 0 && fld w 24 20 == 0 then some (.amoAddc (fld w 19 15) (fld w 14 10) (fld w 8 8))
    else if fld w 9 0 == 266 && fld w 24 20 == 0 then some (.amoFaddc (fld w 19 15) (fld w 14 10))
    else none
  else if m == 0x4e then
    if fld w 9 6 == 0 && ((fld w 4 3) < 3 && (fld w 2 0) < 7) then some (.waitm (fld w 24 20) (fld w 19 15) (fld w 14 10) (fld w 5 5) (fld w 4 3) (fld w 2 0))
    else none
  else if m == 0x4f then
    if fld w 19 8 == 0 && (csrKnown (fld w 7 0)) then some (.csrr (fld w 24 20) (fld w 7 0))
    else if fld w 14 8 == 1 && (csrWritable (fld w 7 0)) then some (.csrw (fld w 24 20) (fld w 19 15) (fld w 7 0))
    else if fld w 14 8 == 2 && (csrWritable (fld w 7 0)) then some (.csrs (fld w 24 20) (fld w 19 15) (fld w 7 0))
    else if fld w 14 8 == 3 && (csrWritable (fld w 7 0)) then some (.csrc (fld w 24 20) (fld w 19 15) (fld w 7 0))
    else none
  else none

/-- Control-private majors (R26): majors 0x50-0x57. -/
def privateControla (m w _e : Nat) : Option Instr :=
  if m == 0x50 then
    if fld w 14 0 == 0 && fld w 24 20 == 0 then some (.icpf (fld w 19 15))
    else if fld w 14 0 == 1 && fld w 24 20 == 0 then some (.icinv (fld w 19 15))
    else if fld w 24 0 == 9 then some (.icinvAll)
    else if fld w 14 0 == 2 && fld w 24 20 == 0 then some (.dcpf (fld w 19 15))
    else if fld w 14 0 == 3 && fld w 24 20 == 0 then some (.dcwb (fld w 19 15))
    else if fld w 14 0 == 4 && fld w 24 20 == 0 then some (.dcinv (fld w 19 15))
    else none
  else if m == 0x51 then
    if fld w 14 3 == 0 && ((fld w 2 0) == 1 || (fld w 2 0) == 2 || (fld w 2 0) == 3 || (fld w 2 0) == 7) then some (.xlt (fld w 24 20) (fld w 19 15) (fld w 2 0))
    else none
  else if m == 0x52 then
    if fld w 19 0 == 0 then some (.hinv (fld w 24 20))
    else if fld w 24 0 == 1 then some (.hinvAll)
    else none
  else if m == 0x53 then
    if fld w 14 0 == 0 then some (.hget (fld w 24 20) (fld w 19 15))
    else if fld w 14 0 == 1 then some (.hgetva (fld w 24 20) (fld w 19 15))
    else none
  else if m == 0x54 then
    if fld w 14 4 == 0 && ((fld w 24 20) < 16) then some (.shld (fld w 24 20) (fld w 19 15) (fld w 3 0))
    else none
  else if m == 0x55 then
    if fld w 14 4 == 0 && ((fld w 24 20) < 16) then some (.shst (fld w 24 20) (fld w 19 15) (fld w 3 0))
    else none
  else if m == 0x56 then
    if fld w 14 10 == 0 && ((fld w 24 20) < 16 && (fld w 9 0) < 14) then some (.shset (fld w 24 20) (fld w 19 15) (fld w 9 0))
    else none
  else if m == 0x57 then
    if fld w 14 10 == 0 && ((fld w 19 15) < 16 && (fld w 9 0) < 14) then some (.shget (fld w 24 20) (fld w 19 15) (fld w 9 0))
    else none
  else none

/-- Control-private majors (R26): majors 0x58-0x5f. -/
def privateControlb (m w _e : Nat) : Option Instr :=
  if m == 0x58 then
    if fld w 9 0 == 0 && fld w 19 15 == 0 then some (.popp (fld w 24 20) (fld w 14 10))
    else if fld w 9 0 == 1 && fld w 19 15 == 0 then some (.poppn (fld w 24 20) (fld w 14 10))
    else none
  else if m == 0x59 then
    if fld w 14 0 == 0 then some (.bcancel (fld w 24 20) (fld w 19 15))
    else none
  else if m == 0x5a then
    if fld w 19 2 == 0 && ((fld w 1 0) < 3) then some (.bseq (fld w 24 20) (fld w 1 0))
    else none
  else if m == 0x5b then
    if fld w 14 0 == 0 && fld w 24 20 == 0 then some (.bwait (fld w 19 15))
    else none
  else if m == 0x5c then
    if fld w 24 6 == 0 then some (.twait (fld w 5 0))
    else if fld w 14 0 == 64 && fld w 24 20 == 0 then some (.twaitm (fld w 19 15))
    else none
  else if m == 0x5d then
    if fld w 19 6 == 0 then some (.ttest (fld w 24 20) (fld w 5 0))
    else if fld w 19 0 == 64 then some (.ttestOut (fld w 24 20))
    else if fld w 19 0 == 128 then some (.ttestFailed (fld w 24 20))
    else none
  else if m == 0x5e then
    if fld w 24 6 == 0 then some (.tfree (fld w 5 0))
    else if fld w 14 0 == 64 && fld w 24 20 == 0 then some (.tfreem (fld w 19 15))
    else none
  else if m == 0x5f then
    if fld w 14 0 == 0 && fld w 24 20 == 0 then some (.exit (fld w 19 15))
    else if fld w 3 0 == 1 && fld w 24 10 == 0 then some (.trap (fld w 9 4))
    else if fld w 9 0 == 2 then some (.sret (fld w 24 20) (fld w 19 15) (fld w 14 10))
    else if fld w 24 0 == 3 then some (.hret)
    else if fld w 9 0 == 4 then some (.wake (fld w 24 20) (fld w 19 15) (fld w 14 10))
    else if fld w 14 0 == 5 && fld w 24 20 == 0 then some (.ckpt (fld w 19 15))
    else if fld w 24 0 == 6 then some (.tbr)
    else none
  else none

/-- Control-private majors (R26): majors 0x60-0x67. -/
def privateControlc (m w e : Nat) : Option Instr :=
  if m == 0x60 then
    if fld w 19 0 == 0 then some (.lix (fld w 24 20) (fld e 31 0))
    else if fld w 19 0 == 1 then some (.lixh (fld w 24 20) (fld e 31 0))
    else none
  else if m == 0x61 then
    if fld w 9 0 == 0 && fld e 31 10 == 0 && ((fld e 8 7) < 3 && ((fld e 6 5) != 0 || (fld e 8 7) == 0)) then some (.cas (fld w 24 20) (fld w 19 15) (fld w 14 10) (fld e 9 9) (fld e 8 7) (fld e 6 5) (fld e 4 0))
    else none
  else if m == 0x62 then
    if fld w 9 0 == 0 && fld e 14 0 == 0 && fld e 22 22 == 0 && (((fld w 14 10) % 2 == 0) && ((fld e 21 15) < 64 || (fld e 21 15) == 127)) then some (.emit (fld w 24 20) (fld w 19 15) (fld w 14 10) (fld e 31 24) (fld e 23 23) (fld e 21 15))
    else none
  else if m == 0x63 then
    if fld w 9 5 == 0 && fld e 6 0 == 0 && fld e 22 22 == 0 && (((fld w 14 10) % 2 == 0) && ((fld e 21 15) < 64 || (fld e 21 15) == 127)) then some (.split (fld w 24 20) (fld w 19 15) (fld w 14 10) (fld w 4 0) (fld e 31 24) (fld e 23 23) (fld e 21 15) (fld e 14 7))
    else none
  else if m == 0x64 then
    if fld w 9 0 == 0 && fld w 24 20 == 0 && fld e 0 0 == 0 && (tokOk (fld e 27 22) (fld e 21 15) (fld e 14 8) (fld e 7 1)) then some (.cpy (fld w 19 15) (fld w 14 10) (fld e 31 28) (fld e 27 22) (fld e 21 15) (fld e 14 8) (fld e 7 1))
    else none
  else if m == 0x65 then
    if fld w 9 0 == 0 && fld w 24 20 == 0 && fld e 0 0 == 0 && (tokOk (fld e 27 22) (fld e 21 15) (fld e 14 8) (fld e 7 1)) then some (.cpyg (fld w 19 15) (fld w 14 10) (fld e 31 28) (fld e 27 22) (fld e 21 15) (fld e 14 8) (fld e 7 1))
    else none
  else if m == 0x66 then
    if fld w 9 0 == 0 && fld w 24 20 == 0 && fld e 0 0 == 0 && (tokOk (fld e 27 22) (fld e 21 15) (fld e 14 8) (fld e 7 1)) then some (.puth (fld w 19 15) (fld w 14 10) (fld e 31 28) (fld e 27 22) (fld e 21 15) (fld e 14 8) (fld e 7 1))
    else none
  else if m == 0x67 then
    if fld w 14 3 == 0 && fld w 24 20 == 0 && fld e 31 4 == 0 && ((fld w 2 0) < 6) then some (.mnsetLvl (fld w 2 0) (fld w 19 15) (fld e 3 0))
    else if fld w 14 0 == 6 && fld w 24 20 == 0 && fld e 31 8 == 0 && (((fld e 3 0) < 8 || (fld e 3 0) == 15) && ((fld e 7 4) < 8 || (fld e 7 4) == 15)) then some (.mnsetBase (fld w 19 15) (fld e 3 0) (fld e 7 4))
    else if fld w 9 0 == 7 && fld w 24 20 == 0 && fld e 31 0 == 0 then some (.mnsetCtl (fld w 19 15) (fld w 14 10))
    else none
  else none

/-- Control-private majors (R26): majors 0x68-0x6f. -/
def privateControld (m w e : Nat) : Option Instr :=
  if m == 0x68 then
    if fld w 24 0 == 0 && fld e 0 0 == 0 && fld e 31 28 == 0 && (tokOk (fld e 27 22) (fld e 21 15) (fld e 14 8) (fld e 7 1)) then some (.mgo (fld e 27 22) (fld e 21 15) (fld e 14 8) (fld e 7 1))
    else none
  else if m == 0x69 then
    if fld w 14 3 == 0 && fld w 24 20 == 0 && fld e 31 0 == 0 then some (.rset (fld w 2 0) (fld w 19 15))
    else none
  else if m == 0x6a then
    if fld w 19 5 == 0 && fld e 31 0 == 0 && ((fld w 4 3) < 3) then some (.rwait (fld w 24 20) (fld w 2 0) (fld w 4 3))
    else none
  else if m == 0x6b then
    if fld w 14 3 == 0 && fld w 24 20 == 0 && fld e 31 0 == 0 then some (.rmark (fld w 2 0) (fld w 19 15))
    else none
  else if m == 0x6c then
    if fld w 14 4 == 0 && fld w 24 20 == 0 && fld e 0 0 == 0 && fld e 31 28 == 0 && (tokOk (fld e 27 22) (fld e 21 15) (fld e 14 8) (fld e 7 1)) then some (.bfset (fld w 3 0) (fld w 19 15) (fld e 27 22) (fld e 21 15) (fld e 14 8) (fld e 7 1))
    else none
  else if m == 0x6d then
    if fld w 14 5 == 0 && fld e 0 0 == 0 && fld e 31 28 == 0 && ((fld w 24 20) < 4 && tokOk (fld e 27 22) (fld e 21 15) (fld e 14 8) (fld e 7 1)) then some (.cbld (fld w 24 20) (fld w 19 15) (fld w 4 0) (fld e 27 22) (fld e 21 15) (fld e 14 8) (fld e 7 1))
    else none
  else if m == 0x6e then
    if fld w 14 0 == 0 && fld e 31 0 == 0 then some (.launch (fld w 24 20) (fld w 19 15))
    else none
  else if m == 0x6f then
    if fld w 14 0 == 0 then some (.jwait (fld w 24 20) (fld w 19 15) (fld e 31 0))
    else none
  else none

/-- Control-private majors (R26): majors 0x70-0x77. -/
def privateControle (m w e : Nat) : Option Instr :=
  if m == 0x70 then
    if fld w 19 3 == 0 && fld e 31 0 == 0 && ((fld w 2 0) != 0) then some (.jbar (fld w 24 20) (fld w 2 0))
    else none
  else if m == 0x71 then
    if fld w 14 0 == 0 && fld e 31 0 == 0 then some (.viewreg (fld w 24 20) (fld w 19 15))
    else none
  else if m == 0x72 then
    if fld w 14 0 == 0 && fld e 31 0 == 0 then some (.viewdrop (fld w 24 20) (fld w 19 15))
    else none
  else if m == 0x73 then
    if fld w 14 2 == 0 && fld e 31 0 == 0 && ((fld w 1 0) < 3) then some (.viewpol (fld w 24 20) (fld w 19 15) (fld w 1 0))
    else none
  else if m == 0x74 then
    if fld w 14 2 == 0 && fld e 31 0 == 0 && ((fld w 1 0) < 3) then some (.viewtag (fld w 24 20) (fld w 19 15) (fld w 1 0))
    else none
  else if m == 0x75 then
    if fld w 14 0 == 0 && fld e 31 0 == 0 then some (.viewsync (fld w 24 20) (fld w 19 15))
    else none
  else if m == 0x76 then
    if fld w 9 2 == 0 && fld w 24 20 == 0 && fld e 0 0 == 0 && fld e 31 28 == 0 && (tokOk (fld e 27 22) (fld e 21 15) (fld e 14 8) (fld e 7 1)) then some (.lsched (fld w 1 0) (fld w 19 15) (fld w 14 10) (fld e 27 22) (fld e 21 15) (fld e 14 8) (fld e 7 1))
    else none
  else if m == 0x77 then
    if fld w 14 2 == 0 && fld w 24 20 == 0 && fld e 0 0 == 0 && fld e 31 28 == 0 && (tokOk (fld e 27 22) (fld e 21 15) (fld e 14 8) (fld e 7 1)) then some (.lgo (fld w 1 0) (fld w 19 15) (fld e 27 22) (fld e 21 15) (fld e 14 8) (fld e 7 1))
    else none
  else none

/-- Control-private majors (R26): majors 0x78-0x7f. -/
def privateControlf (m w e : Nat) : Option Instr :=
  if m == 0x78 then
    if fld w 14 3 == 0 && fld e 31 0 == 0 && ((fld w 2 0) < 6 && (2 < (fld w 2 0) || (fld w 19 15) == 0)) then some (.mstat (fld w 24 20) (fld w 2 0) (fld w 19 15))
    else none
  else none

/-- Lane-private majors (R27): majors 0x40-0x47. -/
def privateLane8 (m w _e : Nat) : Option Instr :=
  if m == 0x40 then
    if true then some (.vfadd (fld w 24 19) (fld w 18 12) (fld w 11 5) (fld w 4 3) (fld w 2 1) (fld w 0 0))
    else none
  else if m == 0x41 then
    if true then some (.vfsub (fld w 24 19) (fld w 18 12) (fld w 11 5) (fld w 4 3) (fld w 2 1) (fld w 0 0))
    else none
  else if m == 0x42 then
    if true then some (.vfmul (fld w 24 19) (fld w 18 12) (fld w 11 5) (fld w 4 3) (fld w 2 1) (fld w 0 0))
    else none
  else if m == 0x43 then
    if true then some (.vfmin (fld w 24 19) (fld w 18 12) (fld w 11 5) (fld w 4 3) (fld w 2 1) (fld w 0 0))
    else none
  else if m == 0x44 then
    if true then some (.vfmax (fld w 24 19) (fld w 18 12) (fld w 11 5) (fld w 4 3) (fld w 2 1) (fld w 0 0))
    else none
  else if m == 0x45 then
    if true then some (.viadd (fld w 24 19) (fld w 18 12) (fld w 11 5) (fld w 4 3) (fld w 2 1) (fld w 0 0))
    else none
  else if m == 0x46 then
    if true then some (.visub (fld w 24 19) (fld w 18 12) (fld w 11 5) (fld w 4 3) (fld w 2 1) (fld w 0 0))
    else none
  else if m == 0x47 then
    if true then some (.vimul (fld w 24 19) (fld w 18 12) (fld w 11 5) (fld w 4 3) (fld w 2 1) (fld w 0 0))
    else none
  else none

/-- Lane-private majors (R27): majors 0x48-0x4f. -/
def privateLane9 (m w _e : Nat) : Option Instr :=
  if m == 0x48 then
    if true then some (.vimin (fld w 24 19) (fld w 18 12) (fld w 11 5) (fld w 4 3) (fld w 2 1) (fld w 0 0))
    else none
  else if m == 0x49 then
    if true then some (.vimax (fld w 24 19) (fld w 18 12) (fld w 11 5) (fld w 4 3) (fld w 2 1) (fld w 0 0))
    else none
  else if m == 0x4a then
    if true then some (.vnmin (fld w 24 19) (fld w 18 12) (fld w 11 5) (fld w 4 3) (fld w 2 1) (fld w 0 0))
    else none
  else if m == 0x4b then
    if true then some (.vnmax (fld w 24 19) (fld w 18 12) (fld w 11 5) (fld w 4 3) (fld w 2 1) (fld w 0 0))
    else none
  else if m == 0x4c then
    if true then some (.vand (fld w 24 19) (fld w 18 12) (fld w 11 5) (fld w 4 3) (fld w 2 1) (fld w 0 0))
    else none
  else if m == 0x4d then
    if true then some (.vor (fld w 24 19) (fld w 18 12) (fld w 11 5) (fld w 4 3) (fld w 2 1) (fld w 0 0))
    else none
  else if m == 0x4e then
    if true then some (.vxor (fld w 24 19) (fld w 18 12) (fld w 11 5) (fld w 4 3) (fld w 2 1) (fld w 0 0))
    else none
  else if m == 0x4f then
    if true then some (.vshl (fld w 24 19) (fld w 18 12) (fld w 11 5) (fld w 4 3) (fld w 2 1) (fld w 0 0))
    else none
  else none

/-- Lane-private majors (R27): majors 0x50-0x57. -/
def privateLanea (m w _e : Nat) : Option Instr :=
  if m == 0x50 then
    if true then some (.vshr (fld w 24 19) (fld w 18 12) (fld w 11 5) (fld w 4 3) (fld w 2 1) (fld w 0 0))
    else none
  else if m == 0x51 then
    if true then some (.vsra (fld w 24 19) (fld w 18 12) (fld w 11 5) (fld w 4 3) (fld w 2 1) (fld w 0 0))
    else none
  else if m == 0x52 then
    if fld w 11 5 == 0 then some (.vmov (fld w 24 19) (fld w 18 12) (fld w 4 3) (fld w 2 1) (fld w 0 0))
    else if fld w 11 5 == 1 then some (.vmovScalar (fld w 24 19) (fld w 18 12) (fld w 4 3) (fld w 2 1) (fld w 0 0))
    else if fld w 11 5 == 2 && ((fld w 18 12) < 64) then some (.vmovScalarHigh (fld w 24 19) (fld w 18 12) (fld w 4 3) (fld w 2 1) (fld w 0 0))
    else none
  else if m == 0x53 then
    if fld w 18 12 == 0 then some (.vlid (fld w 24 19) (fld w 11 5) (fld w 4 3) (fld w 2 1) (fld w 0 0))
    else none
  else if m == 0x54 then
    if fld w 11 3 == 0 && fld w 24 19 == 0 && (72 ≤ (fld w 18 12)) then some (.vwin (fld w 18 12) (fld w 2 1) (fld w 0 0))
    else if fld w 11 3 == 4 && fld w 24 19 == 0 && (72 ≤ (fld w 18 12)) then some (.vwinadd (fld w 18 12) (fld w 2 1) (fld w 0 0))
    else none
  else if m == 0x55 then
    if fld w 4 0 == 0 && (((fld w 18 12) < 64 || (fld w 18 12) == 127) && ((fld w 11 5) < 64 || (fld w 11 5) == 127)) then some (.vwait (fld w 24 19) (fld w 18 12) (fld w 11 5))
    else none
  else if m == 0x56 then
    if fld w 24 0 == 0 then some (.vbend)
    else none
  else if m == 0x57 then
    if fld w 24 0 == 0 then some (.vrgn)
    else none
  else none

/-- Lane-private majors (R27): majors 0x58-0x5f. -/
def privateLaneb (m w _e : Nat) : Option Instr :=
  if m == 0x58 then
    if fld w 10 3 == 0 && fld w 24 20 == 0 && ((fld w 19 17) != 0) then some (.pand (fld w 19 17) (fld w 16 14) (fld w 13 11) (fld w 2 1) (fld w 0 0))
    else if fld w 10 3 == 1 && fld w 24 20 == 0 && ((fld w 19 17) != 0) then some (.por (fld w 19 17) (fld w 16 14) (fld w 13 11) (fld w 2 1) (fld w 0 0))
    else if fld w 10 3 == 2 && fld w 24 20 == 0 && ((fld w 19 17) != 0) then some (.pxor (fld w 19 17) (fld w 16 14) (fld w 13 11) (fld w 2 1) (fld w 0 0))
    else if fld w 10 3 == 3 && fld w 24 20 == 0 && ((fld w 19 17) != 0) then some (.pandn (fld w 19 17) (fld w 16 14) (fld w 13 11) (fld w 2 1) (fld w 0 0))
    else none
  else if m == 0x59 then
    if fld w 10 3 == 0 && ((fld w 24 17) < 192) then some (.pbal (fld w 24 17) (fld w 16 14) (fld w 13 11) (fld w 2 1) (fld w 0 0))
    else none
  else if m == 0x5a then
    if fld w 16 14 == 0 && fld w 24 20 == 0 && ((fld w 19 17) != 0 && (fld w 10 3) < 192) then some (.pset (fld w 19 17) (fld w 13 11) (fld w 10 3) (fld w 2 1) (fld w 0 0))
    else none
  else if m == 0x5b then
    if fld w 10 3 == 0 && ((fld w 24 17) < 192) then some (.ppopc (fld w 24 17) (fld w 16 14) (fld w 13 11) (fld w 2 1) (fld w 0 0))
    else none
  else if m == 0x5c then
    if fld w 10 3 == 0 && ((fld w 24 17) < 192) then some (.pfirst (fld w 24 17) (fld w 16 14) (fld w 13 11) (fld w 2 1) (fld w 0 0))
    else none
  else if m == 0x5d then
    if fld w 24 17 == 0 && ((fld w 10 3) < 192) then some (.pushp (fld w 16 14) (fld w 13 11) (fld w 10 3) (fld w 2 1) (fld w 0 0))
    else none
  else none

/-- Lane-private majors (R27): majors 0x60-0x67. -/
def privateLanec (m w e : Nat) : Option Instr :=
  if m == 0x60 then
    if fld w 4 3 == 0 && fld e 16 5 == 0 && fld e 31 25 == 0 && (valuOk (fld w 11 5) (fld e 4 0) (fld e 20 17)) then some (.valu (fld w 24 19) (fld w 18 12) (fld w 11 5) (fld e 4 0) (fld e 20 17) (fld e 24 22) (fld e 21 21) (fld w 2 1) (fld w 0 0))
    else none
  else if m == 0x61 then
    if fld w 4 3 == 0 && fld e 16 2 == 0 && ((fld e 20 17) < 3) then some (.vfma (fld w 24 19) (fld w 18 12) (fld w 11 5) (fld e 31 25) (fld e 1 0) (fld e 20 17) (fld e 24 22) (fld e 21 21) (fld w 2 1) (fld w 0 0))
    else none
  else if m == 0x62 then
    if fld w 11 3 == 0 && fld e 16 10 == 0 && (vcvtOk (fld e 31 25) (fld e 20 17) (fld e 3 0) (fld e 9 7)) then some (.vcvt (fld w 24 19) (fld w 18 12) (fld e 31 25) (fld e 20 17) (fld e 3 0) (fld e 5 4) (fld e 6 6) (fld e 9 7) (fld e 24 22) (fld e 21 21) (fld w 2 1) (fld w 0 0))
    else none
  else if m == 0x63 then
    if fld w 4 3 == 0 && fld w 24 22 == 0 && fld e 16 3 == 0 && fld e 31 25 == 0 && ((fld w 21 19) != 0 && (fld e 2 0) < 7 && ((fld e 20 17) == 0 || (((fld e 20 17) == 11 || (fld e 20 17) == 12) && (fld e 2 0) < 6))) then some (.vcmp (fld w 21 19) (fld w 18 12) (fld w 11 5) (fld e 2 0) (fld e 20 17) (fld e 24 22) (fld e 21 21) (fld w 2 1) (fld w 0 0))
    else none
  else if m == 0x64 then
    if fld w 4 3 == 0 && fld e 20 4 == 0 && fld e 31 25 == 0 then some (.vsel (fld w 24 19) (fld w 18 12) (fld w 11 5) (fld e 2 0) (fld e 3 3) (fld e 24 22) (fld e 21 21) (fld w 2 1) (fld w 0 0))
    else none
  else if m == 0x65 then
    if fld w 11 3 == 0 && fld e 20 3 == 0 && fld e 31 25 == 0 then some (.vsfn (fld w 24 19) (fld w 18 12) (fld e 2 0) (fld e 24 22) (fld e 21 21) (fld w 2 1) (fld w 0 0))
    else none
  else if m == 0x66 then
    if fld w 11 3 == 0 && fld e 4 3 == 0 && fld e 16 8 == 0 && fld e 31 25 == 0 && (vredOk (fld e 2 0) (fld e 7 5) (fld e 20 17)) then some (.vred (fld w 24 19) (fld w 18 12) (fld e 2 0) (fld e 7 5) (fld e 20 17) (fld e 24 22) (fld e 21 21) (fld w 2 1) (fld w 0 0))
    else none
  else if m == 0x67 then
    if fld w 11 3 == 0 && fld e 4 4 == 0 && fld e 16 8 == 0 && fld e 31 25 == 0 && (vredOk (fld e 2 0) (fld e 7 5) (fld e 20 17)) then some (.vscan (fld w 24 19) (fld w 18 12) (fld e 2 0) (fld e 3 3) (fld e 7 5) (fld e 20 17) (fld e 24 22) (fld e 21 21) (fld w 2 1) (fld w 0 0))
    else none
  else none

/-- Lane-private majors (R27): majors 0x68-0x6f. -/
def privateLaned (m w e : Nat) : Option Instr :=
  if m == 0x68 then
    if fld w 4 3 == 0 && fld e 10 8 == 0 && fld e 20 13 == 0 && fld e 31 25 == 0 && (vshflOk (fld w 11 5) (fld e 12 11) (fld e 7 5) (fld e 4 0)) then some (.vshfl (fld w 24 19) (fld w 18 12) (fld w 11 5) (fld e 12 11) (fld e 7 5) (fld e 4 0) (fld e 24 22) (fld e 21 21) (fld w 2 1) (fld w 0 0))
    else none
  else if m == 0x69 then
    if fld w 4 3 == 0 && fld e 16 1 == 0 && (((fld e 20 17) < 13 && (fld e 20 17) != 5) && ((fld e 0 0) == 1 || (fld e 31 25) == 0)) then some (.vperm (fld w 24 19) (fld w 18 12) (fld w 11 5) (fld e 31 25) (fld e 0 0) (fld e 20 17) (fld e 24 22) (fld e 21 21) (fld w 2 1) (fld w 0 0))
    else none
  else if m == 0x6a then
    if fld w 4 3 == 0 && fld e 20 8 == 0 && (((fld e 7 7) == 0 && (fld e 31 25) == 0) || ((fld e 7 7) == 1 && 72 ≤ (fld e 31 25) && (fld e 6 0) == 0)) then some (.vrotm (fld w 24 19) (fld w 18 12) (fld w 11 5) (fld e 31 25) (fld e 7 7) (fld e 6 0) (fld e 24 22) (fld e 21 21) (fld w 2 1) (fld w 0 0))
    else none
  else if m == 0x6b then
    if fld w 4 3 == 0 && fld e 16 4 == 0 && (vdotOk (fld e 20 17) (fld e 3 0)) then some (.vdot (fld w 24 19) (fld w 18 12) (fld w 11 5) (fld e 31 25) (fld e 20 17) (fld e 3 0) (fld e 24 22) (fld e 21 21) (fld w 2 1) (fld w 0 0))
    else none
  else if m == 0x6c then
    if fld w 11 3 == 0 && fld e 20 13 == 0 && ((fld e 12 5) < 192 && (fld e 1 0) < 3 && ((fld e 1 0) == 2 || (fld e 4 2) < 4)) then some (.vmxq (fld w 24 19) (fld w 18 12) (fld e 31 25) (fld e 12 5) (fld e 4 2) (fld e 1 0) (fld e 24 22) (fld e 21 21) (fld w 2 1) (fld w 0 0))
    else none
  else if m == 0x6d then
    if fld w 4 3 == 0 && fld e 20 4 == 0 && (vbitOk (fld w 11 5) (fld e 31 25) (fld e 3 0)) then some (.vbit (fld w 24 19) (fld w 18 12) (fld w 11 5) (fld e 31 25) (fld e 3 0) (fld e 24 22) (fld e 21 21) (fld w 2 1) (fld w 0 0))
    else none
  else if m == 0x6e then
    if fld w 4 3 == 0 && fld e 16 8 == 0 && fld e 31 25 == 0 && (((fld e 20 17) < 13 && (fld e 20 17) != 5) && (((fld e 7 7) == 0 && (fld w 11 5) == 0) || ((fld e 7 7) == 1 && 72 ≤ (fld w 11 5) && (fld e 6 0) == 0))) then some (.vbcast (fld w 24 19) (fld w 18 12) (fld w 11 5) (fld e 7 7) (fld e 6 0) (fld e 20 17) (fld e 24 22) (fld e 21 21) (fld w 2 1) (fld w 0 0))
    else none
  else if m == 0x6f then
    if fld w 4 3 == 0 && fld w 24 19 == 0 && fld e 20 13 == 0 && fld e 31 25 == 0 && ((fld e 7 0) < 192 && ((fld w 11 5) == 0 || (72 ≤ (fld w 11 5) && (fld e 12 8) == 0))) then some (.vgetl (fld e 7 0) (fld w 18 12) (fld w 11 5) (fld e 12 8) (fld e 24 22) (fld e 21 21) (fld w 2 1) (fld w 0 0))
    else none
  else none

/-- Lane-private majors (R27): majors 0x70-0x77. -/
def privateLanee (m w e : Nat) : Option Instr :=
  if m == 0x70 then
    if fld w 11 3 == 0 && fld e 12 8 == 0 && fld e 20 17 == 0 && fld e 31 25 == 0 && (72 ≤ (fld w 18 12)) then some (.vlds (fld w 24 19) (fld w 18 12) (fld e 7 0) (fld e 16 13) (fld e 24 22) (fld e 21 21) (fld w 2 1) (fld w 0 0))
    else none
  else if m == 0x71 then
    if fld w 4 3 == 0 && fld w 24 19 == 0 && fld e 12 8 == 0 && fld e 20 17 == 0 && fld e 31 25 == 0 && (72 ≤ (fld w 18 12)) then some (.vsts (fld w 18 12) (fld w 11 5) (fld e 7 0) (fld e 16 13) (fld e 24 22) (fld e 21 21) (fld w 2 1) (fld w 0 0))
    else none
  else if m == 0x72 then
    if fld w 4 3 == 0 && fld e 7 0 == 0 && fld e 31 25 == 0 && ((fld e 20 17) == 0 || (7 ≤ (fld e 20 17) && (fld e 20 17) < 13)) then some (.vldg (fld w 24 19) (fld w 18 12) (fld w 11 5) (fld e 12 8) (fld e 20 17) (fld e 16 13) (fld e 24 22) (fld e 21 21) (fld w 2 1) (fld w 0 0))
    else none
  else if m == 0x73 then
    if fld w 4 3 == 0 && fld w 24 19 == 0 && fld e 7 0 == 0 && ((fld e 20 17) == 0 || (7 ≤ (fld e 20 17) && (fld e 20 17) < 13)) then some (.vstg (fld w 18 12) (fld w 11 5) (fld e 31 25) (fld e 12 8) (fld e 20 17) (fld e 16 13) (fld e 24 22) (fld e 21 21) (fld w 2 1) (fld w 0 0))
    else none
  else if m == 0x74 then
    if fld w 11 3 == 0 && fld e 20 17 == 0 && fld e 31 25 == 0 && (72 ≤ (fld w 18 12)) then some (.vldu (fld w 24 19) (fld w 18 12) (fld e 12 8) (fld e 7 0) (fld e 16 13) (fld e 24 22) (fld e 21 21) (fld w 2 1) (fld w 0 0))
    else none
  else if m == 0x75 then
    if fld w 4 3 == 0 && fld w 24 19 == 0 && fld e 20 17 == 0 && fld e 31 25 == 0 && (72 ≤ (fld w 18 12)) then some (.vstu (fld w 18 12) (fld w 11 5) (fld e 12 8) (fld e 7 0) (fld e 16 13) (fld e 24 22) (fld e 21 21) (fld w 2 1) (fld w 0 0))
    else none
  else if m == 0x76 then
    if fld w 4 3 == 0 && (vamoOk (fld w 24 19) (fld e 7 6) (fld e 5 4) (fld e 3 0) (fld e 20 17)) then some (.vamo (fld w 24 19) (fld w 18 12) (fld w 11 5) (fld e 31 25) (fld e 12 8) (fld e 7 6) (fld e 5 4) (fld e 3 0) (fld e 20 17) (fld e 16 13) (fld e 24 22) (fld e 21 21) (fld w 2 1) (fld w 0 0))
    else none
  else if m == 0x77 then
    if fld w 11 3 == 0 && fld e 9 8 == 0 && fld e 20 17 == 0 && fld e 31 25 == 0 && (72 ≤ (fld w 18 12) && (fld e 12 11) < 3 && ((fld e 12 11) < 2 || (fld e 10 10) == 0)) then some (.vldb (fld w 24 19) (fld w 18 12) (fld e 12 11) (fld e 10 10) (fld e 7 0) (fld e 16 13) (fld e 24 22) (fld e 21 21) (fld w 2 1) (fld w 0 0))
    else none
  else none

/-- Lane-private majors (R27): majors 0x78-0x7f. -/
def privateLanef (m w e : Nat) : Option Instr :=
  if m == 0x78 then
    if fld w 4 3 == 0 && fld w 24 19 == 0 && fld e 9 8 == 0 && fld e 20 17 == 0 && fld e 31 25 == 0 && (72 ≤ (fld w 18 12) && ((fld e 12 11) == 0 || ((fld e 12 11) == 2 && (fld e 10 10) == 0))) then some (.vstb (fld w 18 12) (fld w 11 5) (fld e 12 11) (fld e 10 10) (fld e 7 0) (fld e 16 13) (fld e 24 22) (fld e 21 21) (fld w 2 1) (fld w 0 0))
    else none
  else none

/-- What the control core reads from first word w and, for a double-word class, extension word e; none where the words raise ILLEGAL (R12, R14). -/
def decodeControl (w e : Nat) : Option Instr :=
  let m := major w
  if m < 0x8 then sharedControl0 m w e
  else if m < 0x10 then sharedControl1 m w e
  else if m < 0x18 then sharedControl2 m w e
  else if m < 0x20 then sharedControl3 m w e
  else if m < 0x28 then sharedControl4 m w e
  else if m < 0x30 then sharedControl5 m w e
  else if m < 0x38 then sharedControl6 m w e
  else if m < 0x40 then sharedControl7 m w e
  else if m < 0x48 then privateControl8 m w e
  else if m < 0x50 then privateControl9 m w e
  else if m < 0x58 then privateControla m w e
  else if m < 0x60 then privateControlb m w e
  else if m < 0x68 then privateControlc m w e
  else if m < 0x70 then privateControld m w e
  else if m < 0x78 then privateControle m w e
  else if m < 0x80 then privateControlf m w e
  else none

/-- What a lane group reads from first word w and, for a double-word class, extension word e; none where the words raise ILLEGAL (R12, R14). -/
def decodeLane (w e : Nat) : Option Instr :=
  let m := major w
  if m < 0x8 then sharedLane0 m w e
  else if m < 0x10 then sharedLane1 m w e
  else if m < 0x18 then sharedLane2 m w e
  else if m < 0x20 then sharedLane3 m w e
  else if m < 0x28 then sharedLane4 m w e
  else if m < 0x30 then sharedLane5 m w e
  else if m < 0x38 then sharedLane6 m w e
  else if m < 0x40 then sharedLane7 m w e
  else if m < 0x48 then privateLane8 m w e
  else if m < 0x50 then privateLane9 m w e
  else if m < 0x58 then privateLanea m w e
  else if m < 0x60 then privateLaneb m w e
  else if m < 0x68 then privateLanec m w e
  else if m < 0x70 then privateLaned m w e
  else if m < 0x78 then privateLanee m w e
  else if m < 0x80 then privateLanef m w e
  else none

/-- The words of an instruction, first word first, from the same encoding tables; the steps without an encoding have none. -/
def encode : Instr → List Nat
  | .add d a b x => [0x2000000 + d * 131072 + a * 512 + b * 2 + x]
  | .sub d a b x => [0x4000000 + d * 131072 + a * 512 + b * 2 + x]
  | .and d a b x => [0x6000000 + d * 131072 + a * 512 + b * 2 + x]
  | .or d a b x => [0x8000000 + d * 131072 + a * 512 + b * 2 + x]
  | .xor d a b x => [0xa000000 + d * 131072 + a * 512 + b * 2 + x]
  | .andn d a b x => [0xc000000 + d * 131072 + a * 512 + b * 2 + x]
  | .shl d a b x => [0xe000000 + d * 131072 + a * 512 + b * 2 + x]
  | .shr d a b x => [0x10000000 + d * 131072 + a * 512 + b * 2 + x]
  | .sra d a b x => [0x12000000 + d * 131072 + a * 512 + b * 2 + x]
  | .mul d a b x => [0x14000000 + d * 131072 + a * 512 + b * 2 + x]
  | .mulhs d a b x => [0x16000000 + d * 131072 + a * 512 + b * 2 + x]
  | .mulhn d a b x => [0x18000000 + d * 131072 + a * 512 + b * 2 + x]
  | .divs d a b x => [0x1a000000 + d * 131072 + a * 512 + b * 2 + x]
  | .divn d a b x => [0x1c000000 + d * 131072 + a * 512 + b * 2 + x]
  | .rems d a b x => [0x1e000000 + d * 131072 + a * 512 + b * 2 + x]
  | .remn d a b x => [0x20000000 + d * 131072 + a * 512 + b * 2 + x]
  | .min d a b x => [0x22000000 + d * 131072 + a * 512 + b * 2 + x]
  | .max d a b x => [0x24000000 + d * 131072 + a * 512 + b * 2 + x]
  | .minn d a b x => [0x26000000 + d * 131072 + a * 512 + b * 2 + x]
  | .maxn d a b x => [0x28000000 + d * 131072 + a * 512 + b * 2 + x]
  | .slt d a b x => [0x2a000000 + d * 131072 + a * 512 + b * 2 + x]
  | .sltn d a b x => [0x2c000000 + d * 131072 + a * 512 + b * 2 + x]
  | .seq d a b x => [0x2e000000 + d * 131072 + a * 512 + b * 2 + x]
  | .sh1add d a b x => [0x30000000 + d * 131072 + a * 512 + b * 2 + x]
  | .sh2add d a b x => [0x32000000 + d * 131072 + a * 512 + b * 2 + x]
  | .sh3add d a b x => [0x34000000 + d * 131072 + a * 512 + b * 2 + x]
  | .clz d a x => [0x36000000 + d * 131072 + a * 512 + x]
  | .popc d a x => [0x38000000 + d * 131072 + a * 512 + x]
  | .sne d a b x => [0x3a000000 + d * 131072 + a * 512 + b * 2 + x]
  | .addi d a i => [0x3c000000 + d * 131072 + a * 512 + i]
  | .andi d a i => [0x3e000000 + d * 131072 + a * 512 + i]
  | .ori d a i => [0x40000000 + d * 131072 + a * 512 + i]
  | .xori d a i => [0x42000000 + d * 131072 + a * 512 + i]
  | .shli d a i => [0x44000000 + d * 131072 + a * 512 + i]
  | .shri d a i => [0x46000000 + d * 131072 + a * 512 + i]
  | .srai d a i => [0x48000000 + d * 131072 + a * 512 + i]
  | .slti d a i => [0x4a000000 + d * 131072 + a * 512 + i]
  | .sltni d a i => [0x4c000000 + d * 131072 + a * 512 + i]
  | .li d i => [0x4e000000 + d * 131072 + i]
  | .lih d i => [0x50000000 + d * 131072 + i]
  | .beq a b o => [0x52000000 + a * 131072 + b * 512 + o]
  | .bne a b o => [0x54000000 + a * 131072 + b * 512 + o]
  | .blt a b o => [0x56000000 + a * 131072 + b * 512 + o]
  | .bge a b o => [0x58000000 + a * 131072 + b * 512 + o]
  | .bltn a b o => [0x5a000000 + a * 131072 + b * 512 + o]
  | .bgen a b o => [0x5c000000 + a * 131072 + b * 512 + o]
  | .j o => [0x5e000000 + o]
  | .call o => [0x60000000 + o]
  | .jalr d a i => [0x62000000 + d * 131072 + a * 512 + i]
  | .loop c b l m p => [0x64000000 + c * 131072 + b * 256 + l * 64 + m * 16 + p]
  | .loopi c b l m p => [0x66000000 + c * 131072 + b * 256 + l * 64 + m * 16 + p]
  | .fence m => [0x68000000 + m]
  | .fqry d w => [0x6a000000 + d * 131072 + w]
  | .nop => [0x7e000000]
  | .ldb d a c i => [0x80000000 + d * 1048576 + a * 32768 + c * 2048 + i]
  | .ldbn d a c i => [0x82000000 + d * 1048576 + a * 32768 + c * 2048 + i]
  | .ldh d a c i => [0x84000000 + d * 1048576 + a * 32768 + c * 2048 + i]
  | .ldhn d a c i => [0x86000000 + d * 1048576 + a * 32768 + c * 2048 + i]
  | .ldw d a c i => [0x88000000 + d * 1048576 + a * 32768 + c * 2048 + i]
  | .ldwn d a c i => [0x8a000000 + d * 1048576 + a * 32768 + c * 2048 + i]
  | .ldd d a c i => [0x8c000000 + d * 1048576 + a * 32768 + c * 2048 + i]
  | .stb r a c i => [0x8e000000 + r * 1048576 + a * 32768 + c * 2048 + i]
  | .sth r a c i => [0x90000000 + r * 1048576 + a * 32768 + c * 2048 + i]
  | .stw r a c i => [0x92000000 + r * 1048576 + a * 32768 + c * 2048 + i]
  | .std r a c i => [0x94000000 + r * 1048576 + a * 32768 + c * 2048 + i]
  | .lda d a c s z o => [0x96000000 + d * 1048576 + a * 32768 + c * 2048 + s * 512 + z * 256 + o]
  | .strel r a c s z o => [0x98000000 + r * 1048576 + a * 32768 + c * 2048 + s * 512 + z * 256 + o]
  | .amo d a b z s o p => [0x9a000000 + d * 1048576 + a * 32768 + b * 1024 + z * 256 + s * 64 + o * 16 + p]
  | .amoAddc a b z => [0x9a000009 + a * 32768 + b * 1024 + z * 256]
  | .amoFaddc a b => [0x9a00010a + a * 32768 + b * 1024]
  | .waitm d a b z s c => [0x9c000000 + d * 1048576 + a * 32768 + b * 1024 + z * 32 + s * 8 + c]
  | .csrr d c => [0x9e000000 + d * 1048576 + c]
  | .csrw d a c => [0x9e000100 + d * 1048576 + a * 32768 + c]
  | .csrs d a c => [0x9e000200 + d * 1048576 + a * 32768 + c]
  | .csrc d a c => [0x9e000300 + d * 1048576 + a * 32768 + c]
  | .icpf a => [0xa0000000 + a * 32768]
  | .icinv a => [0xa0000001 + a * 32768]
  | .icinvAll => [0xa0000009]
  | .dcpf a => [0xa0000002 + a * 32768]
  | .dcwb a => [0xa0000003 + a * 32768]
  | .dcinv a => [0xa0000004 + a * 32768]
  | .xlt n a p => [0xa2000000 + n * 1048576 + a * 32768 + p]
  | .hinv n => [0xa4000000 + n * 1048576]
  | .hinvAll => [0xa4000001]
  | .hget d n => [0xa6000000 + d * 1048576 + n * 32768]
  | .hgetva d n => [0xa6000001 + d * 1048576 + n * 32768]
  | .shld n a c => [0xa8000000 + n * 1048576 + a * 32768 + c]
  | .shst n a c => [0xaa000000 + n * 1048576 + a * 32768 + c]
  | .shset n a f => [0xac000000 + n * 1048576 + a * 32768 + f]
  | .shget d n f => [0xae000000 + d * 1048576 + n * 32768 + f]
  | .popp d b => [0xb0000000 + d * 1048576 + b * 1024]
  | .poppn d b => [0xb0000001 + d * 1048576 + b * 1024]
  | .bcancel d a => [0xb2000000 + d * 1048576 + a * 32768]
  | .bseq d s => [0xb4000000 + d * 1048576 + s]
  | .bwait a => [0xb6000000 + a * 32768]
  | .twait n => [0xb8000000 + n]
  | .twaitm a => [0xb8000040 + a * 32768]
  | .ttest d n => [0xba000000 + d * 1048576 + n]
  | .ttestOut d => [0xba000040 + d * 1048576]
  | .ttestFailed d => [0xba000080 + d * 1048576]
  | .tfree n => [0xbc000000 + n]
  | .tfreem a => [0xbc000040 + a * 32768]
  | .exit a => [0xbe000000 + a * 32768]
  | .trap c => [0xbe000001 + c * 16]
  | .sret d a b => [0xbe000002 + d * 1048576 + a * 32768 + b * 1024]
  | .hret => [0xbe000003]
  | .wake d a b => [0xbe000004 + d * 1048576 + a * 32768 + b * 1024]
  | .ckpt a => [0xbe000005 + a * 32768]
  | .tbr => [0xbe000006]
  | .lix d i => [0xc0000000 + d * 1048576, 0x0 + i]
  | .lixh d i => [0xc0000001 + d * 1048576, 0x0 + i]
  | .cas d a b z s o c => [0xc2000000 + d * 1048576 + a * 32768 + b * 1024, 0x0 + z * 512 + s * 128 + o * 32 + c]
  | .emit d a b e o t => [0xc4000000 + d * 1048576 + a * 32768 + b * 1024, 0x0 + e * 16777216 + o * 8388608 + t * 32768]
  | .split d a b p e o t f => [0xc6000000 + d * 1048576 + a * 32768 + b * 1024 + p, 0x0 + e * 16777216 + o * 8388608 + t * 32768 + f * 128]
  | .cpy a b n t u v w => [0xc8000000 + a * 32768 + b * 1024, 0x0 + n * 268435456 + t * 4194304 + u * 32768 + v * 256 + w * 2]
  | .cpyg a b n t u v w => [0xca000000 + a * 32768 + b * 1024, 0x0 + n * 268435456 + t * 4194304 + u * 32768 + v * 256 + w * 2]
  | .puth a b n t u v w => [0xcc000000 + a * 32768 + b * 1024, 0x0 + n * 268435456 + t * 4194304 + u * 32768 + v * 256 + w * 2]
  | .mnsetLvl n a f => [0xce000000 + a * 32768 + n, 0x0 + f]
  | .mnsetBase a r q => [0xce000006 + a * 32768, 0x0 + q * 16 + r]
  | .mnsetCtl a b => [0xce000007 + a * 32768 + b * 1024, 0x0]
  | .mgo t u v w => [0xd0000000, 0x0 + t * 4194304 + u * 32768 + v * 256 + w * 2]
  | .rset n a => [0xd2000000 + a * 32768 + n, 0x0]
  | .rwait d n c => [0xd4000000 + d * 1048576 + c * 8 + n, 0x0]
  | .rmark n a => [0xd6000000 + a * 32768 + n, 0x0]
  | .bfset n a t u v w => [0xd8000000 + a * 32768 + n, 0x0 + t * 4194304 + u * 32768 + v * 256 + w * 2]
  | .cbld n a h t u v w => [0xda000000 + n * 1048576 + a * 32768 + h, 0x0 + t * 4194304 + u * 32768 + v * 256 + w * 2]
  | .launch d a => [0xdc000000 + d * 1048576 + a * 32768, 0x0]
  | .jwait d a i => [0xde000000 + d * 1048576 + a * 32768, 0x0 + i]
  | .jbar d m => [0xe0000000 + d * 1048576 + m, 0x0]
  | .viewreg d a => [0xe2000000 + d * 1048576 + a * 32768, 0x0]
  | .viewdrop d a => [0xe4000000 + d * 1048576 + a * 32768, 0x0]
  | .viewpol d a p => [0xe6000000 + d * 1048576 + a * 32768 + p, 0x0]
  | .viewtag d a s => [0xe8000000 + d * 1048576 + a * 32768 + s, 0x0]
  | .viewsync d a => [0xea000000 + d * 1048576 + a * 32768, 0x0]
  | .lsched n a b t u v w => [0xec000000 + a * 32768 + b * 1024 + n, 0x0 + t * 4194304 + u * 32768 + v * 256 + w * 2]
  | .lgo n a t u v w => [0xee000000 + a * 32768 + n, 0x0 + t * 4194304 + u * 32768 + v * 256 + w * 2]
  | .mstat d s a => [0xf0000000 + d * 1048576 + a * 32768 + s, 0x0]
  | .vfadd d a b p w k => [0x80000000 + d * 524288 + a * 4096 + b * 32 + p * 8 + w * 2 + k]
  | .vfsub d a b p w k => [0x82000000 + d * 524288 + a * 4096 + b * 32 + p * 8 + w * 2 + k]
  | .vfmul d a b p w k => [0x84000000 + d * 524288 + a * 4096 + b * 32 + p * 8 + w * 2 + k]
  | .vfmin d a b p w k => [0x86000000 + d * 524288 + a * 4096 + b * 32 + p * 8 + w * 2 + k]
  | .vfmax d a b p w k => [0x88000000 + d * 524288 + a * 4096 + b * 32 + p * 8 + w * 2 + k]
  | .viadd d a b p w k => [0x8a000000 + d * 524288 + a * 4096 + b * 32 + p * 8 + w * 2 + k]
  | .visub d a b p w k => [0x8c000000 + d * 524288 + a * 4096 + b * 32 + p * 8 + w * 2 + k]
  | .vimul d a b p w k => [0x8e000000 + d * 524288 + a * 4096 + b * 32 + p * 8 + w * 2 + k]
  | .vimin d a b p w k => [0x90000000 + d * 524288 + a * 4096 + b * 32 + p * 8 + w * 2 + k]
  | .vimax d a b p w k => [0x92000000 + d * 524288 + a * 4096 + b * 32 + p * 8 + w * 2 + k]
  | .vnmin d a b p w k => [0x94000000 + d * 524288 + a * 4096 + b * 32 + p * 8 + w * 2 + k]
  | .vnmax d a b p w k => [0x96000000 + d * 524288 + a * 4096 + b * 32 + p * 8 + w * 2 + k]
  | .vand d a b p w k => [0x98000000 + d * 524288 + a * 4096 + b * 32 + p * 8 + w * 2 + k]
  | .vor d a b p w k => [0x9a000000 + d * 524288 + a * 4096 + b * 32 + p * 8 + w * 2 + k]
  | .vxor d a b p w k => [0x9c000000 + d * 524288 + a * 4096 + b * 32 + p * 8 + w * 2 + k]
  | .vshl d a b p w k => [0x9e000000 + d * 524288 + a * 4096 + b * 32 + p * 8 + w * 2 + k]
  | .vshr d a b p w k => [0xa0000000 + d * 524288 + a * 4096 + b * 32 + p * 8 + w * 2 + k]
  | .vsra d a b p w k => [0xa2000000 + d * 524288 + a * 4096 + b * 32 + p * 8 + w * 2 + k]
  | .vmov d a p w k => [0xa4000000 + d * 524288 + a * 4096 + p * 8 + w * 2 + k]
  | .vmovScalar d a p w k => [0xa4000020 + d * 524288 + a * 4096 + p * 8 + w * 2 + k]
  | .vmovScalarHigh d a p w k => [0xa4000040 + d * 524288 + a * 4096 + p * 8 + w * 2 + k]
  | .vlid d b p w k => [0xa6000000 + d * 524288 + b * 32 + p * 8 + w * 2 + k]
  | .vwin a w k => [0xa8000000 + a * 4096 + w * 2 + k]
  | .vwinadd a w k => [0xa8000020 + a * 4096 + w * 2 + k]
  | .vwait c l s => [0xaa000000 + c * 524288 + l * 4096 + s * 32]
  | .vbend => [0xac000000]
  | .vrgn => [0xae000000]
  | .pand d a b w k => [0xb0000000 + d * 131072 + a * 16384 + b * 2048 + w * 2 + k]
  | .por d a b w k => [0xb0000008 + d * 131072 + a * 16384 + b * 2048 + w * 2 + k]
  | .pxor d a b w k => [0xb0000010 + d * 131072 + a * 16384 + b * 2048 + w * 2 + k]
  | .pandn d a b w k => [0xb0000018 + d * 131072 + a * 16384 + b * 2048 + w * 2 + k]
  | .pbal d a b w k => [0xb2000000 + d * 131072 + a * 16384 + b * 2048 + w * 2 + k]
  | .pset d b s w k => [0xb4000000 + d * 131072 + b * 2048 + s * 8 + w * 2 + k]
  | .ppopc d a b w k => [0xb6000000 + d * 131072 + a * 16384 + b * 2048 + w * 2 + k]
  | .pfirst d a b w k => [0xb8000000 + d * 131072 + a * 16384 + b * 2048 + w * 2 + k]
  | .pushp a b s w k => [0xba000000 + a * 16384 + b * 2048 + s * 8 + w * 2 + k]
  | .valu d a b o t q v w k => [0xc0000000 + d * 524288 + a * 4096 + b * 32 + w * 2 + k, 0x0 + q * 4194304 + v * 2097152 + t * 131072 + o]
  | .vfma d a b c n t q v w k => [0xc2000000 + d * 524288 + a * 4096 + b * 32 + w * 2 + k, 0x0 + q * 4194304 + v * 2097152 + c * 33554432 + t * 131072 + n]
  | .vcvt d a c t g r s f q v w k => [0xc4000000 + d * 524288 + a * 4096 + w * 2 + k, 0x0 + q * 4194304 + v * 2097152 + c * 33554432 + t * 131072 + f * 128 + s * 64 + r * 16 + g]
  | .vcmp d a b c t q v w k => [0xc6000000 + d * 524288 + a * 4096 + b * 32 + w * 2 + k, 0x0 + q * 4194304 + v * 2097152 + t * 131072 + c]
  | .vsel d a b g i q v w k => [0xc8000000 + d * 524288 + a * 4096 + b * 32 + w * 2 + k, 0x0 + q * 4194304 + v * 2097152 + i * 8 + g]
  | .vsfn d a f q v w k => [0xca000000 + d * 524288 + a * 4096 + w * 2 + k, 0x0 + q * 4194304 + v * 2097152 + f]
  | .vred d a o g t q v w k => [0xcc000000 + d * 524288 + a * 4096 + w * 2 + k, 0x0 + q * 4194304 + v * 2097152 + t * 131072 + g * 32 + o]
  | .vscan d a o x g t q v w k => [0xce000000 + d * 524288 + a * 4096 + w * 2 + k, 0x0 + q * 4194304 + v * 2097152 + t * 131072 + g * 32 + x * 8 + o]
  | .vshfl d a b m g o q v w k => [0xd0000000 + d * 524288 + a * 4096 + b * 32 + w * 2 + k, 0x0 + q * 4194304 + v * 2097152 + m * 2048 + g * 32 + o]
  | .vperm d a b c z t q v w k => [0xd2000000 + d * 524288 + a * 4096 + b * 32 + w * 2 + k, 0x0 + q * 4194304 + v * 2097152 + c * 33554432 + t * 131072 + z]
  | .vrotm d a b c z o q v w k => [0xd4000000 + d * 524288 + a * 4096 + b * 32 + w * 2 + k, 0x0 + q * 4194304 + v * 2097152 + c * 33554432 + z * 128 + o]
  | .vdot d a b c t g q v w k => [0xd6000000 + d * 524288 + a * 4096 + b * 32 + w * 2 + k, 0x0 + q * 4194304 + v * 2097152 + c * 33554432 + t * 131072 + g]
  | .vmxq d a c x f m q v w k => [0xd8000000 + d * 524288 + a * 4096 + w * 2 + k, 0x0 + q * 4194304 + v * 2097152 + c * 33554432 + x * 32 + f * 4 + m]
  | .vbit d a b c o q v w k => [0xda000000 + d * 524288 + a * 4096 + b * 32 + w * 2 + k, 0x0 + q * 4194304 + v * 2097152 + c * 33554432 + o]
  | .vbcast d a b z i t q v w k => [0xdc000000 + d * 524288 + a * 4096 + b * 32 + w * 2 + k, 0x0 + q * 4194304 + v * 2097152 + t * 131072 + z * 128 + i]
  | .vgetl d a b i q v w k => [0xde000000 + a * 4096 + b * 32 + w * 2 + k, 0x0 + q * 4194304 + v * 2097152 + i * 256 + d]
  | .vlds d a i c q v w k => [0xe0000000 + d * 524288 + a * 4096 + w * 2 + k, 0x0 + q * 4194304 + v * 2097152 + c * 8192 + i]
  | .vsts a b i c q v w k => [0xe2000000 + a * 4096 + b * 32 + w * 2 + k, 0x0 + q * 4194304 + v * 2097152 + c * 8192 + i]
  | .vldg d a b h t c q v w k => [0xe4000000 + d * 524288 + a * 4096 + b * 32 + w * 2 + k, 0x0 + q * 4194304 + v * 2097152 + t * 131072 + c * 8192 + h * 256]
  | .vstg a b y h t c q v w k => [0xe6000000 + a * 4096 + b * 32 + w * 2 + k, 0x0 + q * 4194304 + v * 2097152 + y * 33554432 + t * 131072 + c * 8192 + h * 256]
  | .vldu d a h i c q v w k => [0xe8000000 + d * 524288 + a * 4096 + w * 2 + k, 0x0 + q * 4194304 + v * 2097152 + c * 8192 + h * 256 + i]
  | .vstu a b h i c q v w k => [0xea000000 + a * 4096 + b * 32 + w * 2 + k, 0x0 + q * 4194304 + v * 2097152 + c * 8192 + h * 256 + i]
  | .vamo d a b y h s r o t c q v w k => [0xec000000 + d * 524288 + a * 4096 + b * 32 + w * 2 + k, 0x0 + q * 4194304 + v * 2097152 + y * 33554432 + t * 131072 + c * 8192 + h * 256 + s * 64 + r * 16 + o]
  | .vldb d a g z i c q v w k => [0xee000000 + d * 524288 + a * 4096 + w * 2 + k, 0x0 + q * 4194304 + v * 2097152 + c * 8192 + g * 2048 + z * 1024 + i]
  | .vstb a b g z i c q v w k => [0xf0000000 + a * 4096 + b * 32 + w * 2 + k, 0x0 + q * 4194304 + v * 2097152 + c * 8192 + g * 2048 + z * 1024 + i]
  | _ => []

/-- The host's question: the instruction read from words w numbered as the table numbers them (bit 0 the least significant
bit of the first word, the extension word above it). One word does not say which slice holds it (R12): it is read as the
control core reads it, and where that raises ILLEGAL, as a lane group does. -/
def decodeTableWord (nbits w : Nat) : Option Instr :=
  let v := w % 2 ^ (8 * ((nbits + 7) / 8))
  match decodeControl (v % 2 ^ 32) (v / 2 ^ 32 % 2 ^ 32) with
  | some i => some i
  | none => decodeLane (v % 2 ^ 32) (v / 2 ^ 32 % 2 ^ 32)

end Sys2Proof
end

