-- ==== Sys2Proof/Machine/Access.lean ====
section
/-! DEFINITION. Reading and changing the parts of the state: plazas, placements, contexts, lane groups, registers; and the
outcome of an access that may wait or fail. -/
namespace Sys2Proof.Machine

/-- What a meaning answers. -/
abbrev Out := Host.Outcome State Fault Refusal

/-- The outcome of an access: a value, a wait (the access runs again later), or a failure with its cause, faddr and paddr. -/
inductive Res (α : Type) where
  | ok (a : α) (s : State)
  | wait (s : State)
  | fail (c : Cause) (faddr : Word) (paddr : Nat) (s : State)

/-- Goes on with the value of an access that succeeded. -/
def Res.andThen {α β : Type} (r : Res α) (f : α → State → Res β) : Res β :=
  match r with
  | .ok a s => f a s
  | .wait s => .wait s
  | .fail c x y s => .fail c x y s
/-- The same access with its failure's faddr replaced. -/
def Res.at_ {α : Type} (r : Res α) (va : Word) : Res α :=
  match r with
  | .fail c _ y s => .fail c va y s
  | o => o

/-- Plaza p. -/
def State.plaza (s : State) (p : Nat) : Plaza := tabGet Plaza.off s.plazas p
/-- The state with plaza p changed. -/
def State.modPlaza (s : State) (p : Nat) (f : Plaza → Plaza) : State :=
  { s with plazas := tabSet s.plazas p (f (s.plaza p)) }
/-- The placement on plaza p. -/
def State.place (s : State) (p : Nat) : Place := (s.plaza p).place
/-- The state with plaza p's placement changed. -/
def State.modPlace (s : State) (p : Nat) (f : Place → Place) : State :=
  s.modPlaza p fun q => { q with place := f q.place }
/-- A placement is resident, starting or being saved on plaza p (R69). -/
def State.hasPlace (s : State) (p : Nat) : Bool := (s.plaza p).res != .free
/-- A record belongs to the placement on plaza p (R95). -/
def State.ours (s : State) (p : Nat) (r : Record) : Bool :=
  s.hasPlace p && (s.place p).job == r.job && (s.place p).index == r.index
/-- The resident placement's lanes run: no pre-emption of it has begun, which waits for the end of an open delivery of its own; a halted one
is not saved (R97, R246, R249). A trap of a control context, whichever it is, does not stop the lanes (R185). -/
def State.lanesRun (s : State) (p : Nat) : Bool :=
  (s.plaza p).res == .resident && (!(s.plaza p).preempt || (s.plaza p).place.halted || (match (s.plaza p).open_ with
    | some r => s.ours p r
    | none => false))
/-- The resident placement's contexts run and its engines take commands: its plaza is not stopped (R90). -/
def State.serves (s : State) (p : Nat) : Bool := s.lanesRun p && !(s.plaza p).stopped
/-- Context c of plaza p (R82). -/
def State.ctx (s : State) (p c : Nat) : Ctx :=
  if c = 5 then (s.plaza p).ctx5 else tabGet (Ctx.off .ended) (s.place p).ctx c
/-- The state with context c of plaza p changed. -/
def State.modCtx (s : State) (p c : Nat) (f : Ctx → Ctx) : State :=
  if c = 5 then s.modPlaza p fun q => { q with ctx5 := f q.ctx5 }
  else s.modPlace p fun q => { q with ctx := tabSet q.ctx c (f (tabGet (Ctx.off .ended) q.ctx c)) }
/-- Lane group half l = 2g + h of plaza p (R258). -/
def State.lane (s : State) (p l : Nat) : Lane := tabGet Lane.off (s.place p).lanes l
/-- The state with a lane group half changed. -/
def State.modLane (s : State) (p l : Nat) (f : Lane → Lane) : State :=
  s.modPlace p fun q => { q with lanes := tabSet q.lanes l (f (tabGet Lane.off q.lanes l)) }
/-- The state with its device part changed. -/
def State.modDev (s : State) (f : Device → Device) : State := { s with dev := f s.dev }
/-- The state with its Job Placer changed. -/
def State.modPlacer (s : State) (f : Placer → Placer) : State := { s with placer := f s.placer }
/-- The state with its host side changed. -/
def State.modHost (s : State) (f : HostSide → HostSide) : State :=
  s.modDev fun d => { d with host := f d.host }

/-- The requests of a requester to other modules are forgotten, a context's with those of its fetch. -/
def State.forgetRemotes (s : State) (who : Requester) : State :=
  let fetch (r : Remote) : Bool := match who with
    | .ctx p c => r.who == .fetch p c
    | _ => false
  { s with remotes := s.remotes.filter fun r => r.who != who && !fetch r }

/-- g[n]: g0 reads zero (R24, R37). -/
def Ctx.reg (x : Ctx) (n : Nat) : Word := if n = 0 then 0 else tabGet 0 x.g n
/-- g[n] := v: a write to g0 is discarded (R24, R37). -/
def Ctx.setReg (x : Ctx) (n : Nat) (v : Word) : Ctx := if n = 0 then x else { x with g := tabPut 0 x.g n v }
/-- g[n] of context c of plaza p. -/
def State.g (s : State) (p c n : Nat) : Word := (s.ctx p c).reg n
/-- g[n] := v in context c of plaza p. -/
def State.setG (s : State) (p c n : Nat) (v : Word) : State := s.modCtx p c fun x => x.setReg n v

/-- The scalar s[n] of a lane group: s0 reads zero (R24). -/
def Lane.scalar (x : Lane) (n : Nat) : W32 := if n = 0 then 0 else tabGet 0 x.s n
/-- s[n] := v: a write to s0 is discarded (R24). -/
def Lane.setScalar (x : Lane) (n : Nat) (v : W32) : Lane := if n = 0 then x else { x with s := tabPut 0 x.s n v }
/-- The predicate p[n] of a lane group. -/
def Lane.pred (x : Lane) (n : Nat) : W32 := tabGet 0 x.p n
/-- p[n] := v. -/
def Lane.setPred (x : Lane) (n : Nat) (v : W32) : Lane := { x with p := tabPut 0 x.p n v }

/-- An undefined lane word, and the state that has used it (R5, log 6). -/
def State.freeWord (s : State) : W32 × State := (Config.freeWord s.fresh, { s with fresh := s.fresh + 1 })
/-- An undefined 64-bit value (R5, log 6). -/
def State.freeDouble (s : State) : Word × State := (Config.freeWord (s.fresh + 1) ++ Config.freeWord s.fresh, { s with fresh := s.fresh + 2 })
/-- A tag or command number never used before. -/
def State.newId (s : State) : Nat × State := (s.fresh + 1, { s with fresh := s.fresh + 1 })

/-- The domain-wide id of plaza p: module number in [15:8], plaza in [7:0] (R172). -/
def State.plazaId (s : State) (p : Nat) : Nat := s.dev.modNum * 256 + p
/-- The die of a plaza (R2). -/
def dieOf (p : Nat) : Nat := p / Config.plazasPerDie
/-- A die that is enabled and not OFF (R312, R368). -/
def State.dieServes (s : State) (d : Nat) : Bool :=
  let x := tabGet Die.off s.dev.dies d
  x.enabled && x.power != 2
/-- A plaza that start-up left enabled (R55, R370). -/
def State.plazaEnabled (s : State) (p : Nat) : Bool :=
  p < Config.plazas && (tabGet Die.off s.dev.dies (dieOf p)).enabled && !s.dev.disabled.contains p
/-- Units of plaza p have power (R367, R368, R370): the module is up, the plaza enabled, its die ON. -/
def State.powered (s : State) (p : Nat) : Bool :=
  s.dev.phase == .up && s.plazaEnabled p && (tabGet Die.off s.dev.dies (dieOf p)).power == 0
/-- The contexts of plaza p run: it is not stopped (R90). -/
def State.live (s : State) (p : Nat) : Bool := s.powered p && !(s.plaza p).stopped
/-- A delivery has opened with a trap of this cycle (R89): until the cycle ends, a trap of a lower context may take its place. -/
def State.justOpened (s : State) (p : Nat) : Bool :=
  match (s.plaza p).open_ with
  | some r => r.cycle == s.dev.cycle
  | none => false
/-- Context c may run: context 5 with its plaza, but not yet at a trap of this cycle, the others with a resident placement (R82, R89, R242). -/
def State.runs (s : State) (p c : Nat) : Bool :=
  s.live p && ((c == 5 && !s.justOpened p) || (c < 5 && s.serves p))
/-- The number of enabled plazas (FQRY word 2, R55). -/
def State.enabledPlazas (s : State) : Nat := ((List.range Config.plazas).filter s.plazaEnabled).length
/-- The PASID in which a context's accesses run (R82, R100). -/
def State.ctxPasid (s : State) (p c : Nat) : Nat := if c = 5 then s.runtime else (s.place p).pasid

/-- Feature b is enabled for plaza p's job (R253). -/
def State.hasFeature (s : State) (p b : Nat) : Bool := (s.place p).features.getLsbD b

/-- A signal on an MSI-X vector of a port; a masked one sets its pending bit (R362). Each port has its own table and pending bits, vector v
of port h at place 64h + v. Bit 32 of a table entry's second doubleword is the vector's mask, per PCI Express. -/
def signalPort (h v : Nat) (x : HostSide) : HostSide :=
  if bit (tabGet 0 x.msix (2 * (64 * h + v) + 1)).toNat 32 then { x with pba := tabSet x.pba (64 * h + v) true }
  else { x with signals := x.signals ++ [(h, v)] }
/-- The ports entitled to vectors 0, 2 and 3 under the partition mode (R362, R363). -/
def entitled (x : HostSide) (v h : Nat) : Bool :=
  x.partmode != 2 || v == 0 || (h == 1) == x.bPrimary
/-- A signal to every port entitled to it (R362). -/
def State.signal (s : State) (v : Nat) : State :=
  s.modHost fun x => ((List.range 2).filter (entitled x v)).foldl (fun y h => signalPort h v y) x
/-- A signal to the port of the host that owns a PASID (R362); after a takeover, to the new primary's port (R364). -/
def State.signalOwner (s : State) (pasid v : Nat) : State :=
  s.modHost fun x =>
    let h := tabGet 0 x.owner pasid
    signalPort (if x.partmode = 2 then b2n x.bPrimary else h) v x

end Sys2Proof.Machine
end

