-- ==== Sys2Proof/Machine/Memory.lean ====
section
/-! DEFINITION. Memory as programs see it (R309-R318, R326-R331, R339-R348): homes, the two L1s of a plaza, update-only lines,
the Release Record Table, generations and view checks, and what leaves for other modules. -/
namespace Sys2Proof.Machine

/-- The key of a location: its physical address here, or with the module field above bit 45 (R101). The spec gives module fields 0x103 to
0x1FF no meaning: each is a memory of its own that is always there (DESIGN CHOICE, log 27). -/
def State.homeKey (s : State) (mod pa : Nat) : Nat :=
  if mod = Config.thisModule || mod = s.dev.modNum then pa else (mod + 1) * 2 ^ 45 + pa
/-- The module field of a key, none for this module. -/
def keyModule (key : Nat) : Option Nat := if key < 2 ^ 45 then none else some (key / 2 ^ 45 - 1)
/-- A key on another module of the domain, neither here nor at a host (R101). -/
def keyRemote (key : Nat) : Bool :=
  match keyModule key with
  | some m => m < 256
  | none => false
/-- The second-tier port of a physical address (R101). -/
def tierPort (pa : Nat) : Nat := (pa - Config.tierBase) / Config.tierSpan
/-- A physical address of this module that is absent (R101), or on a die that is OFF (R368). -/
def State.absent (s : State) (pa : Nat) : Bool :=
  if pa < Config.dies * Config.dieSpan then !s.dieServes (pa / Config.dieSpan)
  else if pa < Config.tierBase then true
  else tabGet 0 s.dev.tierCap (tierPort pa) * 2 ^ 30 ≤ (pa - Config.tierBase) % Config.tierSpan
/-- A location whose port or host link is down: an access there fails as LINKDOWN (R366, R355). -/
def State.pathDown (s : State) (key : Nat) : Bool :=
  match keyModule key with
  | none => Config.tierBase ≤ key && !tabGet false s.dev.tierUp (tierPort key)
  | some m => if m = Config.hostA then !(s.dev.host.portUp.getD 0 true)
      else if m = Config.hostB then !(s.dev.host.portUp.getD 1 true) else false
/-- The home die of a physical address (R312); `tierHome` holds one more than the die to which a port's homing is fixed, or 0. -/
def State.homeDie (s : State) (pa : Nat) : Nat :=
  if pa < Config.tierBase then pa / Config.dieSpan
  else
    let d := tierPort pa / 2
    let h := tabGet 0 s.dev.tierHome (tierPort pa)
    if h != 0 then h - 1 else if s.dieServes d then d else ((List.range Config.dies).find? s.dieServes).getD 0
/-- The home slice, as die × 24 + slice (R312). -/
def State.homeSlice (s : State) (pa : Nat) : Nat := s.homeDie pa * 24 + pa / 128 % 24

/-- The first link of the route toward a module that is up and not due for a new key (R354, R355, R360). -/
def State.linkTo (s : State) (mod : Nat) : Option Nat :=
  (List.range 24).find? fun l =>
    let x := tabGet Link.off s.dev.links l
    bit (tabGet 0 s.dev.host.routes mod) l && x.up && x.counter < 2 ^ 48 - 1
/-- The virtual channel of a flit kind (R353). -/
def flitVc (kind : Nat) : Nat :=
  if kind = 1 || kind = 3 || kind = 4 || kind = 8 || kind = 9 then 0
  else if kind = 0x0A || kind = 0x0B then 2 else if kind = 0x0C || kind = 0x0E then 3 else 1
/-- The nonce of a flit (R354): source module, source die, link number, sixteen zero bits and the link's 64-bit counter. -/
def flitNonce (smod sdie link counter : Nat) : BitVec 96 :=
  BitVec.ofNat 96 (counter % 2 ^ 64 + 2 ^ 80 * (link % 2 ^ 5) + 2 ^ 85 * (sdie % 2 ^ 3) + 2 ^ 88 * (smod % 2 ^ 8))
/-- A flit leaves on link l with its header filled in (R352-R354). -/
def State.emit (s : State) (l : Nat) (f : Flit) : State :=
  let x := tabGet Link.off s.dev.links l
  let g := { f with
    smod := s.dev.modNum, vc := flitVc f.kind, seq := x.counter % 2 ^ 32, link := l, len := f.data.length
    nonce := flitNonce s.dev.modNum f.sdie l x.counter }
  { s with outbox := s.outbox ++ [g], dev := { s.dev with links := tabSet s.dev.links l { x with counter := x.counter + 1 } } }
/-- A flit leaves on the route toward its module; none when there is no path (R352, R353, R355). -/
def State.sendFlit (s : State) (f : Flit) : Option State := (s.linkTo f.dmod).map fun l => s.emit l f
/-- A flit leaves, or waits for a path behind those of its channel that wait for one (R353, R355). -/
def State.post (s : State) (f : Flit) : State :=
  let held : State := { s with waiting := s.waiting ++ [f] }
  if s.waiting.any fun g => g.dmod == f.dmod && flitVc g.kind == flitVc f.kind then held else (s.sendFlit f).getD held
/-- The flits that waited for a path leave when there is one (R355). -/
def State.repost (s : State) : State := s.waiting.foldl (fun t f => t.post f) { s with waiting := [] }
/-- The die at which the home of a module's physical address lies (R312); a second-tier port's own die, which its homing may have left. -/
def addrDie (pa : Nat) : Nat := if pa < Config.tierBase then pa / Config.dieSpan else tierPort pa / 2 % Config.dies
/-- A flit with the fields the model fills in at the link left open; one that names an address goes to the die of its home (R352). -/
def mkFlit (kind dmod tag addr size op : Nat) (data : List Byte) : Flit :=
  { kind := kind, dmod := dmod, smod := 0, ddie := if kind = 1 || kind = 3 || kind = 4 || kind = 8 then addrDie addr else 0, sdie := 0, vc := 0
    seq := 0, link := 0, len := 0, nonce := 0, tag := tag, addr := addr, size := size, op := op, ok := true, data := data }
/-- The die from which a requester's flits come (R352): a plaza's, or that of the word whose entry is evicted; the host ports lie on the base
die, which has no number: 0. -/
def requesterDie (x : Requester) : Nat :=
  match x with
  | .ctx p _ => dieOf p
  | .lane p _ => dieOf p
  | .plaza p => dieOf p
  | .fetch p _ => if p < Config.plazas then dieOf p else (p - Config.plazas) / 8 % Config.dies
  | .cmd p _ => dieOf p
  | .evict w => addrDie (w * 8)
  | .host => 0
  | .remote _ _ => 0

/-- Element size of a master format (R294). -/
def masterElem (fmt : Nat) : Nat := if fmt = 0 then 4 else 2
/-- Blocks across a master (R294). -/
def Master.across (m : Master) : Nat := m.cols / 128
/-- Number of blocks of a master (R294). -/
def Master.blocks (m : Master) : Nat := m.rows / 128 * m.across
/-- The master block that owns the byte at a virtual address (R294, R340). -/
def Master.blockAt (m : Master) (va : Nat) : Option Nat :=
  if va < m.mva then none
  else
    let row := (va - m.mva) / m.stride
    let col := (va - m.mva) % m.stride / masterElem m.fmt
    if row < m.rows && col < m.cols then some (row / 128 * m.across + col / 128) else none
/-- The virtual addresses that pages (virtual address, key, size) give a byte key. -/
def pageVas (pages : List (Nat × Nat × Nat)) (key : Nat) : List Nat :=
  pages.filterMap fun x => if x.2.1 ≤ key && key < x.2.1 + x.2.2 then some (x.1 + (key - x.2.1)) else none
/-- The key of a virtual address in a page list. -/
def pageKey (pages : List (Nat × Nat × Nat)) (va : Nat) : Option Nat :=
  (pages.find? fun x => x.1 ≤ va && va < x.1 + x.2.2).map fun x => x.2.1 + (va - x.1)
/-- The master blocks that own the byte at a home key. -/
def Master.blocksOf (m : Master) (key : Nat) : List Nat := ((pageVas m.pages key).filterMap m.blockAt).eraseDups
/-- Virtual address of element (128bi, 128bj) of block b (R339). -/
def Master.blockVa (m : Master) (b : Nat) : Nat :=
  m.mva + b / m.across * 128 * m.stride + b % m.across * 128 * masterElem m.fmt
/-- The view engine of a master block: 8 × die + slice ÷ 3 of its block home (R343). -/
def State.blockEngine (s : State) (m : Master) (b : Nat) : Nat :=
  match pageKey m.pages (m.blockVa b) with
  | some k => s.homeDie k * 8 + k / 128 % 24 / 3
  | none => 0
/-- A block joins its engine's FIFO unless it is queued there (R343). -/
def ViewEngine.push (x : ViewEngine) (job : Nat × Nat × Nat) : ViewEngine :=
  if x.fifo.contains job then x else { x with fifo := x.fifo ++ [job] }
/-- The live views of a master (R297). -/
def State.viewsOf (s : State) (m : Master) : List View := s.views.filter fun v => v.pasid == m.pasid && v.mva == m.mva
/-- An access to another module is in progress, under a new tag (R353). -/
def State.addRemote (s : State) (who : Requester) (kind addr size : Nat) (data : List Byte) : Nat × State :=
  let (t, s1) := s.newId
  (t, { s1 with remotes := s1.remotes ++ [Remote.mk t who kind addr size data none false false s.dev.ns] })
/-- A request leaves for another module under a new tag, or waits for a path (R353, R355). -/
def State.request (s : State) (who : Requester) (kind addr size : Nat) (data : List Byte) (f : Flit) : Nat × State :=
  let (t, s1) := s.addRemote who kind addr size data
  (t, s1.post { f with tag := t, sdie := requesterDie who })
/-- Who answers for a write that reaches a home: its plaza, or the device. -/
def writer (who : Option Nat) : Requester :=
  match who with
  | some p => .plaza p
  | none => .host
/-- Blocks from a view's shard base: where block (bi, bj) sits (R296). -/
def viewStride (tfmt : Nat) : Nat := if tfmt = 1 then 32896 else if tfmt = 0x12 then 8832 else if tfmt = 0x13 then 4736 else 17024
/-- VA of view block b, for a master of cols ÷ 128 = across blocks (R296). -/
def View.blockVa (v : View) (across b : Nat) : Nat :=
  let bi := b / across
  let bj := b % across
  let tj := (across + v.bc - 1) / v.bc
  let t := bi / v.br * tj + bj / v.bc
  let ns := v.bases.length
  v.bases.getD (t % ns) 0 + viewStride v.tfmt * (t / ns * v.br * v.bc + bi % v.br * v.bc + bj % v.bc)
/-- A view block changed. -/
def State.modBlock (s : State) (id b : Nat) (f : ViewBlock → ViewBlock) : State :=
  { s with views := s.views.map fun v =>
      if v.id = id then { v with blocks := tabSet v.blocks b (f (tabGet ViewBlock.off v.blocks b)) } else v }
/-- The KG notice of one view at an advance (R341): to a view-block home on another module, the home of the block's tag line, by a flit. -/
def State.sendNotice (s : State) (who : Option Nat) (m : Master) (v : View) (b g : Nat) : State :=
  match pageKey v.pages (v.blockVa m.across b + viewStride v.tfmt - 128) with
  | some k =>
    if keyRemote k then
      let (t, s1) := s.request .host 0x0D k 4 (leBytes 4 g) { mkFlit 0x0D ((keyModule k).getD 0) 0 v.id 4 b (leBytes 4 g) with
        ddie := addrDie (k % 2 ^ 45) }
      { s1 with notices := s1.notices ++ [Notice.mk v.id b g who (some t) none] }
    else { s with notices := s.notices ++ [Notice.mk v.id b g who none none] }
  | none => { s with notices := s.notices ++ [Notice.mk v.id b g who none none] }
/-- The view of a notice that another module's view-block state here receives: none of this module's own. -/
def noView : Nat := 4096
/-- A notice has reached its view-block home: KG becomes the larger (R341). -/
def State.raiseKg (s : State) (n : Notice) : State :=
  s.modBlock n.view n.block fun x => { x with kg := if genBelow x.kg n.gen then n.gen else x.kg }
/-- Notices are acknowledged and gone: another module's write that waited for the last of its own is answered (R341). -/
def State.noticesEnd (s : State) (gone : List Notice) : State :=
  (gone.filterMap fun n => n.asker).eraseDups.foldl (fun (u : State) a =>
    if u.notices.any fun n => n.asker == some a then u
    else u.post { mkFlit 5 (a.1 % 256) a.2.1 0 a.2.2.length 0 a.2.2 with ddie := a.1 / 256 }) s
/-- The notices that a test names are acknowledged. -/
def State.endNotices (s : State) (f : Notice → Bool) : State :=
  { s with notices := s.notices.filter fun n => !f n }.noticesEnd (s.notices.filter f)
/-- One advance of block b of master m by plaza `who`'s write, with its KG notices and its place in the FIFO (R340-R343). -/
def State.advanceBlock (s : State) (who : Option Nat) (m : Master) (b : Nat) : State :=
  let g := (tabGet 0 m.gens b + 1) % 2 ^ 32
  let e := s.blockEngine m b
  let s1 := { s with masters := s.masters.map fun x => if x.pasid == m.pasid && x.mva == m.mva then { x with gens := tabSet x.gens b g } else x }
  if (s.viewsOf m).isEmpty then s1
  else
    (s.viewsOf m).foldl (fun t v => t.sendNotice who m v b g)
      { s1 with engines := tabSet s.engines e ((tabGet ViewEngine.off s.engines e).push (m.pasid, m.mva, b)) }
/-- A write has reached the home of the line of `key`: every master block that owns bytes of it advances by one (R340). -/
def State.advanceLine (s : State) (who : Option Nat) (key : Nat) : State :=
  s.masters.foldl (fun t m => (m.blocksOf key).foldl (fun u b => u.advanceBlock who m b) t) s

/-- The 128 bytes of line `line` at the home. -/
def State.homeRow (s : State) (line : Nat) : Row := BitVec.ofNat 1024 (memRead s.mem (line * 128) 128)
/-- Poisoned 64-byte units of a line (R315). -/
def State.homePoison (s : State) (line : Nat) : BitVec 2 :=
  BitVec.ofNat 2 (b2n (s.poison.contains (2 * line)) + 2 * b2n (s.poison.contains (2 * line + 1)))
/-- The masked bytes of a row written to a memory. -/
def memPutRow (m : List Host.Cell) (line : Nat) (mask : BitVec 128) (data : Row) : List Host.Cell :=
  (List.range 128).foldl (fun acc i => if mask.getLsbD i then memPut acc (line * 128 + i) (data.extractLsb' (8 * i) 8) else acc) m
/-- The poison list after a masked write: a whole unit clears it, poisoned bytes set it (R315). -/
def poisonAfter (ps : List Nat) (line : Nat) (mask : BitVec 128) (bad : BitVec 2) : List Nat :=
  (List.range 2).foldl (fun acc u =>
    let m := (mask.extractLsb' (64 * u) 64 : BitVec 64)
    if bad.getLsbD u && m != 0 then (if acc.contains (2 * line + u) then acc else (2 * line + u) :: acc)
    else if m == BitVec.allOnes 64 then acc.filter (· != 2 * line + u) else acc) ps
/-- A byte-masked write reaches a home of this module or a host (R310, R315, R340). -/
def State.writeHere (s : State) (who : Option Nat) (line : Nat) (mask : BitVec 128) (data : Row) (bad : BitVec 2) : State :=
  if mask = 0 then s
  else { s with mem := memPutRow s.mem line mask data, poison := poisonAfter s.poison line mask bad }.advanceLine who (line * 128)
/-- The data of a write flit: the byte mask, the line, its poisoned units (R315, R353; log 13). -/
def maskedData (mask : BitVec 128) (data : Row) (bad : BitVec 2) : List Byte :=
  leBytes 16 mask.toNat ++ leBytes 128 data.toNat ++ leBytes 1 bad.toNat
/-- A byte-masked write of a line toward its home; none when the home cannot be reached (R312). One to another module waits for a path and is
in progress until its home acknowledges it (R74, R329, R353, R355; log 13). -/
def State.writeLine (s : State) (who : Option Nat) (line : Nat) (mask : BitVec 128) (data : Row) (bad : BitVec 2) : Option State :=
  if mask = 0 then some s
  else if keyRemote (line * 128) then
    match keyModule (line * 128) with
    | some m =>
      let d := maskedData mask data bad
      some (s.request (writer who) 3 (line * 128) 128 d (mkFlit 3 m 0 (line * 128 % 2 ^ 45) 128 0 d)).2
    | none => none
  else if s.pathDown (line * 128) then none
  else some (s.writeHere who line mask data bad)

/-- The pieces, one per line, of n bytes at a key. -/
def linePieces (key n : Nat) : List (Nat × Nat) :=
  (List.range ((key % 128 + n + 127) / 128)).map fun i =>
    let a := Nat.max key ((key / 128 + i) * 128)
    (a, Nat.min (key + n) ((key / 128 + i + 1) * 128) - a)
/-- A line of one of the plaza's L1s: the lanes' L1 or the L1D. -/
def Plaza.l1 (q : Plaza) (lanes : Bool) : List Line := if lanes then q.l1v else q.l1d
/-- The plaza with one L1 changed. -/
def Plaza.modL1 (q : Plaza) (lanes : Bool) (f : List Line → List Line) : Plaza :=
  if lanes then { q with l1v := f q.l1v } else { q with l1d := f q.l1d }
/-- The plaza with both L1s changed. -/
def Plaza.modBoth (q : Plaza) (f : List Line → List Line) : Plaza := { q with l1d := f q.l1d, l1v := f q.l1v }
/-- A data line of an L1. -/
def lineIn (ls : List Line) (line : Nat) : Option Line := ls.find? fun x => x.key == line && !x.upd
/-- The plaza holds an update-only line for a line (R65). -/
def Plaza.hasUpdate (q : Plaza) (line : Nat) : Bool := (q.l1d ++ q.l1v).any fun x => x.key == line && x.upd
/-- Every copy of a line dropped from an L1, data and update-only lines alike. -/
def dropLine (ls : List Line) (line : Nat) : List Line := ls.filter fun x => x.key != line
/-- A data fill in flight of a line that leaves the L1s is not installed: its data is used once (R72, R316). -/
def Plaza.cancelFill (q : Plaza) (line : Nat) : Plaza :=
  { q with fills := q.fills.map fun f => if f.key == line then { f with cancelled := true } else f }
/-- The line marked clean. -/
def cleanLine (ls : List Line) (line : Nat) : List Line :=
  ls.map fun x => if x.key == line && !x.upd then { x with dirty := 0 } else x

/-- The dirty bytes of a line in one L1 written back, the line staying valid and clean; unchanged where no path (R74, R310). -/
def State.writeBackIn (s : State) (p : Nat) (lanes : Bool) (line : Nat) : State :=
  match lineIn ((s.plaza p).l1 lanes) line with
  | none => s
  | some x =>
    if x.dirty = 0 then s
    else match s.writeLine (some p) line x.dirty x.data x.poison with
      | some t => t.modPlaza p fun q => q.modL1 lanes fun ls => cleanLine ls line
      | none => s
/-- The dirty bytes of a line in both L1s written back (R74, R310). -/
def State.writeBack (s : State) (p line : Nat) : State := (s.writeBackIn p false line).writeBackIn p true line
/-- The plaza's writes that have no acknowledgement yet: writes on their way to another module, and KG notices (R329, R341). -/
def State.noticesFrom (s : State) (p : Nat) : Bool :=
  (s.notices.any fun n => n.plaza == some p) || s.remotes.any fun r => r.who == .plaza p
/-- A context whose WAITM at scope P sleeps on a line is woken (R61). -/
def Ctx.wokenAt (x : Ctx) (line : Nat) : Ctx := if x.sleep = some line then { x with sleep := none } else x
/-- A write of plaza p to a line wakes its own WAITMs at scope P (R61). -/
def State.wakeLine (s : State) (p line : Nat) : State :=
  s.modPlaza p fun q => { q with
    ctx5 := q.ctx5.wokenAt line
    place := { q.place with ctx := q.place.ctx.map fun x => (x.1, x.2.wokenAt line) } }
/-- One addition held in an update-only line reaches the home (R65). -/
def applyUpdate (m : List Host.Cell) (line : Nat) (u : Update) : List Host.Cell :=
  let n := if u.wide then 8 else 4
  let old := memRead m (line * 128 + u.off) n
  let new := if u.fp then (fadd32 (BitVec.ofNat 32 old) (u.value.setWidth 32)).toNat else (old + u.value.toNat) % 2 ^ (8 * n)
  memWrite m (line * 128 + u.off) n new
/-- The merge of every update-only line the plaza holds for a line: dirty bytes first, then the additions at the home, then
every copy of the line dropped (R65). -/
def State.mergeLine (s : State) (p line : Nat) : State :=
  if s.pathDown (line * 128) then s else
  let s1 := s.writeBack p line
  let us := ((s1.plaza p).l1d ++ (s1.plaza p).l1v).filter fun x => x.key == line && x.upd
  let s2 := us.foldl (fun (t : State) (x : Line) => { t with mem := x.sums.foldl (fun m u => applyUpdate m line u) t.mem }.advanceLine (some p) (line * 128)) s1
  s2.modPlaza p fun q => (q.modBoth fun ls => dropLine ls line).cancelFill line
/-- The merge that an access of the plaza to a line makes first (R65). -/
def State.mergeOwn (s : State) (p line : Nat) : State := if (s.plaza p).hasUpdate line then s.mergeLine p line else s
/-- A read served by the home recalls and merges every plaza's update lines for the line (R331). -/
def State.recall (s : State) (line : Nat) : State := s.plazas.foldl (fun t x => t.mergeOwn x.1 line) s
/-- Dirty bytes written back, update lines merged and the line invalidated in both L1s: before a home atomic, a release form,
DCINV and an engine's write (R313, R332, R74). -/
def State.flushLine (s : State) (p line : Nat) : State :=
  ((s.writeBack p line).mergeOwn p line).modPlaza p fun q => (q.modBoth fun ls =>
    ls.filter fun x => x.key != line || x.dirty != 0 || x.upd).cancelFill line

/-- The ways of an L1 (R229, R309): the L1D's 8, or segments S to 39 of the unified array. -/
def Plaza.ways (q : Plaza) (lanes : Bool) : List Nat :=
  if lanes then (List.range 40).filter fun w => q.segments ≤ w else List.range 8
/-- The next stamp of use in an L1. -/
def nextUse (ls : List Line) : Nat := 1 + listMax (ls.map fun x => x.used)
/-- A line leaves its L1 by replacement: written back, or merged if it is an update-only line (R65, R309). Where its home cannot be
reached it stays, over the ways of its set, and no byte is lost (R310; log 7). -/
def State.evictLine (s : State) (p : Nat) (lanes : Bool) (x : Line) : State :=
  if x.upd then s.mergeLine p x.key
  else (s.writeBackIn p lanes x.key).modPlaza p fun q => q.modL1 lanes fun ls =>
    ls.filter fun y => y.key != x.key || y.upd || y.dirty != 0
/-- The least recently used line of a set. -/
def lruLine : List Line → Option Line
  | [] => none
  | x :: t => match lruLine t with
    | none => some x
    | some y => some (if x.used < y.used then x else y)
/-- Room for one line in its set, and the way it takes: the lowest invalid way, else the least recently used (R230, R309). -/
def State.makeRoom (s : State) (p : Nat) (lanes : Bool) (line : Nat) : Nat × State :=
  let ls := ((s.plaza p).l1 lanes).filter fun x => x.key % 64 == line % 64
  match ((s.plaza p).ways lanes).find? fun w => !(ls.any fun x => x.way == w) with
  | some w => (w, s)
  | none => match lruLine ls with
    | none => (0, s)
    | some x => (x.way, s.evictLine p lanes x)
/-- A line installed in an L1. -/
def State.install (s : State) (p : Nat) (lanes : Bool) (x : Line) : State :=
  let (w, s1) := s.makeRoom p lanes x.key
  s1.modPlaza p fun q => q.modL1 lanes fun ls => { x with way := w, used := nextUse ls } :: ls
/-- A line used or changed in place. -/
def State.setLine (s : State) (p : Nat) (lanes : Bool) (x : Line) : State :=
  s.modPlaza p fun q => q.modL1 lanes fun ls =>
    let n := nextUse ls
    ls.map fun y => if y.key == x.key && !y.upd then { x with used := n } else y

/-- What a requester asked of another module, if it still waits or has its answer (R353, R355). -/
def State.findRemote (s : State) (who : Requester) (kind addr size : Nat) : Option Remote :=
  s.remotes.find? fun r => r.who == who && r.kind == kind && r.addr == addr && r.size == size
/-- A request to another module: sent once, waited for, answered or failed as LINKDOWN (R353, R355). -/
def State.askRemote (s : State) (who : Requester) (kind key size op : Nat) (data : List Byte) : Res (List Byte) :=
  match s.findRemote who kind key size with
  | some r =>
    let s' := { s with remotes := s.remotes.filter fun x => x.tag != r.tag }
    if r.failed then .fail .linkdown 0 0 s' else match r.reply with
      | some bs => .ok bs s'
      | none => .wait s
  | none =>
    .wait (s.request who kind key size data (mkFlit kind ((keyModule key).getD 0) 0 (key % 2 ^ 45) size op data)).2
/-- STALE set in the placement's VIEWFLAGS (R348). -/
def State.setStale (s : State) (p : Nat) (stale : Bool) : State :=
  if stale then s.modPlace p fun q => { q with viewflags := true } else s
/-- What a home on another module answers of its check at a view block (R348; log 13): 0 served, 1 served stale, 2 VIEWSTALE, 3 VIEWPOISON. -/
def State.viewStatus {α : Type} (s : State) (who : Requester) (st : Nat) (a : α) : Res α :=
  if st = 2 then .fail .viewstale 0 0 s
  else if st = 3 then .fail .viewpoison 0 0 s
  else .ok a (match who with
    | .ctx p _ => s.setStale p (st == 1)
    | .lane p _ => s.setStale p (st == 1)
    | _ => s)
/-- A line and its poisoned units as a home answers them (log 13). -/
def rowReply (bs : List Byte) : Row × BitVec 2 := (BitVec.ofNat 1024 (leNat bs), BitVec.ofNat 2 (leNat bs / 2 ^ 1024))
/-- The line at its home, read by a plaza or engine, with its poisoned units (R312, R315, R331). -/
def State.fetchLine (s : State) (who : Requester) (line : Nat) : Res (Row × BitVec 2) :=
  if keyRemote (line * 128) then
    (s.askRemote who 1 (line * 128) 128 0 []).andThen fun bs t =>
      t.viewStatus who (bs.getD 129 0).toNat (rowReply bs)
  else if s.pathDown (line * 128) then .fail .linkdown 0 0 s
  else let t := s.recall line; .ok (t.homeRow line, t.homePoison line) t

/-- Lines of other modules, asked for together: what their homes answered, when every answer has come (R353). -/
def State.gather (s : State) (who : Requester) (lines : List Nat) : Res (List (Nat × List Byte)) :=
  let ask (t : State) (l : Nat) : State :=
    if (t.findRemote who 1 (l * 128) 128).isSome then t else match t.askRemote who 1 (l * 128) 128 0 [] with
      | .wait u => u
      | _ => t
  let t := lines.foldl ask s
  let rs := lines.map fun l => (l, t.findRemote who 1 (l * 128) 128)
  let done : State := { t with remotes := t.remotes.filter fun r => !(r.who == who && r.kind == 1 && lines.any fun l => r.addr == l * 128) }
  if rs.any fun r => r.2.any fun x => x.failed then .fail .linkdown 0 0 done
  else if rs.any fun r => r.2.all fun x => x.reply.isNone then .wait t
  else .ok (rs.map fun r => (r.1, (r.2.bind fun x => x.reply).getD [])) done
/-- The lines of other modules among pieces of a read. -/
def farLines (ps : List (Nat × Nat)) : List Nat := ((ps.filter fun x => keyRemote x.1).map fun x => x.1 / 128).eraseDups
/-- A line read by a unit that has gathered those of other modules. -/
def State.gathered (s : State) (who : Requester) (far : List (Nat × List Byte)) (line : Nat) : Res (Row × BitVec 2) :=
  match far.find? fun y => y.1 == line with
  | some y => s.viewStatus who (y.2.getD 129 0).toNat (rowReply y.2)
  | none => s.fetchLine who line
/-- The poisoned units that n bytes from byte i of a line touch (R315). -/
def touchesPoison (bad : BitVec 2) (i n : Nat) : Bool :=
  (bad.getLsbD 0 && i < 64) || (bad.getLsbD 1 && 64 < i + n)
/-- A value read from a line, or MEMERR where its bytes are poisoned (R315). -/
def takeBytes (data : Row) (bad : BitVec 2) (key n : Nat) (s : State) : Res Nat :=
  if touchesPoison bad (key % 128) n then .fail .memerr 0 (key % 2 ^ 45) s else .ok (vecBytes data (key % 128) n) s
/-- The 64-byte units of a line that one write covers whole: it clears their poison (R315). -/
def wholeUnits (mask : BitVec 128) : BitVec 2 :=
  BitVec.ofNat 2 (b2n (mask.extractLsb' 0 64 == BitVec.allOnes 64) + 2 * b2n (mask.extractLsb' 64 64 == BitVec.allOnes 64))
/-- The poison that goes with the dirty bytes of the other L1's copy (R310, R315). -/
def otherPoison (other : Option Line) : BitVec 2 :=
  match other with
  | some y => y.poison &&& BitVec.ofNat 2 (b2n (y.dirty.extractLsb' 0 64 != 0) + 2 * b2n (y.dirty.extractLsb' 64 64 != 0))
  | none => 0
/-- The poison of a line whose held bytes are `mine`'s and whose other bytes come from its home (R315). -/
def mixPoison (held : BitVec 128) (mine home : BitVec 2) : BitVec 2 := mine ||| (home &&& ~~~ wholeUnits held)
/-- What a plaza sees of a line read at its home: the bytes that its other L1 holds first (R310, R322). -/
def overOther (other : Option Line) (r : Row × BitVec 2) : Row × BitVec 2 :=
  match other with
  | some y => (lineMix y.held y.data r.1, mixPoison y.held y.poison r.2)
  | none => r
/-- A line that has its way and waits for its bytes (R230). -/
def emptyLine (line : Nat) (priv : Bool) : Line := ⟨line, 0, 0, 0, 0, 0, priv, 0, 0, false, []⟩
/-- An invalidation has reached the line that a requester reads on another module (R316). -/
def State.readCancelled (s : State) (who : Requester) (line : Nat) : Bool :=
  s.remotes.any fun r => r.who == who && r.kind == 1 && r.addr == line * 128 && r.size == 128 && r.cancelled
/-- A requester that an L1 has served no longer waits for the line from another module: a later answer is none of its own (R316). -/
def State.endRead (s : State) (who : Requester) (line : Nat) : State :=
  { s with remotes := s.remotes.filter fun r => !(r.who == who && r.kind == 1 && r.addr == line * 128 && r.size == 128) }
/-- n undefined bytes (R5, R7; log 6). -/
def State.freeBytes (s : State) (n : Nat) : Nat × State :=
  ((List.range ((n + 3) / 4)).foldr (fun i acc => (Config.freeWord (s.fresh + i)).toNat + 2 ^ 32 * acc) 0 % 2 ^ (8 * n),
    { s with fresh := s.fresh + (n + 3) / 4 })
/-- Another plaza holds bytes of a line of a plaza-private page dirty: the page is used by two plazas (R317). -/
def State.privOther (s : State) (p line : Nat) (mask : BitVec 128) : Bool :=
  s.plazas.any fun q => q.1 != p && (q.2.l1d ++ q.2.l1v).any fun y => y.key == line && y.priv && y.dirty &&& mask != 0
/-- The bytes of a line that a plaza holds dirty. -/
def Plaza.dirtyMask (q : Plaza) (line : Nat) : BitVec 128 :=
  (q.l1d ++ q.l1v).foldl (fun m y => if y.key == line && !y.upd then m ||| y.dirty else m) 0
/-- A read of a line of a plaza-private page breaks the rule that one plaza accesses it at a time (R317): another plaza holds bytes of it
dirty or another copy of them, or the copy read is no longer what the home holds, but for the plaza's own dirty bytes. -/
def State.privClash (s : State) (p : Nat) (x : Line) (mask : BitVec 128) : Bool :=
  let clean := mask &&& ~~~ (s.plaza p).dirtyMask x.key
  x.priv && (s.privOther p x.key mask
    || (s.plazas.any fun q => q.1 != p && (q.2.l1d ++ q.2.l1v).any fun y =>
      y.key == x.key && y.priv && !y.upd && lineMix (clean &&& y.held) x.data y.data != y.data)
    || (!keyRemote (x.key * 128) && lineMix clean x.data (s.homeRow x.key) != s.homeRow x.key))
/-- A value read at a home, undefined where it lies in a page that is not private to the reader's plaza (R7, R317). -/
def State.sharedValue (s : State) (p key n v : Nat) : Nat × State :=
  if s.privOther p (key / 128) (byteMask (key % 128) n) then s.freeBytes n else (v, s)
/-- The n bytes at a key of a line as a plaza sees it; undefined where a private page is shared (R7, R315, R317). -/
def State.takeFrom (s : State) (p : Nat) (x : Line) (key n : Nat) : Res Nat :=
  if s.privClash p x (byteMask (key % 128) n) then let (v, t) := s.freeBytes n; .ok v t
  else takeBytes x.data x.poison key n s
/-- A load through an L1 of the plaza: update lines merged first, the bytes it lacks filled from the home over the other L1's (R230, R310,
R313, R322). A line of another module takes its way when it is asked for; its answer is used once where the line has left meanwhile or
an invalidation has cancelled the fill (R230, R316). -/
def State.loadL1 (s : State) (who : Requester) (p : Nat) (lanes : Bool) (key n : Nat) (priv : Bool) : Res Nat :=
  let line := key / 128
  let s1 := s.mergeOwn p line
  let mask := byteMask (key % 128) n
  let mine := lineIn ((s1.plaza p).l1 lanes) line
  let x := mine.getD (emptyLine line priv)
  if mine.isSome && x.held &&& mask = mask then ((s1.endRead who line).setLine p lanes x).takeFrom p x key n
  else
    let asked := (s1.findRemote who 1 (line * 128) 128).isSome
    match s1.fetchLine who line with
    | .fail c a b t => .fail c a b t
    | .wait t => .wait (if asked || mine.isSome then t else t.install p lanes x)
    | .ok r t =>
      let r := overOther (lineIn ((t.plaza p).l1 (!lanes)) line) r
      let y := { x with data := lineMix x.held x.data r.1, held := BitVec.allOnes 128, poison := mixPoison x.held x.poison r.2 }
      let u := if mine.isSome then (if s1.readCancelled who line then t else t.setLine p lanes y)
        else if asked then t else t.install p lanes y
      u.takeFrom p y key n
/-- A store into an L1 of the plaza (R230, R309-R311, R320): the other L1's dirty bytes are taken and its copy invalidated. -/
def State.storeL1 (s : State) (p : Nat) (lanes : Bool) (key n v : Nat) (priv : Bool) : State :=
  let line := key / 128
  let s1 := (s.wakeLine p line).mergeOwn p line
  let mask := byteMask (key % 128) n
  let other := lineIn ((s1.plaza p).l1 (!lanes)) line
  let s2 := s1.modPlaza p fun q => q.modL1 (!lanes) fun ls => ls.filter fun y => !(y.key == line && !y.upd)
  let od := match other with
    | some y => y.dirty
    | none => 0
  let odata := match other with
    | some y => y.data
    | none => 0
  let bad := otherPoison other
  match lineIn ((s2.plaza p).l1 lanes) line with
  | some x =>
    s2.setLine p lanes { x with
      data := vecPut (lineMix od odata x.data) (key % 128) n v
      held := x.held ||| od ||| mask
      poison := (x.poison ||| bad) &&& ~~~ wholeUnits mask
      dirty := x.dirty ||| od ||| mask
      dirtyAt := if x.dirty = 0 then s.dev.cycle else x.dirtyAt }
  | none =>
    s2.install p lanes
      { key := line, way := 0, held := od ||| mask, dirty := od ||| mask, data := vecPut odata (key % 128) n v,
        poison := bad &&& ~~~ wholeUnits mask,
        priv := priv, dirtyAt := s.dev.cycle, used := 0, upd := false, sums := [] }

/-- An addition into a list of sums held for a line (R64, R65). The spec does not order the merges of sums of different width or kind that
touch one word: they merge in the order of their first additions (DESIGN CHOICE, log 27). -/
def addSum : List Update → Update → List Update
  | [], u => [u]
  | x :: t, u =>
    if x.off == u.off && x.wide == u.wide && x.fp == u.fp then
      { x with value := if u.fp then (fadd32 (x.value.setWidth 32) (u.value.setWidth 32)).setWidth 64 else x.value + u.value } :: t
    else x :: addSum t u
/-- addc or faddc into the plaza's update-only line (R65): at most 32 per L1, the oldest evicted first (a new line stands at the head of
its L1's list). -/
def State.addUpdate (s : State) (p : Nat) (lanes : Bool) (line : Nat) (u : Update) : State :=
  let s := s.wakeLine p line
  if ((s.plaza p).l1 lanes).any fun x => x.key == line && x.upd then
    s.modPlaza p fun q => q.modL1 lanes fun ls =>
      let n := nextUse ls
      ls.map fun x => if x.key == line && x.upd then { x with sums := addSum x.sums u, used := n } else x
  else
    let held := ((s.plaza p).l1 lanes).filter fun x => x.upd
    let s1 := if 32 ≤ held.length then (match held.getLast? with
      | some x => s.mergeLine p x.key
      | none => s) else s
    let x : Line := ⟨line, 0, 0, 0, 0, 0, false, 0, 0, true, [u]⟩
    s1.install p lanes x

/-- A line lies on a page. -/
def onPage (old len line : Nat) : Bool := old ≤ line * 128 && line * 128 < old + len
/-- A line lies on a page that moves (R334). -/
def State.lineMoves (s : State) (line : Nat) : Bool := s.moves.any fun m => onPage m.old m.len line
/-- Every dirty byte of the plaza written back and every update line merged, but on pages that move (R334); false where some home cannot be
reached (R329). -/
def State.publishLines (s : State) (p : Nat) : State × Bool :=
  let keys := (((s.plaza p).l1d ++ (s.plaza p).l1v).map fun x => x.key).filter fun k => !s.lineMoves k
  let s1 := keys.foldl (fun t k => (t.writeBack p k).mergeOwn p k) s
  (s1, !(((s1.plaza p).l1d ++ (s1.plaza p).l1v).any fun x => (x.dirty != 0 || x.upd) && !s.lineMoves x.key))
/-- Dirty bytes or sums of plaza p lie on pages that move (R334). -/
def State.holdsMoving (s : State) (p : Nat) : Bool :=
  ((s.plaza p).l1d ++ (s.plaza p).l1v).any fun x => (x.dirty != 0 || x.upd) && s.lineMoves x.key
/-- An L1 after an acquire at K or D: clean lines of pages without private dropped, dirty lines left with their dirty bytes
(R317, R328). -/
def invalidateClean (ls : List Line) : List Line :=
  (ls.filter fun x => x.priv || x.upd || x.dirty != 0).map fun x => if x.priv || x.upd then x else { x with held := x.dirty }
/-- A requester that reads data lines for plaza p's L1s. -/
def loadsFor (x : Requester) (p : Nat) : Bool :=
  match x with
  | .ctx q c => q == p && c < 6
  | .lane q _ => q == p
  | _ => false
/-- The reads of lines in flight from another module that a test names are cancelled: their data is used once (R316). -/
def State.cancelReads (s : State) (f : Remote → Bool) : State :=
  { s with remotes := s.remotes.map fun r => if r.kind == 1 && r.size == 128 && f r then { r with cancelled := true } else r }
/-- The self-invalidation of an acquire at K or D; fills in flight of such lines are cancelled (R316, R317, R328). -/
def State.selfInvalidate (s : State) (p : Nat) : State :=
  let priv (line : Nat) : Bool := ((s.plaza p).l1d ++ (s.plaza p).l1v).any fun x => x.key == line && x.priv
  (s.cancelReads fun r => loadsFor r.who p && !priv (r.addr / 128)).modPlaza p fun q =>
    { q.modBoth invalidateClean with fills := q.fills.map fun f => if f.priv then f else { f with cancelled := true } }

/-- Entries of one Release Record Table (R326). -/
def rrtSize : Nat := 4096
/-- The RRT entry of a word (R326). -/
def State.rrtOf (s : State) (key : Nat) : Option RrtEntry :=
  (tabGet [] s.rrt (s.homeSlice key)).find? fun e => e.word == key / 8
/-- The publish request for a plaza by its domain-wide id, here or by flit (R327-R329, R353). -/
def State.sendPublish (s : State) (id seq : Nat) (who : Requester) : State :=
  if id / 256 = s.dev.modNum then { s with requests := s.requests ++ [(id % 256, seq, who)] }
  else (s.request who 6 id seq [] { mkFlit 6 (id / 256) 0 (id % 256) 0 seq [] with ddie := dieOf (id % 256) }).2
/-- The oldest of the entries that are not unreachable (R327). -/
def oldestEntry : List RrtEntry → Option RrtEntry
  | [] => none
  | x :: t =>
    if x.unreachable then oldestEntry t
    else match oldestEntry t with
      | none => some x
      | some y => some (if y.age < x.age then y else x)
/-- A release of this module that waits for room in a Release Record Table (R246, R327). -/
def State.holdRelease (s : State) (who : Requester) (key : Nat) : State :=
  match who with
  | .remote _ _ => s
  | _ => if (s.findRemote who 0 key 0).isSome then s else (s.addRemote who 0 key 0 []).2
/-- It waits no longer. -/
def State.endHold (s : State) (who : Requester) : State :=
  { s with remotes := s.remotes.filter fun r => !(r.who == who && r.kind == 0) }
/-- Room for a release's entry (R327): ok when the word has an entry or the slice has room; otherwise the oldest entry's
plaza is asked to publish and the release waits, or LINKDOWN when every entry is unreachable. -/
def State.rrtRoom (s0 : State) (who : Requester) (key : Nat) : Res Unit :=
  let s := s0.endHold who
  let es := tabGet [] s.rrt (s.homeSlice key)
  if 2 ^ 45 ≤ key || (s.rrtOf key).isSome || es.length < rrtSize then .ok () s
  else match oldestEntry es with
    | none => .fail .linkdown 0 0 s
    | some e =>
      let asked := s.requests.any fun r => r.2.2 == .evict e.word
      let waiting := s.plazas.any fun x =>
        (x.2.pubQueue.any fun r => r.2 == .evict e.word) || (match x.2.publish with
          | some w => w.waiting.any fun r => r.2 == .evict e.word
          | none => false) || (s.acks.any fun r => r.2.2.2 == .evict e.word) || (s.remotes.any fun r => r.who == .evict e.word)
      let t := s0.holdRelease who key
      .wait (if asked || waiting then t else t.sendPublish e.plaza e.seq (.evict e.word))
/-- A release's entry for its word, replacing the word's earlier one (R326, R327); host memory makes none. -/
def State.rrtRecord (s : State) (p key scope : Nat) : State :=
  if 2 ^ 45 ≤ key then s
  else
    let sl := s.homeSlice key
    let es := (tabGet [] s.rrt sl).filter fun e => e.word != key / 8
    let age := 1 + listMax (es.map fun e => e.age)
    { s with rrt := tabSet s.rrt sl (⟨key / 8, s.plazaId p, scope, (s.plaza p).pubBegun, age, false⟩ :: es) }

/-- The master of a view. -/
def State.masterOf (s : State) (v : View) : Option Master := s.masters.find? fun m => m.pasid == v.pasid && m.mva == v.mva
/-- A key on a page of a live view (R297). -/
def State.viewPage (s : State) (key : Nat) : Bool := s.views.any fun v => !(pageVas v.pages key).isEmpty
/-- The block of a view that a virtual address lies in (R296). -/
def View.blockAt (v : View) (m : Master) (va : Nat) : Option Nat :=
  (List.range m.blocks).find? fun b =>
    let a := v.blockVa m.across b
    a ≤ va && va < a + viewStride v.tfmt
/-- The view blocks that n bytes from a key touch (R296). -/
def State.viewBlocks (s : State) (key n : Nat) : List (View × Master × Nat) :=
  s.views.flatMap fun v => match s.masterOf v with
    | none => []
    | some m => (([key, key + (n - 1)].flatMap fun k => (pageVas v.pages k).filterMap (v.blockAt m)).eraseDups).map fun b => (v, m, b)
/-- The answer of the check at a view block's pin (R348). -/
inductive ViewAnswer where
  | served
  | stale
  | delayed (d : Delay)
  | fault (c : Cause)
/-- The check of R348 for a block: against the KG and policy of an earlier delay of this reader, else those in force. -/
def viewCheck (v : View) (b : Nat) (delays : List Delay) : ViewAnswer :=
  let x := tabGet ViewBlock.off v.blocks b
  let d := (delays.find? fun d => d.view == v.id && d.block == b).getD ⟨v.id, b, x.kg, v.policy, [], [], []⟩
  if x.poison then .fault .viewpoison
  else if x.never then (if d.policy = 2 then .fault .viewstale else .delayed d)
  else if genBelow x.tag d.kg then
    (if d.policy = 0 then .delayed d else if d.policy = 1 then .stale else .fault .viewstale)
  else .served
/-- Before a plaza reads a view block: its own dirty bytes and update lines of the master block reach their homes (R342). -/
def State.flushBlock (s : State) (p : Nat) (m : Master) (b : Nat) : State :=
  let keys := ((s.plaza p).l1d ++ (s.plaza p).l1v).map fun x => x.key
  keys.foldl (fun t k => if (m.blocksOf (k * 128)).contains b then (t.writeBack p k).mergeOwn p k else t) s
/-- The n bytes at a key that a delayed read of a dropped view completes with (R298). -/
def keptBytes (delays : List Delay) (key n : Nat) : Option Nat :=
  (delays.find? fun d => d.pieces.any fun x => x.1 ≤ key && key + n ≤ x.1 + x.2).map fun d => memRead d.kept key n
/-- The outcome of a read by plaza p: not of a view page; the bytes of a view dropped while it waited (R298); served at its home, with STALE set or not, at the (view, block) it is pinned
to; delayed; or a fault (R342, R346, R348). -/
inductive ViewRead where
  | plain
  | kept (v : Nat)
  | served (stale : Bool) (pins : List (Nat × Nat))
  | wait (ds : List Delay)
  | fault (c : Cause) (paddr : Nat)
/-- How a read that waited at a view completes once the view is dropped (R298): with the bytes that then stood in the block, MEMERR where their
unit was poisoned (R315), and at its home where that is on another module (log 20). -/
def keptRead (delays : List Delay) (key n : Nat) : Option ViewRead :=
  (delays.find? fun d => d.pieces.any fun x => x.1 ≤ key && key + n ≤ x.1 + x.2).map fun d =>
    if keyRemote key then .served false []
    else if d.bad.any fun u => u * 64 < key + n && key < u * 64 + 64 then .fault .memerr (key % 2 ^ 45)
    else .kept (memRead d.kept key n)
/-- The check at one view block, after the flush of R342. -/
def State.viewReadOne (s : State) (p : Nat) (delays : List Delay) (x : View × Master × Nat) : ViewRead × State :=
  let s1 := s.flushBlock p x.2.1 x.2.2
  if s1.noticesFrom p then (.wait delays, s1)
  else match viewCheck x.1 x.2.2 delays with
    | .served => (.served false [(x.1.id, x.2.2)], s1)
    | .stale => (.served true [(x.1.id, x.2.2)], s1)
    | .fault c => (.fault c 0, s1)
    | .delayed d => (.wait (if delays.contains d then delays else d :: delays), s1)
/-- The check that a read by plaza p of n bytes at a key makes, at the view blocks that are not among those it has pinned (R336, R346). -/
def State.viewRead (s : State) (p key n : Nat) (delays : List Delay) (pinned : List (Nat × Nat)) : ViewRead × State :=
  match keptRead delays key n with
  | some r => (r, s)
  | none =>
  if !s.viewPage key then (.plain, s)
  else ((s.viewBlocks key n).filter fun x => !pinned.contains (x.1.id, x.2.2)).foldl (fun acc x => match acc.1 with
    | .served st ps => (match acc.2.viewReadOne p delays x with
      | (.served st' ps', t) => (.served (st || st') (ps' ++ ps), t)
      | o => o)
    | _ => acc) (.served false [], s)

end Sys2Proof.Machine
end

