-- ==== Sys2Proof/Machine/Translation.lean ====
section
/-! DEFINITION. Addresses, page tables, the TLB and handles (R100-R117). -/
namespace Sys2Proof.Machine

/-- Bits 63-57 of an address equal bit 56 (R100). -/
def canonical (va : Word) : Bool :=
  bits va.toNat 63 57 == (if bit va.toNat 56 then 127 else 0)

/-- What a walk finds (R102-R104, R117). -/
inductive Walk where
  | ok (t : Trans)
  | none
  | migrating
  deriving DecidableEq, Repr

/-- Index bits and page shift of a device-table level (R103). -/
def levelShift (l : Nat) : Nat := 12 + 9 * l
/-- A leaf of device tables at level l (R103): reserved bits zero, or it is not present; bit 5 above level 0, which R103 neither defines nor reserves
there, counts as such a bit (DESIGN CHOICE, log 27). -/
def deviceLeaf (e l : Nat) : Walk :=
  let big := l == 0 && bit e 5
  let shift := if big then 16 else levelShift l
  if bits e 63 54 != 0 || bits e 11 9 != 0 || (l != 0 && bit e 5) || (l == 0 && bit e 4)
      || (shift != 12 && bits e (shift - 1) 12 != 0) then .none
  else if bit e 8 then .migrating
  else .ok { mod := bits e 53 45, base := bits e 44 12 * 4096, size := 2 ^ shift, read := true, write := bit e 1,
             atomic := bit e 2, exec := bit e 3, master := bit e 6, priv := bit e 7 }
/-- n bytes of a table read at their home, which recalls the update lines of their line (R331). Bytes still dirty in an L1 are not seen,
and those of a poisoned unit are read as they stand: the spec does not say what a walk does with either (DESIGN CHOICE, log 27). -/
def State.readTable (s : State) (key n : Nat) : Nat × State :=
  let t := s.recall (key / 128)
  (memRead t.mem key n, t)
/-- The walk of device tables from level l down (R103): a table at an absent address holds nothing. A root entry with the leaf bit set,
which the rule says never is, counts as not present (DESIGN CHOICE, log 27). -/
def State.walkDevice (s : State) (va : Nat) : Nat → Nat → Walk × State
  | l, table =>
    let idx := if l = 3 then bits va 56 39 else bits va (levelShift l + 8) (levelShift l)
    let a := table + 8 * idx
    if s.absent a then (.none, s)
    else
      let (e, t) := s.readTable a 8
      if !bit e 0 then (.none, t)
      else match l with
        | 0 => (deviceLeaf e 0, t)
        | k + 1 =>
          if bit e 4 then (if l = 3 then .none else deviceLeaf e l, t)
          else if bits e 63 45 != 0 || bits e 11 9 != 0 || bit e 5 then (.none, t)
          else t.walkDevice va k (bits e 44 12 * 4096)

/-- The largest page size of R105 that fits in a leaf of 2^shift bytes. -/
def fitSize (shift : Nat) : Nat := if shift < 16 then 2 ^ 12 else if shift < 21 then 2 ^ 16 else if shift < 30 then 2 ^ 21 else 2 ^ 30
/-- A leaf of host tables (R104); one in the host's BAR2 window maps to this module. An address of more than 45 bits is in no module's map
(R101; log 14). The rule is silent on the bits of a leaf's frame below its page size: they are not used (DESIGN CHOICE, log 27). -/
def State.hostLeaf (s : State) (host d e va shift : Nat) : Walk :=
  let frame := bits e (bits d 37 32) (bits d 29 24) * 4096
  let size := fitSize shift
  let pa := frame / 2 ^ shift * 2 ^ shift + va % 2 ^ shift / size * size
  let w := bit e (bits d 21 16)
  let win := s.dev.host.bar2win.getD host (0, 0)
  let here := win.1 ≤ pa && pa < win.1 + win.2
  let base := if here then pa - win.1 else pa
  if 2 ^ 45 ≤ base then .none
  else
    let x := bit e (bits d 45 40)
    let m := if here then Config.thisModule else Config.hostA + host
    .ok { mod := m, base := base, size := size, read := true, write := w, atomic := w, exec := x, master := false, priv := false }
/-- The walk of host tables from level l down, in the memory of the host that owns the process (R102, R104). An entry of level 0 that
leafmask does not select gives no mapping, and the tables are read though the host's port be down; the rules are silent on both (DESIGN CHOICE, log 27). -/
def State.walkHost (s : State) (host d va : Nat) : Nat → Nat → Walk × State
  | l, table =>
    let ib := if bit d 4 then 10 else 9
    let es := if bit d 4 then 4 else 8
    let shift := 12 + ib * l
    let pa := table + es * (va / 2 ^ shift % 2 ^ ib)
    let (e, t) := s.readTable (s.homeKey (Config.hostA + host) pa) es
    if 2 ^ 45 ≤ pa || !bit e (bits d 13 8) then (.none, s)
    else if e % 256 &&& bits d 55 48 != 0 then (t.hostLeaf host d e va shift, t)
    else match l with
      | 0 => (.none, t)
      | k + 1 => t.walkHost host d va k (bits e (bits d 37 32) (bits d 29 24) * 4096)
/-- A host-format descriptor without reserved bits and with 3 to 5 levels (R104); one whose addrhi lies below its addrlo gives no mapping,
on which the rule is silent (DESIGN CHOICE, log 27). -/
def hfdOk (d : Nat) : Bool :=
  bits d 63 56 == 0 && bits d 47 46 == 0 && bits d 39 38 == 0 && bits d 31 30 == 0 && bits d 23 22 == 0 && bits d 15 14 == 0
    && bits d 7 5 == 0 && 3 ≤ bits d 3 0 && bits d 3 0 ≤ 5 && bits d 29 24 ≤ bits d 37 32
/-- The device runtime keeps an entry for a PASID (R102). -/
def State.hasPasid (s : State) (pasid : Nat) : Bool := s.pasids.any fun x => x.1 == pasid
/-- The walk of an address in a PASID's tables (R102-R104), and the state with the update lines recalled that its reads found (R331). -/
def State.walk (s : State) (pasid : Nat) (va : Word) : Walk × State :=
  let at_ := tabGet 0 s.pasids pasid
  if !s.hasPasid pasid || s.absent at_ then (.none, s)
  else
    let (e, s1) := s.readTable at_ 8
    let (d, s2) := s1.readTable (at_ + 8) 8
    let root := bits e 44 12 * 4096
    if bits e 63 45 != 0 || bits e 11 1 != 0 then (.none, s2)
    else if bit e 0 then
      let n := 12 + bits d 3 0 * (if bit d 4 then 10 else 9)
      let top := if 64 ≤ n then true else
        bits va.toNat 63 n == (if bit va.toNat (n - 1) then 2 ^ (64 - n) - 1 else 0)
      if !hfdOk d || !top then (.none, s2)
      else s2.walkHost (tabGet 0 s.dev.host.owner pasid) d va.toNat (bits d 3 0 - 1) root
    else if d != 0 then (.none, s2)
    else s2.walkDevice va.toNat 3 root

/-- The addresses for which one TLB entry answers: those of its page, but of a 64 KiB page, which sixteen table entries describe, only
those of the entry that was walked (R103, R105). -/
def Trans.span (t : Trans) : Nat := if t.size = 2 ^ 16 then 2 ^ 12 else t.size
/-- A TLB entry covers an address (R105). -/
def TlbEntry.covers (e : TlbEntry) (pasid va : Nat) : Bool := e.pasid == pasid && e.va ≤ va && va < e.va + e.trans.span
/-- A TLB entry's page meets a range of a PASID (R113). -/
def TlbEntry.meets (e : TlbEntry) (pasid base len : Nat) : Bool :=
  let va := e.va / e.trans.size * e.trans.size
  e.pasid == pasid && va < base + len && base < va + e.trans.size
/-- A translation is found in the TLB (R105). -/
def State.tlbHit (s : State) (p pasid : Nat) (va : Word) : Option Trans :=
  ((s.plaza p).tlb.find? fun e => e.covers pasid va.toNat).map fun e => e.trans
/-- The code memory or data copy mapped at an address of a PASID (R257), for an access on behalf of a job: its own copy, or for others the one
made last, where jobs that share a text each have a copy at one address (log 21). -/
def State.codeMap (s : State) (job : Option Nat) (pasid va : Nat) : Option CodeMap :=
  let here := s.placer.codeMaps.reverse.filter fun m => m.pasid == pasid && m.va ≤ va && va < m.va + m.len
  match here.find? fun m => job == some m.job with
  | some m => some m
  | none => here.head?
/-- The job whose placement is on plaza p. -/
def State.jobOn (s : State) (p : Nat) : Option Nat := if s.hasPlace p then some (s.place p).job else none
/-- The translation of code memory: execute-only text, or read-write data, in pages of 4 KiB (R257). -/
def CodeMap.trans (m : CodeMap) (va : Nat) : Trans :=
  { mod := Config.thisModule, base := m.frame + (va - m.va) / 4096 * 4096, size := 4096, read := !m.text, write := !m.text, atomic := false,
    exec := m.text, master := false, priv := false }
/-- Translate (R57, R105): the plaza's TLB, walking on a miss; a migrating page waits (R117). None: no valid mapping. -/
def State.translate (s : State) (p pasid : Nat) (va : Word) : Res (Option Trans) :=
  match s.codeMap (s.jobOn p) pasid va.toNat with
  | some m => .ok (some (m.trans va.toNat)) s
  | none => match s.tlbHit p pasid va with
  | some t => .ok (some t) s
  | none => match s.walk pasid va with
    | (.ok t, u) => .ok (some t) (u.modPlaza p fun q =>
        { q with tlb := ⟨pasid, va.toNat / t.span * t.span, t⟩ :: q.tlb })
    | (.none, u) => .ok none u
    | (.migrating, u) => .wait u
/-- The home key of an address under a translation. -/
def State.transKey (s : State) (t : Trans) (va : Word) : Nat := s.homeKey t.mod (t.base + va.toNat % t.size)
/-- A translation that leads to an absent address (R101). -/
def State.transAbsent (s : State) (t : Trans) (va : Word) : Bool :=
  let k := s.transKey t va
  k < 2 ^ 45 && s.absent k

/-- What an access needs of its page (R57). -/
inductive Need where
  | read | write | atomic
  deriving DecidableEq, Repr
/-- The page grants what the access needs (R57, R103). -/
def Trans.grants (t : Trans) : Need → Bool
  | .read => t.read
  | .write => t.write
  | .atomic => t.read && t.write && t.atomic

/-- A location on another module, for an agent whose job has that feature disabled; context 5 has every feature present (R253). -/
def State.remoteOff (s : State) (p pasid key : Nat) : Bool := keyRemote key && pasid != s.runtime && s.cur.agent != .control p 5 && !s.hasFeature p 7
/-- The checks of R57 in their order: alignment (size 0 checks none), canonical form, translation, permission; a write to a view
page lacks permission (R297). Answers the home key and whether the page is plaza-private. -/
def State.checkVa (s : State) (p pasid : Nat) (ea : Word) (size : Nat) (need : Need) : Res (Nat × Bool) :=
  if size != 0 && ea.toNat % size != 0 then .fail .misaligned ea 0 s
  else if !canonical ea then .fail .page ea 0 s
  else match s.translate p pasid ea with
    | .wait t => .wait t
    | .fail c a b t => .fail c a b t
    | .ok none t => .fail .page ea 0 t
    | .ok (some tr) t =>
      if t.transAbsent tr ea then .fail .page ea 0 t
      else if !tr.grants need || (need != .read && t.viewPage (t.transKey tr ea)) then .fail .protect ea 0 t
      else if t.remoteOff p pasid (t.transKey tr ea) then .fail .illegal ea 0 t
      else .ok (t.transKey tr ea, tr.priv) t

/-- The page size code of a handle (R106). -/
def sizeCode (size : Nat) : Nat := if size = 2 ^ 12 then 0 else if size = 2 ^ 16 then 1 else if size = 2 ^ 21 then 2 else 3
/-- The page size of a size code (R106). -/
def codeSize (c : Nat) : Nat := if c = 0 then 2 ^ 12 else if c = 1 then 2 ^ 16 else if c = 2 then 2 ^ 21 else 2 ^ 30
/-- Requested permissions as the handle's bits 59-57: perms is 1 r, 2 w, 3 rw, 7 rwa (R106, R109). -/
def permBits (perms : Nat) : Nat :=
  b2n (bit perms 0) * 2 ^ 59 + b2n (bit perms 1) * 2 ^ 58 + b2n (bit perms 2) * 2 ^ 57
/-- The value of a VALID handle (R106). -/
def handleValue (t : Trans) (perms : Nat) : Word :=
  BitVec.ofNat 64 (2 ^ 63 + sizeCode t.size * 2 ^ 60 + permBits perms + t.mod * 2 ^ 45 + t.base)
/-- A translation grants requested permissions (R109). -/
def Trans.grantsPerms (t : Trans) (perms : Nat) : Bool :=
  (!bit perms 0 || t.read) && (!bit perms 1 || t.write) && (!bit perms 2 || t.atomic)
/-- The handle made VALID by a translation (R107). -/
def Handle.setValid (h : Handle) (t : Trans) : Handle :=
  { h with st := .valid, value := handleValue t h.perms, priv := t.priv, user := none, fail := none }
/-- Handle N of plaza p's placement. -/
def State.handle (s : State) (p n : Nat) : Handle := tabGet Handle.off (s.place p).handles n
/-- Handle N changed. -/
def State.modHandle (s : State) (p n : Nat) (f : Handle → Handle) : State :=
  s.modPlace p fun q => { q with handles := tabSet q.handles n (f (tabGet Handle.off q.handles n)) }
/-- What HGET reads: PENDING and FAULTED read pending 1 and zeros (R107). -/
def Handle.read (h : Handle) : Word :=
  match h.st with
  | .empty => 0
  | .pending => BitVec.ofNat 64 (2 ^ 62)
  | .faulted => BitVec.ofNat 64 (2 ^ 62)
  | _ => h.value
/-- An invalidation of the handle's page (R107, R113): a VALID handle keeps its value with valid and pending cleared; a
PENDING one walks again at its walk's end (R115). -/
def Handle.invalidate (h : Handle) : Handle :=
  match h.st with
  | .valid => { h with st := .stale, value := h.value &&& BitVec.ofNat 64 (2 ^ 62 - 1) }
  | _ => h
/-- A handle restored on resume (R107, R116). -/
def Handle.resume (h : Handle) : Handle :=
  match h.st with
  | .empty => h
  | .valid => { h.invalidate with user := none, fail := none }
  | .stale => { h with user := none, fail := none }
  | _ => { h with st := .stale, value := 0, user := none, fail := none }
/-- The pages a handle's value covers overlap a VA range (R113). -/
def Handle.overlaps (h : Handle) (base len : Nat) : Bool :=
  let size := codeSize (bits h.value.toNat 61 60)
  let pv := h.va.toNat / size * size
  h.st == .valid && pv < base + len && base < pv + size

/-- What a use of a handle answers (R107, R108, R112, R114). -/
inductive HandleUse where
  | ok (key : Nat) (priv : Bool)
  | stall
  | stale
  | fault (c : Cause)
  deriving DecidableEq, Repr
/-- The checks of R108 for n bytes at an unsigned offset o. -/
def State.useHandle (s : State) (h : Handle) (o n : Nat) (need : Need) : HandleUse :=
  match h.st with
  | .empty => .fault .hunmapped
  | .pending => .stall
  | .faulted => .stall
  | .stale => .stale
  | .valid =>
    let v := h.value.toNat
    let size := codeSize (bits v 61 60)
    let d := h.va.toNat % size
    let r := bit v 59
    let w := bit v 58
    let a := bit v 57
    let granted := match need with
      | .read => r
      | .write => w
      | .atomic => r && w && a
    let key := s.homeKey (bits v 53 45) (bits v 44 12 * 4096 + d + o)
    if size - d < o + n then .fault .hbounds
    else if !granted || (need != .read && s.viewPage key) then .fault .protect
    else if key < 2 ^ 45 && s.absent key then .fault .page
    else .ok key h.priv
/-- A refresh walk of a STALE handle (R114): VALID, a fault, or none while the page migrates. -/
def State.refresh (s : State) (p n : Nat) : Res Unit :=
  let h := s.handle p n
  if !canonical h.va then .fail .page h.va 0 s
  else match s.translate p (s.place p).pasid h.va with
  | .ok (some t) s1 =>
    if s1.transAbsent t h.va then .fail .page h.va 0 s1
    else if !t.grantsPerms h.perms then .fail .protect h.va 0 s1
    else .ok () (s1.modHandle p n fun x => x.setValid t)
  | .ok none s1 => .fail .page h.va 0 s1
  | .wait s1 => .wait s1
  | .fail c a b s1 => .fail c a b s1

/-- A blocking instruction whose wait may involve another module or a publish (R83, R246): pre-emption or a trap abandons it. -/
def blocking (i : Instr) : Bool :=
  match i with
  | .waitm .. | .jbar .. | .viewdrop .. | .viewsync .. | .launch .. | .jwait .. => true
  | _ => false
/-- Context c's instruction has begun and cannot be abandoned (R83, R246): it waits on its home, a walk, a writeback, an acquire, a view block, a notice (R342, R348) or room in a
Release Record Table. One that meets a migrating page can (R117). -/
def State.busy (s : State) (p c : Nat) : Bool :=
  match (s.ctx p c).wait with
  | none => false
  | some (.xlt _ a _) => (s.ctx p c).acq.isSome && (s.walk (s.ctxPasid p c) (s.g p c a)).1 != .migrating
  | some i => !blocking i &&
      ((s.remotes.any fun r => r.who == .ctx p c) || (s.ctx p c).acq.isSome || !(s.ctx p c).delays.isEmpty || s.noticesFrom p)

/-- A command in progress that a request of its PASID reaches reads its handles anew at each access from then on (R113). -/
def Cmd.loseHandles (c : Cmd) : Cmd := if c.started then { c with held := [], reread := true } else c
/-- A WAITM at scope P that sleeps wakes where its mapping is removed: its next load finds out (R62). -/
def Ctx.unmapped (x : Ctx) (q : Plaza) (pasid base len : Nat) : Ctx :=
  match x.sleep, x.wait with
  | some _, some (.waitm _ a _ _ _ _) =>
    let ea := (x.reg a).toNat
    if (base ≤ ea && ea < base + len) || q.tlb.any fun e => e.meets pasid base len && e.covers pasid ea then { x with sleep := none } else x
  | _, _ => x
/-- The contexts of a plaza in an address space whose WAITMs an invalidation wakes (R62). -/
def Plaza.wakeUnmapped (q : Plaza) (runtime pasid base len : Nat) : Plaza :=
  { q with
    ctx5 := if pasid = runtime then q.ctx5.unmapped q pasid base len else q.ctx5
    place := if q.place.pasid = pasid then { q.place with ctx := q.place.ctx.map fun x => (x.1, x.2.unmapped q pasid base len) } else q.place }
/-- The VA range's translations leave every TLB and handle of the module (R62, R107, R113). -/
def State.shootDown (s : State) (pasid base len : Nat) : State :=
  { s with plazas := (s.plazas.map fun x => (x.1, x.2.wakeUnmapped s.runtime pasid base len)).map fun x =>
      (x.1, { x.2 with
        tlb := x.2.tlb.filter fun e => !e.meets pasid base len
        place := if x.2.place.pasid == pasid then
            { x.2.place with
              handles := x.2.place.handles.map fun y => (y.1, if y.2.overlaps base len then y.2.invalidate else y.2)
              copyQ := x.2.place.copyQ.map fun c => c.loseHandles
              linkQ := x.2.place.linkQ.map fun c => c.loseHandles }
          else x.2.place }) }

end Sys2Proof.Machine
end

