-- ==== Sys2Proof/Machine/Ops.lean ====
section
/-! DEFINITION. The named operations of the control core: retiring and transferring control with hardware loops (R42-R51), taking a
trap and its delivery (R87-R97), waiting (R83), the instruction cache and fetch (R46, R70, R78-R86). -/
namespace Sys2Proof.Machine

/-- The cause codes (R92). -/
def Cause.code : Cause → Nat
  | .illegal => 0x01
  | .privileged => 0x02
  | .misaligned => 0x03
  | .page => 0x04
  | .fetch => 0x05
  | .protect => 0x06
  | .hbounds => 0x07
  | .hunmapped => 0x08
  | .bankconflict => 0x09
  | .tokenfailed => 0x0A
  | .engine => 0x0B
  | .viewstale => 0x0C
  | .viewpoison => 0x0D
  | .qdeadlock => 0x0E
  | .memerr => 0x0F
  | .trapinsn => 0x10
  | .breakpoint => 0x11
  | .ringstate => 0x12
  | .nestinvalid => 0x13
  | .linkdown => 0x14
  | .watchdog => 0x15

/-- The record's sixteen doublewords (R91); reserved bits are zero. -/
def Record.words (r : Record) : List Nat :=
  [ r.cause.code + r.ctx * 2 ^ 8 + b2n r.async * 2 ^ 15 + r.plaza * 2 ^ 16 + r.module * 2 ^ 24 + r.job * 2 ^ 32,
    r.seq + r.index * 2 ^ 32, r.pc.toNat, r.faddr.toNat, r.pc2.toNat, r.avhead + r.avtail * 2 ^ 32,
    r.alhead + r.altail * 2 ^ 32,
    r.token + r.hnum * 2 ^ 16 + b2n r.hvalid * 2 ^ 22 + r.lanes.toNat * 2 ^ 32,
    r.handle.toNat, r.va.toNat, r.snap.toNat, r.engine + r.lgroup * 2 ^ 4 + r.detail * 2 ^ 8, r.paddr, r.time, 0, 0 ]
/-- The record's 128 bytes (R91). -/
def Record.bytes (r : Record) : List Byte := r.words.flatMap (leBytes 8)

/-- The oldest unretired block's sequence number, avtail when there is none (R91, R141). -/
def Place.avhead (q : Place) : Nat :=
  match q.blocks.find? fun b => b.st != .cancelled with
  | some b => b.seq
  | none => q.avtail
/-- A record of context c with what every record holds (R91); pc is the context's, the rest as the cause gives it (R92). -/
def State.record (s : State) (p c : Nat) (cause : Cause) (faddr : Word) : Record :=
  let q := s.place p
  { cause := cause, async := false, ctx := c, module := s.dev.modNum, plaza := p, job := q.job, index := q.index,
    seq := q.avtail, pc := (s.ctx p c).pc, faddr := faddr, pc2 := 0, avtail := q.avtail, avhead := q.avhead,
    altail := q.altail, alhead := q.alhead, lanes := 0, hvalid := false, hnum := 0, token := 0x7F, handle := 0, va := 0,
    snap := 0, detail := 0, lgroup := 0, engine := 0, paddr := 0, time := s.dev.ns, cycle := s.dev.cycle }

/-- Bytes written by plaza p at the homes of a range, line by line, its copies of the lines dropped (R332). -/
def State.putBytes (s : State) (p key : Nat) (bytes : List Byte) : State :=
  (linePieces key bytes.length).foldl (fun t x =>
    let u := t.flushLine p (x.1 / 128)
    (u.writeLine (some p) (x.1 / 128) (byteMask (x.1 % 128) x.2)
      (vecPut (0 : Row) (x.1 % 128) x.2 (leNat ((bytes.drop (x.1 - key)).take x.2))) 0).getD u) s
/-- A write by a unit of the device: done, lost where no page maps it (log 15), or none while its page migrates (R117). -/
def State.tryWrite (s : State) (w : HeldWrite) : Option State :=
  if !canonical w.va then some s
  else match s.translate w.plaza w.pasid w.va with
    | .ok (some t) u => some (if u.transAbsent t w.va then u else u.putBytes w.plaza (u.transKey t w.va) w.bytes)
    | .wait _ => none
    | _ => some s
/-- Such a write, in the order in which its address space's are made; it waits where it cannot be made (R117). -/
def State.writeVa (s : State) (p pasid : Nat) (va : Word) (bytes : List Byte) : State :=
  let w : HeldWrite := ⟨p, pasid, va, bytes, false⟩
  if s.writes.any fun x => x.pasid == pasid then { s with writes := s.writes ++ [w] }
  else (s.tryWrite w).getD { s with writes := s.writes ++ [w] }
/-- Bytes written in the runtime's address space. -/
def State.writeRuntime (s : State) (p : Nat) (va : Word) (bytes : List Byte) : State := s.writeVa p s.runtime va bytes
/-- A write to an address of the runtime would wait (R117). -/
def State.slotStalls (s : State) (p : Nat) (va : Word) : Bool :=
  (s.writes.any fun x => x.pasid == s.runtime) || (canonical va && match s.translate p s.runtime va with
    | .wait _ => true
    | _ => false)
/-- The instruction does not retire: its line access is not of the committed stream, and its count is taken back (R70). -/
def Ctx.uncount (x : Ctx) : Ctx :=
  match x.counting with
  | none => x
  | some true => { x with ichit := x.ichit - 1, counting := none }
  | some false => { x with icmiss := x.icmiss - 1, counting := none }
/-- Context 5 starts at TRAPVEC; what it waited for is abandoned (R88, R89). -/
def Ctx.startTrap (x : Ctx) (vec : Word) : Ctx :=
  { x.uncount with state := .running, pc := vec, prev := 0, wait := none, acq := none, delays := [], sync := [], lineAccess := true, asked := [] }
/-- Context 5 is woken at TRAPVEC (R89): SVEPC takes the PC of its next or blocking instruction, or 0 if it was dormant. An
instruction that is no blocking one and has begun completes first. -/
def State.wakeSupervisor (s : State) (p : Nat) : State :=
  if s.busy p 5 then s.modPlaza p fun q => { q with wakeDue := true }
  else (s.forgetRemotes (.ctx p 5)).modPlaza p fun q =>
    { q with wakeDue := false, svepc := if q.ctx5.state = .dormant then 0 else q.ctx5.pc, ctx5 := q.ctx5.startTrap q.trapvec }
/-- A context ends by a halt, with an exit status (R83, R95). -/
def Ctx.endBy (x : Ctx) (v : W32) : Ctx :=
  { x with state := .ended, wait := none, acq := none, delays := [], sync := [], halted := true, exitStatus := some v, ending := none }
/-- What waited for an instruction in progress to reach its boundary: the supervisor's wake (R89), or a halt (R95). -/
def State.settleWake (s : State) (p c : Nat) : State :=
  if c = 5 && (s.plaza p).wakeDue then s.wakeSupervisor p
  else match (s.ctx p c).ending with
    | some v => s.modCtx p c fun x => x.endBy v
    | none => s
/-- A record takes its place in a pending list: the order of the traps, those of one cycle by context number (R89). -/
def insertRecord (r : Record) : List Record → List Record
  | [] => [r]
  | x :: t => if x.cycle == r.cycle && r.ctx < x.ctx then r :: x :: t else x :: insertRecord r t
/-- The oldest pending record that may be delivered: once pre-emption is due, none of its placement's (R89, R97). -/
def State.nextRecord (s : State) (p : Nat) : Option Record :=
  let q := s.plaza p
  q.pending.find? fun r => !(q.preempt && q.res == .resident && !q.place.halted && s.ours p r)
/-- A delivery opens with a record (R89): it is written to the slot. -/
def State.openRecord (s : State) (p : Nat) (r : Record) : State :=
  (s.writeRuntime p (s.plaza p).trapslot r.bytes).modPlaza p fun q => { q with open_ := some r, pending := q.pending.erase r }
/-- A pending record opens a delivery where none is open and its slot can be written (R89, R117). -/
def State.openNext (s : State) (p : Nat) : State :=
  match (s.plaza p).open_, s.nextRecord p with
  | none, some r => if s.slotStalls p (s.plaza p).trapslot then s else (s.openRecord p r).wakeSupervisor p
  | _, _ => s
/-- A record in the slot opens a delivery; with one open, or while the slot's page migrates, it waits in the pending list (R89, R117). Of
two traps in one cycle that of the lower context comes first: it takes the slot, since context 5 begins in a later cycle. A record of a placement
that is being halted is dropped (R97). -/
def State.deliver (s : State) (p : Nat) (r : Record) : State :=
  if (s.place p).halted then s
  else match (s.plaza p).open_ with
    | some o =>
      if s.justOpened p && r.cycle == s.dev.cycle && r.ctx < o.ctx then
        (s.openRecord p r).modPlaza p fun q => { q with pending := insertRecord o q.pending }
      else s.modPlaza p fun q => { q with pending := insertRecord r q.pending }
    | none =>
      if !(s.plaza p).pending.isEmpty || s.slotStalls p (s.plaza p).trapslot then
        (s.modPlaza p fun q => { q with pending := insertRecord r q.pending }).openNext p
      else
        let s1 := s.writeRuntime p (s.plaza p).trapslot r.bytes
        (s1.modPlaza p fun q => { q with open_ := some r }).wakeSupervisor p
/-- A synchronous fault of context 5 (R90): the record at TRAPSLOT + 128, the plaza stopped, a plaza failure reported. -/
def State.supervisorFault (s : State) (p : Nat) (r : Record) : State :=
  let s1 := s.writeRuntime p ((s.plaza p).trapslot + 128) r.bytes
  (s1.modPlaza p fun q => { q with stopped := true }).signal 0
/-- Taking a trap (R87, R89, R90): the context stops as TRAPPED with PC at the record's pc, and the record is delivered. -/
def State.takeTrap (s : State) (p c : Nat) (r : Record) : State :=
  if c = 5 then s.supervisorFault p r
  else ((s.modCtx p c fun x =>
    { x.uncount with state := .trapped, pc := r.pc, wait := none, acq := none, delays := [], sync := [] }).settleWake p c).deliver p r
/-- A synchronous trap at the context's instruction (R92). -/
def State.trap (s : State) (p c : Nat) (cause : Cause) (faddr : Word) : State := s.takeTrap p c (s.record p c cause faddr)
/-- A MEMERR with its physical address (R91, R315), or another access fault. -/
def State.trapAccess (s : State) (p c : Nat) (cause : Cause) (faddr : Word) (paddr : Nat) : State :=
  s.takeTrap p c { s.record p c cause faddr with paddr := if cause = .memerr then paddr else 0 }
/-- ILLEGAL and PRIVILEGED: faddr holds the instruction's words (R92). -/
def Ctx.words (x : Ctx) : Word := BitVec.ofNat 64 (x.w0 + (if isDouble x.w0 then x.w1 * 2 ^ 32 else 0))
def State.illegal (s : State) (p c : Nat) : State := s.trap p c .illegal (s.ctx p c).words
def State.privileged (s : State) (p c : Nat) : State := s.trap p c .privileged (s.ctx p c).words

/-- A control context's instruction, legal in the listed contexts and ILLEGAL in the others (R75, R118, R282, R293). -/
def onContext (s : State) (legal : List Nat) (f : Nat → Nat → Out) : Out :=
  match s.cur.agent with
  | .control p c => if legal.contains c then f p c else .next (s.illegal p c)
  | _ => .next s
/-- Every context. -/
def allCtx : List Nat := [0, 1, 2, 3, 4, 5]

/-- Loop level L of a table. -/
def levelOf (t : Tab Level) (l : Nat) : Level := tabGet Level.off t l
/-- End detection without stage or rotate modes (R50): the levels whose last word has completed, highest first; the address to
loop back to, if any. -/
def loopEnd (pc : Word) : List Nat → Tab Level → Tab Level × Option Word
  | [], t => (t, none)
  | l :: rest, t =>
    let x := levelOf t l
    if x.active && x.last == pc then
      if 1 < x.remaining then (tabSet t l { x with remaining := x.remaining - 1, iteration := x.iteration + 1 }, some x.first)
      else loopEnd pc rest (tabSet t l { x with remaining := x.remaining - 1, active := false })
    else loopEnd pc rest t
/-- Length in bytes of the context's instruction (R12). -/
def Ctx.len (x : Ctx) : Nat := if isDouble x.w0 then 8 else 4
/-- The context after its instruction completed and went to `target` by a taken transfer (R42-R46, R51, R70). -/
def Ctx.transfer (x : Ctx) (target : Word) : Ctx :=
  { x with
    pc := target, prev := x.pc, insret := x.insret + 1, lineAccess := true, asked := [], counting := none, state := .running, wait := none, acq := none, delays := [], sync := []
    levels := x.levels.map fun l =>
      (l.1, if l.2.first ≤ target && target ≤ l.2.last then l.2 else { l.2 with active := false }) }
/-- The context after its instruction completed and fell through, with end detection (R50, R70); a line that it asked for with its extension word
keeps what fetch found then. -/
def Ctx.fallThrough (x : Ctx) : Ctx :=
  let (levels, back) := loopEnd x.pc [3, 2, 1, 0] x.levels
  let next := back.getD (x.pc + BitVec.ofNat 64 x.len)
  { x with
    pc := next, prev := x.pc, insret := x.insret + 1, levels := levels, asked := x.asked.filter (fun a => a.1 == next.toNat / 64), counting := none
    lineAccess := back.isSome || next.toNat / 64 != x.pc.toNat / 64, state := .running, wait := none, acq := none, delays := [], sync := [] }
/-- The instruction retires: its register writes f, then the fall-through. -/
def State.retire (s : State) (p c : Nat) (f : Ctx → Ctx) : State :=
  (s.modCtx p c fun x => (f x).fallThrough).settleWake p c
/-- The instruction retires with g[rd] := v. -/
def State.retireReg (s : State) (p c d : Nat) (v : Word) : State := s.retire p c fun x => x.setReg d v
/-- The instruction retires by a taken transfer to `target`. -/
def State.jump (s : State) (p c : Nat) (f : Ctx → Ctx) (target : Word) : State :=
  (s.modCtx p c fun x => (f x).transfer target).settleWake p c
/-- The context waits in its instruction, which runs again from its start (R83). WDOG counts from its first wait: a wake whose condition
is not met does not start the sleep again, which R62 leaves open (DESIGN CHOICE, log 27). -/
def State.block (s : State) (p c : Nat) (i : Instr) : State :=
  s.modCtx p c fun x =>
    { x with state := .waiting, wait := some i, since := if x.wait.isSome then x.since else s.dev.cycle }
/-- The outcome of an instruction's access: it goes on, waits, or takes the trap of its failure. -/
def onAccess {α : Type} (r : Res α) (p c : Nat) (i : Instr) (f : α → State → Out) : Out :=
  match r with
  | .ok a s => f a s
  | .wait s => .next (s.block p c i)
  | .fail cause faddr paddr s => .next (if cause = .illegal then s.illegal p c else s.trapAccess p c cause faddr paddr)

/-- The state that an event's meaning leaves; each event does nothing where it does not apply. -/
def onward (f : State → Out) (s : State) : State :=
  match f s with
  | .next t => t
  | _ => s
/-- Events run one after another. -/
def runAll (fs : List (State → Out)) (s : State) : State := fs.foldl (fun t f => onward f t) s
/-- The instruction line of an address space (R85). -/
def State.iline (s : State) (p pasid line : Nat) : Option ILine :=
  (s.plaza p).icache.find? fun x => x.pasid == pasid && x.line == line
/-- The least recently used instruction line of a list. -/
def lruILine : List ILine → Option ILine
  | [] => none
  | x :: t => match lruILine t with
    | none => some x
    | some y => some (if x.used < y.used then x else y)
/-- A line installed in its set of four ways, the least recently used leaving (R85). -/
def installILine (ls : List ILine) (x : ILine) : List ILine :=
  let n := 1 + listMax (ls.map fun y => y.used)
  let set := ls.filter fun y => y.line % 256 == x.line % 256
  let kept := if set.length < 4 then ls else match lruILine set with
    | some y => ls.filter fun z => !(z.pasid == y.pasid && z.line == y.line)
    | none => ls
  { x with used := n } :: kept
/-- The plaza's TLB as it stood in an earlier state: a fetch or hint that comes to nothing leaves no entry (R72, R81). -/
def State.oldTlb (s old : State) (p : Nat) : State := s.modPlaza p fun q => { q with tlb := (old.plaza p).tlb }
/-- The 64 bytes of an instruction line at a location, whether the unit is poisoned, and the location. -/
def ilineOf (key : Nat) (r : Row × BitVec 2) : BitVec 512 × Bool × Nat :=
  (r.1.extractLsb' (8 * (key % 128)) 512, r.2.getLsbD (key % 128 / 64), key)
/-- Text on another module, for a job that has that feature disabled (R253). -/
def State.textOff (s : State) (p pasid key : Nat) : Bool := keyRemote key && pasid != s.runtime && !s.hasFeature p 7
/-- An instruction line read at its home for the execute permission it needs (R46, R85, R105); none: it cannot be fetched; ILLEGAL where it lies on
another module and the job has that feature disabled (R253). -/
def State.readILine (s : State) (who : Requester) (p pasid line : Nat) : Res (Option (BitVec 512 × Bool × Nat)) :=
  let va : Word := BitVec.ofNat 64 (line * 64)
  if !canonical va then .ok none s
  else match s.translate p pasid va with
    | .wait t => .wait t
    | .fail c a b t => .fail c a b t
    | .ok none t => .ok none (t.oldTlb s p)
    | .ok (some tr) t =>
      if !tr.exec || t.transAbsent tr va then .ok none (t.oldTlb s p)
      else
        let key := t.transKey tr va
        if t.textOff p pasid key then .fail .illegal va 0 (t.oldTlb s p)
        else (t.fetchLine who (key / 128)).andThen fun r u => .ok (some (ilineOf key r)) u
/-- A demand access to an instruction line (R70, R73, R78): a hit is used again; a miss fills it, unless an invalidation cancelled the
fill on its way, when its data is used once (R316). -/
def State.takeILine (s : State) (who : Requester) (p pasid line : Nat) : Res (Option (BitVec 512 × Bool × Nat)) :=
  match s.iline p pasid line with
  | some x => .ok (some (x.data, x.bad, x.home)) (s.modPlaza p fun q =>
      let n := 1 + listMax (q.icache.map fun y => y.used)
      { q with icache := q.icache.map fun y => if y.pasid == pasid && y.line == line then { y with used := n } else y })
  | none =>
    let cancelled := s.remotes.any fun r => r.who == who && r.kind == 1 && r.cancelled
    (s.readILine who p pasid line).andThen fun r t =>
    match r with
    | none => .ok none t
    | some (d, bad, home) =>
      .ok (some (d, bad, home)) (t.modPlaza p fun q =>
        { q with icache := if cancelled then q.icache else installILine q.icache ⟨pasid, line, d, bad, home, 0⟩ })
/-- A fill of an instruction line ends: installed unless cancelled or its line cannot be read; one whose line is on another module goes on
until the answer has come (R72, R73, R78). -/
def State.finishIFill (s : State) (p : Nat) (f : IFill) : State :=
  let gone (t : State) : State :=
    { t with remotes := t.remotes.filter fun r => !(r.who == Requester.fetch p 6 && r.addr == f.key / 128 * 128) }.modPlaza p fun q =>
      { q with ifills := q.ifills.filter fun x => !(x.pasid == f.pasid && x.line == f.line) }
  if f.cancelled || (s.iline p f.pasid f.line).isSome then gone s
  else match s.fetchLine (.fetch p 6) (f.key / 128) with
    | .ok r t =>
      let (d, bad, home) := ilineOf f.key r
      (gone t).modPlaza p fun q => { q with icache := installILine q.icache ⟨f.pasid, f.line, d, bad, home, 0⟩ }
    | .wait t => t
    | .fail _ _ _ t => gone t
/-- The word at an address: none if it cannot be fetched, MEMERR with its location if its unit is poisoned (R46, R91, R315). -/
def State.fetchWord (s : State) (who : Requester) (p pasid : Nat) (va : Word) : Res (Option Nat) :=
  (s.takeILine who p pasid (va.toNat / 64)).andThen fun r t =>
    match r with
    | none => .ok none t
    | some (d, bad, home) =>
      if bad then .fail .memerr va ((home + va.toNat % 64) % 2 ^ 45) t else .ok (some (vecBytes d (va.toNat % 64) 4)) t
/-- A fetch that cannot take place: FETCH at the address, with the instruction before it as pc2 (R46, R92). Where an SRET has restarted the
context at that address, which no transfer or fall-through of its own reached, pc2 stays the instruction before the trap; R92 does not say
(DESIGN CHOICE, log 27). -/
def State.fetchTrap (s : State) (p c : Nat) (faddr : Word) : State :=
  s.takeTrap p c { s.record p c .fetch faddr with pc2 := (s.ctx p c).prev }
/-- A line access counted as a hit or a miss (R70). -/
def Ctx.countLine (x : Ctx) (hit : Bool) : Ctx :=
  if !x.lineAccess then x
  else if hit then { x with ichit := x.ichit + 1, lineAccess := false, counting := some true }
  else { x with icmiss := x.icmiss + 1, lineAccess := false, counting := some false }
/-- Whether an instruction line was valid when fetch first asked for it (R70). -/
def Ctx.hitAt (x : Ctx) (line : Nat) (valid : Bool) : Bool :=
  match x.asked.find? fun a => a.1 == line with
  | some a => a.2
  | none => valid
/-- A fetch that ends in FETCH has installed no instruction line and no TLB entry (R81): those of an earlier state come back, without the
line that this fetch brought. -/
def State.unfetch (s old : State) (p pasid line : Nat) (hit : Bool) : State :=
  s.modPlaza p fun q => { q with
    tlb := (old.plaza p).tlb
    icache := (old.plaza p).icache.filter fun x => hit || !(x.pasid == pasid && x.line == line) }
/-- What a context fetches (R13, R46, R70, R81): its instruction with the words kept in the context, or the state that its
fetch leaves: a trap taken, or a stall while a page migrates or a remote line is on its way, which leaves no TLB entry. The line access is counted before the
instruction runs, and taken back if it does not retire (R70), so a CSRR that is the first instruction of its line reads a count that holds its own
access; R80 speaks of earlier and later instructions only (DESIGN CHOICE, log 27). -/
def State.fetch (s : State) (p c : Nat) : Sum (Instr × State) State :=
  let x := s.ctx p c
  let pasid := s.ctxPasid p c
  let l0 := x.pc.toNat / 64
  let l1 := (x.pc + 4).toNat / 64
  let hit0 := x.hitAt l0 (s.iline p pasid l0).isSome
  let hit1 := x.hitAt l1 (s.iline p pasid l1).isSome
  let fault (r : Res (Option Nat)) (va : Word) (asked : List (Nat × Bool)) (k : Nat → State → Sum (Instr × State) State) :
      Sum (Instr × State) State :=
    match r with
    | .ok (some w) t => k w t
    | .ok none t => .inr ((t.unfetch s p pasid l0 hit0).fetchTrap p c va)
    | .wait t => .inr ((t.oldTlb s p).modCtx p c fun y => { y with asked := asked })
    | .fail cause _ b t => .inr (if cause = .illegal then (t.modCtx p c fun y => { y with w0 := 0, w1 := 0 }).illegal p c else t.trapAccess p c cause va b)
  fault (if !canonical x.pc then .ok none s else s.fetchWord (.fetch p c) p pasid x.pc) x.pc [(l0, hit0)] fun w0 t =>
    let go (w1 : Nat) (u : State) : Sum (Instr × State) State :=
      let v := u.modCtx p c fun y =>
        { ({ y with counting := none } : Ctx).countLine hit0 with
          w0 := w0, w1 := w1, asked := if isDouble w0 && l1 != l0 then [(l1, hit1)] else [] }
      match decodeControl w0 w1 with
      | some i => .inl (i, v)
      | none => .inr (v.illegal p c)
    if isDouble w0 then fault (t.fetchWord (.fetch p c) p pasid (x.pc + 4)) (x.pc + 4) [(l0, hit0), (l1, hit1)] go else go 0 t

end Sys2Proof.Machine
end

