-- ==== Sys2Proof/Machine/Operands.lean ====
section
/-! DEFINITION. The operand forms and results of the lanes (R21-R23, R29-R32, R146, R152, R153, R258): v rows, ring positions,
scalars and predicates with their undefined words; results in flight and their landing; lane stores (R167); hardware loops (R49-R53);
region markers (R156, R181); lane faults and the freeze (R182, R183). -/
namespace Sys2Proof.Machine

/-- A lane instruction of the running lane group. -/
def onLane (s : State) (f : Nat → Nat → Out) : Out :=
  match s.cur.agent with
  | .lane p l => f p l
  | _ => .next s
/-- The first physical lane of half l = 2g + h (R258). -/
def State.shift (s : State) (p l : Nat) : Nat := if (s.place p).w16 then 16 * (l % 2) else 0
/-- Lanes of a lane group, or of a half (R258). -/
def State.width (s : State) (p : Nat) : Nat := if (s.place p).w16 then 16 else 32
/-- The physical lanes of a lane group or half (R258). -/
def State.halfMask (s : State) (p l : Nat) : W32 := BitVec.ofNat 32 ((2 ^ s.width p - 1) * 2 ^ s.shift p l)

/-- A result that a source issued at `now` reads as undefined (R30, R153). -/
def Result.pending (r : Result) (now : Nat) : Bool := r.counted || now < r.at_ + r.bound
/-- The lane words of a row that results in flight leave undefined (R29, R30). -/
def Lane.undefRow (x : Lane) (now row : Nat) : W32 :=
  x.results.foldl (fun m r => if r.dest == .row row && r.pending now then m ||| r.mask ||| r.clash else m) 0
/-- Some result in flight has this destination. -/
def Lane.undef (x : Lane) (now : Nat) (d : Dest) : Bool := x.results.any fun r => r.dest == d && r.pending now
/-- An undefined row, and the state that has used it (R5, log 6). -/
def State.freeRow (s : State) : Row × State := (Config.freeRow s.fresh, { s with fresh := s.fresh + 1 })
/-- CB row `row` of plaza p. -/
def State.cbRow (s : State) (p row : Nat) : Row := tabGet 0 (s.plaza p).cb row
/-- A CB row as a lane group finds it beside its own results in flight, whose words read undefined. -/
def State.readOver (s : State) (p l row : Nat) (x : Row) : Row × State :=
  let m := (s.lane p l).undefRow s.dev.cycle row
  if m = 0 then (x, s) else (rowMix m s.freeRow.1 x, s.freeRow.2)
/-- A CB row read as one unit (R228). -/
def State.readUnit (s : State) (p l row : Nat) : Row × State := s.readOver p l row (s.cbRow p row)
/-- A CB row read word by word (R180): of the words that another group's VSTB writes in this cycle, some old and some new. -/
def State.tornRow (s : State) (p l row : Nat) : Row × State :=
  match (s.plaza p).torn.find? fun t => t.row == row && t.lane != l && t.cycle == s.dev.cycle with
  | none => (s.cbRow p row, s)
  | some t => (rowMix (s.freeWord.1 &&& t.words) t.old (s.cbRow p row), s.freeWord.2)
/-- A row as a source of the lane group (R180): words in flight read undefined. -/
def State.readRow (s : State) (p l row : Nat) : Row × State :=
  let (x, t) := s.tornRow p l row
  t.readOver p l row x
/-- Ring position k, from 1 (R31). -/
def State.readRing (s : State) (p l k : Nat) : Row × State :=
  match (s.lane p l).ring[k - 1]? with
  | some e => if e.written && !((s.lane p l).results.any fun r => r.ring == e.id && r.pending s.dev.cycle) then (e.data, s) else s.freeRow
  | none => s.freeRow
/-- The scalar s[n] as a source. -/
def State.readScalar (s : State) (p l n : Nat) : W32 × State :=
  if (s.lane p l).undef s.dev.cycle (.scalar n) then s.freeWord else ((s.lane p l).scalar n, s)
/-- The predicate p[n] as a source, at its physical lanes. -/
def State.readPred (s : State) (p l n : Nat) : W32 × State :=
  if (s.lane p l).undef s.dev.cycle (.pred n) then (s.freeWord.1 &&& s.halfMask p l, s.freeWord.2) else ((s.lane p l).pred n, s)
/-- The same word in every lane. -/
def broadcast (x : W32) : Row := rowOf fun _ => x
/-- A broadcast scalar at the element width of a type: its low bits in every element of a lane (R21). -/
def splatElem (width : Nat) (x : W32) : W32 :=
  if width = 8 then BitVec.ofNat 32 (x.toNat % 256 * 0x01010101) else if width = 16 then BitVec.ofNat 32 (x.toNat % 65536 * 0x00010001)
  else if width = 4 then BitVec.ofNat 32 (x.toNat % 16 * 0x11111111) else x
/-- The value of an operand code for a type width (R21). -/
def State.operandW (s : State) (p l width code : Nat) : Row × State :=
  if code < 64 then s.readRow p l (((s.lane p l).base + code) % 16384)
  else if code < 72 then s.readRing p l (code - 63)
  else let (x, t) := s.readScalar p l (code - 72); (broadcast (splatElem width x), t)
/-- The value of an operand code read as 32-bit lane words (R21, R146). -/
def State.operand (s : State) (p l code : Nat) : Row × State := s.operandW p l 32 code
/-- The scalar that an operand code 72-127 names (R21). -/
def State.scalarCode (s : State) (p l code : Nat) : W32 × State := s.readScalar p l (code - 72)
/-- The effective mask (R23): predicate n, inverted if inv = 1, AND p0. -/
def State.effMask (s : State) (p l n inv : Nat) : W32 × State :=
  let (m, t) := s.readPred p l n
  ((if inv = 1 then ~~~ m else m) &&& (s.lane p l).pred 0, t)

/-- The destination of a v-register field (R20, R32): v0 is the ring only. -/
def Lane.vdest (x : Lane) (d : Nat) : Dest := if d = 0 then .none else .row ((x.base + d) % 16384)
/-- Two results to one destination whose landing intervals may overlap leave it undefined (R32). -/
def markClash (now : Nat) (d : Dest) (half : W32) (rs : List Result) : List Result :=
  rs.map fun r => if d != .none && r.dest == d && r.pending now then { r with clash := half } else r
/-- A result issued: its ring position if it takes one (R31), its destination fixed (R32). -/
def State.issue (s : State) (p l bound : Nat) (counted : Bool) (dest : Dest) (ring : Bool) (data : Row) (mask : W32) : State :=
  let (id, s1) := s.newId
  let half := s.halfMask p l
  let now := s.dev.cycle
  s1.modLane p l fun x =>
    let clash := dest != .none && x.undef now dest
    { x with
      ring := if ring then (⟨id, 0, false⟩ :: x.ring).take 8 else x.ring
      results := markClash now dest half x.results ++
        [⟨id, now, bound, counted, dest, if ring then id else 0, data, mask, if clash then half else 0, false⟩] }
/-- A vector result (R146). -/
def State.issueRow (s : State) (p l bound d : Nat) (data : Row) (em : W32) : State :=
  s.issue p l bound false ((s.lane p l).vdest d) true data em
/-- A scalar result; a write to s0 is discarded (R24). -/
def State.issueScalar (s : State) (p l bound d : Nat) (v : W32) : State :=
  s.issue p l bound false (if d = 0 then .none else .scalar d) false (v.setWidth 1024) 1
/-- A predicate result, at its physical lanes. -/
def State.issuePred (s : State) (p l bound d : Nat) (v : W32) : State :=
  s.issue p l bound false (.pred d) false ((v &&& s.halfMask p l).setWidth 1024) 1

/-- The row that a landing result leaves in its destination: its words, the rest unchanged, clashing words undefined. -/
def State.landedRow (s : State) (r : Result) (old : Row) : Row × State :=
  let new := rowMix r.mask r.data old
  if r.clash = 0 then (new, s) else (rowMix r.clash s.freeRow.1 new, s.freeRow.2)
/-- The word that lands in a predicate or scalar, undefined on a clash. -/
def State.landedWord (s : State) (r : Result) : W32 × State := if r.clash = 0 then (rowWord r.data 0, s) else s.freeWord
/-- A result lands in its destination and its ring entry (R29, R31). -/
def State.landResult (s : State) (p l : Nat) (r : Result) : State :=
  let done (t : State) (row : Row) : State := t.modLane p l fun x =>
    { x with
      ring := x.ring.map fun e => if e.id == r.ring then { e with data := rowMix r.mask r.data row, written := true } else e
      results := x.results.map fun y => if y.id == r.id then { y with landed := true } else y }
  match r.dest with
  | .row n =>
    let (row, t) := s.landedRow r (s.cbRow p n)
    done (t.modPlaza p fun q => { q with cb := tabPut 0 q.cb n row }) row
  | .pred n =>
    let (v, t) := s.landedWord r
    done (t.modLane p l fun x => x.setPred n (v &&& s.halfMask p l)) 0
  | .scalar n =>
    let (v, t) := s.landedWord r
    done (t.modLane p l fun x => x.setScalar n v) 0
  | .none => done s 0
/-- Results that have landed leave: a bounded one once its bound has passed (R30), a counted one once every older counted one
has landed (R153). -/
def settleResults (now : Nat) : Bool → List Result → List Result
  | _, [] => []
  | older, r :: t =>
    if r.counted then (if r.landed && !older then settleResults now older t else r :: settleResults now true t)
    else if r.landed && r.at_ + r.bound ≤ now then settleResults now older t else r :: settleResults now older t
/-- A lane group whose discarded block's results have all landed becomes free (R175). -/
def Lane.settle (x : Lane) (now : Nat) : Lane :=
  if x.draining then (if x.results.all fun r => r.landed then { Lane.off with freeAt := now + 1 } else x)
  else { x with results := settleResults now false x.results }
/-- A result lands, and what has landed leaves. -/
def State.land (s : State) (p l : Nat) (r : Result) : State :=
  (s.landResult p l r).modLane p l fun x => x.settle s.dev.cycle
/-- Every result whose bound has come lands, in issue order (R29). -/
def State.landDue (s : State) (p l : Nat) : State :=
  let due := (s.lane p l).results.filter fun r => !r.landed && !r.counted && r.at_ + r.bound ≤ s.dev.cycle
  (due.foldl (fun t r => t.landResult p l r) s).modLane p l fun x => x.settle s.dev.cycle
/-- The load counter (R153). -/
def Lane.loads (x : Lane) : Nat := (x.results.filter fun r => r.counted).length
/-- Results, counters and stores are done: what VBEND, VRGN and VAMO wait for (R155, R156, R181). -/
def Lane.quiet (x : Lane) : Bool := x.results.all (fun r => r.landed) && x.loads == 0 && x.stores.isEmpty

/-- The pieces, within one line each, of n bytes at a key. -/
def splitKey (key n : Nat) : List (Nat × Nat) :=
  let room := 128 - key % 128
  if n ≤ room then [(key, n)] else [(key, room), (key + room, n - room)]
/-- n bytes of a lane store performed in the lanes' L1 (R167). -/
def State.putMem (s : State) (p key n v : Nat) (priv : Bool) : State :=
  ((splitKey key n).foldl (fun (x : State × Nat) k => (x.1.storeL1 p true k.1 k.2 (x.2 % 2 ^ (8 * k.2)) priv, x.2 / 2 ^ (8 * k.2))) (s, v)).1
/-- One part of a lane store performs (R166, R167, R227). -/
def State.performPart (s : State) (p : Nat) (st : LaneStore) (x : Nat × Nat × Nat) : State :=
  let (at_, n, v) := x
  match st.space with
  | .mem => s.putMem p at_ n v st.priv
  | .scratch => s.modPlaza p fun q => { q with scratch := tabPut 0 q.scratch (at_ / 128) (vecPut (tabGet 0 q.scratch (at_ / 128)) (at_ % 128) n v) }
  | .ab => s.modPlaza p fun q => { q with ab := tabPut 0 q.ab (at_ / 256) (vecPut (tabGet 0 q.ab (at_ / 256)) (at_ % 256) n v) }
  | .cb => s.modPlaza p fun q => { q with cb := tabPut 0 q.cb (at_ / 128) (vecPut (tabGet 0 q.cb (at_ / 128)) (at_ % 128) n v) }
/-- A lane store performs, lane by lane in rising order (R166), and leaves the store counter. -/
def State.performStore (s : State) (p l : Nat) (st : LaneStore) : State :=
  (st.parts.foldl (fun t x => t.performPart p st x) s).modLane p l fun x => { x with stores := x.stores.filter fun y => y.id != st.id }
/-- Every store of the lane group performs, in program order. -/
def State.performAll (s : State) (p l : Nat) : State := (s.lane p l).stores.foldl (fun t st => t.performStore p l st) s
/-- The place of the last store that meets a test, counted from 1. -/
def lastIdx (f : LaneStore → Bool) : List LaneStore → Nat
  | [] => 0
  | x :: t => match lastIdx f t with
    | 0 => if f x then 1 else 0
    | n + 1 => n + 2
/-- Two byte ranges meet. -/
def rangesMeet (a n b m : Nat) : Bool := a < b + m && b < a + n
/-- The bytes within which accesses of a space are ordered in program order (R167, R227, R321): a scratchpad row, a buffer row, or, in
memory, one byte. -/
def StoreSpace.grain : StoreSpace → Nat
  | .mem => 1
  | .scratch => 128
  | .ab => 256
  | .cb => 128
/-- A store and an access of a class over byte ranges of a space are ordered in program order (R167, R227): one class, or one byte, or one
row of the scratchpad or of a buffer. -/
def LaneStore.before (st : LaneStore) (cls : Nat) (space : StoreSpace) (rs : List (Nat × Nat)) : Bool :=
  let g := space.grain
  st.cls == cls || (st.space == space && st.parts.any fun x => rs.any fun r =>
    rangesMeet (x.1 / g) ((x.1 % g + x.2.1 + g - 1) / g) (r.1 / g) ((r.1 % g + r.2 + g - 1) / g))
/-- The stores that must perform before an access does, with every older one (R167). -/
def State.orderStores (s : State) (p l cls : Nat) (space : StoreSpace) (rs : List (Nat × Nat)) : State :=
  let sts := (s.lane p l).stores
  (sts.take (lastIdx (fun st => st.before cls space rs) sts)).foldl (fun t st => t.performStore p l st) s
/-- A lane store issued (R153). -/
def State.issueStore (s : State) (p l cls : Nat) (space : StoreSpace) (parts : List (Nat × Nat × Nat)) (priv : Bool) : State :=
  let (id, s1) := s.newId
  s1.modLane p l fun x => { x with stores := x.stores ++ [⟨id, cls, space, parts, priv⟩] }

/-- Every result in flight lands and every store performs, before the group's state is captured or restarts (R32). -/
def State.landAll (s : State) (p l : Nat) : State :=
  (((s.lane p l).results.filter fun r => !r.landed).foldl (fun t r => t.landResult p l r) s).performAll p l
/-- Rows that a rotate level advances the window by (R48, R52). -/
def Level.step (v : Level) : Nat := if v.mode = 1 then v.param else if v.mode = 3 then v.param % 4 + 1 else 0
/-- Stages of a stage level (R48, R53). -/
def Level.stages (v : Level) : Nat := if v.mode = 2 then v.param else if v.mode = 3 then v.param / 4 + 1 else 0
/-- A predicate written by the loop hardware; a result in flight to it no longer lands there (R53). -/
def Lane.loopPred (x : Lane) (n : Nat) (v : W32) : Lane :=
  { x.setPred n v with results := x.results.map fun r => if r.dest == .pred n then { r with dest := .none } else r }
/-- SetStagePredicates (R53): the trip count is remaining + iteration + 1 - S. -/
def Lane.setStages (x : Lane) (v : Level) : Lane :=
  let n := v.remaining + v.iteration + 1 - v.stages
  (List.range v.stages).foldl (fun y j => y.loopPred (4 + j) (if j ≤ v.iteration && v.iteration < n + j then x.pred 0 else 0)) x
/-- The stage predicates of a level that ends are cleared (R53). -/
def Lane.clearStages (x : Lane) (v : Level) : Lane := (List.range v.stages).foldl (fun y j => y.loopPred (4 + j) 0) x
/-- AdvanceWindow (R52). -/
def Lane.advance (x : Lane) (n : Nat) : Lane :=
  { x with window := (x.window + n) % 16384, oldWindow := (x.oldWindow + n) % 16384 }
/-- End detection on the lanes at the address of the completed instruction (R50), highest level first. -/
def laneLoopEnd (pc : Word) : List Nat → Lane → Lane × Option Word
  | [], x => (x, none)
  | l :: rest, x =>
    let v := levelOf x.levels l
    if v.active && v.last == pc then
      let x1 := x.advance v.step
      if 1 < v.remaining then
        let v1 := { v with remaining := v.remaining - 1, iteration := v.iteration + 1 }
        ({ x1 with levels := tabSet x1.levels l v1 }.setStages v1, some v.first)
      else laneLoopEnd pc rest ({ x1 with levels := tabSet x1.levels l { v with remaining := v.remaining - 1, active := false } }.clearStages v)
    else laneLoopEnd pc rest x
/-- A lane instruction of len bytes has issued: within a packet the next follows; at its end the loops are checked and the wait
fields hold the next packet (R28, R30, R50). -/
def Lane.retire (x : Lane) (now len wait k : Nat) : Lane :=
  if k = 1 then { x with pc := x.pc + BitVec.ofNat 64 len, packetWait := Nat.max x.packetWait wait }
  else
    let (y, back) := laneLoopEnd x.pc [3, 2, 1, 0] x
    { y with pc := back.getD (x.pc + BitVec.ofNat 64 len), nextAt := now + 1 + Nat.max x.packetWait wait, packetWait := 0 }
/-- The running lane group's instruction has issued. -/
def State.laneRetire (s : State) (p l len wait k : Nat) : State := s.modLane p l fun x => x.retire s.dev.cycle len wait k

/-- The window base that a packet issued at `now` resolves its v registers with (R152): the choice in the cycle after a VWIN is
free. -/
def Lane.windowFor (x : Lane) (now : Nat) : Nat :=
  if x.windowAt + 1 < now then x.window
  else if now = x.windowAt + 1 then (if (Config.freeWord x.windowPick).getLsbD 0 then x.oldWindow else x.window)
  else x.oldWindow

/-- The region state recorded (R156), to go on at `pc`. -/
def Lane.record (x : Lane) (pc : Word) (amo : W32) : Marker := ⟨pc, x.s, x.p, x.window, x.levels, x.pushes, amo⟩
/-- The region state of a block that resumes: s8 and s9 take its new lane group and plaza (R188). -/
def Marker.moved (m : Marker) (group plaza : Nat) : Marker :=
  { m with s := tabPut 0 (tabPut 0 m.s 8 (BitVec.ofNat 32 group)) 9 (BitVec.ofNat 32 plaza) }
/-- The open region restarts with the recorded state (R156, R181). What a VAMO in it has read stays: its acquire is still due, as the marker
is recorded only after it (R225, R226). -/
def Lane.restart (x : Lane) (now : Nat) : Lane :=
  let m := x.marker
  { x with
    pc := m.pc, s := m.s, p := m.p, window := m.window, oldWindow := m.window
    base := m.window, levels := m.levels, pushes := m.pushes, amo := m.amo, ring := [], results := [], nextAt := now + 1, packetWait := 0
    loadLimit := 127, storeLimit := 127, fence := 0, marking := false, ended := false, stopped := false, delays := [], acq := none, vamo := { x.vamo with mask := 0, olds := 0, held := none } }

/-- The block that runs on a lane group (R174). -/
def Place.blockOn (q : Place) (l : Nat) : Option Block := q.blocks.find? fun b => b.lane == some l
/-- A discarded block's lane group: its stores perform, and it is free once its results have landed (R175, R182). -/
def State.releaseLane (s : State) (p l : Nat) : State :=
  let s1 := s.modPlace p fun q => { q with handles := q.handles.map fun y =>
    (y.1, match y.2.user with
      | some (some j, _, _) => if j = l then { y.2 with user := none, fail := none } else y.2
      | _ => y.2) }
  ((s1.forgetRemotes (.lane p l)).performAll p l).modLane p l fun x => { x with draining := true, stopped := true, pushes := [] }.settle s.dev.cycle
/-- What a freeze makes of a block above the faulting one (R182). -/
def Block.discard (b : Block) : Block :=
  match b.st with
  | .running => { b with st := .queued, lane := none, pushes := [] }
  | .complete => { b with st := .queued, lane := none, pushes := [] }
  | .faulted => { b with st := .queued, lane := none, pushes := [] }
  | .spentRunning => { b with st := .cancelled, lane := none, pushes := [] }
  | .spentComplete => { b with st := .cancelled, lane := none, pushes := [] }
  | _ => b
/-- The blocks after the one with a sequence number, in avenue order. -/
def blocksAfter (seq : Nat) : List Block → List Block
  | [] => []
  | b :: t => if b.seq = seq then t else blocksAfter seq t
/-- The freeze of R182 at block seq: it becomes FAULTED and its group stops; the started blocks above it are discarded. -/
def State.freezeAt (s : State) (p seq : Nat) (r : Record) : State :=
  let above := blocksAfter seq (s.place p).blocks
  let s1 := above.foldl (fun t b => match b.lane with
    | some l => t.releaseLane p l
    | none => t) s
  let s2 := match (s.place p).blocks.find? fun b => b.seq == seq with
    | some b => (match b.lane with
      | some l => s1.modLane p l fun x => { x with stopped := true, delays := [], acq := none }
      | none => s1)
    | none => s1
  s2.modPlace p fun q =>
    { q with
      blocks := q.blocks.map fun b =>
        if b.seq = seq then { b with st := .faulted } else if above.any (fun a => a.seq == b.seq) then b.discard else b
      freeze := some ⟨seq, r, false⟩ }
/-- The record of a lane fault at the running instruction (R91, R94): the block's activity mask as the lane group sees it. -/
def State.laneRecord (s : State) (p l : Nat) (cause : Cause) (faddr : Word) : Record :=
  let x := s.lane p l
  let emitter := match (s.place p).blockOn l with
    | some b => b.emitter
    | none => 0
  { s.record p emitter cause faddr with
    async := true, seq := x.seq, pc := x.pc, lanes := x.pred 0 >>> s.shift p l, lgroup := l / 2 }
/-- The block on the lane group is SPENT: a fault in it is dropped and it runs on (R174). -/
def State.spent (s : State) (p l : Nat) : Bool := ((s.place p).blockOn l).any fun b => b.st == .spentRunning
/-- A lane fault (R182, R183): in a SPENT block it is dropped and the block runs on as `on` says; else the avenue freezes, or the freeze moves
to this block. -/
def State.laneFaultOr (s : State) (p l : Nat) (r : Record) (on : State) : State :=
  match (s.place p).blockOn l with
  | none => s
  | some b => if b.st == .spentRunning then on else s.freezeAt p b.seq r
/-- The wait field and pair bit of an instruction word (R16, R20); the shared subset has neither. -/
def waitField (w : Nat) : Nat := if 0x40 ≤ major w then fld w 2 1 else 0
def pairBit (w : Nat) : Nat := if 0x40 ≤ major w then fld w 0 0 else 0
/-- A lane fault at the running instruction: in a SPENT block it goes on as one that has issued (R28, R30). -/
def State.laneFault (s : State) (p l : Nat) (r : Record) : State :=
  s.laneFaultOr p l r (s.laneRetire p l s.cur.len (waitField s.cur.w0) (pairBit s.cur.w0))
/-- A lane fault of words that do not issue: a SPENT block passes over len bytes from its PC (R14). -/
def State.lanePass (s : State) (p l len : Nat) (r : Record) : State := s.laneFaultOr p l r (s.laneRetire p l len 0 0)
/-- ILLEGAL of the instruction with the given words at pc, which belongs to a packet of len bytes (R14, R91). -/
def State.laneIllegalAt (s : State) (p l len : Nat) (pc : Word) (w0 w1 : Nat) : State :=
  s.lanePass p l len
    { s.laneRecord p l .illegal (BitVec.ofNat 64 (w0 + (if isDouble w0 then w1 * 2 ^ 32 else 0))) with pc := pc }
/-- ILLEGAL raised by the running instruction's own rule (R14, R91). -/
def State.laneIllegalHere (s : State) (p l : Nat) : State :=
  s.laneFault p l
    (s.laneRecord p l .illegal (BitVec.ofNat 64 (s.cur.w0 + (if isDouble s.cur.w0 then s.cur.w1 * 2 ^ 32 else 0))))
/-- A vector result that will not be written takes its ring position (R31). -/
def State.skipRing (s : State) (p l : Nat) : State :=
  let (id, s1) := s.newId
  s1.modLane p l fun x => { x with ring := (⟨id, 0, false⟩ :: x.ring).take 8 }

/-- The elementwise forms of one, two and three operands (R146): every lane's word of each operand read at issue. -/
def lane1 (bound : Nat) (f : W32 → W32) (d a q v len w k : Nat) (s : State) : Out :=
  onLane s fun p l =>
    let (x, s1) := s.operand p l a
    let (em, s2) := s1.effMask p l q v
    .next ((s2.issueRow p l bound d (rowOf fun i => f (rowWord x i)) em).laneRetire p l len w k)
def lane2 (bound : Nat) (f : W32 → W32 → W32) (d a b q v len w k : Nat) (s : State) : Out :=
  onLane s fun p l =>
    let (x, s1) := s.operand p l a
    let (y, s2) := s1.operand p l b
    let (em, s3) := s2.effMask p l q v
    .next ((s3.issueRow p l bound d (rowOf fun i => f (rowWord x i) (rowWord y i)) em).laneRetire p l len w k)

end Sys2Proof.Machine
end

