-- ==== Sys2Proof/Machine/Alu.lean ====
section
/-! DEFINITION. The shared subset's arithmetic (R37-R41), FQRY, FENCE and NOP (R54-R56), on both slices. -/
namespace Sys2Proof.Machine

/-- High w bits of the signed product (R38). -/
def mulhs {w : Nat} (a b : BitVec w) : BitVec w := BitVec.ofInt w (a.toInt * b.toInt / (2 ^ w : Int))
/-- High w bits of the unsigned product (R38). -/
def mulhn {w : Nat} (a b : BitVec w) : BitVec w := BitVec.ofNat w (a.toNat * b.toNat / 2 ^ w)
/-- Number of leading zero bits (R38). -/
def clzAt {w : Nat} (a : BitVec w) : BitVec w := BitVec.ofNat w (if a = 0 then w else w - 1 - Nat.log2 a.toNat)
/-- Number of one bits (R38). -/
def popcAt {w : Nat} (a : BitVec w) : BitVec w := BitVec.ofNat w (popCount a.toNat w)
/-- Signed quotient and remainder, defined for every pair (R39). -/
def divSigned {w : Nat} (a b : BitVec w) : BitVec w × BitVec w :=
  if b = 0 then (BitVec.allOnes w, a)
  else if a = BitVec.intMin w ∧ b = BitVec.allOnes w then (a, 0)
  else (BitVec.ofInt w (a.toInt.tdiv b.toInt), BitVec.ofInt w (a.toInt.tmod b.toInt))
/-- Unsigned quotient and remainder (R39). -/
def divUnsigned {w : Nat} (a b : BitVec w) : BitVec w × BitVec w :=
  if b = 0 then (BitVec.allOnes w, a) else (BitVec.ofNat w (a.toNat / b.toNat), BitVec.ofNat w (a.toNat % b.toNat))

/-- A shared operation on two control registers at the width that x selects (R16, R37). -/
def atWidth (f : (w : Nat) → BitVec w → BitVec w → BitVec w) (x : Nat) (a b : Word) : Word :=
  if x = 1 then (f 32 (a.setWidth 32) (b.setWidth 32)).signExtend 64 else f 64 a b
/-- A register-register operation (R37, R38): g registers at width 64 or 32, s registers at width 32 with bound 1. -/
def sharedRR (f : (w : Nat) → BitVec w → BitVec w → BitVec w) (d a b x : Nat) (s : State) : Out :=
  match s.cur.agent with
  | .control p c => .next (s.retireReg p c d (atWidth f x (s.g p c a) (s.g p c b)))
  | .lane p l =>
    let (u, s1) := s.readScalar p l a
    let (v, s2) := s1.readScalar p l b
    .next ((s2.issueScalar p l 1 d (f 32 u v)).laneRetire p l 4 0 0)
  | .device => .next s
/-- An operation on one register (R38, R40): at width 64 on g registers unless x = 1, at width 32 on s registers. -/
def sharedR (f : (w : Nat) → BitVec w → BitVec w) (d a x : Nat) (s : State) : Out :=
  match s.cur.agent with
  | .control p c => .next (s.retireReg p c d (atWidth (fun w u _ => f w u) x (s.g p c a) 0))
  | .lane p l =>
    let (u, s1) := s.readScalar p l a
    .next ((s1.issueScalar p l 1 d (f 32 u)).laneRetire p l 4 0 0)
  | .device => .next s
/-- A control-only operation (R25, R39): the lanes raise ILLEGAL. -/
def controlRR (f : (w : Nat) → BitVec w → BitVec w → BitVec w) (d a b x : Nat) (s : State) : Out :=
  match s.cur.agent with
  | .control p c => .next (s.retireReg p c d (atWidth f x (s.g p c a) (s.g p c b)))
  | .lane p l => .next (s.laneIllegalHere p l)
  | .device => .next s

/-- ADD: a + b (R38). -/
def execAdd (d a b x : Nat) (s : State) : Out := sharedRR (fun _ a b => a + b) d a b x s
/-- SUB: a - b (R38). -/
def execSub (d a b x : Nat) (s : State) : Out := sharedRR (fun _ a b => a - b) d a b x s
/-- AND: a AND b (R38). -/
def execAnd (d a b x : Nat) (s : State) : Out := sharedRR (fun _ a b => a &&& b) d a b x s
/-- OR: a OR b (R38). -/
def execOr (d a b x : Nat) (s : State) : Out := sharedRR (fun _ a b => a ||| b) d a b x s
/-- XOR: a XOR b (R38). -/
def execXor (d a b x : Nat) (s : State) : Out := sharedRR (fun _ a b => a ^^^ b) d a b x s
/-- ANDN: a AND NOT b (R38). -/
def execAndn (d a b x : Nat) (s : State) : Out := sharedRR (fun _ a b => a &&& ~~~ b) d a b x s
/-- SHL: a shifted left by b mod w (R38). -/
def execShl (d a b x : Nat) (s : State) : Out := sharedRR (fun w a b => a <<< (b.toNat % w)) d a b x s
/-- SHR: a shifted right by b mod w, zeros in (R38). -/
def execShr (d a b x : Nat) (s : State) : Out := sharedRR (fun w a b => a >>> (b.toNat % w)) d a b x s
/-- SRA: a shifted right by b mod w, copies of the top bit in (R38). -/
def execSra (d a b x : Nat) (s : State) : Out := sharedRR (fun w a b => a.sshiftRight (b.toNat % w)) d a b x s
/-- MUL: low w bits of a × b (R38). -/
def execMul (d a b x : Nat) (s : State) : Out := sharedRR (fun _ a b => a * b) d a b x s
/-- MULHS: high w bits of the signed product (R38). -/
def execMulhs (d a b x : Nat) (s : State) : Out := sharedRR (fun _ a b => mulhs a b) d a b x s
/-- MULHN: high w bits of the unsigned product (R38). -/
def execMulhn (d a b x : Nat) (s : State) : Out := sharedRR (fun _ a b => mulhn a b) d a b x s
/-- MIN: the smaller, signed (R38). -/
def execMin (d a b x : Nat) (s : State) : Out := sharedRR (fun _ a b => if a.slt b then a else b) d a b x s
/-- MAX: the larger, signed (R38). -/
def execMax (d a b x : Nat) (s : State) : Out := sharedRR (fun _ a b => if a.slt b then b else a) d a b x s
/-- MINN: the smaller, unsigned (R38). -/
def execMinn (d a b x : Nat) (s : State) : Out := sharedRR (fun _ a b => if a.ult b then a else b) d a b x s
/-- MAXN: the larger, unsigned (R38). -/
def execMaxn (d a b x : Nat) (s : State) : Out := sharedRR (fun _ a b => if a.ult b then b else a) d a b x s
/-- SLT: 1 if a < b signed (R38). -/
def execSlt (d a b x : Nat) (s : State) : Out := sharedRR (fun _ a b => bv1 (a.slt b)) d a b x s
/-- SLTN: 1 if a < b unsigned (R38). -/
def execSltn (d a b x : Nat) (s : State) : Out := sharedRR (fun _ a b => bv1 (a.ult b)) d a b x s
/-- SEQ: 1 if a = b (R38). -/
def execSeq (d a b x : Nat) (s : State) : Out := sharedRR (fun _ a b => bv1 (a == b)) d a b x s
/-- SH1ADD: (a shifted left by 1) + b (R38). -/
def execSh1add (d a b x : Nat) (s : State) : Out := sharedRR (fun _ a b => (a <<< 1) + b) d a b x s
/-- SH2ADD: (a shifted left by 2) + b (R38). -/
def execSh2add (d a b x : Nat) (s : State) : Out := sharedRR (fun _ a b => (a <<< 2) + b) d a b x s
/-- SH3ADD: (a shifted left by 3) + b (R38). -/
def execSh3add (d a b x : Nat) (s : State) : Out := sharedRR (fun _ a b => (a <<< 3) + b) d a b x s
/-- SNE: 1 if a differs from b (R38). -/
def execSne (d a b x : Nat) (s : State) : Out := sharedRR (fun _ a b => bv1 (a != b)) d a b x s
/-- DIVS: signed quotient; control-only (R39). -/
def execDivs (d a b x : Nat) (s : State) : Out := controlRR (fun _ a b => (divSigned a b).1) d a b x s
/-- DIVN: unsigned quotient; control-only (R39). -/
def execDivn (d a b x : Nat) (s : State) : Out := controlRR (fun _ a b => (divUnsigned a b).1) d a b x s
/-- REMS: signed remainder; control-only (R39). -/
def execRems (d a b x : Nat) (s : State) : Out := controlRR (fun _ a b => (divSigned a b).2) d a b x s
/-- REMN: unsigned remainder; control-only (R39). -/
def execRemn (d a b x : Nat) (s : State) : Out := controlRR (fun _ a b => (divUnsigned a b).2) d a b x s
/-- CLZ: leading zero bits (R38). -/
def execClz (d a x : Nat) (s : State) : Out := sharedR (fun _ a => clzAt a) d a x s
/-- POPC: one bits (R38). -/
def execPopc (d a x : Nat) (s : State) : Out := sharedR (fun _ a => popcAt a) d a x s
/-- ADDI: a + i (R40). -/
def execAddi (d a i : Nat) (s : State) : Out :=
  sharedR (fun w a => let i := BitVec.ofNat 9 i; a + i.signExtend w) d a 0 s
/-- ANDI: a AND i (R40). -/
def execAndi (d a i : Nat) (s : State) : Out :=
  sharedR (fun w a => let i := BitVec.ofNat 9 i; a &&& i.signExtend w) d a 0 s
/-- ORI: a OR i (R40). -/
def execOri (d a i : Nat) (s : State) : Out :=
  sharedR (fun w a => let i := BitVec.ofNat 9 i; a ||| i.signExtend w) d a 0 s
/-- XORI: a XOR i (R40). -/
def execXori (d a i : Nat) (s : State) : Out :=
  sharedR (fun w a => let i := BitVec.ofNat 9 i; a ^^^ i.signExtend w) d a 0 s
/-- SHLI: a shifted left by imm9 (R40). -/
def execShli (d a i : Nat) (s : State) : Out :=
  sharedR (fun _ a => let i := BitVec.ofNat 9 i; a <<< i.toNat) d a 0 s
/-- SHRI: a shifted right by imm9, zeros in (R40). -/
def execShri (d a i : Nat) (s : State) : Out :=
  sharedR (fun _ a => let i := BitVec.ofNat 9 i; a >>> i.toNat) d a 0 s
/-- SRAI: a shifted right by imm9, copies of the top bit in (R40). -/
def execSrai (d a i : Nat) (s : State) : Out :=
  sharedR (fun _ a => let i := BitVec.ofNat 9 i; a.sshiftRight i.toNat) d a 0 s
/-- SLTI: 1 if a < i signed (R40). -/
def execSlti (d a i : Nat) (s : State) : Out :=
  sharedR (fun w a => let i := BitVec.ofNat 9 i; bv1 (a.slt (i.signExtend w))) d a 0 s
/-- SLTNI: 1 if a < the sign-extended i, unsigned (R40). -/
def execSltni (d a i : Nat) (s : State) : Out :=
  sharedR (fun w a => let i := BitVec.ofNat 9 i; bv1 (a.ult (i.signExtend w))) d a 0 s
/-- LI: SignExt(imm17, 17) (R41). -/
def execLi (d i : Nat) (s : State) : Out := sharedR (fun w _ => (BitVec.ofNat 17 i).signExtend w) d 0 0 s
/-- LIH: imm17[15:0] at bits 31-16 over rd[15:0], sign-extended from 32 bits on the control core (R41). -/
def execLih (d i : Nat) (s : State) : Out :=
  sharedR (fun _ a => (BitVec.ofNat 32 (i % 65536 * 65536) ||| (a.setWidth 32 &&& 0xFFFF)).signExtend _) d d 0 s

/-- The word that FQRY reads (R1, R55, R253), by an agent of a job with enabled features en. -/
def State.feature (s : State) (en : W32) (word : Nat) : W32 :=
  if word = 0 then Config.revision
  else if word = 1 then en
  else if word = 2 then BitVec.ofNat 32 s.enabledPlazas
  else if word = 3 then BitVec.ofNat 32 ((List.range 8).foldl (fun m d => m + b2n (tabGet Die.off s.dev.dies d).enabled * 2 ^ d) 0)
  else if word = 4 then BitVec.ofNat 32 Config.laneWidth
  else 0
/-- FQRY: a feature word, zero-extended on the control core (R55); in context 5 word 1 is what the silicon has. -/
def execFqry (d w : Nat) (s : State) : Out :=
  match s.cur.agent with
  | .control p c => .next (s.retireReg p c d ((s.feature (if c = 5 then 0xFF else (s.place p).features) w).setWidth 64))
  | .lane p l => .next ((s.issueScalar p l 1 d (s.feature (s.place p).features w)).laneRetire p l 4 0 0)
  | .device => .next s
/-- FENCE: on the lanes the next packet waits for the masked classes' stores; a control context's accesses perform in program
order here (R54). -/
def execFence (m : Nat) (s : State) : Out :=
  match s.cur.agent with
  | .control p c => .next (s.retire p c id)
  | .lane p l => .next ((s.modLane p l fun x => { x with fence := m }).laneRetire p l 4 0 0)
  | .device => .next s
/-- NOP: no effect (R56). -/
def execNop (s : State) : Out :=
  match s.cur.agent with
  | .control p c => .next (s.retire p c id)
  | .lane p l => .next (s.laneRetire p l 4 0 0)
  | .device => .next s

end Sys2Proof.Machine
end

