-- ==== Sys2Proof/Machine/Async.lean ====
section
/-! DEFINITION. Asynchronous traps: taken at the context's next instruction boundary (R93, R94, R97, R186). -/
namespace Sys2Proof.Machine

/-- An asynchronous record completed at the boundary where it is taken (R91-R94): pc is the boundary for ENGINE and QDEADLOCK; for a
lane fault pc2 is the context's stop PC. -/
def State.fillAsync (s : State) (p c : Nat) (r : Record) : Record :=
  let base := s.record p c r.cause r.faddr
  let lane := r.cause != .engine && r.cause != .qdeadlock
  { r with
    async := true, ctx := c, module := base.module, plaza := p, job := base.job, index := base.index, seq := if lane then r.seq else base.seq
    pc := if lane then r.pc else base.pc, pc2 := if lane then base.pc else r.pc2, avtail := base.avtail, avhead := base.avhead
    altail := base.altail, alhead := base.alhead, time := base.time, cycle := base.cycle }
/-- An asynchronous trap taken now (R83, R93, R94): a RUNNING or WAITING context stops as TRAPPED at its next or blocking
instruction; a TRAPPED or ENDED one keeps its state. -/
def State.takeAsync (s : State) (p c : Nat) (r : Record) : State :=
  let r1 := s.fillAsync p c r
  let x := s.ctx p c
  let s1 := if x.state = .running || x.state = .waiting then
      (s.forgetRemotes (.ctx p c)).modCtx p c fun y => { y.uncount with state := .trapped, wait := none, acq := none, delays := [], sync := [] }
    else s
  s1.deliver p r1
/-- A trap raised against a context (R93, R94): taken at once where the context stands at a boundary, kept until it does while an
access of its instruction is in progress. R83 gives a DORMANT handler no such event: its trap is kept until the handler starts, and goes with the
placement if it ends first (DESIGN CHOICE, log 27). -/
def State.raiseAsync (s : State) (p c : Nat) (r : Record) : State :=
  let x := s.ctx p c
  if s.busy p c || x.state = .dormant then s.modPlace p fun q => { q with async := q.async ++ [{ r with ctx := c }] }
  else s.takeAsync p c r
/-- The oldest trap raised against a context and not yet taken. -/
def State.asyncOf (s : State) (p c : Nat) : Option Record := (s.place p).async.find? fun r => r.ctx == c
/-- A trap kept for a context is taken, if it has come to a boundary. -/
def State.takeKept (s : State) (p c : Nat) : Option State :=
  match s.asyncOf p c with
  | none => none
  | some r =>
    if s.busy p c || (s.ctx p c).state = .dormant then none
    else some ((s.modPlace p fun q => { q with async := q.async.erase r }).takeAsync p c r)

end Sys2Proof.Machine
end

