-- ==== Sys2Proof/Machine/LoadStore.lean ====
section
/-! DEFINITION. Control-core loads and stores (R57, R58) and synchronising accesses: LDA, STREL, AMO, CAS, WAITM (R59-R66, R313, R326-R329). -/
namespace Sys2Proof.Machine

/-- A plain read of n bytes by context c at ea of an address space (R57, R342, R348): through the L1D, but a view page at its home.
`align` is the alignment checked, 0 for none. -/
def State.readAs (s : State) (p c pasid : Nat) (ea : Word) (n align : Nat) : Res Nat :=
  (s.checkVa p pasid ea align .read).andThen fun k t =>
    -- a read that waits for its bytes from another module has been checked at its pin, which it still holds (R346)
    let pinned := keyRemote k.1 && t.viewPage k.1 && (t.findRemote (.ctx p c) 1 (k.1 / 128 * 128) 128).isSome
    match if pinned then (.served false [], t) else t.viewRead p k.1 n (t.ctx p c).delays [] with
    | (.kept v, u) => .ok v u
    | (.plain, u) => (u.loadL1 (.ctx p c) p false k.1 n k.2).at_ ea
    | (.served stale _, u) => ((u.fetchLine (.ctx p c) (k.1 / 128)).andThen fun r v =>
        takeBytes r.1 r.2 k.1 n (v.setStale p stale)).at_ ea
    | (.wait ds, u) => .wait (u.modCtx p c fun x => { x with delays := ds })
    | (.fault cause pa, u) => .fail cause ea pa u
/-- A plain read in the context's own address space. -/
def State.readData (s : State) (p c : Nat) (ea : Word) (n : Nat) : Res Nat := s.readAs p c (s.ctxPasid p c) ea n n
/-- A plain store of n bytes by context c at ea (R57, R58). -/
def State.writeData (s : State) (p c : Nat) (ea : Word) (n v : Nat) : Res Unit :=
  (s.checkVa p (s.ctxPasid p c) ea n .write).andThen fun k t => .ok () (t.storeL1 p false k.1 n v k.2)
/-- The effective address of a CM form (R58). -/
def State.ea (s : State) (p c a i n : Nat) : Word := s.g p c a + sext64 11 i * BitVec.ofNat 64 n
/-- A load: g[d] := the n bytes at ea, extended (R58). -/
def load (i : Instr) (n : Nat) (ext : Nat → Word) (d a o : Nat) (s : State) : Out :=
  onContext s allCtx fun p c =>
    onAccess (s.readData p c (s.ea p c a o n) n) p c i fun v t => .next (t.retireReg p c d (ext v))
/-- A store: the low n bytes of g[r] at ea (R58). -/
def store (i : Instr) (n r a o : Nat) (s : State) : Out :=
  onContext s allCtx fun p c =>
    onAccess (s.writeData p c (s.ea p c a o n) n ((s.g p c r).toNat % 2 ^ (8 * n))) p c i fun _ t => .next (t.retire p c id)
/-- LDB: 1 byte, sign-extended (R58). -/
def execLdb (d a c i : Nat) (s : State) : Out := load (.ldb d a c i) 1 (sext64 8) d a i s
/-- LDBN: 1 byte, zero-extended (R58). -/
def execLdbn (d a c i : Nat) (s : State) : Out := load (.ldbn d a c i) 1 (BitVec.ofNat 64) d a i s
/-- LDH: 2 bytes, sign-extended (R58). -/
def execLdh (d a c i : Nat) (s : State) : Out := load (.ldh d a c i) 2 (sext64 16) d a i s
/-- LDHN: 2 bytes, zero-extended (R58). -/
def execLdhn (d a c i : Nat) (s : State) : Out := load (.ldhn d a c i) 2 (BitVec.ofNat 64) d a i s
/-- LDW: 4 bytes, sign-extended (R58). -/
def execLdw (d a c i : Nat) (s : State) : Out := load (.ldw d a c i) 4 (sext64 32) d a i s
/-- LDWN: 4 bytes, zero-extended (R58). -/
def execLdwn (d a c i : Nat) (s : State) : Out := load (.ldwn d a c i) 4 (BitVec.ofNat 64) d a i s
/-- LDD: 8 bytes (R58). -/
def execLdd (d a c i : Nat) (s : State) : Out := load (.ldd d a c i) 8 (BitVec.ofNat 64) d a i s
/-- STB: 1 byte (R58). -/
def execStb (r a c i : Nat) (s : State) : Out := store (.stb r a c i) 1 r a i s
/-- STH: 2 bytes (R58). -/
def execSth (r a c i : Nat) (s : State) : Out := store (.sth r a c i) 2 r a i s
/-- STW: 4 bytes (R58). -/
def execStw (r a c i : Nat) (s : State) : Out := store (.stw r a c i) 4 r a i s
/-- STD: 8 bytes (R58). -/
def execStd (r a c i : Nat) (s : State) : Out := store (.std r a c i) 8 r a i s

/-- Bytes of an access by its size bit (R59, R61, R63, R66): 0 eight, 1 four. -/
def sizeOf4 (z : Nat) : Nat := if z = 1 then 4 else 8
/-- What an acquire reads at a home: the value, and the releasing plaza and sequence of the word's RRT entry (R328). -/
abbrev Found := Nat × Option (Nat × Nat)
/-- The reply to a remote acquire read or atomic: n bytes of value, then valid, plaza and seq of the entry. -/
def readFound (n : Nat) (bs : List Byte) : Found :=
  (leNat (bs.take n), if leNat ((bs.drop n).take 1) = 1 then some (leNat ((bs.drop (n + 1)).take 2), leNat ((bs.drop (n + 3)).take 4)) else none)
/-- That reply as bytes. -/
def foundBytes (n : Nat) (f : Found) : List Byte :=
  leBytes n f.1 ++ (match f.2 with
    | some (pl, sq) => leBytes 1 1 ++ leBytes 2 pl ++ leBytes 4 sq
    | none => leBytes 7 0)
/-- What a remote home answered: a further byte says that the word is poisoned (R315), one more what its check at a view block gave (R348). -/
def foundReply (who : Requester) (key n : Nat) (bs : List Byte) (s : State) : Res Found :=
  if bs.length = n + 8 then .fail .memerr 0 (key % 2 ^ 45) s else s.viewStatus who (bs.getD (n + 8) 0).toNat (readFound n bs)
/-- The releasing plaza and sequence of a word's entry (R326). -/
def State.entryOf (s : State) (key : Nat) : Option (Nat × Nat) :=
  if 2 ^ 45 ≤ key then none else (s.rrtOf key).map fun e => (e.plaza, e.seq)
/-- The bytes of a word as its plaza sees them over the home: its own dirty bytes first (R310, R325). -/
def State.overlay (s : State) (p key n v : Nat) : Nat :=
  ((s.plaza p).l1d ++ (s.plaza p).l1v).foldl (fun acc x =>
    if x.key == key / 128 && !x.upd then
      vecBytes (lineMix x.dirty x.data (vecPut (0 : Row) (key % 128) n acc)) (key % 128) n
    else acc) v
/-- The clean bytes that the plaza's L1s hold of a word take the value just read at its home: no later load of the plaza finds an older one
(R310, R325). -/
def State.refreshCopies (s : State) (p key n v : Nat) : State :=
  s.modPlaza p fun q => q.modBoth fun ls => ls.map fun x =>
    if x.key == key / 128 && !x.upd then { x with data := lineMix x.dirty x.data (vecPut x.data (key % 128) n v) } else x
/-- A word and its entry read in one atomic step at the home, the plaza's own dirty bytes seen first (R60, R65, R310, R328, R331). -/
def State.readHome (s : State) (who : Requester) (p key n : Nat) : Res Found :=
  let s1 := s.mergeOwn p (key / 128)
  let seen (f : Found) (u0 : State) : Res Found :=
    let (v, u) := u0.sharedValue p key n f.1
    .ok (u.overlay p key n v, f.2) (u.refreshCopies p key n v)
  if keyRemote key then ((s1.askRemote who 1 key n 1 []).andThen fun bs t => foundReply who key n bs t).andThen seen
  else if s1.pathDown key then .fail .linkdown 0 0 s1
  else
    let t := s1.recall (key / 128)
    (takeBytes (t.homeRow (key / 128)) (t.homePoison (key / 128)) key n t).andThen fun v u => seen (v, u.entryOf key) u

/-- An access of context c that has performed goes on (R328, R329): nothing in progress, its value after the self-invalidation, a
wait, or LINKDOWN. -/
def State.resumeAcquire (s : State) (p c : Nat) : Option (Res Word) :=
  (s.ctx p c).acq.map fun a =>
    if a.failed then .fail .linkdown 0 0 (s.modCtx p c fun x => { x with acq := none })
    else if a.done then
      let t := if a.selfRel then s else s.selfInvalidate p
      .ok a.value (t.modCtx p c fun x => { x with acq := none })
    else .wait s
/-- The acquire at scope sc by plaza p of a value read with entry e (R60, R328): at P nothing more; else the releaser publishes and
the plaza self-invalidates unless it released the word itself. -/
def State.acquireWith (s : State) (p c sc : Nat) (v : Word) (e : Option (Nat × Nat)) : Res Word :=
  if sc = 0 then .ok v s
  else match e with
    | none => .ok v (s.selfInvalidate p)
    | some (pl, sq) =>
      if pl = s.plazaId p then .ok v s
      else if sc = 2 || pl / 256 == s.dev.modNum then
        .wait ((s.modCtx p c fun x => { x with acq := some ⟨v, pl, sq, false, false, false⟩ }).sendPublish pl sq (.ctx p c))
      else .ok v (s.selfInvalidate p)

/-- LDA: an acquire load of 8 or 4 bytes (R59, R60): at P through the L1s, at K and D at the home; a view page at its home (R342). -/
def execLda (d a cl sc z o : Nat) (s : State) : Out :=
  onContext s allCtx fun p c =>
    let n := sizeOf4 z
    let ea := s.g p c a + sext64 8 o * BitVec.ofNat 64 n
    let i : Instr := .lda d a cl sc z o
    let r : Res Word := match s.resumeAcquire p c with
      | some r => r
      | none => (s.checkVa p (s.ctxPasid p c) ea n .read).andThen fun k t =>
        if sc = 0 || t.viewPage k.1 then (t.readData p c ea n).andThen fun v u => u.acquireWith p c sc (BitVec.ofNat 64 v) none
        else (t.readHome (.ctx p c) p k.1 n).andThen fun f u => u.acquireWith p c sc (BitVec.ofNat 64 f.1) f.2
    onAccess (r.at_ ea) p c i fun v t => .next (t.retireReg p c d v)

/-- A write or atomic toward another module whose instruction goes on when it is sent; until a path exists it waits, or fails (R353, R355).
`as_` answers for it until its home has acknowledged it (log 13). Kind 0x88 is an engine's data (flit kind 0x08) for a plaza's buffers. -/
def State.tellRemote (s : State) (who as_ : Requester) (kind key size op : Nat) (data : List Byte) : Res Unit :=
  let unsent (r : Remote) : Bool := r.who == who && r.kind == kind && r.addr == key && r.size == size && r.data.isEmpty
  let gone (t : State) : State := { t with remotes := t.remotes.filter fun r => !unsent r }
  let m := (keyModule key).getD 0
  let f := mkFlit (kind % 0x80) m 0 (key % 2 ^ 45) size op data
  let send : Option State := (s.linkTo m).map fun _ => (s.request as_ kind key size data { f with sdie := requesterDie who }).2
  match s.remotes.find? unsent, send with
  | some r, some t => if r.failed then .fail .linkdown 0 0 (gone s) else .ok () (gone t)
  | some r, none => if r.failed then .fail .linkdown 0 0 (gone s) else .wait s
  | none, some t => .ok () t
  | none, none => .wait (s.addRemote who kind key size []).2
/-- What a release says to the home on another module: its scope, the plaza and the publishes it had begun (R326). -/
def State.releaseOp (s : State) (p sc : Nat) : Nat := 1 + 2 * sc + 8 * s.plazaId p + 2 ^ 19 * ((s.plaza p).pubBegun % 2 ^ 32)
/-- A word written through both L1s of the plaza: copies updated, its bytes clean (R60). -/
def Plaza.writeThrough (q : Plaza) (key n v : Nat) : Plaza :=
  q.modBoth fun ls => ls.map fun x =>
    if x.key == key / 128 && !x.upd then
      { x with data := vecPut x.data (key % 128) n v, held := x.held ||| byteMask (key % 128) n, dirty := x.dirty &&& ~~~ byteMask (key % 128) n }
    else x
/-- A word written at the home of this module or a host (R310, R340). -/
def State.writeWord (s : State) (p key n v : Nat) : State :=
  (s.wakeLine p (key / 128)).writeHere (some p) (key / 128) (byteMask (key % 128) n) (vecPut (0 : Row) (key % 128) n v) 0
/-- A release store of n bytes written through to its home with its RRT entry (R60, R326, R327). -/
def State.releaseStore (s : State) (who : Requester) (p sc key n v : Nat) : Res Unit :=
  let s1 := s.mergeOwn p (key / 128)
  if keyRemote key then
    (s1.askRemote who 3 key n (s1.releaseOp p sc) (leBytes n v)).andThen fun _ t =>
      .ok () ((t.wakeLine p (key / 128)).modPlaza p fun q => q.writeThrough key n v)
  else if s1.pathDown key then .fail .linkdown 0 0 s1
  else (s1.rrtRoom who key).andThen fun _ t =>
    .ok () (((t.modPlaza p fun q => q.writeThrough key n v).writeWord p key n v).rrtRecord p key sc)
/-- STREL: a release store of 8 or 4 bytes (R59, R60). -/
def execStrel (r a cl sc z o : Nat) (s : State) : Out :=
  onContext s allCtx fun p c =>
    let n := sizeOf4 z
    let ea := s.g p c a + sext64 8 o * BitVec.ofNat 64 n
    let x : Res Unit := (s.checkVa p (s.ctxPasid p c) ea n .write).andThen fun k t =>
      t.releaseStore (.ctx p c) p sc k.1 n ((s.g p c r).toNat % 2 ^ (8 * n))
    onAccess (x.at_ ea) p c (.strel r a cl sc z o) fun _ t => .next (t.retire p c id)

/-- The new value of an atomic (R64) on n bytes. -/
def amoValue (op n old b : Nat) : Nat :=
  let w := 8 * n
  let less (x y : Nat) : Bool := decide (sgn w x < sgn w y)
  if op = 0 then b else if op = 1 then (old + b) % 2 ^ w else if op = 2 then old &&& b else if op = 3 then old ||| b
  else if op = 4 then old ^^^ b else if op = 5 then (if less b old then b else old) else if op = 6 then (if less old b then b else old)
  else if op = 7 then (if b < old then b else old) else if op = 8 then (if old < b then b else old)
  else if op = 9 then (old + b) % 2 ^ w else (fadd32 (BitVec.ofNat 32 old) (BitVec.ofNat 32 b)).toNat
/-- What an atomic says to the home on another module: operation (11 CAS), order, scope, plaza and publishes begun. -/
def State.atomicOp (s : State) (p op order sc : Nat) : Nat :=
  op + 16 * order + 64 * sc + 2 ^ 8 * s.plazaId p + 2 ^ 24 * ((s.plaza p).pubBegun % 2 ^ 32)
/-- An atomic at the home of this module or a host, given what it does with the old value: the new one, if it stores (R60, R64, R66,
R313, R331). -/
def State.atomicHere (s : State) (who : Requester) (p key n order sc : Nat) (f : Nat → Option Nat) : Res Found :=
  let t := s.recall (key / 128)
  (takeBytes (t.homeRow (key / 128)) (t.homePoison (key / 128)) key n t).andThen fun home u0 =>
    let (old, u) := u0.sharedValue p key n home
    let e := u.entryOf key
    match f old with
    | none => .ok (old, e) u
    | some new =>
      if 2 ≤ order then (u.rrtRoom who key).andThen fun _ v => .ok (old, e) ((v.writeWord p key n new).rrtRecord p key sc)
      else .ok (old, e) (u.writeWord p key n new)
/-- A home atomic of plaza p (R313): its own dirty bytes of the line are written back, its update line merged and its copies
invalidated first. -/
def State.atomicAt (s : State) (who : Requester) (p key n op order sc : Nat) (data : List Byte) (f : Nat → Option Nat) : Res Found :=
  let s1 := s.flushLine p (key / 128)
  if keyRemote key then
    (s1.askRemote who 4 key n (s1.atomicOp p op order sc) data).andThen fun bs t =>
      (foundReply who key n bs (t.wakeLine p (key / 128))).andThen fun x u => let (v, w) := u.sharedValue p key n x.1; .ok (v, x.2) w
  else if s1.pathDown key then .fail .linkdown 0 0 s1
  else s1.atomicHere who p key n order sc f
/-- An atomic instruction of context c: old value, then its acquire if its order names one (R60, R63, R66). -/
def atomic (i : Instr) (d a n op order sc : Nat) (data : List Byte) (f : Nat → Option Nat) (s : State) : Out :=
  onContext s allCtx fun p c =>
    let ea := s.g p c a
    let r : Res Word := match s.resumeAcquire p c with
      | some r => r
      | none => (s.checkVa p (s.ctxPasid p c) ea n .atomic).andThen fun k t =>
        (t.atomicAt (.ctx p c) p k.1 n op order sc data f).andThen fun x u =>
          let old := sext64 (8 * n) x.1
          if order % 2 = 1 then u.acquireWith p c sc old x.2 else .ok old u
    onAccess (r.at_ ea) p c i fun v t => .next (t.retireReg p c d v)
/-- AMO, operations 0-8 (R63, R64). -/
def execAmo (d a b z sc o op : Nat) (s : State) : Out :=
  match s.cur.agent with
  | .control p c =>
    let n := sizeOf4 z
    let y := (s.g p c b).toNat % 2 ^ (8 * n)
    atomic (.amo d a b z sc o op) d a n op o sc (leBytes n y) (fun old => some (amoValue op n old y)) s
  | _ => .next s
/-- CAS: the store happens only on equality (R66). -/
def execCas (d a b z sc o c : Nat) (s : State) : Out :=
  match s.cur.agent with
  | .control p k =>
    let n := sizeOf4 z
    let y := (s.g p k b).toNat % 2 ^ (8 * n)
    let x := (s.g p k c).toNat % 2 ^ (8 * n)
    atomic (.cas d a b z sc o c) d a n 11 o sc (leBytes n y ++ leBytes n x) (fun old => if old = x then some y else none) s
  | _ => .next s
/-- A commutative addition (R65, R313): into the plaza's update line; at its home as a non-returning atomic when that is another
module or a host, where the instruction goes on once it has performed (R54, R320). -/
def State.commute (s : State) (who : Requester) (p : Nat) (lanes : Bool) (key n op b : Nat) : Res Unit :=
  if key < 2 ^ 45 then .ok () (s.addUpdate p lanes (key / 128) ⟨key % 128, n == 8, op == 10, BitVec.ofNat 64 b⟩)
  else (s.atomicAt who p key n op 0 0 (leBytes n b) fun old => some (amoValue op n old b)).andThen fun _ t => .ok () t
/-- AMO addc and faddc on the control core (R64, R65). -/
def commutative (i : Instr) (a b n op : Nat) (s : State) : Out :=
  onContext s allCtx fun p c =>
    let ea := s.g p c a
    let r : Res Unit := (s.checkVa p (s.ctxPasid p c) ea n .atomic).andThen fun k t =>
      t.commute (.ctx p c) p false k.1 n op ((s.g p c b).toNat % 2 ^ (8 * n))
    onAccess (r.at_ ea) p c i fun _ t => .next (t.retire p c id)
/-- AMO addc (R64, R65). -/
def execAmoAddc (a b z : Nat) (s : State) : Out := commutative (.amoAddc a b z) a b (sizeOf4 z) 9 s
/-- AMO faddc (R64, R65), ILLEGAL where its feature is disabled (R253). -/
def execAmoFaddc (a b : Nat) (s : State) : Out :=
  match s.cur.agent with
  | .control p c => if c = 5 || s.hasFeature p 6 then commutative (.amoFaddc a b) a b 4 10 s else .next (s.illegal p c)
  | _ => .next s

/-- WAITM's condition on the value read (R61). -/
def waitMet (cond z : Nat) (v b : Nat) : Bool :=
  if z = 1 then waitCond cond (BitVec.ofNat 32 v) (BitVec.ofNat 32 b) else waitCond cond (BitVec.ofNat 64 v) (BitVec.ofNat 64 b)
/-- WAITM: an acquire load in a loop; the acquire takes effect only at the load that ends the wait. At scope P it sleeps until its own
plaza writes the line (R61); on a view page, whose reads are performed at the home (R342), it loads again at any time (DESIGN CHOICE, log 27). -/
def execWaitm (d a b z sc cond : Nat) (s0 : State) : Out :=
  onContext s0 allCtx fun p c =>
    let x := s0.ctx p c
    if x.wait.isSome && x.sleep.isSome then .next s0 else
    let s := if x.sleep.isSome then s0.modCtx p c fun y => { y with sleep := none } else s0
    let n := sizeOf4 z
    let ea := s.g p c a
    let bv := (s.g p c b).toNat % 2 ^ (8 * n)
    let r : Res Word := match s.resumeAcquire p c with
      | some r => r
      | none => (s.checkVa p (s.ctxPasid p c) ea n .read).andThen fun k t =>
        let read : Res Found :=
          if sc = 0 || t.viewPage k.1 then (t.readData p c ea n).andThen fun v u => .ok (v, none) u
          else t.readHome (.ctx p c) p k.1 n
        read.andThen fun f u =>
          if waitMet cond z f.1 bv then u.acquireWith p c sc (BitVec.ofNat 64 f.1) f.2
          else .wait (if sc = 0 && !u.viewPage k.1 then u.modCtx p c fun y => { y with sleep := some (k.1 / 128) } else u)
    onAccess (r.at_ ea) p c (.waitm d a b z sc cond) fun v t => .next (t.retireReg p c d v)

/-- LIX: g[d] := SignExt(E, 32) (R67). -/
def execLix (d i : Nat) (s : State) : Out := onContext s allCtx fun p c => .next (s.retireReg p c d (sext64 32 i))
/-- LIXH: g[d][63:32] := E (R67). -/
def execLixh (d i : Nat) (s : State) : Out :=
  onContext s allCtx fun p c => .next (s.retireReg p c d (BitVec.ofNat 64 ((s.g p c d).toNat % 2 ^ 32 + i * 2 ^ 32)))

end Sys2Proof.Machine
end

