-- ==== Sys2Proof/Machine/Handles.lean ====
section
/-! DEFINITION. Handles: XLT, HINV, HGET, the end of a walk, and the refresh of a STALE handle (R106-R116). -/
namespace Sys2Proof.Machine

/-- The contexts that may use the work instructions (R109, R118). -/
def jobCtx : List Nat := [0, 1, 2, 3, 4]
/-- What the end of XLT's walk does to the handle, if this XLT still owns it, and to its context (R107, R109). -/
def State.endXlt (s : State) (p c n perms : Nat) (va : Word) (r : Option Trans) : State :=
  let mine := (s.handle p n).st == .pending && (s.handle p n).owner == c
  let faulted (t : State) : State := if mine then t.modHandle p n fun h => { h with st := .faulted } else t
  match r with
  | none => (faulted s).trap p c .page va
  | some t =>
    if s.transAbsent t va then (faulted s).trap p c .page va
    else if !t.grantsPerms perms then (faulted s).trap p c .protect va
    else (if mine then s.modHandle p n fun h => h.setValid t else s).retire p c id
/-- XLT: PENDING at once; VALID and retired on a TLB hit; else the walk is in progress (R109). -/
def execXlt (n a perms : Nat) (s : State) : Out :=
  onContext s jobCtx fun p c =>
    let va := s.g p c a
    let s1 := s.modHandle p n fun h => { h with st := .pending, va := va, perms := perms, owner := c, user := none, fail := none }
    if !canonical va then .next (s1.endXlt p c n perms va none)
    else match s1.tlbHit p (s.place p).pasid va with
      | some t => .next (s1.endXlt p c n perms va (some t))
      | none => .next ((s1.block p c (.xlt n a perms)).modCtx p c fun x => { x with acq := some ⟨0, 0, 0, true, false, false⟩ })
/-- TRANSLATION_WALK_END: the walks of the contexts that wait in an XLT of handle n end (R109, R117); a migrating page makes them wait. -/
def execTranslationWalkEnd (p n : Nat) (s : State) : Out :=
  .next (jobCtx.foldl (fun t c =>
    match (t.ctx p c).wait with
    | some (.xlt m a perms) =>
      if m = n then
        let va := t.g p c a
        match t.translate p (t.place p).pasid va with
        | .ok r u => u.endXlt p c n perms va r
        | _ => t
      else t
    | _ => t) s)
/-- HINV of one handle (R110). -/
def execHinv (n : Nat) (s : State) : Out :=
  onContext s jobCtx fun p c => .next ((s.modHandle p n fun _ => Handle.off).retire p c id)
/-- HINV of every handle (R110). -/
def execHinvAll (s : State) : Out :=
  onContext s jobCtx fun p c => .next ((s.modPlace p fun q => { q with handles := [] }).retire p c id)
/-- HGET: the handle's value (R107, R111). -/
def execHget (d n : Nat) (s : State) : Out :=
  onContext s allCtx fun p c => .next (s.retireReg p c d (s.handle p n).read)
/-- HGETVA: the source VA, 0 for EMPTY (R111). -/
def execHgetva (d n : Nat) (s : State) : Out :=
  onContext s allCtx fun p c => .next (s.retireReg p c d (if (s.handle p n).st = .empty then 0 else (s.handle p n).va))
/-- The failure of a refresh against its user (R114): a lane group's instruction raises it with its other faults (R165), an engine command
fails. -/
def State.refreshFault (s : State) (p n : Nat) (cause : Cause) : State :=
  let h := s.handle p n
  match h.user with
  | none => s
  | some (some _, _, _) => s.modHandle p n fun x => { x with fail := some cause }
  | some (none, id, off) =>
    let va := h.va + BitVec.ofNat 64 off
    let failed (c : Cmd) : Cmd := if c.id = id then { c with fail := some ⟨cause, va, true, n, h.value, va, 0⟩ } else c
    (s.modHandle p n fun x => { x with user := none }).modPlace p fun q => { q with copyQ := q.copyQ.map failed, linkQ := q.linkQ.map failed }
/-- HANDLE_REFRESH: the walk that a user of a STALE handle started ends (R114). -/
def execHandleRefresh (p n : Nat) (s : State) : Out :=
  let h := s.handle p n
  if h.st != .stale || h.user.isNone || h.fail.isSome then .next s
  else match s.refresh p n with
    | .ok _ t => .next t
    | .wait t => .next t
    | .fail cause _ _ t => .next (t.refreshFault p n cause)

end Sys2Proof.Machine
end

