-- ==== Sys2Proof/Machine/Tokens.lean ====
section
/-! DEFINITION. Shape registers (R119-R122) and tokens (R123-R127). -/
namespace Sys2Proof.Machine

/-- Shape register N of the placement. -/
def State.shape (s : State) (p n : Nat) : BitVec 512 := tabGet 0 (s.place p).shapes n
/-- Shape register N := v. -/
def State.setShape (s : State) (p n : Nat) (v : BitVec 512) : State :=
  s.modPlace p fun q => { q with shapes := tabPut 0 q.shapes n v }
/-- Word n of a shape (R119-R121). -/
def shapeWord (v : BitVec 512) (n : Nat) : Nat := v.toNat / 2 ^ (32 * n) % 2 ^ 32
/-- SRCOFF (n = 1) or DSTOFF (n = 4) of a shape (R121). -/
def shapeOff (v : BitVec 512) (n : Nat) : Nat := shapeWord v n + shapeWord v (n + 1) % 2 ^ 16 * 2 ^ 32
/-- Bits [hi:lo] of a shape register as they are read, zero where they are reserved (R6). -/
def clearShape (v : BitVec 512) (hi lo : Nat) : BitVec 512 := v &&& ~~~(BitVec.ofNat 512 (2 ^ (hi + 1) - 2 ^ lo))
/-- A shape register as SHGET and SHST read it: reserved bits read as zero (R6, R119, R121), a handle only with space 0. The register itself keeps
what was written there, which the check of R130 sees (log 18). -/
def shapeRead (v : BitVec 512) : BitVec 512 :=
  let x := clearShape (clearShape (clearShape (clearShape (clearShape v 31 25) 23 21) 95 80) 127 120) 191 176
  let y := if shapeWord v 0 % 16 = 0 then x else clearShape x 8 4
  if shapeWord v 3 % 16 = 0 then y else clearShape y 104 100
/-- The word a field id names (R122): SRC, SRCOFF, DST, DSTOFF, then the words from W6 on. -/
def fieldWord (f : Nat) : Nat := if f = 0 then 0 else if f = 1 then 1 else if f = 2 then 3 else if f = 3 then 4 else f + 2
/-- A field as SHGET reads it (R122). -/
def shapeField (v : BitVec 512) (f : Nat) : Word :=
  if f = 1 || f = 3 then BitVec.ofNat 64 (shapeOff v (fieldWord f))
  else if 8 ≤ f then sext64 32 (shapeWord v (fieldWord f))
  else BitVec.ofNat 64 (shapeWord v (fieldWord f))
/-- SHLD: 64 bytes of memory into a shape register (R122). -/
def execShld (n a c : Nat) (s : State) : Out :=
  onContext s jobCtx fun p k =>
    onAccess (s.readData p k (s.g p k a) 64) p k (.shld n a c) fun v t => .next ((t.setShape p n (BitVec.ofNat 512 v)).retire p k id)
/-- SHST: a shape register into 64 bytes of memory (R122). -/
def execShst (n a c : Nat) (s : State) : Out :=
  onContext s jobCtx fun p k =>
    onAccess (s.writeData p k (s.g p k a) 64 (shapeRead (s.shape p n)).toNat) p k (.shst n a c) fun _ t => .next (t.retire p k id)
/-- SHSET: one field of a shape register, 32 or 48 bits (R122). -/
def execShset (n a f : Nat) (s : State) : Out :=
  onContext s jobCtx fun p c =>
    let bytes := if f = 1 || f = 3 then 6 else 4
    .next ((s.setShape p n (vecPut (s.shape p n) (4 * fieldWord f) bytes (s.g p c a).toNat)).retire p c id)
/-- SHGET: one field of a shape register (R122). -/
def execShget (d n f : Nat) (s : State) : Out :=
  onContext s jobCtx fun p c => .next (s.retireReg p c d (shapeField (shapeRead (s.shape p n)) f))

/-- Token n of the placement. -/
def State.token (s : State) (p n : Nat) : Token := tabGet ⟨.free, 0⟩ (s.place p).tokens n
/-- The tokens of a mask that are in a state. -/
def State.tokMask (s : State) (p : Nat) (st : TokState) : Nat :=
  (List.range 64).foldl (fun m n => if (s.token p n).st = st then m + 2 ^ n else m) 0
/-- The code of a token state (R127). -/
def TokState.code : TokState → Nat
  | .free => 0
  | .outstanding => 1
  | .done => 2
  | .failed => 3
/-- TWAIT on a mask of tokens (R127): waits, then TOKENFAILED if any has failed. -/
def twaitMask (i : Instr) (mask : Nat → Nat → Nat) (s : State) : Out :=
  onContext s jobCtx fun p c =>
    let m := mask p c
    if m &&& s.tokMask p .outstanding != 0 then .next (s.block p c i)
    else if m &&& s.tokMask p .failed != 0 then .next (s.trap p c .tokenfailed 0)
    else .next (s.retire p c id)
/-- TWAIT (R127). -/
def execTwait (n : Nat) (s : State) : Out := twaitMask (.twait n) (fun _ _ => 2 ^ n) s
/-- TWAITM (R127). -/
def execTwaitm (a : Nat) (s : State) : Out := twaitMask (.twaitm a) (fun p c => (s.g p c a).toNat) s
/-- TTEST of one token (R127). -/
def execTtest (d n : Nat) (s : State) : Out :=
  onContext s jobCtx fun p c => .next (s.retireReg p c d (BitVec.ofNat 64 (s.token p n).st.code))
/-- TTEST, the OUTSTANDING tokens (R127). -/
def execTtestOut (d : Nat) (s : State) : Out :=
  onContext s jobCtx fun p c => .next (s.retireReg p c d (BitVec.ofNat 64 (s.tokMask p .outstanding)))
/-- TTEST, the FAILED tokens (R127). -/
def execTtestFailed (d : Nat) (s : State) : Out :=
  onContext s jobCtx fun p c => .next (s.retireReg p c d (BitVec.ofNat 64 (s.tokMask p .failed)))
/-- The tokens of a mask freed, but those OUTSTANDING (R123). -/
def State.freeTokens (s : State) (p m : Nat) : State :=
  s.modPlace p fun q => { q with tokens := (List.range 64).foldl (fun t k =>
    if bit m k && (tabGet ⟨.free, 0⟩ t k).st != .outstanding then tabErase t k else t) q.tokens }
/-- TFREE of a mask of tokens, after waiting for those OUTSTANDING (R123, R127). DESIGN CHOICE (log 27): the tokens of the mask that are not
OUTSTANDING are freed at once, while TFREEM still waits for the others. -/
def tfreeMask (i : Instr) (mask : Nat → Nat → Nat) (s : State) : Out :=
  onContext s jobCtx fun p c =>
    let m := mask p c
    let t := s.freeTokens p m
    if m &&& s.tokMask p .outstanding != 0 then .next (t.block p c i) else .next (t.retire p c id)
/-- TFREE (R127). -/
def execTfree (n : Nat) (s : State) : Out := tfreeMask (.tfree n) (fun _ _ => 2 ^ n) s
/-- TFREEM (R127). -/
def execTfreem (a : Nat) (s : State) : Out := tfreeMask (.tfreem a) (fun p c => (s.g p c a).toNat) s
/-- The wait that an instruction fixes on a token at its issue (R124); 0x7F names none. -/
def State.waitFor (s : State) (p n : Nat) : Wait :=
  if n = 127 then .met
  else match (s.token p n).st with
    | .free => .met
    | .done => .met
    | .failed => .failed
    | .outstanding => .on (s.token p n).producer

end Sys2Proof.Machine
end

