-- ==== Sys2Proof/Machine/Avenue.lean ====
section
/-! DEFINITION. The avenue and the alley from the control core: EMIT, SPLIT, POPP, BCANCEL, BSEQ, BWAIT (R136-R141). -/
namespace Sys2Proof.Machine

/-- The contexts that reach the avenue (R118). -/
def roleCtx : List Nat := [0, 1, 2]
/-- Blocks of the avenue not yet retired or discarded. -/
def Place.unretired (q : Place) : List Block := q.blocks.filter fun b => b.st != .cancelled
/-- The operands of EMIT and SPLIT (R136): g[rb] and g[rb + 1], all zero for rb = 0. -/
def State.emitOps (s : State) (p c b : Nat) : Word × Word := if b = 0 then (0, 0) else (s.g p c b, s.g p c (b + 1))
/-- What EMIT and SPLIT refuse (R136): an odd rb, reserved descriptor bits, an entry beyond the table, W16 mask bits. -/
def State.emitBad (s : State) (p b : Nat) (desc : Word) (entries : List Nat) : Bool :=
  b % 2 == 1 || bits desc.toNat 15 14 != 0 || entries.any (fun e => (s.place p).table.length ≤ e)
    || ((s.place p).w16 && bits desc.toNat 63 48 != 0)
/-- A block appended to the avenue (R136); it may be dispatched from the next cycle (R168). -/
def State.append (s : State) (p c : Nat) (desc : Word) (mask : W32) (ops : Word × Word) (entry : Nat) (ordered : Bool) (w : Wait) : State :=
  s.modPlace p fun q =>
    let e := q.table.getD entry ⟨0, false, false⟩
    { q with
      avtail := (q.avtail + 1) % 2 ^ 32, qmoved := true
      blocks := q.blocks ++
        [{ seq := q.avtail, entry := entry, trip := bits desc.toNat 31 16, mask := mask, window := bits desc.toNat 13 0
           op0 := ops.1.setWidth 32, op1 := (ops.1 >>> 32).setWidth 32, op2 := ops.2.setWidth 32, op3 := (ops.2 >>> 32).setWidth 32
           wait := w, ordered := ordered || e.ordered, nonidem := e.nonidem, emitter := c, st := .queued, lane := none
           pushes := [], readyAt := s.dev.cycle + 1 }] }
/-- EMIT: a block on the avenue, waiting while 256 are unretired; an empty mask emits nothing (R136). -/
def execEmit (d a b e o t : Nat) (s : State) : Out :=
  onContext s roleCtx fun p c =>
    let desc := s.g p c a
    let mask : W32 := (desc >>> 32).setWidth 32
    if s.emitBad p b desc [e] then .next (s.illegal p c)
    else if mask = 0 then .next (s.retireReg p c d (BitVec.allOnes 64))
    else if 256 ≤ (s.place p).unretired.length then .next (s.block p c (.emit d a b e o t))
    else
      let seq := BitVec.ofNat 64 (s.place p).avtail
      .next ((s.append p c desc mask (s.emitOps p c b) e (o == 1) (s.waitFor p t)).retireReg p c d seq)
/-- The nonempty masks of SPLIT with their entries, in emission order (R137). With equal counts and two entries at one address, for which R137 names no
order, t's block goes first (DESIGN CHOICE, log 27). -/
def splitOrder (t f : W32) (e1 e2 : Nat) (a1 a2 : Word) : List (W32 × Nat) :=
  let n1 := popCount t.toNat 32
  let n2 := popCount f.toNat 32
  let tFirst := n2 < n1 || (n1 == n2 && (e1 == e2 || a1.toNat ≤ a2.toNat))
  (if tFirst then [(t, e1), (f, e2)] else [(f, e2), (t, e1)]).filter fun x => x.1 != 0
/-- SPLIT: up to two blocks by a predicate (R137). -/
def execSplit (d a b r e o t f : Nat) (s : State) : Out :=
  onContext s roleCtx fun p c =>
    let desc := s.g p c a
    let active : W32 := (desc >>> 32).setWidth 32
    let pred : W32 := (s.g p c r).setWidth 32
    if s.emitBad p b desc [e, f] then .next (s.illegal p c)
    else
      let adr (n : Nat) : Word := ((s.place p).table.getD n ⟨0, false, false⟩).entry
      let bs := splitOrder (pred &&& active) (~~~ pred &&& active) e f (adr e) (adr f)
      if 256 < (s.place p).unretired.length + bs.length then .next (s.block p c (.split d a b r e o t f))
      else
        let w := s.waitFor p t
        let ops := s.emitOps p c b
        .next ((bs.foldl (fun u x => u.append p c desc x.1 ops x.2 (o == 1) w) s).retireReg p c d (BitVec.ofNat 64 bs.length))

/-- The lowest live sequence (R138): of the oldest block unretired or with an unpopped entry. -/
def Place.lo (q : Place) : Nat :=
  match q.alley with
  | e :: _ => e.seq
  | [] => q.avhead
/-- A sequence is at or above n in the live range (R138). -/
def Place.above (q : Place) (n x : Nat) : Bool :=
  let rel (y : Nat) : Nat := (y + 2 ^ 32 - q.lo) % 2 ^ 32
  let m := if rel q.avtail < rel n then q.avtail else n
  rel m ≤ rel x
/-- The oldest entry popped (R139). -/
def State.pop (s : State) (p : Nat) : State :=
  s.modPlace p fun q => { q with alley := q.alley.drop 1, alhead := (q.alhead + 1) % 2 ^ 32, qmoved := true }
/-- POPP and POPPN on the oldest poppable entry (R139); `empty` is what happens when there is none. -/
def popEntry (d b : Nat) (empty : Nat → Nat → Out) (s : State) : Out :=
  onContext s roleCtx fun p c =>
    match (s.place p).alley with
    | e :: _ =>
      if e.poppable then .next ((s.pop p).retire p c fun x =>
        (x.setReg d (BitVec.ofNat 64 (e.scalar.toNat * 2 ^ 32 + e.mask.toNat))).setReg b (BitVec.ofNat 64 e.seq))
      else empty p c
    | [] => empty p c
/-- POPP: waits for an entry (R139). -/
def execPopp (d b : Nat) (s : State) : Out := popEntry d b (fun p c => .next (s.block p c (.popp d b))) s
/-- POPPN: returns empty without waiting (R139). -/
def execPoppn (d b : Nat) (s : State) : Out :=
  popEntry d b (fun p c => .next (s.retire p c fun x => (x.setReg d 0).setReg b (BitVec.allOnes 64))) s
/-- What BCANCEL makes of a block at or above its sequence (R140, R174). -/
def Block.cancel (b : Block) : Block :=
  match b.st with
  | .queued => { b with st := .cancelled }
  | .running => { b with st := .spentRunning }
  | .faulted => { b with st := .spentRunning }
  | .complete => { b with st := .spentComplete, pushes := [] }
  | _ => b
/-- BSEQ: avtail, avhead or the number of poppable entries (R141). -/
def execBseq (d sel : Nat) (s : State) : Out :=
  onContext s roleCtx fun p c =>
    let q := s.place p
    .next (s.retireReg p c d (BitVec.ofNat 64
      (if sel = 0 then q.avtail else if sel = 1 then q.avhead else (q.alley.filter fun e => e.poppable).length)))
/-- BWAIT: until every block below a sequence has retired or been discarded (R141). -/
def execBwait (a : Nat) (s : State) : Out :=
  onContext s roleCtx fun p c =>
    let q := s.place p
    if q.unretired.any fun b => !q.above ((s.g p c a).toNat % 2 ^ 32) b.seq then .next (s.block p c (.bwait a))
    else .next (s.retire p c id)

end Sys2Proof.Machine
end

