-- ==== Sys2Proof/Machine/Barrier.lean ====
section
/-! DEFINITION. JBAR: the barrier of a GANG job's role contexts (R302, R303, R307). -/
namespace Sys2Proof.Machine

/-- Where placement `index` of a job stands: on a plaza, in a save slot, or ended. -/
def State.findPlace (s : State) (job index : Nat) : Option (Option Nat × Place) :=
  match s.plazas.find? fun x => x.2.res == .resident && x.2.place.job == job && x.2.place.index == index with
  | some x => some (some x.1, x.2.place)
  | none => (s.placer.jobs.find? fun j => j.id == job).bind fun j =>
      (j.saves.find? fun v => v.place.index == index).map fun v => (none, v.place)
/-- A placement of the job has not started yet. -/
def State.unstarted (s : State) (job : Nat) : Bool :=
  s.plazas.any (fun x => x.2.res == .starting && x.2.place.job == job) || s.placer.jobs.any fun j => j.id == job && j.first < j.total
/-- Number of placements of a job. -/
def State.jobTotal (s : State) (job : Nat) : Nat :=
  match s.placer.jobs.find? fun j => j.id == job with
  | some j => j.total
  | none => 1
/-- A placement of the job is saved and has not resumed (R303). -/
def State.away (s : State) (job : Nat) : Bool := s.placer.jobs.any fun j => j.id == job && !j.saves.isEmpty
/-- A role context of a placement that has ended, as a barrier sees it (R303): ENDED, with the arrivals it made. -/
def State.leftCtx (s : State) (job index c : Nat) : Ctx :=
  match (s.placer.jobs.find? fun j => j.id == job).bind fun j => j.left.find? fun x => x.index == index && x.ctx == c with
  | some x => { Ctx.off .ended with arrivals := x.count, arrLog := x.log }
  | none => Ctx.off .ended
/-- The role contexts that a mask names in every placement of a job: placement, context number, state. -/
def State.barrier (s : State) (job mask : Nat) : List (Nat × Nat × Ctx) :=
  (List.range (s.jobTotal job)).flatMap fun i => ((List.range 3).filter fun c => bit mask c).map fun c =>
    (i, c, match s.findPlace job i with
      | some (_, q) => tabGet (Ctx.off .ended) q.ctx c
      | none => s.leftCtx job i c)
/-- What the role contexts of a placement leave to its job's barriers when it ends (R302). -/
def Place.left (q : Place) : List Left :=
  (List.range 3).map fun c => let x := tabGet (Ctx.off .ended) q.ctx c; ⟨q.index, c, x.arrivals, x.arrLog⟩
/-- A publish of plaza `id` (domain-wide) numbered above seq has completed, as far as this module knows (R329). -/
def State.published (s : State) (id seq : Nat) : Bool := id / 256 == s.dev.modNum && genBelow seq (s.plaza (id % 256)).pubDone
/-- The later of two arrivals on one plaza, by the publishes begun there: one publish above it covers both (R307). -/
def Arrived.later (x y : Arrived) : Arrived := if genBelow x.seq y.seq then y else x
/-- The arrivals of an episode by plaza, each plaza once with its latest (R307). -/
def byPlaza : List Arrived → List Arrived
  | [] => []
  | x :: t => let ys := byPlaza t; (ys.foldl (fun a y => if y.plaza = a.plaza then a.later y else a) x) :: ys.filter fun y => y.plaza != x.plaza
/-- JBAR (R302, R303): one arrival an episode; when every placement is there and every context of the mask has arrived or ENDED, each other
plaza that arrived publishes, once in the episode (R307), and this plaza self-invalidates unless every other arrival was made on it (R328).
Where the JBARs of an episode, by whichever role contexts of the job, name different masks the value is undefined (R7, R302). -/
def execJbar (d m : Nat) (s : State) : Out :=
  onContext s [0, 1, 2] fun p c =>
    if !bit m c || !(s.place p).gang then .next (s.illegal p c)
    else
      let me := s.plazaId p
      let s1 := if (s.ctx p c).arrived then s else s.modCtx p c fun x =>
        { x with arrivals := x.arrivals + 1, arrived := true, arrLog := x.arrLog ++ [⟨me, (s.plaza p).pubBegun, m⟩] }
      let n := (s1.ctx p c).arrivals - 1
      let go (t : State) : Out :=
        let all := t.barrier (t.place p).job m
        if t.unstarted (t.place p).job || t.away (t.place p).job || !(all.all fun x => x.2.2.state == .ended || n < x.2.2.arrivals) then .next (t.block p c (.jbar d m))
        else
          let others := byPlaza ((all.filterMap fun x => x.2.2.arrLog[n]?).filter fun x => x.plaza != me)
          match others.find? fun x => !t.published x.plaza x.seq with
          | some x =>
            .next (((t.block p c (.jbar d m)).modCtx p c fun y => { y with acq := some ⟨0, x.plaza, x.seq, false, false, false⟩ }).sendPublish
              x.plaza x.seq (.ctx p c))
          | none =>
            let u := if others.isEmpty then t else t.selfInvalidate p
            let mixed := (t.barrier (t.place p).job 7).any fun x => (x.2.2.arrLog[n]?).any fun a => a.mask != m
            let v := if mixed then u.freeDouble.1 else BitVec.ofNat 64 (n % 2 ^ 32)
            .next ((if mixed then u.freeDouble.2 else u).retire p c fun x => { x.setReg d v with arrived := false })
      match (s1.ctx p c).acq with
      | none => go s1
      | some q =>
        let t := s1.modCtx p c fun x => { x with acq := none }
        if q.failed then .next (t.trapAccess p c .linkdown 0 0) else if q.done then go t else .next (s1.block p c (.jbar d m))

end Sys2Proof.Machine
end

