-- ==== Sys2Proof/Machine/LaneMem.lean ====
section
/-! DEFINITION. Lane memory (R161-R167), VAMO (R225, R226) and the typed buffers from the lanes (R227, R228, R263). -/
namespace Sys2Proof.Machine

/-- The enabled physical lanes of a mask, ascending. -/
def enabled (em : W32) : List Nat := (List.range 32).filter fun i => em.getLsbD i
/-- A mask from physical lane numbers. -/
def laneMask (ls : List Nat) : W32 := ls.foldl (fun m i => m ||| (1 <<< i)) 0
/-- One lane's use of a handle (R108) for n bytes at an offset, aligned first (R165); another module's memory needs its feature (R253). -/
def State.laneUse (s : State) (p : Nat) (h : Handle) (n : Nat) (need : Need) (byAddress : Bool) (o : Nat) : HandleUse :=
  let va := h.va + BitVec.ofNat 64 o
  if (if byAddress then va.toNat else o) % n != 0 then .fault .misaligned
  else match s.useHandle h o n need with
    | .ok key priv => if s.remoteOff p (s.place p).pasid key then .fault .illegal else .ok key priv
    | r => r
/-- An access of one lane that passed its checks: the physical lane, its offset, home key and whether the page is private. -/
structure Access where
  lane : Nat
  off  : Nat
  key  : Nat
  priv : Bool
/-- A lane's access that faulted: the lane, its offset, cause and physical address. -/
structure Faulted where
  lane  : Nat
  off   : Nat
  cause : Cause
  paddr : Nat
/-- The accesses that pass their checks and those that fault (R165). -/
def State.sortLanes (s : State) (p : Nat) (h : Handle) (n : Nat) (need : Need) (byAddress : Bool) : List (Nat × Nat) → List Access × List Faulted
  | [] => ([], [])
  | (i, o) :: t =>
    let (as, fs) := s.sortLanes p h n need byAddress t
    match s.laneUse p h n need byAddress o with
    | .ok key priv => (⟨i, o, key, priv⟩ :: as, fs)
    | .fault c => (as, ⟨i, o, c, 0⟩ :: fs)
    | _ => (as, fs)
/-- The faulting access of the lowest lane. -/
def lowestFault : List Faulted → Option Faulted
  | [] => none
  | f :: t => match lowestFault t with
    | none => some f
    | some g => some (if f.lane < g.lane then f else g)
/-- The lane fault of an instruction's faulting accesses (R165): the lowest lane's cause and va, the lanes with that cause. -/
def State.accessFault (s : State) (p l n : Nat) (fs : List Faulted) : State :=
  match lowestFault fs with
  | none => s
  | some f =>
    let h := s.handle p n
    let va := h.va + BitVec.ofNat 64 f.off
    if f.cause = .illegal then s.laneIllegalHere p l
    else
      let lanes := laneMask ((fs.filter fun g => g.cause == f.cause).map fun g => g.lane)
      let r := s.laneRecord p l f.cause (if f.cause = .hunmapped then 0 else va)
      s.laneFault p l { r with
        lanes := lanes >>> s.shift p l, hvalid := true, hnum := n, handle := h.read, va := va, paddr := if f.cause = .memerr then f.paddr else 0 }
/-- The lanes' faults where the refresh of a STALE handle has failed (R114, R165): MISALIGNED is checked first, the refresh's own cause
comes last. -/
def refreshFaults (h : Handle) (n : Nat) (byAddress : Bool) (cause : Cause) (offs : List (Nat × Nat)) : List Faulted :=
  offs.map fun x => ⟨x.1, x.2,
    if (if byAddress then (h.va + BitVec.ofNat 64 x.2).toNat else x.2) % n != 0 then .misaligned else cause, 0⟩
/-- A lane instruction's use of handle N at its issue, whatever its mask (R112, R114, R163): PENDING or FAULTED holds it, but in a halted
placement it is discarded, which leaves `gone`; STALE starts a refresh walk and holds it until the walk's end; else its lanes' checks. -/
def withHandle (p l hn n : Nat) (need : Need) (byAddress : Bool) (offs : List (Nat × Nat)) (gone : State) (s : State)
    (go : List Access → List Faulted → State → Out) : Out :=
  let h := s.handle p hn
  match h.st with
  | .pending => .next (if (s.place p).halted then gone else s)
  | .faulted => .next (if (s.place p).halted then gone else s)
  | .stale =>
    let lanes := laneMask (offs.map fun x => x.1) >>> s.shift p l
    let off := (offs.head?.map fun x => x.2).getD 0
    match h.user with
    | none => .next (s.modHandle p hn fun y => { y with user := some (some l, lanes.toNat, off) })
    | some u => (match u.1 == some l, h.fail with
      | true, some cause => go [] (refreshFaults h n byAddress cause offs) (s.modHandle p hn fun y => { y with user := none, fail := none })
      | _, _ => .next s)
  | _ => let (as, fs) := s.sortLanes p h n need byAddress offs; go as fs s

/-- n bytes read through the lanes' L1, piece by piece (R230, R322). -/
def State.loadPieces (s : State) (p l : Nat) (priv : Bool) : List (Nat × Nat) → Res Nat
  | [] => .ok 0 s
  | (key, n) :: t => (s.loadL1 (.lane p l) p true key n priv).andThen fun v u =>
    (u.loadPieces p l priv t).andThen fun x y => .ok (v + 2 ^ (8 * n) * x) y
/-- n bytes of a view page read at the home (R342), piece by piece; the lines of other modules have been gathered. -/
def State.homePieces (s : State) (p l : Nat) (far : List (Nat × List Byte)) : List (Nat × Nat) → Res Nat
  | [] => .ok 0 s
  | (key, n) :: t => (s.gathered (.lane p l) far (key / 128)).andThen fun r u =>
    (takeBytes r.1 r.2 key n u).andThen fun v y =>
      (y.homePieces p l far t).andThen fun x z => .ok (v + 2 ^ (8 * n) * x) z
/-- How a lane's load reads: through the L1, a view page at its home (R342) with the lines that other modules have answered, or the bytes kept
for it at a VIEWDROP (R298). -/
inductive LaneRead where
  | plain
  | home (far : List (Nat × List Byte))
  | kept (v : Nat)
/-- The view checks of the accesses (R165, R348): the accesses that go on, with how each reads, the faults, and the delays of those that must
wait. An access whose line is on its way from another module has been checked at its pin, which it still holds (R346). -/
def State.viewLanes (s : State) (p l n : Nat) (ds : List Delay) :
    List Access → (List (Access × LaneRead) × List Faulted × Option (List Delay)) × State
  | [] => (([], [], none), s)
  | a :: t =>
    let pinned := keyRemote a.key && s.viewPage a.key && (s.findRemote (.lane p l) 1 (a.key / 128 * 128) 128).isSome
    let (r, s1) := if pinned then (.served false [], s) else s.viewRead p a.key n ds []
    let ((as, fs, wait), s2) := s1.viewLanes p l n ds t
    match r with
    | .plain => (((a, .plain) :: as, fs, wait), s2)
    | .kept v => (((a, .kept v) :: as, fs, wait), s2)
    | .served stale _ => (((a, .home []) :: as, fs, wait), s2.setStale p stale)
    | .wait xs => ((as, fs, some (match wait with
        | none => xs
        | some ys => xs ++ ys.filter fun y => !xs.contains y)), s2)
    | .fault c pa => ((as, ⟨a.lane, a.off, c, pa⟩ :: fs, wait), s2)
/-- The values that the lanes load, ascending; an access that waits holds the instruction (R164, R165). -/
def State.loadLanes (s : State) (p l n : Nat) : List (Access × LaneRead) → Res (List (Nat × Nat) × List Faulted)
  | [] => .ok ([], []) s
  | (a, how) :: t =>
    let r : Res Nat := match how with
      | .plain => s.loadPieces p l a.priv (splitKey a.key n)
      | .home far => s.homePieces p l far (splitKey a.key n)
      | .kept v => .ok v s
    match r with
    | .wait u => .wait u
    | .ok v u => (u.loadLanes p l n t).andThen fun x y => .ok ((a.lane, v) :: x.1, x.2) y
    | .fail c _ pa u => (u.loadLanes p l n t).andThen fun x y => .ok (x.1, ⟨a.lane, a.off, c, pa⟩ :: x.2) y
/-- The accesses to view pages once the lines of other modules among them have been gathered, in one wait for all (R346); those that have lost
their path fault (R355). -/
def State.gatherLanes (s : State) (p l n : Nat) (as : List (Access × LaneRead)) : Res (List (Access × LaneRead) × List Faulted) :=
  let atHome (x : Access × LaneRead) : Bool := match x.2 with
    | .home _ => true
    | _ => false
  let lines := farLines ((as.filter atHome).flatMap fun x => splitKey x.1.key n)
  let lost (x : Access × LaneRead) : Bool := atHome x && (splitKey x.1.key n).any fun y => keyRemote y.1
  if lines.isEmpty then .ok (as, []) s
  else match s.gather (.lane p l) lines with
    | .ok far t => .ok (as.map fun x => if atHome x then (x.1, .home far) else x, []) t
    | .wait t => .wait t
    | .fail c _ _ t => .ok (as.filter fun x => !lost x, (as.filter lost).map fun x => ⟨x.1.lane, x.1.off, c, 0⟩) t
/-- The reads at view-block homes that a lane group waits for are given up with their pins (R348). -/
def State.dropReads (s : State) (p l : Nat) : State :=
  { s with remotes := s.remotes.filter fun r => !(r.who == .lane p l && r.kind == 1 && s.viewPage r.addr) }
/-- A row from the lanes' values. -/
def rowFrom (vs : List (Nat × Nat)) (f : Nat → W32) : Row :=
  rowOf fun i => match vs.find? fun x => x.1 == i with
    | some x => f x.2
    | none => 0
/-- A counted load of n bytes per lane (R153, R164-R167): its values are fixed at issue, after the stores it is ordered behind. -/
def laneLoad (d hn n cls : Nat) (byAddress : Bool) (offs : List (Nat × Nat)) (em : W32) (ext : Nat → W32) (w k p l : Nat) (s : State) : Out :=
  withHandle p l hn n .read byAddress offs ((s.skipRing p l).laneRetire p l 8 w k) s fun as fs s =>
    let s1 := s.orderStores p l cls .mem (as.map fun a => (a.key, n))
    let ((bs, gs, wait), s2) := s1.viewLanes p l n (s.lane p l).delays as
    match wait with
    | some ds =>
      let t := s2.dropReads p l
      -- a halted placement's delayed read is discarded like a user of a stalled handle (R112, R348)
      .next (if (s.place p).halted then ((t.skipRing p l).laneRetire p l 8 w k).modLane p l fun x => { x with delays := [] }
        else t.modLane p l fun x => { x with delays := ds })
    | none => match (s2.gatherLanes p l n bs).andThen fun x u => (u.loadLanes p l n x.1).andThen fun y v => .ok (y.1, x.2 ++ y.2) v with
      | .wait t => .next t
      | .fail _ _ _ t => .next t
      | .ok (vs, es) t =>
        let bad := fs ++ gs ++ es
        let mask := em &&& ~~~ laneMask (bad.map fun f => f.lane)
        let t1 := (t.issue p l 0 true ((t.lane p l).vdest d) true (rowFrom vs ext) mask).modLane p l fun x => { x with delays := [] }
        .next (if bad.isEmpty then t1.laneRetire p l 8 w k else t1.accessFault p l hn bad)
/-- A counted store of the low n bytes of each lane's word (R153, R164-R167). -/
def laneStore (hn n cls : Nat) (byAddress : Bool) (offs : List (Nat × Nat)) (data : Row) (w k p l : Nat) (s : State) : Out :=
  withHandle p l hn n .write byAddress offs (s.laneRetire p l 8 w k) s fun as fs s =>
    let parts := as.map fun a => (a.key, n, (rowWord data a.lane).toNat % 2 ^ (8 * n))
    let t := s.issueStore p l cls .mem parts ((as.head?.map fun a => a.priv).getD false)
    .next (if fs.isEmpty then t.laneRetire p l 8 w k else t.accessFault p l hn fs)

/-- The offsets of VLDU and VSTU (R163, R258): consecutive words from a scalar, by the group's own lane numbers. -/
def State.unitOffs (s : State) (p l a i : Nat) (em : W32) : List (Nat × Nat) × State :=
  let (v, t) := s.scalarCode p l a
  ((enabled em).map fun j => (j, v.toNat + 4 * i + 4 * (j - s.shift p l)), t)
/-- The offsets of VLDG, VSTG and VAMO (R163): two unsigned words summed without wrap. -/
def State.gatherOffs (s : State) (p l a b : Nat) (em : W32) : List (Nat × Nat) × State :=
  let (x, s1) := s.operand p l a
  let (y, s2) := s1.operand p l b
  ((enabled em).map fun j => (j, (rowWord x j).toNat + (rowWord y j).toNat), s2)
/-- Extension of a gathered element of type t (R164). -/
def gatherExt (t v : Nat) : W32 :=
  if t = 7 then (BitVec.ofNat 8 v).signExtend 32 else if t = 9 then (BitVec.ofNat 16 v).signExtend 32 else BitVec.ofNat 32 v
/-- VLDU (R161-R165). -/
def execVldu (d a h i c q v w k : Nat) (s : State) : Out :=
  onLane s fun p l =>
    let (em, s1) := s.effMask p l q v
    let (offs, s2) := s1.unitOffs p l a i em
    laneLoad d h 4 c false offs em (BitVec.ofNat 32) w k p l s2
/-- VLDG (R161-R165). -/
def execVldg (d a b h t c q v w k : Nat) (s : State) : Out :=
  onLane s fun p l =>
    let (em, s1) := s.effMask p l q v
    let (offs, s2) := s1.gatherOffs p l a b em
    laneLoad d h (typeWidth t / 8) c true offs em (gatherExt t) w k p l s2
/-- VSTU (R161-R166). -/
def execVstu (a b h i c q v w k : Nat) (s : State) : Out :=
  onLane s fun p l =>
    let (em, s1) := s.effMask p l q v
    let (offs, s2) := s1.unitOffs p l a i em
    let (data, s3) := s2.operand p l b
    laneStore h 4 c false offs data w k p l s3
/-- VSTG (R161-R166): lanes store in rising order, so the highest of one address is last. -/
def execVstg (a b y h t c q v w k : Nat) (s : State) : Out :=
  onLane s fun p l =>
    let (em, s1) := s.effMask p l q v
    let (offs, s2) := s1.gatherOffs p l a b em
    let (data, s3) := s2.operand p l y
    laneStore h (typeWidth t / 8) c true offs data w k p l s3

/-- A scratchpad row's offset (R163), and whether it lies beyond the placement's scratchpad. -/
def State.scratchRow (s : State) (p l a i : Nat) : Int × State :=
  let (v, t) := s.scalarCode p l a
  (((v.toNat : Int) + 128 * sgn 8 i) / 128 * 128, t)
/-- HBOUNDS of a scratchpad access (R163). -/
def State.scratchFault (s : State) (p l : Nat) (o : Int) (em : W32) : State :=
  s.laneFault p l { s.laneRecord p l .hbounds (BitVec.ofInt 64 o) with lanes := em >>> s.shift p l }
/-- A scratchpad row access with enabled lanes faults (R163). -/
def State.scratchBad (s : State) (p : Nat) (o : Int) (em : W32) : Bool := em != 0 && (o < 0 || ((s.place p).scrsize : Int) ≤ o)
/-- VLDS: a scratchpad row; bound 10 (R161-R166). -/
def execVlds (d a i c q v w k : Nat) (s : State) : Out :=
  onLane s fun p l =>
    let (em, s1) := s.effMask p l q v
    let (o, s2) := s1.scratchRow p l a i
    if s2.scratchBad p o em then .next ((s2.skipRing p l).scratchFault p l o em)
    else
      let s3 := s2.orderStores p l c .scratch (if em = 0 then [] else [(o.toNat, 128)])
      .next ((s3.issueRow p l 10 d (tabGet 0 (s3.plaza p).scratch (o.toNat / 128)) em).laneRetire p l 8 w k)
/-- VSTS: one atomic action on a scratchpad row (R161-R166). -/
def execVsts (a b i c q v w k : Nat) (s : State) : Out :=
  onLane s fun p l =>
    let (em, s1) := s.effMask p l q v
    let (o, s2) := s1.scratchRow p l a i
    let (data, s3) := s2.operand p l b
    if s3.scratchBad p o em then .next (s3.scratchFault p l o em)
    else
      let parts := (enabled em).map fun j => (o.toNat + 4 * j, 4, (rowWord data j).toNat)
      .next ((s3.issueStore p l c .scratch parts false).laneRetire p l 8 w k)

/-- The row of VLDB and VSTB (R227). -/
def bufRow (v : W32) (i : Nat) : Nat := wrapInt 14 ((v.toNat % 16384 : Nat) + sgn 8 i)
/-- VLDB: a 128-byte unit of AB, WB or CB, or a half's words of it; bound 8 (R227, R263). -/
def execVldb (d a g z i c q v w k : Nat) (s : State) : Out :=
  onLane s fun p l =>
    let (em, s1) := s.effMask p l q v
    let (x, s2) := s1.scalarCode p l a
    let row := bufRow x i
    let (data, s3) : Row × State :=
      if g = 2 then
        let t := s2.orderStores p l c .cb [(row * 128, 128)]
        t.readUnit p l row
      else
        let t := s2.orderStores p l c .ab (if g = 0 then [(row * 256 + 128 * z, 128)] else [])
        let buf := if g = 0 then (t.plaza p).ab else (t.plaza p).wb
        ((tabGet 0 buf row).extractLsb' (1024 * z) 1024, t)
    .next ((s3.issueRow p l 8 d data em).laneRetire p l 8 w k)
/-- VSTB: a 128-byte unit of AB, or of CB (R227, R263). A store to CB performs at its issue, which other groups may find word by word (R180);
a result in flight to the row and the store leave the row's words undefined. -/
def execVstb (a b g z i c q v w k : Nat) (s : State) : Out :=
  onLane s fun p l =>
    let (em, s1) := s.effMask p l q v
    let (x, s2) := s1.scalarCode p l a
    let (data, s3) := s2.operand p l b
    let row := bufRow x i
    if g = 0 then
      let parts := (enabled em).map fun j => (row * 256 + 128 * z + 4 * j, 4, (rowWord data j).toNat)
      .next ((s3.issueStore p l c .ab parts false).laneRetire p l 8 w k)
    else
      let now := s.dev.cycle
      let s4 := s3.orderStores p l c .cb [(row * 128, 128)]
      let s5 := s4.modPlaza p fun y => { y with
        cb := tabPut 0 y.cb row (rowMix em data (tabGet 0 y.cb row)), torn := ⟨row, l, now, tabGet 0 y.cb row, em⟩ :: y.torn.filter fun t => t.cycle == now }
      let s6 := if em = 0 then s5 else s5.modLane p l fun y =>
        { y with results := y.results.map fun r => if r.dest == .row row && r.pending now then { r with clash := s5.halfMask p l } else r }
      .next (s6.laneRetire p l 8 w k)

/-- A lane's old value in the VAMO's destination row (R225, R226). -/
def State.putOld (s : State) (p l i d old : Nat) : State :=
  match (s.lane p l).vdest d with
  | .row n => s.modPlaza p fun q => { q with cb := tabPut 0 q.cb n (rowMix (1 <<< i) (broadcast (BitVec.ofNat 32 old)) (tabGet 0 q.cb n)) }
  | _ => s
/-- What a VAMO has done of its lanes, noted as each performs (R225, R226). -/
def State.noteAmo (s : State) (p l i : Nat) (old : Nat) (e : Option (Nat × Nat)) (acquires : Bool) (sc : Nat) : State :=
  let due : List (Nat × Nat) := match e with
    | none => []
    | some (pl, sq) => if pl != s.plazaId p && (sc == 2 || pl / 256 == s.dev.modNum) then [(pl, sq)] else []
  let own := match e with
    | none => false
    | some (pl, _) => pl == s.plazaId p
  s.modLane p l fun x =>
    let m : W32 := 1 <<< i
    { x with
      amo := x.amo ||| m, marker := { x.marker with amo := x.amo ||| m }
      vamo := { x.vamo with
                mask := x.vamo.mask ||| m, olds := rowMix m (broadcast (BitVec.ofNat 32 old)) x.vamo.olds
                pubs := if acquires then x.vamo.pubs ++ due else [], inval := x.vamo.inval || (acquires && !own) } }
/-- The lanes of a VAMO perform, ascending (R225): done, a wait, or the lane that faults at its access. -/
def State.amoLanes (s : State) (p l d op order sc : Nat) (data : Row) : List Access → Sum State (State × Option Faulted)
  | [] => .inr (s, none)
  | a :: t =>
    let b := (rowWord data a.lane).toNat
    let r : Res Found :=
      if 9 ≤ op then (s.commute (.lane p l) p true a.key 4 op b).andThen fun _ u => .ok (0, none) u
      else s.atomicAt (.lane p l) p a.key 4 op order sc (leBytes 4 b) fun old => some (amoValue op 4 old b)
    match r with
    | .wait u => .inl u
    | .fail c _ pa u => .inr (u, some ⟨a.lane, a.off, c, pa⟩)
    | .ok f u =>
      let v := u.noteAmo p l a.lane f.1 f.2 (order % 2 == 1 && sc != 0) sc
      (if 9 ≤ op then v else v.putOld p l a.lane d f.1).amoLanes p l d op order sc data t
/-- The VAMO's result, for the lanes performed since its (re)start (R153, R225). -/
def State.amoResult (s : State) (p l op d : Nat) : State :=
  let x := s.lane p l
  if 9 ≤ op then s else s.issue p l 0 true (x.vdest d) true x.vamo.olds x.vamo.mask
/-- The end of a VAMO: its result, and issue held for the implicit marker (R181, R225). -/
def State.endAmo (s : State) (p l op d w k : Nat) : State :=
  let s1 := if (s.lane p l).vamo.inval then s.selfInvalidate p else s
  ((s1.amoResult p l op d).laneRetire p l 8 w k).modLane p l fun x => { x with marking := true, acq := none, vamo := ⟨0, 0, [], false, none⟩ }
/-- The acquire of a VAMO (R225, R328): one publish after another, then its end; one that fails is LINKDOWN. -/
def State.amoAcquire (s : State) (p l op d hn w k : Nat) (as : List (Nat × Nat)) : State :=
  match (s.lane p l).vamo.pubs with
  | [] => s.endAmo p l op d w k
  | (pl, sq) :: _ =>
    match (s.lane p l).acq with
    | none => (s.modLane p l fun x => { x with acq := some ⟨0, pl, sq, false, false, false⟩ }).sendPublish pl sq (.lane p l)
    | some a =>
      if a.failed then
        let t := s.modLane p l fun x => { x with acq := none }
        if s.spent p l then t.endAmo p l op d w k else t.accessFault p l hn (as.map fun x => ⟨x.1, x.2, .linkdown, 0⟩)
      else s
/-- A publish that a VAMO waits for has come: the next one. -/
def State.amoNext (s : State) (p l : Nat) : State :=
  match (s.lane p l).acq with
  | some a => if a.done then s.modLane p l fun x => { x with acq := none, vamo := { x.vamo with pubs := x.vamo.pubs.drop 1 } } else s
  | none => s
/-- Lanes of a VAMO fault (R226); in a SPENT block, which drops the fault, it goes on with those that have performed. -/
def State.amoFault (s : State) (p l op d hn w k : Nat) (as : List (Nat × Nat)) (fs : List Faulted) : State :=
  if s.spent p l then (s.amoNext p l).amoAcquire p l op d hn w k as
  else (s.modLane p l fun x => { x with vamo := { x.vamo with held := none } }).accessFault p l hn fs
/-- The lanes of a VAMO that has been issued perform, as their checks gave them (R108, R225). -/
def State.amoRun (s : State) (p l d o h r sc c w k : Nat) (data : Row) (all : List (Nat × Nat)) (as : List Access) : State :=
  let s4 := if 2 ≤ r then s.performAll p l else s.orderStores p l c .mem (as.map fun x => (x.key, 4))
  match s4.amoLanes p l d o r sc data as with
  | .inl u => u
  | .inr (u, some f) => u.amoFault p l o d h w k all [f]
  | .inr (u, none) => (u.amoNext p l).amoAcquire p l o d h w k all
/-- The accesses that a VAMO holds from its issue on (R108). -/
def Lane.amoHeld (x : Lane) (as : List Access) : Lane :=
  { x with vamo := { x.vamo with held := some (as.map fun a => (a.lane, a.off, a.key, a.priv)) } }
/-- VAMO (R225, R226): every enabled lane not yet performed is checked first, and what the checks gave holds until it ends; a release order performs every older store of the lane group
first (R60); then the lanes perform in rising order, the acquire takes effect, and issue holds for the marker. -/
def execVamo (d a b y h sc r o t c q v w k : Nat) (s : State) : Out :=
  onLane s fun p l =>
    if t = 0 && !s.hasFeature p 6 then .next (s.laneIllegalHere p l) else
    let (em, s1) := s.effMask p l q v
    let (all, s2) := s1.gatherOffs p l a b em
    let (data, s3) := s2.operand p l y
    let todo := all.filter fun x => !(s.lane p l).amo.getLsbD x.1
    let gone := ((if o < 9 then s3.skipRing p l else s3).laneRetire p l 8 w k).modLane p l fun x => { x with marking := true }
    match (s.lane p l).vamo.held with
    | some xs =>
      .next (s3.amoRun p l d o h r sc c w k data all ((xs.filter fun x => !(s.lane p l).amo.getLsbD x.1).map fun x => ⟨x.1, x.2.1, x.2.2.1, x.2.2.2⟩))
    | none =>
      withHandle p l h 4 .atomic true todo gone s3 fun as fs s3 =>
        .next (if !fs.isEmpty then s3.amoFault p l o d h w k all fs
          else (s3.modLane p l fun x => x.amoHeld as).amoRun p l d o h r sc c w k data all as)

end Sys2Proof.Machine
end

