-- ==== Sys2Proof/Machine/Blocks.lean ====
section
/-! DEFINITION. The life of a block on the lanes: dispatch, landing, markers, completion, retirement, freeze and queue deadlock
(R139, R142, R155, R156, R168-R186). -/
namespace Sys2Proof.Machine

/-- The lane group halves a block may be dispatched onto, lowest first (R175). -/
def Place.seats (q : Place) : List Nat :=
  if q.w16 then List.range (2 * q.groups) else (List.range q.groups).map fun g => 2 * g
/-- The lowest free seat (R175). -/
def Place.freeSeat (q : Place) (now : Nat) : Option Nat :=
  q.seats.find? fun l => let x := tabGet Lane.off q.lanes l; !x.busy && !x.draining && x.freeAt ≤ now
/-- The lowest free seat for a block that resumes: in the half it had, since its physical lanes stay (R187, R188, R258). -/
def Place.freeHalf (q : Place) (now h : Nat) : Option Nat :=
  q.seats.find? fun l => let x := tabGet Lane.off q.lanes l; l % 2 == h && !x.busy && !x.draining && x.freeAt ≤ now
/-- The lane group at block start (R172), with its region marker at the entry. -/
def State.blockStart (s : State) (p l : Nat) (b : Block) : Lane :=
  let n32 (n : Nat) : W32 := BitVec.ofNat 32 n
  let regs : List (Nat × W32) := [(1, n32 b.entry), (2, n32 b.trip), (3, n32 b.seq), (4, b.op0), (5, b.op1), (6, b.op2), (7, b.op3),
    (8, n32 (l / 2)), (9, n32 (s.plazaId p))]
  let x : Lane := { Lane.off with
    busy := true, seq := b.seq, pc := ((s.place p).table.getD b.entry ⟨0, false, false⟩).entry
    s := regs.foldl (fun t r => tabPut 0 t r.1 r.2) [], p := tabPut 0 [] 0 (b.mask <<< s.shift p l)
    window := b.window, oldWindow := b.window, base := b.window, nextAt := s.dev.cycle, dispatched := s.dev.cycle }
  { x with marker := x.record x.pc 0 }
/-- The block that BLOCK_DISPATCH would take (R168, R175-R177): the oldest not dispatched, if its conditions are met. -/
def State.dispatchable (s : State) (p : Nat) : Option Block :=
  let q := s.place p
  let older (b : Block) : List Block := q.blocks.takeWhile fun x => x.seq != b.seq
  match q.blocks.find? fun b => b.st == .queued with
  | none => none
  | some b =>
    let live := (older b).filter fun x => x.st != .cancelled
    let waits := match b.wait with
      | .on _ => true
      | _ => false
    if s.lanesRun p && q.freeze.isNone && !q.halted && b.readyAt ≤ s.dev.cycle && q.dispatchAt ≤ s.dev.cycle && !waits
        && ((!b.ordered && !b.nonidem) || live.isEmpty) && !live.any (fun x => x.nonidem) then some b
    else none
/-- BLOCK_DISPATCH (R168, R172, R175); a block whose awaited token failed does not run: TOKENFAILED at its entry (R142). -/
def execBlockDispatch (p : Nat) (s : State) : Out :=
  match s.dispatchable p, (s.place p).freeSeat s.dev.cycle with
  | some b, some l =>
    let x := s.blockStart p l b
    let t := s.modPlace p fun q =>
      { q with
        lanes := tabSet q.lanes l x, qmoved := true, dispatchAt := s.dev.cycle + 1
        blocks := q.blocks.map fun y => if y.seq = b.seq then { y with st := .running, lane := some l } else y }
    if b.wait == .failed then
      let r := t.laneRecord p l .tokenfailed 0
      .next (t.freezeAt p b.seq { r with lanes := b.mask })
    else .next t
  | _, _ => .next s

/-- LANE_RESULT_LANDS: result n of the lane group lands, in a cycle after its issue (R29, R153). -/
def execLaneResultLands (p l n : Nat) (s : State) : Out :=
  match (s.lane p l).results[n]? with
  | some r => .next (if r.landed || s.dev.cycle ≤ r.at_ then s else s.land p l r)
  | none => .next s
/-- Some words of a result's row are in its CB row before the others (R180): an agent that reads the row meanwhile finds, word by word, the
old value or the new one. -/
def State.landPart (s : State) (p l n : Nat) (words : W32) : State :=
  match (s.lane p l).results[n]? with
  | some r =>
    (match r.dest with
    | .row k =>
      if r.landed || s.dev.cycle ≤ r.at_ then s
      else s.modPlaza p fun q => { q with cb := tabPut 0 q.cb k (rowMix (words &&& r.mask) r.data (tabGet 0 q.cb k)) }
    | _ => s)
  | none => s
/-- LANE_STORE_PERFORMS: store n performs, unless an older one must come first (R167). -/
def execLaneStorePerforms (p l n : Nat) (s : State) : Out :=
  let x := s.lane p l
  match x.stores[n]? with
  | none => .next s
  | some st =>
    let rs := st.parts.map fun y => (y.1, y.2.1)
    if (x.stores.take n).any fun o => o.before st.cls st.space rs then .next s else .next (s.performStore p l st)
/-- REGION_MARKER: the waiting VRGN or VAMO records the region state (R156, R181). -/
def execRegionMarker (p l : Nat) (s : State) : Out :=
  let x := s.lane p l
  if x.busy && x.marking && !x.stopped && x.quiet then
    .next (s.modLane p l fun y => { y with marking := false, amo := 0, marker := y.record y.pc 0, nextAt := Nat.max y.nextAt (s.dev.cycle + 1) })
  else .next s
/-- BLOCK_COMPLETE (R155, R170, R174): in the cycle after its VBEND at the earliest. -/
def execBlockComplete (p l : Nat) (s : State) : Out :=
  let x := s.lane p l
  if x.busy && x.ended && !x.stopped && x.quiet && x.nextAt ≤ s.dev.cycle then
    let done (b : Block) : Block :=
      if b.lane != some l then b
      else if b.st == .running then { b with st := .complete, pushes := x.pushes }
      else if b.st == .spentRunning then { b with st := .spentComplete } else b
    .next (s.modPlace p fun q => { q with blocks := q.blocks.map done })
  else .next s
/-- Entries of the alley (R170). -/
def alleySize : Nat := 64
/-- The oldest block that is not cancelled. -/
def Place.oldest (q : Place) : Option Block := q.blocks.find? fun b => b.st != .cancelled
/-- Block b leaves the avenue with its pushes committed, and its lane group is free from the next cycle (R139, R170, R175). -/
def State.retireBlock (s : State) (p : Nat) (b : Block) : State :=
  let now := s.dev.cycle
  s.modPlace p fun q =>
    { q with
      blocks := blocksAfter b.seq q.blocks, qmoved := true
      alley := q.alley ++ b.pushes.map fun x => ⟨x.mask, x.scalar, b.seq, now, false⟩
      altail := (q.altail + b.pushes.length) % 2 ^ 32
      lanes := match b.lane with
        | some l => tabSet q.lanes l { Lane.off with freeAt := now + 1 }
        | none => q.lanes }
/-- BLOCK_RETIRE: the oldest block retires if it has completed and the alley has room (R170, R174, R178). -/
def execBlockRetire (p : Nat) (s : State) : Out :=
  match (s.place p).oldest with
  | none => .next (s.modPlace p fun q => { q with blocks := [] })
  | some b =>
    let q := s.place p
    if b.st == .spentComplete then .next (s.retireBlock p { b with pushes := [] })
    else if b.st == .complete && q.alley.length + b.pushes.length ≤ alleySize then .next (s.retireBlock p b)
    else .next s
/-- What the cycle's conditions bring about by its end: blocks complete, retire in order, and the next one is dispatched (R168, R170). -/
def State.settleBlocks (s : State) (p : Nat) : State :=
  let s1 := runAll ((s.place p).lanes.map fun y => execBlockComplete p y.1) s
  runAll (((s1.place p).blocks.map fun _ => execBlockRetire p) ++ [execBlockDispatch p]) s1
/-- BCANCEL: cancels every block at or above n and removes their unpopped entries (R140), after what retires and is dispatched in this cycle
(R169). -/
def execBcancel (d a : Nat) (s : State) : Out :=
  onContext s roleCtx fun p c =>
    let s := s.settleBlocks p
    let q := s.place p
    let n := (s.g p c a).toNat % 2 ^ 32
    let count := (q.blocks.filter fun b => q.above n b.seq && b.st == .queued).length
    let gone := (q.alley.filter fun e => q.above n e.seq).length
    .next ((s.modPlace p fun x =>
      { x with
        blocks := x.blocks.map fun b => if q.above n b.seq then b.cancel else b
        alley := x.alley.filter fun e => !q.above n e.seq
        altail := (x.altail + 2 ^ 32 - gone) % 2 ^ 32 }).retireReg p c d (BitVec.ofNat 64 count))
/-- ALLEY_ENTRY_POPPABLE: entries committed four cycles ago or more (R139, R170). -/
def execAlleyEntryPoppable (p : Nat) (s : State) : Out :=
  .next (s.modPlace p fun q =>
    { q with alley := q.alley.map fun e => if e.committed + 4 ≤ s.dev.cycle then { e with poppable := true } else e })
/-- FREEZE_SETTLE: every block below the faulting one has retired or is cancelled; the record is built and raised against the emitter
(R94, R182). -/
def execFreezeSettle (p : Nat) (s : State) : Out :=
  match (s.place p).freeze with
  | none => .next s
  | some f =>
    let q := s.place p
    let below := q.blocks.takeWhile fun b => b.seq != f.seq
    if f.settled || below.any (fun b => b.st != .cancelled) || !s.lanesRun p then .next s
    else
      let emitter := match q.blocks.find? fun b => b.seq == f.seq with
        | some b => b.emitter
        | none => f.record.ctx
      .next ((s.modPlace p fun x => { x with freeze := some { f with settled := true } }).raiseAsync p emitter f.record)

/-- A role context that waits in EMIT or SPLIT on a full avenue, or in BWAIT (R186). -/
def Ctx.stuck (x : Ctx) : Bool :=
  x.state == .waiting && match x.wait with
    | some (.emit ..) => true
    | some (.split ..) => true
    | some (.bwait ..) => true
    | _ => false
/-- The cycle counts towards a queue deadlock (R186). -/
def Place.deadlocked (q : Place) : Bool :=
  !q.qmoved && roleCtx.any (fun c => (tabGet (Ctx.off .ended) q.ctx c).stuck) && match q.oldest with
    | some b => b.st == .complete && alleySize < q.alley.length + b.pushes.length
    | none => false
/-- The deadlock count at the end of cycles that pass (R186); it pauses while the placement is not resident. -/
def Plaza.countDeadlock (q : Plaza) (cycles : Nat) : Plaza :=
  if q.res != .resident then q
  else { q with place := { q.place with qdead := if q.place.deadlocked then q.place.qdead + cycles else 0, qmoved := false } }
/-- QDEADLOCK: past 65,536 the lowest stuck context traps at its instruction (R186). -/
def execQdeadlock (p : Nat) (s : State) : Out :=
  let q := s.place p
  if q.qdead ≤ 65536 then .next s
  else match roleCtx.find? fun c => (s.ctx p c).stuck with
    | none => .next s
    | some c =>
      let r := s.record p c .qdeadlock 0
      .next ((s.modPlace p fun x => { x with qdead := 0 }).raiseAsync p c { r with async := true })

end Sys2Proof.Machine
end

