-- ==== Sys2Proof/Machine/Branch.lean ====
section
/-! DEFINITION. Branches, jumps, calls and hardware loops (R17, R42-R53, R377). -/
namespace Sys2Proof.Machine

/-- A control-only transfer: the lanes raise ILLEGAL (R47). -/
def onControl (s : State) (f : Nat → Nat → Out) : Out :=
  match s.cur.agent with
  | .control p c => f p c
  | .lane p l => .next (s.laneIllegalHere p l)
  | .device => .next s
/-- PC + 4 × SignExt(o, n) (R17). -/
def target (pc : Word) (n o : Nat) : Word := pc + 4 * sext64 n o
/-- A conditional branch on two g registers (R42). -/
def branch (test : Word → Word → Bool) (a b o : Nat) (s : State) : Out :=
  onControl s fun p c =>
    if test (s.g p c a) (s.g p c b) then .next (s.jump p c id (target (s.ctx p c).pc 9 o)) else .next (s.retire p c id)
/-- BEQ (R42). -/
def execBeq (a b o : Nat) (s : State) : Out := branch (fun x y => x == y) a b o s
/-- BNE (R42). -/
def execBne (a b o : Nat) (s : State) : Out := branch (fun x y => x != y) a b o s
/-- BLT (R42). -/
def execBlt (a b o : Nat) (s : State) : Out := branch (fun x y => x.slt y) a b o s
/-- BGE (R42). -/
def execBge (a b o : Nat) (s : State) : Out := branch (fun x y => y.sle x) a b o s
/-- BLTN (R42). -/
def execBltn (a b o : Nat) (s : State) : Out := branch (fun x y => x.ult y) a b o s
/-- BGEN (R42). -/
def execBgen (a b o : Nat) (s : State) : Out := branch (fun x y => y.ule x) a b o s
/-- J (R43). -/
def execJ (o : Nat) (s : State) : Out := onControl s fun p c => .next (s.jump p c id (target (s.ctx p c).pc 25 o))
/-- The return-address predictor after a push (R45): 32 entries, the oldest lost. -/
def Ctx.push (x : Ctx) (a : Word) : Ctx := { x with ras := (a :: x.ras).take 32 }
/-- CALL: g31 := PC + 4, and the jump (R43). -/
def execCall (o : Nat) (s : State) : Out :=
  onControl s fun p c =>
    .next (s.jump p c (fun x => (x.setReg 31 (x.pc + 4)).push (x.pc + 4)) (target (s.ctx p c).pc 25 o))
/-- JALR: MISALIGNED unless the target is a multiple of 4; links in rd and jumps (R44, R45). -/
def execJalr (d a i : Nat) (s : State) : Out :=
  onControl s fun p c =>
    let t := target (s.g p c a) 9 i
    if t.toNat % 4 != 0 then .next (s.trap p c .misaligned t)
    else .next (s.jump p c (fun x =>
      let y := x.setReg d (x.pc + 4)
      if d = 31 then y.push (x.pc + 4) else if d = 0 ∧ a = 31 then { y with ras := y.ras.drop 1 } else y) t)

/-- The words of a loop body read in order (R17): the list, or the lowest address that cannot be fetched. -/
def readWords (f : Word → State → Res (Option Nat)) : Nat → Word → State → Res (Sum Word (List Nat))
  | 0, _, s => .ok (.inr []) s
  | n + 1, va, s => (f va s).andThen fun w t =>
    match w with
    | none => .ok (.inl va) t
    | some x => (readWords f n (va + 4) t).andThen fun r u =>
      match r with
      | .inl a => .ok (.inl a) u
      | .inr ws => .ok (.inr (x :: ws)) u
/-- The last word of a body, if it is the first word of an instruction (R17). -/
def lastFirst : List Nat → Option Nat
  | [] => none
  | [w] => some w
  | w :: e :: t => if isDouble w then lastFirst t else lastFirst (e :: t)
/-- A body that raises ILLEGAL at its LOOP (R17): it ends in the first word of a double-word, or on the lanes in the pair bit. R17 names no
other: a body whose last word is the extension word of a complete double-word is accepted, and no instruction completes at that address, so
the level never detects its end (DESIGN CHOICE, log 16). -/
def badBody (lanes : Bool) (ws : List Nat) : Bool :=
  match lastFirst ws with
  | some w => isDouble w || (lanes && 0x40 ≤ major w && w % 2 == 1)
  | none => false
/-- A word of a block's text, read at its home through the placement's PASID (R377; log 11): none if it cannot be fetched. -/
def State.laneWord (s : State) (p l : Nat) (va : Word) : Res (Option Nat) :=
  if !canonical va then .ok none s
  else match s.translate p (s.place p).pasid va with
    | .wait t => .wait t
    | .fail c a b t => .fail c a b t
    | .ok none t => .ok none (t.oldTlb s p)
    | .ok (some tr) t =>
      if !tr.exec || t.transAbsent tr va then .ok none (t.oldTlb s p)
      else
        let key := t.transKey tr va
        if t.textOff p (s.place p).pasid key then .fail .illegal va 0 (t.oldTlb s p)
        else (t.fetchLine (.lane p l) (key / 128)).andThen fun r u =>
          if touchesPoison r.2 (key % 128) 4 then .fail .memerr va (key % 2 ^ 45) u else .ok (some (vecBytes r.1 (key % 128) 4)) u

/-- A word of a loop body on the control core (R17, R70): of the line in the instruction cache, or read at its home; no line enters the
cache. -/
def State.peekWord (s : State) (who : Requester) (p pasid : Nat) (va : Word) : Res (Option Nat) :=
  let line := va.toNat / 64
  let word (d : BitVec 512) (bad : Bool) (home : Nat) (t : State) : Res (Option Nat) :=
    if bad then .fail .memerr va ((home + va.toNat % 64) % 2 ^ 45) t else .ok (some (vecBytes d (va.toNat % 64) 4)) t
  match s.iline p pasid line with
  | some x => word x.data x.bad x.home s
  | none => (s.readILine who p pasid line).andThen fun r t =>
    match r with
    | none => .ok none t
    | some (d, bad, home) => word d bad home t

/-- The level that a LOOP of n > 0 iterations starts (R49). -/
def newLevel (pc : Word) (n b m param : Nat) : Level :=
  let v : Level := { active := true, first := pc + 4, last := pc + 4 * BitVec.ofNat 64 b, remaining := n, mode := m, param := param, iteration := 0 }
  { v with remaining := if 2 ≤ m then n + v.stages - 1 else n }
/-- LOOP and LOOPI on the control core with trip count n (R17, R49): the body's checks, then the level or the skip. R70 does not say whether
the skip of a loop of no iterations counts a line access like a taken transfer or like a fall-through: it counts one only where the line
differs (DESIGN CHOICE, log 27). -/
def loopControl (i : Instr) (n b l m param : Nat) (p c : Nat) (s : State) : Out :=
  let pc := (s.ctx p c).pc
  let fetch (va : Word) (t : State) : Res (Option Nat) :=
    if !canonical va then .ok none t else t.peekWord (.ctx p c) p (s.ctxPasid p c) va
  onAccess (readWords fetch b (pc + 4) s) p c i fun r t =>
    match r with
    | .inl a => .next (t.trap p c .fetch a)
    | .inr ws =>
      if badBody false ws then .next (t.illegal p c)
      else if n = 0 then
        let next := pc + 4 + 4 * BitVec.ofNat 64 b
        .next ((t.modCtx p c fun x =>
          { x with
            pc := next, prev := pc, insret := x.insret + 1, lineAccess := next.toNat / 64 != pc.toNat / 64, asked := [], counting := none, state := .running
            wait := none, acq := none, delays := [], sync := [] }).settleWake p c)
      else .next (t.retire p c fun x => { x with levels := tabSet x.levels l (newLevel pc n b m param) })
/-- LOOP and LOOPI on the lanes with trip count n (R17, R49, R53, R377). Where the level conflicts with another stage level and a word of the body
cannot be fetched too, ILLEGAL comes first: no rule orders the two (DESIGN CHOICE, log 27). -/
def loopLane (n b l m param : Nat) (p g : Nat) (s : State) : Out :=
  let x := s.lane p g
  let other := [0, 1, 2, 3].any fun j => j != l && (levelOf x.levels j).active && 2 ≤ (levelOf x.levels j).mode
  if 2 ≤ m && other then .next (s.laneIllegalHere p g)
  else match readWords (fun va t => t.laneWord p g va) b (x.pc + 4) s with
    | .wait t => .next t
    | .fail cause va pa t => .next (t.laneFault p g { t.laneRecord p g cause va with paddr := pa })
    | .ok (.inl a) t => .next (t.laneFault p g (t.laneRecord p g .fetch a))
    | .ok (.inr ws) t =>
      if badBody true ws then .next (t.laneIllegalHere p g)
      else if n = 0 then .next (t.modLane p g fun y => { y with pc := y.pc + 4 + 4 * BitVec.ofNat 64 b, nextAt := t.dev.cycle + 1 })
      else
        let v := newLevel x.pc n b m param
        .next ((t.modLane p g fun y =>
          let z := { y with levels := tabSet y.levels l v }
          if 2 ≤ m then z.setStages v else z).laneRetire p g 4 0 0)
/-- LOOP: the trip count from a register, read once (R48, R49). -/
def execLoop (c b l m p : Nat) (s : State) : Out :=
  match s.cur.agent with
  | .control q k => loopControl (.loop c b l m p) (s.g q k c).toNat b l m p q k s
  | .lane q g => let (n, t) := s.readScalar q g c; loopLane n.toNat b l m p q g t
  | .device => .next s
/-- LOOPI: the trip count an immediate (R48, R49). -/
def execLoopi (c b l m p : Nat) (s : State) : Out :=
  match s.cur.agent with
  | .control q k => loopControl (.loopi c b l m p) c b l m p q k s
  | .lane q g => loopLane c b l m p q g s
  | .device => .next s

end Sys2Proof.Machine
end

