-- ==== Sys2Proof/Machine/Csr.lean ====
section
/-! DEFINITION. Control and status registers (R68-R70) and cache maintenance (R71-R74). -/
namespace Sys2Proof.Machine

/-- A CSR that only the supervisor reaches (R69). -/
def csrSuper (n : Nat) : Bool := 0x20 ≤ n
/-- CSR n as context c of plaza p reads it (R69); with no placement, a placement's CSR reads zero in context 5. -/
def State.csr (s : State) (p c n : Nat) : Word :=
  let x := s.ctx p c
  let q := s.plaza p
  let placed (v : Word) : Word := if s.hasPlace p then v else 0
  if n = 0 then BitVec.ofNat 64 (s.dev.modNum * 2 ^ 16 + p * 2 ^ 8 + c)
  else if n = 1 then BitVec.ofNat 64 s.dev.cycle
  else if n = 2 then BitVec.ofNat 64 s.dev.ns
  else if n = 3 then x.insret
  else if n = 4 then x.ichit
  else if n = 5 then x.icmiss
  else if n = 6 then placed (BitVec.ofNat 64 q.place.job)
  else if n = 7 then placed (BitVec.ofNat 64 q.place.index)
  else if n = 8 then placed (BitVec.ofNat 64 (q.place.scrsize / 8192))
  else if n = 9 then placed q.place.ckptwa
  else if n = 0x10 then placed (BitVec.ofNat 64 (b2n q.place.viewflags))
  else if n = 0x11 then x.wdog
  else if n = 0x20 then q.roles
  else if n = 0x21 then q.sweepage
  else if n = 0x22 then q.trapvec
  else if n = 0x23 then q.trapslot
  else if n = 0x24 then q.svepc
  else placed q.place.faultq
/-- CSR n := v; undefined bits ignore the write (R68, R69). SVEPC holds a PC, whose low two bits are zero (R11): they ignore the write
(DEDUCED, log 27). -/
def State.setCsr (s : State) (p c n : Nat) (v : Word) : State :=
  let placed (f : Place → Place) : State := if s.hasPlace p then s.modPlace p f else s
  if n = 3 then s.modCtx p c fun x => { x with insret := v }
  else if n = 4 then s.modCtx p c fun x => { x with ichit := v }
  else if n = 5 then s.modCtx p c fun x => { x with icmiss := v }
  else if n = 0x10 then placed fun q => { q with viewflags := v.getLsbD 0 }
  else if n = 0x11 then s.modCtx p c fun x => { x with wdog := v }
  else if n = 0x20 then s.modPlaza p fun q => { q with roles := v &&& 1 }
  else if n = 0x21 then s.modPlaza p fun q =>
    { q with sweepage := v &&& 0xFFFFF, sweepAt := if v &&& 0xFFFFF = q.sweepage then q.sweepAt else s.dev.cycle }
  else if n = 0x22 then s.modPlaza p fun q => { q with trapvec := v &&& ~~~ 3 }
  else if n = 0x23 then s.modPlaza p fun q => { q with trapslot := v &&& ~~~ 127 }
  else if n = 0x24 then s.modPlaza p fun q => { q with svepc := v &&& ~~~ 3 }
  else if n = 0x25 then placed fun q => { q with faultq := v }
  else s
/-- An access to CSR n by the running context: PRIVILEGED for a supervisor CSR outside context 5 (R68, R88). -/
def csrAccess (n : Nat) (f : Nat → Nat → Out) (s : State) : Out :=
  onContext s allCtx fun p c => if csrSuper n && c != 5 then .next (s.privileged p c) else f p c
/-- The read, change and write of a CSR in one action; g[d] takes the value before (R68). -/
def csrSwap (new : Word → Word → Word) (d a n : Nat) (s : State) : Out :=
  csrAccess n (fun p c =>
    let t := s.csr p c n
    .next ((s.setCsr p c n (new t (s.g p c a))).retireReg p c d t)) s
/-- CSRR (R68). -/
def execCsrr (d n : Nat) (s : State) : Out := csrAccess n (fun p c => .next (s.retireReg p c d (s.csr p c n))) s
/-- CSRW (R68). -/
def execCsrw (d a n : Nat) (s : State) : Out := csrSwap (fun _ v => v) d a n s
/-- CSRS (R68). -/
def execCsrs (d a n : Nat) (s : State) : Out := csrSwap (fun t v => t ||| v) d a n s
/-- CSRC (R68). -/
def execCsrc (d a n : Nat) (s : State) : Out := csrSwap (fun t v => t &&& ~~~ v) d a n s

/-- A hint's translation (R72): its key and attributes where a mapping has the permission; no TLB entry is left where it has not. -/
def State.hint (s : State) (p c : Nat) (ea : Word) (ok : Trans → Bool) : Res (Option (Nat × Bool)) :=
  if !canonical ea then .ok none s
  else match s.translate p (s.ctxPasid p c) ea with
    | .ok (some t) u => if ok t && !u.transAbsent t ea && !u.remoteOff p (u.ctxPasid p c) (u.transKey t ea) then .ok (some (u.transKey t ea, t.priv)) u else .ok none (u.oldTlb s p)
    | .ok none u => .ok none (u.oldTlb s p)
    | .wait u => .wait u
    | .fail _ _ _ u => .ok none (u.oldTlb s p)
/-- The address space and instruction line that a context's fetch of another module's line is for (R73, R316). -/
def State.fetching (s : State) (p c : Nat) : Nat × Nat :=
  let pc := (s.ctx p c).pc
  let pasid := s.ctxPasid p c
  (pasid, if (s.iline p pasid (pc.toNat / 64)).isSome then (pc + 4).toNat / 64 else pc.toNat / 64)
/-- A context's fetch of an instruction line on another module is in flight (R72, R316). -/
def State.missing (s : State) (p : Nat) (x : Nat × Nat) : Bool :=
  s.remotes.any fun r => match r.who with
    | .fetch q c => q == p && c < 6 && s.fetching p c == x
    | _ => false
/-- ICPF: starts a fill of an instruction line (R71, R72). -/
def execIcpf (a : Nat) (s : State) : Out :=
  onContext s allCtx fun p c =>
    let ea := s.g p c a
    let pasid := s.ctxPasid p c
    let line := ea.toNat / 64
    onAccess (s.hint p c ea fun t => t.exec) p c (.icpf a) fun r t =>
      match r with
      | none => .next (t.retire p c id)
      | some (key, _) =>
        if (t.iline p pasid line).isSome || (t.plaza p).ifills.any (fun f => f.pasid == pasid && f.line == line) || t.missing p (pasid, line) then
          .next ((t.oldTlb s p).retire p c id)
        else .next ((t.modPlaza p fun q =>
          { q with ifills := q.ifills ++ [⟨pasid, line, key / 64 * 64, t.dev.cycle, false⟩] }).retire p c id)
/-- DCPF: merges the plaza's update line, then starts a fill of a data line (R65, R71, R72); a view page is never cached (R342). -/
def execDcpf (a : Nat) (s : State) : Out :=
  onContext s allCtx fun p c =>
    onAccess (s.hint p c (s.g p c a) fun t => t.read) p c (.dcpf a) fun r t =>
      match r with
      | none => .next (t.retire p c id)
      | some (key, priv) =>
        let u := t.mergeOwn p (key / 128)
        if (lineIn (u.plaza p).l1d (key / 128)).isSome || (u.plaza p).fills.any (fun f => f.key == key / 128) || u.viewPage key then
          .next ((u.oldTlb s p).retire p c id)
        else .next ((u.modPlaza p fun q => { q with fills := q.fills ++ [⟨key / 128, priv, false⟩] }).retire p c id)
/-- The demand fills in flight of instruction lines that a test names are cancelled: their data is used once (R73, R316). -/
def State.cancelFetches (s : State) (f : Nat → Nat → Bool) : State :=
  s.cancelReads fun r => match r.who with
    | .fetch p c => c < 6 && f (s.fetching p c).1 (s.fetching p c).2
    | _ => false
/-- Instruction lines that a test names leave every instruction cache of the module, and their fills in flight are cancelled (R73). -/
def State.dropILines (s : State) (f : Nat → Nat → Bool) : State :=
  let t := s.cancelFetches f
  { t with plazas := t.plazas.map fun x =>
      (x.1, { x.2 with icache := x.2.icache.filter fun y => !f y.pasid y.line
                       ifills := x.2.ifills.map fun y => if f y.pasid y.line then { y with cancelled := true } else y }) }
/-- ICINV of one line (R71, R73). -/
def execIcinv (a : Nat) (s : State) : Out :=
  onContext s allCtx fun p c =>
    let ea := s.g p c a
    onAccess (s.checkVa p (s.ctxPasid p c) ea 0 .read) p c (.icinv a) fun _ t =>
      .next ((t.dropILines fun pasid line => pasid == s.ctxPasid p c && line == ea.toNat / 64).retire p c id)
/-- ICINV of every line of the job's PASID (R73). -/
def execIcinvAll (s : State) : Out :=
  onContext s allCtx fun p c => .next ((s.dropILines fun pasid _ => pasid == s.ctxPasid p c).retire p c id)
/-- A plaza's lane stores that touch a line perform (R74). -/
def State.performTouching (s : State) (p line : Nat) : State :=
  (s.place p).lanes.foldl (fun t x =>
    t.orderStores p x.1 99 .mem [(line * 128, 128)]) s
/-- A line still dirty in an L1 of the plaza. -/
def Plaza.dirtyLine (q : Plaza) (line : Nat) : Bool := (q.l1d ++ q.l1v).any fun x => x.key == line && (x.dirty != 0 || x.upd)
/-- A writeback of a line is acknowledged (R74, R341): the line has left, no write of it is on its way to another module, and no notice of
the plaza's writes is outstanding. While it is not, the instruction is in progress; where the home cannot be reached it fails. -/
def State.acknowledged (s : State) (who : Requester) (p line : Nat) : Res Unit :=
  let ended : State := { s with remotes := s.remotes.filter fun x => !(x.who == who && x.kind == 3) }
  let dirty := (s.plaza p).dirtyLine line
  if dirty && !keyRemote (line * 128) then .fail .linkdown 0 0 ended
  else if dirty || s.noticesFrom p then
    .wait (if (s.findRemote who 3 (line * 128) 128).isSome then s else (s.addRemote who 3 (line * 128) 128 []).2)
  else .ok () ended
/-- The writeback that a DCWB or DCINV asks for by `f`, until it is acknowledged or has failed (R74, R355). -/
def State.maintain (s : State) (who : Requester) (p line : Nat) (f : State → State) : Res Unit :=
  if s.remotes.any fun r => r.who == who && r.kind == 3 && r.failed then
    .fail .linkdown 0 0 { s with remotes := s.remotes.filter fun x => !(x.who == who && x.kind == 3) }
  else (f s).acknowledged who p line
/-- DCWB: the line's dirty bytes and update line go home; the line stays valid and clean (R71, R74). -/
def execDcwb (a : Nat) (s : State) : Out :=
  onContext s allCtx fun p c =>
    let ea := s.g p c a
    let r : Res Unit := (s.checkVa p (s.ctxPasid p c) ea 0 .read).andThen fun k t =>
      t.maintain (.ctx p c) p (k.1 / 128) fun u => (u.writeBack p (k.1 / 128)).mergeOwn p (k.1 / 128)
    onAccess (r.at_ ea) p c (.dcwb a) fun _ t => .next (t.retire p c id)
/-- A lane group's load of a line on another module is in flight (R74). -/
def State.lanesLoading (s : State) (p line : Nat) : Bool :=
  s.remotes.any fun r => match r.who with
    | .lane q _ => q == p && r.kind == 1 && r.size == 128 && r.addr == line * 128 && r.reply.isNone && !r.failed && !r.cancelled
    | _ => false
/-- DCINV: as DCWB, and the line leaves both L1s; lane loads and stores to it complete first, and a context's fill of it in flight is not
installed, its data being used once (R71, R74, R316). -/
def execDcinv (a : Nat) (s : State) : Out :=
  onContext s allCtx fun p c =>
    let ea := s.g p c a
    let r : Res Unit := (s.checkVa p (s.ctxPasid p c) ea 0 .read).andThen fun k t =>
      let line := k.1 / 128
      if t.lanesLoading p line then .wait t
      else t.maintain (.ctx p c) p line fun u =>
        ((u.performTouching p line).flushLine p line).cancelReads fun r => loadsFor r.who p && r.addr == line * 128
    onAccess (r.at_ ea) p c (.dcinv a) fun _ t => .next (t.retire p c id)

end Sys2Proof.Machine
end

