-- ==== Sys2Proof/Machine/NestLevels.lean ====
section
/-! DEFINITION. The levels of a nest: index tuples, offsets, iterations and the stages they take (R274-R276). -/
namespace Sys2Proof.Machine

/-- Level l of a nest. -/
def Nest.level (n : Nest) (l : Nat) : NestLevel := n.levels.getD l .off
/-- A level is present (R275). -/
def NestLevel.present (v : NestLevel) : Bool := v.count != 0
/-- Iterations of a level: an absent one acts as one (R275). -/
def Nest.count (n : Nest) (l : Nat) : Nat := Nat.max 1 (n.level l).count
/-- The six levels. -/
def levels6 : List Nat := [0, 1, 2, 3, 4, 5]
/-- Index tuples of a nest. -/
def Nest.total (n : Nest) : Nat := levels6.foldl (fun t l => t * n.count l) 1
/-- Index tuple number t, level 5 fastest (R276). -/
def Nest.tuple (n : Nest) (t : Nat) : List Nat :=
  (levels6.foldr (fun l (x : List Nat × Nat) => (x.2 % n.count l :: x.1, x.2 / n.count l)) ([], t)).1
/-- The step of one operand at a level; none at an absent level (R275). -/
def Nest.step (n : Nest) (l : Nat) (f : NestLevel → Int) : Int := if (n.level l).present then f (n.level l) else 0
/-- A sum over the levels below `top` of index × step (R276). -/
def Nest.offset (n : Nest) (idx : List Nat) (top : Nat) (f : NestLevel → Int) : Int :=
  levels6.foldl (fun acc l => if l < top then acc + (idx.getD l 0 : Int) * n.step l f else acc) 0
/-- Stream offsets of the fusion modes (R274). -/
def streamA (mode s : Nat) : Nat := if mode = 0 then 0 else if mode = 1 then s / 2 else s
def streamB (mode s : Nat) : Nat := if mode = 2 then 0 else if mode = 1 then s % 2 else s
/-- The A and B offsets of sub-array s at a tuple (R276). -/
def Nest.offA (n : Nest) (idx : List Nat) (s : Nat) : Int := n.abase + n.offset idx 6 (fun v => v.sa) + streamA n.mode s * n.sa
def Nest.offB (n : Nest) (idx : List Nat) (s : Nat) : Int := n.bbase + n.offset idx 6 (fun v => v.sb) + streamB n.mode s * n.sb
/-- The level with a flag, among those present. -/
def Nest.flagged (n : Nest) (f : NestLevel → Bool) : List Nat := levels6.filter fun l => (n.level l).present && f (n.level l)
/-- The drain level, and the advance levels (R275, R276). -/
def Nest.drainLevel (n : Nest) : Nat := (n.flagged fun v => v.drain).headD 0
def Nest.advA (n : Nest) : Option Nat := (n.flagged fun v => v.adva).head?
def Nest.advB (n : Nest) : Option Nat := (n.flagged fun v => v.advb).head?
/-- The tuple is the first (last) step of an iteration of a level (R276). -/
def Nest.firstOf (n : Nest) (idx : List Nat) (l : Nat) : Bool := levels6.all fun j => j ≤ l || idx.getD j 0 == 0 || n.count j == 1
def Nest.lastOf (n : Nest) (idx : List Nat) (l : Nat) : Bool := levels6.all fun j => j ≤ l || idx.getD j 0 + 1 == n.count j
/-- Which iteration of a level a tuple lies in, counted from 0 (R277). -/
def Nest.takeNo (n : Nest) (idx : List Nat) (l : Nat) : Nat :=
  levels6.foldl (fun acc j => if j ≤ l then acc * n.count j + idx.getD j 0 else acc) 0
/-- Iterations of a level in the whole nest. -/
def Nest.takes (n : Nest) (l : Nat) : Nat := levels6.foldl (fun acc j => if j ≤ l then acc * n.count j else acc) 1

/-- A step at a tuple begins an iteration of an advance level, so it takes a stage (R276). -/
def Nest.begins (n : Nest) (idx : List Nat) (adv : Option Nat) : Bool :=
  match adv with
  | some l => n.firstOf idx l
  | none => false
/-- The stage at a ring's consumer cursor is FULL (R273). -/
def Place.stageReady (q : Place) (ring : Nat) : Bool := let x := tabGet Ring.off q.rings ring; x.stages.getD x.cc .empty == .full
/-- The running nest waits for a stage (R273, R276, R281). -/
def Place.nestWaits (q : Place) : Bool :=
  match q.active with
  | none => false
  | some a => a.phase == .take &&
      ((a.nest.begins a.idx a.nest.advA && a.stageA.isNone && !q.stageReady a.nest.ringa)
        || (a.nest.begins a.idx a.nest.advB && a.stageB.isNone && !q.stageReady a.nest.ringb))
/-- A nest is discarded (R281): at once, or once a drain that has begun is done. -/
def Active.discard (a : Active) : Option Active := if a.drain.isNone then none else some { a with phase := .discarded }

end Sys2Proof.Machine
end

