-- ==== Sys2Proof/Machine/System.lean ====
section
/-! DEFINITION. System instructions (R75-R77), the return from a trap (R76, R89, R95, R184), halting a placement (R95), and handler
starts (R98, R99). -/
namespace Sys2Proof.Machine

/-- A context starts at an address with registers set by f (R70, R83). -/
def Ctx.startAt (x : Ctx) (pc : Word) (f : Ctx → Ctx) : Ctx :=
  { f x with pc := pc, prev := 0, state := .running, wait := none, acq := none, delays := [], sync := [], lineAccess := true, asked := [] }
/-- A handler starts on a PUTH arrival (R98). An address that is no multiple of 4 has its low two bits ignored, as R69 gives for TRAPVEC; R11
lets no other address into a PC, and R135 names no check (DESIGN CHOICE, log 27). -/
def State.startArrival (s : State) (p c : Nat) (x : Arrival) : State :=
  s.modCtx p c fun y => y.startAt (x.handler &&& ~~~ 3) fun z =>
    ((z.setReg 1 x.loc).setReg 2 (BitVec.ofNat 64 x.len)).setReg 3 (BitVec.ofNat 64 x.sender)
/-- EXIT: the exit status, and the context ends (R75, R76). -/
def execExit (a : Nat) (s : State) : Out :=
  onContext s [0, 1, 2] fun p c =>
    let v := (s.g p c a).setWidth 32
    .next ((s.retire p c id).modCtx p c fun x => { x with state := .ended, exitStatus := some v })
/-- A trap after its instruction has completed (R76, R92): pc is the next address, pc2 the instruction. At a level's last address end detection runs
and counts, and pc is the next address all the same, not the loop's first; how R50 and R76 go together is not said (DESIGN CHOICE, log 27). -/
def State.trapAfter (s : State) (p c : Nat) (cause : Cause) (faddr : Word) : State :=
  let pc := (s.ctx p c).pc
  let t := s.retire p c id
  t.takeTrap p c { t.record p c cause faddr with pc := pc + 4, pc2 := pc }
/-- TRAP: completes, then raises TRAPINSN with a code (R75, R76). -/
def execTrap (code : Nat) (s : State) : Out :=
  onContext s [0, 1, 2, 3, 4] fun p c => .next (s.trapAfter p c .trapinsn (BitVec.ofNat 64 code))
/-- TBR: completes, then raises BREAK (R75, R76). -/
def execTbr (s : State) : Out := onContext s [0, 1, 2, 3, 4] fun p c => .next (s.trapAfter p c .breakpoint 0)
/-- HRET: dormant, or the oldest queued arrival at once (R76, R98). -/
def execHret (s : State) : Out :=
  onContext s [3, 4] fun p c =>
    let t := s.retire p c id
    match (t.place p).arrivals with
    | [] => .next (t.modCtx p c fun x => { x with state := .dormant })
    | x :: rest => .next ((t.modPlace p fun q => { q with arrivals := rest }).startArrival p c x)
/-- CKPT: a release at K of the checkpoint word; the address after it is the restart point (R76). -/
def execCkpt (a : Nat) (s : State) : Out :=
  onContext s [0, 1, 2] fun p c =>
    let ea := (s.place p).ckptwa
    if ea = 0 then .next (s.illegal p c)
    else
      let r : Res Unit := (s.checkVa p (s.ctxPasid p c) ea 8 .write).andThen fun k t =>
        t.releaseStore (.ctx p c) p 1 k.1 8 (s.g p c a).toNat
      onAccess (r.at_ ea) p c (.ckpt a) fun _ t => .next (t.retire p c fun x => { x with restart := some (x.pc + 4) })

/-- A token leaves OUTSTANDING as FAILED (R123). -/
def failTok (n : Nat) (cmd : Nat) (t : Tab Token) : Tab Token :=
  let x := tabGet ⟨.free, 0⟩ t n
  if x.st == .outstanding && x.producer == cmd then tabSet t n { x with st := .failed } else t
/-- What a halt makes of a block (R95, R174). -/
def Block.halt (b : Block) : Block :=
  match b.st with
  | .queued => { b with st := .cancelled }
  | .running => { b with st := .spentRunning }
  | .complete => { b with st := .spentComplete, pushes := [] }
  | .faulted => { b with st := .cancelled, lane := none, pushes := [] }
  | _ => b
/-- A context that a halt ends (R83, R95), at its next boundary if its instruction is in progress: a dormant handler stays dormant; every context
that has not exited, one that ended for want of an entry point among them, takes the exit status. -/
def Ctx.halt (x : Ctx) (cause : Cause) (busy : Bool) : Ctx :=
  let v : W32 := BitVec.ofNat 32 (0xFFFFFF00 + cause.code)
  if x.exitStatus.isSome then x
  else if x.state = .dormant then { x with halted := true, exitStatus := some v }
  else if busy then { x with ending := some v }
  else x.endBy v
/-- The halt of a placement by its record r, naming context n (R95, R97, R112): contexts end; blocks not started and queued commands
are discarded, a nest that waits for a stage among them (R281), their tokens failing; pending records are dropped, and queued arrivals, which no
handler is left to take (log 27). -/
def State.haltPlace (s : State) (p n : Nat) (r : Record) : State :=
  let q := s.place p
  let s1 := match q.freeze with
    | some f => (match q.blocks.find? fun (b : Block) => b.seq == f.seq with
      | some b => (match b.lane with
        | some l => s.releaseLane p l
        | none => s)
      | none => s)
    | none => s
  let dropped : List Cmd := (q.copyQ ++ q.linkQ).filter (fun c => !c.started) ++ (match q.pendingN with
    | some (_, c) => [c]
    | none => []) ++ (if q.nestWaits then (q.active.map fun a => a.cmd).toList else [])
  let s2 := [0, 1, 2, 3, 4].foldl (fun t c =>
    let busy := t.busy p c
    (if busy then t else t.forgetRemotes (.ctx p c)).modCtx p c fun x => x.halt r.cause busy) s1
  let s3 := s2.modPlace p fun q =>
    { q with
      blocks := q.blocks.map fun b => if q.freeze.any fun f => f.seq == b.seq then { b with st := .cancelled, lane := none, pushes := [] } else b.halt
      freeze := none, tokens := dropped.foldl (fun t (c : Cmd) => failTok c.tok c.id t) q.tokens
      copyQ := q.copyQ.filter fun c => c.started
      linkQ := q.linkQ.filter fun c => c.started
      active := if q.nestWaits then q.active.bind Active.discard else q.active, pendingN := none, async := [], records := [], refused := [], arrivals := [], halted := true
      haltAt := if q.halted then q.haltAt else s.dev.cycle, haltCtx := if q.halted then q.haltCtx else n }
  let mine (y : Record) : Bool := y.job == r.job && y.index == r.index
  let gone := (s.plaza p).pending.filter mine ++ q.async ++ q.records
  let free (x : Plaza) : Plaza := { x with snaps := x.snaps.filter fun e => !(gone.any fun y => y.snap == e.2 && e.2 != 0) }
  let s4 := { s3 with plazas := s3.plazas.map fun (x : Nat × Plaza) => (x.1, free x.2) }
  s4.modPlaza p fun x => { x with pending := x.pending.filter fun y => !mine y }
/-- The record whose delivery's end releases the settled freeze (R184). -/
def Place.releases (q : Place) (r : Record) : Bool :=
  match q.freeze with
  | some f => f.settled && r.async && r.cause != .engine && r.cause != .qdeadlock && r.seq == f.seq
  | none => false
/-- The settled freeze is released (R184): its block runs again from its last marker, and dispatch resumes in the next cycle. -/
def State.unfreeze (s : State) (p : Nat) : State :=
  match (s.place p).freeze with
  | none => s
  | some f =>
    let s1 := match (s.place p).blocks.find? fun b => b.seq == f.seq with
      | some b => (match b.lane with
        | some l => (s.landAll p l).modLane p l fun x => x.restart s.dev.cycle
        | none => s)
      | none => s
    s1.modPlace p fun q =>
      { q with freeze := none, dispatchAt := s.dev.cycle + 1
               blocks := q.blocks.map fun b => if b.seq = f.seq && b.st == .faulted then { b with st := .running } else b }
/-- What SRET does to the context it names; the value it returns in g[rd] (R76, R95, R184). -/
def State.sretEffect (s : State) (p n : Nat) (halt : Bool) (pc : Word) : Word × State :=
  match (s.plaza p).open_ with
  | none => (1, s)
  | some r =>
    if !s.ours p r then (1, s)
    else if halt then (0, s.haltPlace p n r)
    else
      let release := (s.place p).releases r && n == r.ctx
      let x := s.ctx p n
      let s1 := if release then s.unfreeze p else s
      if x.state = .trapped then
        (0, (s1.modCtx p n fun y => { y with pc := pc, state := .running, wait := none, lineAccess := true, asked := [] }).modPlace p
          fun q => { q with refused := q.refused.filter fun y => y.ctx != n })
      else if release && x.state = .ended then (0, s1)
      else (1, s1)
/-- The delivery ends: its snapshot entry is freed (R93), and a record whose context is left TRAPPED is kept for resume (R97). -/
def State.closeDelivery (s : State) (p : Nat) : State :=
  match (s.plaza p).open_ with
  | none => s
  | some r =>
    let free (q : Plaza) : Plaza := { q with snaps := q.snaps.filter fun e => !(e.2 == r.snap && r.snap != 0) }
    let s0 := { s with plazas := s.plazas.map fun (x : Nat × Plaza) => (x.1, free x.2) }
    let s1 := s0.modPlaza p fun q => { q with open_ := none }
    if s.ours p r && (s.ctx p r.ctx).state == .trapped && !(s1.place p).halted then
      s1.modPlace p fun q => { q with refused := q.refused ++ [r] } else s1
/-- After SRET: the oldest pending record is delivered at once, or context 5 goes on at SVEPC, or is dormant (R76, R89). -/
def State.afterSret (s : State) (p : Nat) : State :=
  let go : Option Record := if s.slotStalls p (s.plaza p).trapslot then none else s.nextRecord p
  match go with
  | some r => (s.openRecord p r).modPlaza p fun q => { q with ctx5 := q.ctx5.startTrap q.trapvec }
  | none =>
    s.modPlaza p fun q =>
      { q with ctx5 := if q.svepc = 0 then { q.ctx5 with state := .dormant }
                       else { q.ctx5 with state := .running, pc := q.svepc, lineAccess := true, asked := [] } }
/-- SRET: PRIVILEGED outside context 5; its checks; the named context; the end of the delivery (R75, R76, R89, R95, R184). -/
def execSret (d a b : Nat) (s : State) : Out :=
  onContext s allCtx fun p c =>
    let sel := (s.g p c a).toNat
    let pc := s.g p c b
    if c != 5 then .next (s.privileged p c)
    else if 4 < sel % 8 then .next (s.illegal p c)
    else if pc.toNat % 4 != 0 then .next (s.trap p c .misaligned pc)
    else
      let (v, s1) := s.sretEffect p (sel % 8) (bit sel 3) pc
      .next (((s1.closeDelivery p).retireReg p c d v).afterSret p)

end Sys2Proof.Machine
end

