-- ==== Sys2Proof/Machine/Consistency.lean ====
section
/-! DEFINITION. Publishes (R327-R329), the sweeper (R311), fills (R72, R78, R316), translation invalidations (R113) and page publishes
(R117), and uncorrectable errors (R315). -/
namespace Sys2Proof.Machine

/-- The entries of one Release Record Table after an acknowledgement (R327): an unreachable entry that the publish covers is dropped; the
entry being evicted is dropped, or marked unreachable. -/
def rrtAfter (g n : Nat) (failed : Bool) (word : Option Nat) (es : List RrtEntry) : List RrtEntry :=
  let covers (e : RrtEntry) : Bool := e.plaza == g && genBelow e.seq n
  if failed then es.map fun e => if word == some e.word && e.plaza == g then { e with unreachable := true } else e
  else es.filter fun e => !(covers e && (e.unreachable || word == some e.word))
/-- The Release Record Tables of this module after an acknowledgement (R327). -/
def State.rrtAnswered (s : State) (g n : Nat) (failed : Bool) (word : Option Nat) : State :=
  { s with rrt := s.rrt.map fun (t : Nat × List RrtEntry) => (t.1, rrtAfter g n failed word t.2) }
/-- An acknowledgement of a publish leaves plaza p for a requester: for another module by a flit, and the unreachable entries here that the
publish covers are dropped whoever asked for it (R327, R329, R353). -/
def State.sendAck (s : State) (p number : Nat) (failed : Bool) (x : Requester) : State :=
  match x with
  | .remote m tag =>
    let t := s.rrtAnswered (s.plazaId p) number failed none
    t.post { mkFlit 7 (m % 256) tag (t.plazaId p) 0 (number + 2 ^ 32 * b2n failed) [] with ddie := m / 256, sdie := dieOf p }
  | _ => { s with acks := s.acks ++ [(s.plazaId p, number, b2n failed, x)] }
/-- A new publish of plaza p (R329): every dirty byte written back and every update line merged, as its number says; those on pages that move follow
after the remap (R334). -/
def State.startPublish (s : State) (p : Nat) (waiting : List (Nat × Requester)) : State :=
  let n := ((s.plaza p).pubBegun + 1) % 2 ^ 32
  let (t, ok) := s.publishLines p
  t.modPlaza p fun q => { q with pubBegun := n, publish := some ⟨n, waiting, !ok, t.holdsMoving p⟩ }
/-- What plaza p does with Publish(seq) (R329): already covered, a new publish, or queued behind the one that runs. -/
def State.servePublish (s : State) (p seq : Nat) (x : Requester) : State :=
  let q := s.plaza p
  if genBelow seq q.pubDone then s.sendAck p q.pubDone false x
  else match q.publish with
    | none => s.startPublish p [(seq, x)]
    | some _ => s.modPlaza p fun y => { y with pubQueue := y.pubQueue ++ [(seq, x)] }
/-- PUBLISH_REQUEST (R329): a request on its way, or one from another module, reaches plaza p. -/
def execPublishRequest (p n : Nat) (x : Requester) (s : State) : Out :=
  match x with
  | .remote _ _ => .next (if p < Config.plazas then s.servePublish p n x else s)
  | _ =>
    if s.requests.contains (p, n, x) then .next ({ s with requests := s.requests.erase (p, n, x) }.servePublish p n x) else .next s
/-- A move of a page is in progress, and a publish that meets it completes only after the remap (R334). -/
def State.moving (s : State) : Bool := !s.moves.isEmpty
/-- PUBLISH_COMPLETE (R329, R334, R341): what lay on a page that has moved is written to its new frame. Then every writeback and notice is
acknowledged; those that waited are answered, and the queued requests
start the next publish unless this one covers them. A publish that failed covers no request. -/
def execPublishComplete (p : Nat) (s : State) : Out :=
  match (s.plaza p).publish with
  | none => .next s
  | some w =>
    if s.noticesFrom p || s.moving then .next s
    else if w.held then
      let (t, ok) := s.publishLines p
      .next (t.modPlaza p fun q => { q with publish := some { w with failed := w.failed || !ok, held := false } })
    else
      let queued := (s.plaza p).pubQueue
      let s1 := s.modPlaza p fun q => { q with pubDone := if w.failed then q.pubDone else w.number, publish := none, pubQueue := [] }
      let s2 := w.waiting.foldl (fun t x => t.sendAck p w.number w.failed x.2) s1
      let (now, later) := queued.partition fun x => !w.failed && genBelow x.1 w.number
      let s3 := now.foldl (fun t x => t.sendAck p w.number false x.2) s2
      .next (if later.isEmpty then s3 else s3.startPublish p later)

/-- An acquire that waits for a publish of plaza g learns that publish n has completed, or failed (R328, R329). -/
def Acquire.answer (a : Acquire) (g n : Nat) (failed : Bool) : Acquire :=
  if a.plaza != g || a.done || a.failed || !(failed || genBelow a.seq n) then a
  else if failed then { a with failed := true } else { a with done := true }
/-- A host's read after an acknowledgement of its publishes (R328, R330): what it still needs. -/
def HostRead.after (x : HostRead) (g n : Nat) : HostRead := { x with needs := x.needs.filter fun e => !(e.1 == g && genBelow e.2 n) }
/-- The reads of the hosts after publish n of plaza g is acknowledged or has failed (R328, R330): those that need no more return what they
read, a failed one is aborted (R361). -/
def HostSide.hostAnswered (h : HostSide) (g n : Nat) (failed : Bool) : HostSide :=
  let bad (x : HostRead) : Bool := failed && x.needs.any fun e => e.1 == g
  let rs := (h.reading.filter fun x => !bad x).map fun x => x.after g n
  { h with
    reading := rs.filter fun x => !(x.needs.isEmpty && x.delays.isEmpty)
    answers := h.answers ++ (h.reading.filter bad).map (fun x => (x.host, x.addr, .abort))
      ++ (rs.filter fun x => x.needs.isEmpty && x.delays.isEmpty).map fun x => (x.host, x.addr, .data x.bytes x.bad) }
/-- What an acknowledgement does for its requester (R327-R330). -/
def State.answered (s : State) (g n : Nat) (failed : Bool) (x : Requester) : State :=
  let word := match x with
    | .evict w => some w
    | _ => none
  let s1 := s.rrtAnswered g n failed word
  match x with
  | .ctx p c =>
    if c = 9 then s1.modPlaza p fun q => { q with await := q.await.map fun a => a.answer g n failed }
    else s1.modCtx p c fun y => { y with acq := y.acq.map fun a => a.answer g n failed }
  | .lane p l => s1.modLane p l fun y => { y with acq := y.acq.map fun a => a.answer g n failed }
  | .host => s1.modHost fun h => h.hostAnswered g n failed
  | .evict _ => s1
  | .remote _ _ => s1
  | .plaza _ => s1
  | .fetch _ _ => s1
  | .cmd _ _ => s1
/-- PUBLISH_ACKNOWLEDGEMENT (R327-R329): of plaza g (domain-wide), for publish n, failed unless f is 0; one from another module answers
the request that waits for it. -/
def execPublishAcknowledgement (g n f : Nat) (x : Requester) (s : State) : Out :=
  if s.acks.contains (g, n, f, x) then .next ({ s with acks := s.acks.erase (g, n, f, x) }.answered g n (f != 0) x)
  else if g / 256 = s.dev.modNum then .next s
  else match s.findRemote x 6 g (s.remotes.findSome? (fun r => if r.who == x && r.kind == 6 && r.addr == g then some r.size else none) |>.getD 0) with
    | some r => .next ({ s with remotes := s.remotes.filter fun y => y.tag != r.tag }.answered g n (f != 0) x)
    | none => .next s

/-- A dirty line's age has reached SWEEPAGE (R311). -/
def State.sweepDue (s : State) (p : Nat) (x : Line) : Bool :=
  let age := (s.plaza p).sweepage.toNat
  age != 0 && x.dirty != 0 && !x.upd && x.dirtyAt + age ≤ s.dev.cycle
/-- A line's writeback by the sweeper has its latest cycle (R311): 1,024 after its age was reached, or after the write that gave SWEEPAGE its
value. -/
def State.sweepLate (s : State) (p : Nat) (x : Line) : Bool :=
  s.sweepDue p x && Nat.max (x.dirtyAt + (s.plaza p).sweepage.toNat) (s.plaza p).sweepAt + 1024 ≤ s.dev.cycle
/-- SWEEPER_WRITEBACK (R311): line n of the L1D (k = 0) or of the lanes' L1 is written back and stays valid and clean. -/
def execSweeperWriteback (p k n : Nat) (s : State) : Out :=
  match lineIn ((s.plaza p).l1 (k != 0)) n with
  | some x => .next (if s.sweepDue p x then s.writeBack p n else s)
  | none => .next s

/-- ICACHE_FILL (R72, R73, R78): the i-th instruction fill in flight is installed, or was cancelled. -/
def execIcacheFill (p i : Nat) (s : State) : Out :=
  match (s.plaza p).ifills[i]? with
  | some f => .next (s.finishIFill p f)
  | none => .next s
/-- L1_FILL_RETURN (R72, R316): the i-th data fill in flight is installed in the L1D, unless it was cancelled or its line cannot be read. -/
def execL1FillReturn (p i : Nat) (s : State) : Out :=
  match (s.plaza p).fills[i]? with
  | none => .next s
  | some f =>
    let gone (t : State) : State :=
      { t with remotes := t.remotes.filter fun r => !(r.who == Requester.ctx p 6 && r.addr == f.key * 128) }.modPlaza p fun q =>
        { q with fills := q.fills.filter fun y => y.key != f.key }
    if f.cancelled || (lineIn (s.plaza p).l1d f.key).isSome then .next (gone s)
    else match s.fetchLine (.ctx p 6) f.key with
      | .ok r t =>
        let r := overOther (lineIn (t.plaza p).l1v f.key) r
        .next ((gone t).install p false { emptyLine f.key f.priv with held := BitVec.allOnes 128, data := r.1, poison := r.2 })
      | .wait t => .next t
      | .fail _ _ _ t => .next (gone t)

/-- A line lies on the page of one of some TLB entries, whose bases `key` gives. -/
def pageLine (es : List TlbEntry) (key : TlbEntry → Nat) (line : Nat) : Bool :=
  es.any fun e => key e ≤ line * 128 && line * 128 < key e + e.trans.size
/-- Fills in flight of a page that is shot down are cancelled (R316): data lines by the departing TLB entries, instruction lines by
address. -/
def Plaza.cancelFills (q : Plaza) (key : TlbEntry → Nat) (pasid base len : Nat) : Plaza :=
  let gone := q.tlb.filter fun e => e.meets pasid base len
  { q with
    fills := q.fills.map fun f =>
      if pageLine gone key f.key then { f with cancelled := true } else f
    ifills := q.ifills.map fun f =>
      if f.pasid == pasid && f.line * 64 < base + len && base < f.line * 64 + 64 then { f with cancelled := true } else f }
/-- An invalidation is received (R113): TLB entries and handles of its range lose their translations on every plaza. -/
def State.invalidate (s : State) (pasid base len : Nat) (entry : Option Nat) : State :=
  let key (e : TlbEntry) : Nat := s.homeKey e.trans.mod e.trans.base
  let leaving (p : Nat) : List TlbEntry := (s.plaza p).tlb.filter fun e => e.meets pasid base len
  let s0 := (s.cancelFetches fun n line => n == pasid && line * 64 < base + len && base < line * 64 + 64).cancelReads fun r =>
    match r.who with
    | .ctx p c => c < 6 && pageLine (leaving p) key (r.addr / 128)
    | .lane p _ => pageLine (leaving p) key (r.addr / 128)
    | _ => false
  let s1 := { s0 with
    plazas := s0.plazas.map fun (x : Nat × Plaza) => (x.1, x.2.cancelFills key pasid base len)
    invals := s0.invals ++ [Invalidation.mk pasid base len entry] }
  s1.shootDown pasid base len
/-- ATS_INVALIDATION (R113): a host's request for PASID n, l bytes from v. -/
def execAtsInvalidation (n v l : Nat) (s : State) : Out := .next (s.invalidate n v l none)
/-- Lane stores that a PASID's placements have issued perform: the accesses that an old mapping translated (R113). -/
def State.performPasid (s : State) (pasid : Nat) : State :=
  s.plazas.foldl (fun t x =>
    if x.2.res != .free && x.2.place.pasid == pasid then x.2.place.lanes.foldl (fun u y => u.performAll x.1 y.1) t else t) s
/-- The address space in which a requester's accesses to another module were translated. -/
def State.pasidOf (s : State) (x : Requester) : Option Nat :=
  match x with
  | .ctx p c => some (s.ctxPasid p c)
  | .fetch p c => some (s.ctxPasid p c)
  | .lane p _ => some (s.place p).pasid
  | .cmd p _ => some (s.place p).pasid
  | _ => none
/-- A plaza's VAMOs have been issued and have not ended (R113). -/
def Plaza.amoHeld (q : Plaza) : Bool := q.place.lanes.any fun y => y.2.busy && !y.2.stopped && y.2.vamo.held.isSome
/-- Accesses that a PASID's old mappings may have translated are on their way to other modules, or a VAMO still has lanes to perform (R113). -/
def State.oldAccesses (s : State) (pasid : Nat) : Bool :=
  (s.plazas.any fun x => x.2.place.pasid == pasid && x.2.amoHeld) || s.remotes.any fun r => r.kind != 0 && r.kind != 6 && r.reply.isNone && !r.failed && s.pasidOf r.who == some pasid
/-- INVALIDATION_COMPLETE (R113, R360, R362): the i-th invalidation's old accesses have performed and no translation of its range is left; an
entry of the invalidation queue is marked, where its memory can be reached (R366), and reported by vector 3. -/
def execInvalidationComplete (i : Nat) (s : State) : Out :=
  match s.invals[i]? with
  | none => .next s
  | some v =>
    if s.oldAccesses v.pasid then .next s else
    let s1 := (s.performPasid v.pasid).shootDown v.pasid v.base v.len
    let s2 := { s1 with invals := s1.invals.eraseIdx i }
    match v.entry with
    | none => .next s2
    | some a =>
      let s3 := if s2.absent (a + 0x18) || s2.pathDown (a + 0x18) then s2
        else { s2 with mem := memWrite s2.mem (a + 0x18) 8 1 }.advanceLine none (a + 0x18)
      .next ((s3.modHost fun h => { h with invqhead := (h.invqhead + 1) % 2 ^ 64 }).signal 3)

/-- PAGE_PUBLISH (R117): every L1 writes back its dirty lines of the page and merges its update lines; the move of its RRT entries
follows when all is acknowledged. -/
def execPagePublish (o n l : Nat) (s : State) : Out :=
  let s1 := s.plazas.foldl (fun t x =>
    (x.2.l1d ++ x.2.l1v).foldl (fun u y => if onPage o l y.key then (u.writeBack x.1 y.key).mergeOwn x.1 y.key else u) t) s
  .next { s1 with moves := (s1.moves.filter fun m => m.old != o || m.moved) ++ [PageMove.mk o n l true false] }
/-- The runtime marks a page that it is going to move (R117, R334). -/
def State.markPage (s : State) (old new len : Nat) : State :=
  if s.moves.any fun m => m.old == old then s else { s with moves := s.moves ++ [PageMove.mk old new len false false] }
/-- A page publish's writebacks are all acknowledged (R117, R341). -/
def State.pageClean (s : State) (m : PageMove) : Bool :=
  m.published && s.plazas.all fun x => !s.noticesFrom x.1 &&
    (x.2.l1d ++ x.2.l1v).all fun y => !onPage m.old m.len y.key || (y.dirty == 0 && !y.upd)
/-- The RRT entries of the page's lines move to their new home slices, each as it was (R117). -/
def State.moveEntries (s : State) (m : PageMove) : State :=
  let on_ (e : RrtEntry) : Bool := m.old ≤ e.word * 8 && e.word * 8 < m.old + m.len
  let moved := s.rrt.flatMap fun t => t.2.filter on_
  let s1 := { s with rrt := s.rrt.map fun (t : Nat × List RrtEntry) => (t.1, t.2.filter fun e => !on_ e) }
  moved.foldl (fun t e =>
    let key := m.new + (e.word * 8 - m.old)
    let sl := t.homeSlice key
    { t with rrt := tabSet t.rrt sl ({ e with word := key / 8 } :: tabGet [] t.rrt sl) }) s1
/-- The RRT entries of pages whose writebacks are acknowledged move (R117). -/
def State.finishMoves (s : State) : State :=
  let done := s.moves.filter fun m => !m.moved && s.pageClean m
  done.foldl (fun t m => t.moveEntries m) { s with moves := s.moves.map fun m => if m.moved || s.pageClean m then { m with moved := true } else m }
/-- The runtime has remapped a page (R117, R334): the move ends once its entries have moved, and lines still held of the old frame belong to
the new one. -/
def State.remapped (s : State) (old : Nat) : State :=
  match s.moves.find? fun m => m.old == old && m.moved with
  | none => s
  | some m =>
    let line (x : Line) : Line := if onPage m.old m.len x.key then { x with key := m.new / 128 + (x.key - m.old / 128) } else x
    let plaza (q : Plaza) : Plaza := q.modBoth fun ls => ls.map line
    { s with moves := s.moves.erase m, plazas := s.plazas.map fun (x : Nat × Plaza) => (x.1, plaza x.2) }
/-- A page's copy has failed, and it stays at its old frame, mapped and valid (R366): RRT entries that have moved move back. -/
def State.pageKept (s : State) (old : Nat) : State :=
  match s.moves.find? fun m => m.old == old with
  | none => s
  | some m =>
    let t : State := { s with moves := s.moves.erase m }
    if m.moved then t.moveEntries { m with old := m.new, new := m.old } else t

/-- UNCORRECTABLE_ERROR (R315): unit n mod 2^50 is poisoned, at its home where n ÷ 2^50 is 0, else in the L1D (odd) or the lanes' L1 (even)
of plaza (n ÷ 2^50 − 1) ÷ 2. -/
def execUncorrectableError (n : Nat) (s : State) : Out :=
  let unit := n % 2 ^ 50
  let place := n / 2 ^ 50
  if place = 0 then .next (if s.poison.contains unit then s else { s with poison := unit :: s.poison })
  else
    let bad (x : Line) : Line := if x.key == unit / 2 && !x.upd then { x with poison := x.poison ||| BitVec.ofNat 2 (2 ^ (unit % 2)) } else x
    .next (s.modPlaza ((place - 1) / 2) fun q => q.modL1 (place % 2 == 0) fun ls => ls.map bad)

end Sys2Proof.Machine
end

