-- ==== Sys2Proof/Machine/Units.lean ====
section
/-! DEFINITION. Data that the engines move: formats and rows of the typed buffers (R119-R121, R264-R271), their conversion (R132,
R194-R202), and global memory as the engines reach it (R108, R112-R114, R332, R346-R348). -/
namespace Sys2Proof.Machine

/-- The outcome of a step of an engine command: done, a wait, or its failure (R133). -/
inductive Eng (α : Type) where
  | ok (a : α) (s : State)
  | wait (s : State)
  | fail (f : Failure) (s : State)
/-- Goes on with what a step of a command gave. -/
def Eng.andThen {α β : Type} (r : Eng α) (f : α → State → Eng β) : Eng β :=
  match r with
  | .ok a s => f a s
  | .wait s => .wait s
  | .fail x s => .fail x s
/-- A failure that no handle describes. -/
def plainFail (c : Cause) : Failure := ⟨c, 0, false, 0, 0, 0, 0⟩
/-- Steps one after another over a list, with their results. -/
def engAll {α β : Type} (f : α → State → Eng β) : List α → State → Eng (List β)
  | [], s => .ok [] s
  | x :: t, s => (f x s).andThen fun b u => (engAll f t u).andThen fun bs v => .ok (b :: bs) v

/-- Bits of one element as a shape counts elements (R120, R191): a VQ2 weight takes two. -/
def fmtBits (f : Nat) : Nat :=
  if f < 13 then typeWidth f else if f = 0x12 then 4 else if f = 0x13 then 2 else 8
/-- MX or VQ2: 32 elements share a scale (R198, R200). -/
def scaled (f : Nat) : Bool := 0x10 ≤ f && f ≤ 0x13
/-- k values in a 16-bit column of a bank in this format (R268). -/
def kprOf (f : Nat) : Nat :=
  if f = 1 || f = 2 then 1 else if f = 5 || f = 0x12 then 4 else if f = 0x13 then 8 else 2
/-- k values that the matrix engine takes per cycle from one row (R268). -/
def kpcOf (f : Nat) : Nat := if f = 1 || f = 2 then 1 else if f = 5 || f = 0x12 then 4 else 2
/-- Rows of a run that shares 128 scale bytes with axis 1 (R270): q ÷ 2. -/
def runRows (f : Nat) : Nat := 32 / kprOf f
/-- Little-endian bytes of n elements of w bits (R191, R269). -/
def packBits (w : Nat) (cs : List Nat) : List Byte :=
  leBytes ((cs.length * w + 7) / 8) (cs.foldr (fun c acc => c % 2 ^ w + 2 ^ w * acc) 0)
/-- The n elements of w bits in bytes. -/
def unpackBits (w n : Nat) (bs : List Byte) : List Nat := let v := leNat bs; (List.range n).map fun i => v / 2 ^ (w * i) % 2 ^ w

/-- A typed buffer (R264): false AB, true WB. -/
abbrev IsWb := Bool
/-- A bank-format register (R267). -/
def State.bankReg (s : State) (p : Nat) (wb : IsWb) (bank : Nat) : W32 :=
  tabGet 0 (if wb then (s.place p).wbf else (s.place p).abf) bank
/-- The register of a row's bank (R264). -/
def State.rowReg (s : State) (p : Nat) (wb : IsWb) (x : Nat) : Nat := (s.bankReg p wb (x % 16384 / 2048)).toNat
/-- A row of AB or WB as bytes. -/
def State.bankRow (s : State) (p : Nat) (wb : IsWb) (x : Nat) : List Byte :=
  leBytes 256 (tabGet 0 (if wb then (s.plaza p).wb else (s.plaza p).ab) (x % 16384)).toNat
/-- Bytes of a row of AB or WB replaced from byte i, as one action (R266). -/
def State.putBank (s : State) (p : Nat) (wb : IsWb) (x i : Nat) (bs : List Byte) : State :=
  let put (t : Tab BufRow) : Tab BufRow := tabPut 0 t (x % 16384) (vecPut (tabGet 0 t (x % 16384)) i bs.length (leNat bs))
  s.modPlaza p fun q => if wb then { q with wb := put q.wb } else { q with ab := put q.ab }
/-- The scale row of payload row x and the byte of column 0, slot 0 in it (R270). -/
def scalePlace (reg x : Nat) : Nat × Nat :=
  let f := reg % 256
  let q := 64 / kprOf f
  let j := x % 2048
  (x % 16384 / 2048 * 2048 + (bits reg 23 12 + j / q) % 2048,
   if bit reg 8 then 128 * (j / (q / 2) % 2) else j % q * (4 * kprOf f))
/-- What a row of a scaled bank has been used for since its bank was last given a format (R270): 1 payload, 2 scales, 3 both. -/
def State.rowUse (s : State) (p : Nat) (wb : IsWb) (x : Nat) : Nat := tabGet 0 (s.place p).rowUse (x % 16384 + 16384 * b2n wb)
/-- A row of a scaled bank is used. -/
def State.useRow (s : State) (p : Nat) (wb : IsWb) (x use : Nat) : State :=
  let old := s.rowUse p wb x
  if !scaled (s.rowReg p wb x % 256) || old = use then s
  else s.modPlace p fun q => { q with rowUse := tabPut 0 q.rowUse (x % 16384 + 16384 * b2n wb) (if old = 0 then use else 3) }
/-- A row of AB or WB read as payload or as scales: undefined bytes where the row has been used for the other too, since software must keep the
scale region clear of payload rows (R7, R270). -/
def State.readRowAs (s : State) (p : Nat) (wb : IsWb) (x use : Nat) : List Byte × State :=
  let old := s.rowUse p wb x
  if old = 0 || old = use || !scaled (s.rowReg p wb x % 256) then (s.bankRow p wb x, s)
  else let (v, t) := s.freeBytes 256; (leBytes 256 v, t)
/-- Scale bytes of row x written. -/
def State.putScales (s : State) (p : Nat) (wb : IsWb) (x : Nat) (bs : List Byte) : State :=
  let (r, b) := scalePlace (s.rowReg p wb x) x
  (s.useRow p wb r 2).putBank p wb r b bs

/-- A codebook: shape t as a 64-bit word (R200). -/
abbrev Book := Nat → BitVec 64
/-- Codebook slot n of the placement (R289). -/
def State.book (s : State) (p n : Nat) : Book := fun t => tabGet 0 (s.place p).cbk (256 * n + t)
/-- The table used where VQ2 data lies in byte spaces only and no register names a slot: undefined (log 6). -/
def State.freeBook (s : State) : Book × State :=
  (fun t => Config.freeWord (s.fresh + 2 * t + 1) ++ Config.freeWord (s.fresh + 2 * t), { s with fresh := s.fresh + 512 })

/-- The place of a scale among the scale bytes of a row unit (axis 0) or a run (axis 1) (R270, R271): column c, slot t. -/
def scaleByte (axis : Bool) (c t : Nat) : Nat := if axis then c else 4 * t + c / 32
/-- The values of one 256-byte payload row with its scales (R269-R271), element by element. -/
def rowValues (f : Nat) (axis : Bool) (book : Book) (row scales : List Byte) : List Val :=
  let kpr := kprOf f
  let cols := unpackBits 16 128 row
  let sc (c t : Nat) : Nat := (scales.getD (scaleByte axis c t) 0).toNat
  (List.range (128 * kpr)).map fun e =>
    let c := e / kpr
    let t := e % kpr
    if f = 0x13 then decodeVq (sc c t) (cols.getD c 0) (book (cols.getD c 0 % 256)) t
    else decodeMx f (sc c t) (cols.getD c 0 / 2 ^ (16 / kpr * t) % 2 ^ (16 / kpr))
/-- One group quantised into an MX or VQ2 format (R199, R202): the scale, and the codes or indices. -/
def quant (f : Nat) (book : Book) (xs : List Val) : Nat × List Nat := if f = 0x13 then quantVq book xs else quantMx f xs
/-- Payload rows and scale bytes of whole rows quantised in a bank's layout (R269-R271): one row with axis 0, a run of rows with axis 1. -/
def quantRows (f : Nat) (axis : Bool) (book : Book) (rows : List (List Val)) : List (List Byte) × List Byte :=
  let kpr := kprOf f
  let at_ (r e : Nat) : Val := (rows.getD r []).getD e (.fin false 0 0)
  if axis then
    let groups := (List.range 128).map fun c =>
      quant f book (rows.zip (List.range rows.length) |>.flatMap fun r => (List.range kpr).map fun t => at_ r.2 (c * kpr + t))
    let col (r c : Nat) : Nat :=
      let cs := (groups.getD c (0, [])).2
      if f = 0x13 then cs.getD r 0 else (List.range kpr).foldr (fun t acc => cs.getD (r * kpr + t) 0 + 2 ^ (16 / kpr) * acc) 0
    (rows.zip (List.range rows.length) |>.map fun r => packBits 16 ((List.range 128).map fun c => col r.2 c),
     groups.map fun g => BitVec.ofNat 8 g.1)
  else
    let one (r : Nat) : List Byte × List Byte :=
      let group (t b : Nat) : Nat × List Nat := quant f book ((List.range 32).map fun i => at_ r ((32 * b + i) * kpr + t))
      let gs := (List.range (4 * kpr)).map fun g => group (g / 4) (g % 4)
      let code (c t : Nat) : Nat := ((gs.getD (4 * t + c / 32) (0, [])).2).getD (c % 32) 0
      (packBits 16 ((List.range 128).map fun c => (List.range kpr).foldr (fun t acc => code c t + 2 ^ (16 / kpr) * acc) 0),
       gs.map fun g => BitVec.ofNat 8 g.1)
    let all := (List.range rows.length).map one
    (all.map fun x => x.1, all.flatMap fun x => x.2)
/-- The values of a unit whose elements are followed by one scale byte per 32 (R132). -/
def unitValues (f n : Nat) (book : Book) (bs : List Byte) : List Val :=
  let data := bs.take (n * fmtBits f / 8)
  let sc (e : Nat) : Nat := (bs.getD (n * fmtBits f / 8 + e / 32) 0).toNat
  if f = 0x13 then
    let ix := unpackBits 16 (n / 8) data
    (List.range n).map fun e => decodeVq (sc e) (ix.getD (e / 8) 0) (book (ix.getD (e / 8) 0 % 256)) (e % 8)
  else
    let cs := unpackBits (fmtBits f) n data
    (List.range n).map fun e => decodeMx f (sc e) (cs.getD e 0)
/-- A unit quantised group by group, its scale bytes after its elements (R132). -/
def quantUnit (f n : Nat) (book : Book) (xs : List Val) : List Byte :=
  let gs := (List.range (n / 32)).map fun g => quant f book ((xs.drop (32 * g)).take 32)
  packBits (if f = 0x13 then 16 else fmtBits f) (gs.flatMap fun g => g.2) ++ gs.map fun g => BitVec.ofNat 8 g.1

/-- What a unit holds between its read and its write: zeros, bytes that no conversion touches, codes of an element type, or exact
values. -/
inductive Item where
  | zero
  | bytes (bs : List Byte)
  | codes (f : Nat) (cs : List Nat)
  | vals (xs : List Val)
/-- The exact values of a unit of n elements. -/
def Item.values (n : Nat) : Item → List Val
  | .zero => List.replicate n (.fin false 0 0)
  | .bytes bs => bs.map fun b => elemVal 8 b.toNat
  | .codes f cs => cs.map (elemVal f)
  | .vals xs => xs
/-- A unit's elements as codes of an element type (R132, R194-R197). -/
def Item.toType (n t rnd : Nat) (sat : Bool) : Item → List Nat
  | .zero => List.replicate n (convVal t rnd sat false (.fin false 0 0))
  | .bytes bs => bs.map fun b => b.toNat
  | .codes f cs => if f = t then cs else cs.map (convElem f t rnd sat)
  | .vals xs => xs.map (convVal t rnd sat false)

/-- The failure of an access at a handle's offset. -/
def handleFail (c : Cause) (h : Handle) (hn o paddr : Nat) : Failure :=
  let va := h.va + BitVec.ofNat 64 o
  ⟨c, if c = .hunmapped then 0 else va, true, hn, h.read, va, if c = .memerr then paddr else 0⟩
/-- The outcome of a memory access as the outcome of a command's step. -/
def Res.toEng {α : Type} (r : Res α) (h : Handle) (hn o : Nat) : Eng α :=
  match r with
  | .ok a s => .ok a s
  | .wait s => .wait s
  | .fail c _ pa s => .fail (handleFail c h hn o pa) s
/-- Who the engines of plaza p are to the homes: 7 the copy engine, 8 the link engine. -/
def engineReq (p k : Nat) : Requester := .ctx p k
/-- A command of the plaza's queues, by its number. -/
def Place.cmd (q : Place) (id : Nat) : Option Cmd := (q.copyQ ++ q.linkQ).find? fun c => c.id == id
/-- A row of a scaled bank read for unit i of a command, or n scale bytes of it: each is an action of its own, so the command goes on with the row
at its next (R266). -/
def State.takeRow (s : State) (p id i : Nat) (wb : IsWb) (x : Nat) (scales : Option Nat) : Eng (List Byte) :=
  let code := 2 * (x % 16384 + 16384 * b2n wb) + b2n scales.isSome
  match ((s.place p).cmd id).bind fun c => c.got.find? fun y => y.1 == i && y.2.1 == code with
  | some y => .ok y.2.2 s
  | none =>
    let (r, b) := scalePlace (s.rowReg p wb x) x
    let (bs, t) : List Byte × State := match scales with
      | none => s.readRowAs p wb x 1
      | some n => let (row, u) := s.readRowAs p wb r 2; ((row.drop b).take n, u)
    .wait (t.modPlace p fun q =>
      let put (c : Cmd) : Cmd := if c.id = id then { c with got := (i, code, bs) :: c.got } else c
      { q with copyQ := q.copyQ.map put })
/-- A command changed. -/
def State.modCmd (s : State) (p id : Nat) (f : Cmd → Cmd) : State :=
  let g (c : Cmd) : Cmd := if c.id = id then f c else c
  s.modPlace p fun q => { q with copyQ := q.copyQ.map g, linkQ := q.linkQ.map g }
/-- Pins on a view block change (R346). -/
def State.modPins (s : State) (view block : Nat) (f : Nat → Nat) : State :=
  { s with views := s.views.map fun v =>
      if v.id = view then
        let b := tabGet ViewBlock.off v.blocks block
        { v with blocks := tabSet v.blocks block { b with pins := f b.pins } }
      else v }
/-- The pins of a command are released. -/
def State.unpin (s : State) (p : Nat) (c : Cmd) : State :=
  (c.pinned.foldl (fun t x => t.modPins x.1 x.2 fun n => n - 1) s).modCmd p c.id fun y => { y with pinned := [], delays := [] }
/-- One piece that a command is to read at the home: the plaza's dirty bytes and update line go first (R332); a view block is checked and
pinned at the command's first read of it (R346, R348). The bytes kept for it at a VIEWDROP, if any (R298). -/
def State.enginePin (s : State) (p id : Nat) (h : Handle) (hn o : Nat) (x : Nat × Nat) : Eng (Option Nat) :=
  let s1 := (s.writeBack p (x.1 / 128)).mergeOwn p (x.1 / 128)
  let c := (s1.place p).cmd id
  match s1.viewRead p x.1 x.2 ((c.map fun y => y.delays).getD []) ((c.map fun y => y.pinned).getD []) with
    | (.plain, t) => .ok none t
    | (.kept v, t) => .ok (some v) t
    | (.served stale new, t) =>
      .ok none ((new.foldl (fun u y => u.modPins y.1 y.2 fun n => n + 1) (t.setStale p stale)).modCmd p id fun y => { y with pinned := new ++ y.pinned })
    | (.wait ds, t) => .wait (t.modCmd p id fun y => { y with delays := ds })
    | (.fault cause pa, t) => .fail (handleFail cause h hn o pa) t
/-- The pieces of a read of a command, each at its offset: every one is checked and pinned, then the lines of other modules are gathered in one
wait for all, then the bytes are taken (R332, R346, R353). -/
def State.enginePieces (s : State) (p k id : Nat) (h : Handle) (hn : Nat) (at_ : Nat → Nat) (ps : List (Nat × Nat)) : Eng (List (List Byte)) :=
  (engAll (fun x u => u.enginePin p id h hn (at_ x.1) x) ps s).andThen fun kept t =>
    ((t.gather (engineReq p k) (farLines ps)).toEng h hn ((ps.head?.map fun x => at_ x.1).getD 0)).andThen fun far u =>
      engAll (fun y v => match y.2 with
        | some b => .ok (leBytes y.1.2 b) v
        | none => ((v.gathered (engineReq p k) far (y.1.1 / 128)).andThen fun r w => takeBytes r.1 r.2 y.1.1 y.1.2 w).toEng h hn (at_ y.1.1)
            |>.andThen fun b w => .ok (leBytes y.1.2 b) w) (ps.zip kept) u
/-- n bytes written by command `id` at their homes (R332), or sent toward another module (R353). -/
def State.engineWrite (s : State) (p k id key : Nat) (bs : List Byte) : Res Unit :=
  (linePieces key bs.length).foldl (fun r x => r.andThen fun _ t =>
    let data := (bs.drop (x.1 - key)).take x.2
    let t1 := t.flushLine p (x.1 / 128)
    if keyRemote x.1 then t1.tellRemote (engineReq p k) (.cmd p id) 8 x.1 x.2 0 data
    else if t1.pathDown x.1 then .fail .linkdown 0 0 t1
    else .ok () (t1.writeWord p x.1 x.2 (leNat data))) (.ok () s)

/-- Handle hn as a command has read it: once and for all when it started or when the handle became VALID for it, until a request of R113 reaches
it: from then on as it stands at each access (R108, R110, R112, R113). -/
def State.cmdHandle (s : State) (p id hn : Nat) : Handle :=
  (((s.place p).cmd id).bind fun c => (c.held.find? fun x => x.1 == hn).map fun x => x.2).getD (s.handle p hn)
/-- A command reads a handle: VALID or EMPTY, it keeps that value. -/
def Cmd.readHandle (c : Cmd) (hn : Nat) (h : Handle) : Cmd :=
  if c.reread || c.held.any (fun x => x.1 == hn) || !(h.st == .valid || h.st == .empty) then c else { c with held := (hn, h) :: c.held }
/-- A command's use of handle hn (R108, R112, R114): the key of n bytes at offset o; a STALE handle is refreshed first; the stalled
user of a halted placement is discarded. -/
def State.engineUse (s : State) (p id hn o n : Nat) (need : Need) : Eng Nat :=
  let h := s.cmdHandle p id hn
  let stall : Eng Nat := if (s.place p).halted then .fail (plainFail .hunmapped) s else .wait s
  match s.useHandle h o n need with
  | .ok key _ =>
    if s.remoteOff p (s.place p).pasid key then .fail (plainFail .illegal) s else .ok key (s.modCmd p id fun c => c.readHandle hn h)
  | .stall => stall
  | .stale => .wait (if h.user.isSome then s else s.modHandle p hn fun y => { y with user := some (none, id, o) })
  | .fault c => .fail (handleFail c h hn o 0) s
/-- Bytes of the handle's page from offset o on (R108). -/
def Handle.room (h : Handle) (o : Nat) : Nat :=
  let size := codeSize (bits h.value.toNat 61 60)
  size - h.va.toNat % size - o
/-- How many of n bytes at offset o a read through the handle takes from memory: with zfill the elements of `el` bytes that R108 rejects, for their
place or for want of permission, read zero (R119, R132). -/
def Handle.keep (h : Handle) (o n el : Nat) (zfill : Bool) : Nat :=
  if !zfill || h.st != .valid then n
  else if !bit h.value.toNat 59 then 0
  else if h.room o < n then h.room o / el * el else n
/-- n bytes of global memory read through a handle (R119, R132). -/
def State.readGlobal (s : State) (p k id hn o n el : Nat) (zfill : Bool) : Eng (List Byte) :=
  let h := s.cmdHandle p id hn
  let keep := h.keep o n el zfill
  if keep = 0 then .ok (List.replicate n 0) s
  else (s.engineUse p id hn o keep .read).andThen fun key t =>
    (t.enginePieces p k id h hn (fun a => o + (a - key)) (linePieces key keep)).andThen fun bss u =>
      .ok (bss.flatten ++ List.replicate (n - keep) 0) u
/-- n bytes of global memory written through a handle (R132). -/
def State.writeGlobal (s : State) (p k id hn o : Nat) (bs : List Byte) : Eng Unit :=
  let h := s.cmdHandle p id hn
  (s.engineUse p id hn o bs.length .write).andThen fun key t => (t.engineWrite p k id key bs).toEng h hn o

/-- n bytes of the scratchpad from byte o. -/
def State.scratchBytes (s : State) (p o n : Nat) : List Byte :=
  (List.range n).map fun i => BitVec.ofNat 8 (vecBytes (tabGet 0 (s.plaza p).scratch ((o + i) / 128)) ((o + i) % 128) 1)
/-- Bytes of the scratchpad written from byte o. -/
def State.putScratch (s : State) (p o : Nat) (bs : List Byte) : State :=
  s.modPlaza p fun q => { q with scratch := (linePieces o bs.length).foldl (fun t x =>
    tabPut 0 t (x.1 / 128) (vecPut (tabGet 0 t (x.1 / 128)) (x.1 % 128) x.2 (leNat ((bs.drop (x.1 - o)).take x.2)))) q.scratch }
/-- The scratchpad as a source (R132, R119). -/
def State.readScratch (s : State) (p o n el : Nat) (zfill : Bool) : Eng (List Byte) :=
  let size := (s.place p).scrsize
  if o + n ≤ size then .ok (s.scratchBytes p o n) s
  else if !zfill then .fail (plainFail .hbounds) s
  else let keep := (size - o) / el * el; .ok (s.scratchBytes p o keep ++ List.replicate (n - keep) 0) s

end Sys2Proof.Machine
end

