-- ==== Sys2Proof/Machine/Copy.lean ====
section
/-! DEFINITION. The copy engine: what a command moves and how (R119-R121, R131-R135, R271, R273, R332). -/
namespace Sys2Proof.Machine

/-- One side of a shape (R119). -/
structure Side where
  space  : Nat
  handle : Nat
  ring   : Nat
  fmt    : Nat
  rnd    : Nat
  sat    : Bool
  zfill  : Bool
  off    : Nat
  deriving DecidableEq, Repr
/-- A side from its word and offset (R119). -/
def sideOf (w off : Nat) : Side :=
  ⟨bits w 3 0, bits w 8 4, bits w 12 9, bits w 20 13, bits w 22 21, bit w 23, bit w 24, off⟩
/-- The source and destination of a shape (R119, R121). -/
def srcOf (v : BitVec 512) : Side := sideOf (shapeWord v 0) (shapeOff v 1)
def dstOf (v : BitVec 512) : Side := sideOf (shapeWord v 3) (shapeOff v 4)
/-- DIMn and the strides of a shape (R121). -/
def dim (v : BitVec 512) (n : Nat) : Nat := shapeWord v (6 + n)
def sstr (v : BitVec 512) (n : Nat) : Int := sgn 32 (shapeWord v (9 + n))
def dstr (v : BitVec 512) (n : Nat) : Int := sgn 32 (shapeWord v (12 + n))

/-- The formats of R120. -/
def fmtOk (f : Nat) : Bool := f < 13 || (0x10 ≤ f && f ≤ 0x13) || f == 0xFF
/-- A format whose feature is enabled for the job (R253). -/
def State.fmtOn (s : State) (p f : Nat) : Bool :=
  if f = 0x13 then s.hasFeature p 1 else if scaled f then s.hasFeature p 3 else true
/-- A side's word is well formed (R119, R120, R130). -/
def State.sideOk (s : State) (p w : Nat) : Bool :=
  let x := sideOf w 0
  x.space ≤ 6 && (x.space == 0 || x.handle == 0) && (x.ring < 8 || x.ring == 15) && fmtOk x.fmt && s.fmtOn p x.fmt
    && (!(x.space == 2 || x.space == 3) || x.fmt == 0)
/-- The issue checks of a shape (R119-R121, R130, R135, R253). -/
def State.shapeOk (s : State) (p : Nat) (puth : Bool) (v : BitVec 512) : Bool :=
  let w0 := shapeWord v 0
  let w3 := shapeWord v 3
  let a := srcOf v
  let b := dstOf v
  let bank (x : Side) : Bool := x.space == 2 || x.space == 3
  bits w0 31 25 == 0 && bits w0 23 21 == 0 && bits w3 31 24 == 0 && bits (shapeWord v 2) 31 16 == 0 && bits (shapeWord v 5) 31 16 == 0
    && s.sideOk p w0 && s.sideOk p w3 && a.ring == 15 && a.space < 5 && b.space != 4
    && (b.ring == 15 || bank b) && ((a.fmt == 0xFF) == (b.fmt == 0xFF) || bank a || bank b) && !(a.space == 4 && scaled a.fmt)
    && (b.space < 5 || s.hasFeature p 5) && (!puth || 5 ≤ b.space)

/-- A ring descriptor's fields (R272). -/
def ringStages (d : Word) : Nat := bits d.toNat 31 28
def ringRows (d : Word) : Nat := bits d.toNat 27 16
def ringWb (d : Word) : Bool := bit d.toNat 14
def ringBase (d : Word) : Nat := bits d.toNat 13 0
/-- Ring n of the placement. -/
def State.ring (s : State) (p n : Nat) : Ring := tabGet Ring.off (s.place p).rings n
/-- The state of a stage. -/
def Ring.stage (r : Ring) (n : Nat) : StageState := r.stages.getD n .empty
/-- A stage's state set. -/
def State.setStage (s : State) (p n st : Nat) (x : StageState) : State :=
  s.modPlace p fun q => { q with rings := tabSet q.rings n { tabGet Ring.off q.rings n with stages := listMod (s.ring p n).stages st fun _ => x } }

/-- How the data of a side lie at an offset: the format in force, the scale axis, and the bank, if it is one (R120, R268). -/
structure Layout where
  fmt  : Nat
  axis : Bool
  bank : Option IsWb
  book : Nat
  deriving DecidableEq, Repr
/-- The layout of a side at an offset. -/
def State.layoutAt (s : State) (p : Nat) (x : Side) (off : Nat) : Layout :=
  if x.space = 2 || x.space = 3 then
    let r := s.rowReg p (x.space == 3) off
    ⟨if r % 256 = 0 then 0xFF else r % 256, bit r 8, some (x.space == 3), bits r 31 24⟩
  else ⟨x.fmt, false, none, 0⟩
/-- A unit of n elements breaks the rules of its side (R132, R271): a row unit is one whole row; a byte unit starts at a multiple of
its element or group, in whole bytes and groups; a byte side in MX or VQ2 beside a bank holds whole rows. -/
def unitBad (x : Side) (y : Layout) (off n : Nat) (bankSide : Bool) : Bool :=
  let w := fmtBits y.fmt
  if y.bank.isSome then n != (if y.fmt = 0xFF then 256 else 128 * kprOf y.fmt)
  else if x.space = 4 then n != 1024 / w
  else if x.space = 6 then n != 2048 / w
  else if scaled y.fmt then
    off % (32 * w / 8) != 0 || (if bankSide then n != 128 * kprOf y.fmt else n % 32 != 0)
  else n * w % 8 != 0 || off % Nat.max 1 (w / 8) != 0

/-- The number of units of a copy (R131, R134). -/
def Cmd.units (c : Cmd) : Nat :=
  if dim c.shape 0 = 0 then 0 else dim c.shape 1 * dim c.shape 2 * dim c.shape 3
/-- The major opcodes of the queue's commands (R26). -/
def majCpy : Nat := 0x64
def majCpyg : Nat := 0x65
def majPuth : Nat := 0x66
def majBfset : Nat := 0x6C
def majCbld : Nat := 0x6D
/-- The plaza that spaces 5 and 6 name (R121). -/
def Cmd.target (c : Cmd) : Nat := shapeWord c.shape 5 % 2 ^ 16
/-- Source and destination offsets of unit i (R131, R134, R135): none where an index names no row. -/
def State.unitAt (s : State) (p : Nat) (c : Cmd) (i : Nat) : Eng (Option Nat × Nat) :=
  let v := c.shape
  let i1 : Int := (i % dim v 1 : Nat)
  let i2 : Int := (i / dim v 1 % dim v 2 : Nat)
  let i3 : Int := (i / dim v 1 / dim v 2 : Nat)
  let b := dstOf v
  let opb : Int := if c.major = majPuth then 0 else c.opb.toNat
  let d : Int := b.off + opb + i1 * dstr v 1 + (if c.major = majCpyg then 0 else i2 * dstr v 2 + i3 * dstr v 3)
  let dst := if 5 ≤ b.space then wrapInt 32 d else wrapInt 64 d
  if c.major = majCpyg then
    (s.readScratch p (c.opa.toNat + 4 * i) 4 4 false).andThen fun bs t =>
      let x := leNat bs
      .ok (if x = 2 ^ 32 - 1 then none else some (wrapInt 64 ((srcOf v).off + (x : Int) * sstr v 1)), dst) t
  else .ok (some (wrapInt 64 ((srcOf v).off + c.opa.toNat + i1 * sstr v 1 + i2 * sstr v 2 + i3 * sstr v 3)), dst) s
/-- The row that a destination offset names: within the command's stage, if it fills one (R132, R273). -/
def State.destAt (s : State) (p : Nat) (c : Cmd) (d : Nat) : Option Nat :=
  match c.stage with
  | none => some d
  | some (r, st) =>
    let x := (s.ring p r).desc
    if d < ringRows x then some (ringBase x + st * ringRows x + d) else none

/-- Bytes of a byte-space source (R132). -/
def State.readBytes (s : State) (p k id : Nat) (x : Side) (off n el : Nat) : Eng (List Byte) :=
  if x.space = 1 then s.readScratch p off n el x.zfill else s.readGlobal p k id x.handle off n el x.zfill
/-- The job has a placement on a plaza of this module (R133). -/
def State.hasJob (s : State) (r job : Nat) : Bool := s.hasPlace r && (s.place r).job == job
/-- Bytes written to the scratchpad or AB of a plaza of this module, whole or not at all (R132, R318). A row of space 6 has 256 bytes, and R132 no
place for scales: those of an MX or VQ2 copy into it are dropped (DESIGN CHOICE, log 27). -/
def State.putRemote (s : State) (r job space off : Nat) (bs : List Byte) : Option State :=
  if !s.hasJob r job then none
  else if space = 6 then some (s.putBank r false off 0 (bs.take 256))
  else if off + bs.length ≤ (s.place r).scrsize then some (s.putScratch r off bs) else none
/-- Bytes that one flit carries (R352). -/
def flitMax : Nat := 224
/-- The flits of a unit's bytes after the first, at most 224 bytes in each (R352); the address says which flit of the unit each is. -/
def State.sendRest (s : State) (p id key r op : Nat) (bs : List Byte) : State :=
  ((List.range (Nat.min ((bs.length + flitMax - 1) / flitMax) 8192)).drop 1).foldl (fun t j =>
    let part := (bs.drop (flitMax * j)).take flitMax
    let f := mkFlit 8 ((keyModule key).getD 0) 0 (key % 2 ^ 45 + 2 ^ 32 * j) bs.length op part
    (t.request (.cmd p id) 0x88 (key + 2 ^ 32 * j) bs.length part { f with ddie := dieOf r }).2) s
/-- Bytes written by a unit to spaces 5 and 6 (R131-R133): here, or by a copy-data flit to another module. -/
def State.writeRemote (s : State) (p k : Nat) (c : Cmd) (space off : Nat) (bs : List Byte) : Eng Unit :=
  let m := c.target / 256
  let r := c.target % 256
  if m = s.dev.modNum then
    if !s.hasJob r c.job then .fail (plainFail .hunmapped) s
    else match s.putRemote r c.job space off bs with
      | some t => .ok () t
      | none => .fail (plainFail .hbounds) s
  else if !s.hasFeature p 7 then .fail (plainFail .illegal) s
  else
    let key := (m + 1) * 2 ^ 45 + off
    let op := space + 8 * r + 2 ^ 16 * c.job
    match s.tellRemote (engineReq p k) (.cmd p c.id) 0x88 key bs.length op (bs.take flitMax) with
    | .ok _ t => .ok () (t.sendRest p c.id key r op bs)
    | .wait t => .wait t
    | .fail cause _ _ t => .fail (plainFail cause) t
/-- A row of a bank that a unit of command `id` is to write: each is an action of its own (R266). -/
def State.toWrite (s : State) (p id : Nat) (w : RowWrite) : State := s.modCmd p id fun c => { c with todo := c.todo ++ [w] }
/-- The next of those rows is written. -/
def State.writeNext (s : State) (p id : Nat) : State :=
  match ((s.place p).cmd id).bind fun c => c.todo.head? with
  | none => s
  | some w =>
    let t := if w.scale then s.putScales p w.wb w.row w.bytes else (s.useRow p w.wb w.row 1).putBank p w.wb w.row 0 w.bytes
    t.modCmd p id fun c => { c with todo := c.todo.drop 1 }
/-- A unit's bytes written at a destination (R132). -/
def State.writeUnit (s : State) (p k : Nat) (c : Cmd) (x : Side) (y : Layout) (off : Nat) (bs : List Byte) : Eng Unit :=
  match y.bank with
  | some wb => .ok () (s.toWrite p c.id ⟨wb, off, false, bs⟩)
  | none =>
    if x.space = 0 then s.writeGlobal p k c.id x.handle off bs
    else if x.space = 1 then
      (if off + bs.length ≤ (s.place p).scrsize then .ok () (s.putScratch p off bs) else .fail (plainFail .hbounds) s)
    else s.writeRemote p k c x.space off bs

/-- A payload row of a bank, or of a byte side in bank rows, with the scale bytes that serve it (R270, R271). -/
abbrev RowUnit := List Byte × List Byte
/-- Source rows with their scales, from a bank or a byte side in row units (R134, R271). -/
def State.readRows (s : State) (p k i : Nat) (c : Cmd) (x : Side) (y : Layout) (axis : Bool) (offs : List (Option Nat)) : Eng (List RowUnit) :=
  let kpr := kprOf y.fmt
  let zeros : RowUnit := (List.replicate 256 0, List.replicate (if axis then 128 else 4 * kpr) 0)
  match y.bank with
  | some wb => engAll (fun o t => match o with
      | none => .ok zeros t
      | some r => (t.takeRow p c.id i wb r none).andThen fun row u =>
        (u.takeRow p c.id i wb r (some (if axis then 128 else 4 * kpr))).andThen fun sc v => .ok (row, sc) v) offs s
  | none =>
    let one (o : Option Nat) (t : State) : Eng RowUnit :=
      match o with
      | none => .ok zeros t
      | some a => (t.readBytes p k c.id x a (if axis then 256 else 256 + 4 * kpr) 1).andThen fun bs u => .ok (bs.take 256, bs.drop 256) u
    (engAll one offs s).andThen fun rows t =>
      if !axis then .ok rows t
      else match (offs.filterMap id).getLast? with
        | none => .ok (rows.map fun r => (r.1, zeros.2)) t
        | some a => (t.readBytes p k c.id x (a + 256) 128 1).andThen fun sc u => .ok (rows.map fun r => (r.1, sc)) u
/-- Rows and their scales written to a bank, or to a byte side in row units (R271). -/
def State.writeRows (s : State) (p k : Nat) (c : Cmd) (x : Side) (y : Layout) (axis : Bool) (offs : List Nat) (rows : List RowUnit) : Eng Unit :=
  let scales := (rows.head?.map fun r => r.2).getD []
  match y.bank with
  | some wb =>
    let t := (offs.zip rows).foldl (fun u r =>
      let v := u.toWrite p c.id ⟨wb, r.1, false, r.2.1⟩
      if axis then v else v.toWrite p c.id ⟨wb, r.1, true, r.2.2⟩) s
    .ok () (match offs with
      | o :: _ => if axis then t.toWrite p c.id ⟨wb, o, true, scales⟩ else t
      | [] => t)
  | none =>
    let one (r : Nat × RowUnit) (t : State) : Eng Unit :=
      t.writeUnit p k c x y r.1 (if axis then r.2.1 else r.2.1 ++ r.2.2)
    (engAll one (offs.zip rows) s).andThen fun _ t =>
      match offs.getLast? with
      | some o => if axis then t.writeUnit p k c x y (o + 256) scales else .ok () t
      | none => .ok () t
/-- Units read as items (R132): a bank row by the format of its own bank. -/
def State.readItem (s : State) (p k i : Nat) (c : Cmd) (x : Side) (n : Nat) (book : Book) (o : Option Nat) : Eng Item :=
  match o with
  | none => .ok .zero s
  | some a =>
    let y := s.layoutAt p x a
    let code (bs : List Byte) : Item := if y.fmt = 0xFF then .bytes bs else .codes y.fmt (unpackBits (fmtBits y.fmt) n bs)
    match y.bank with
    | some wb =>
      if scaled y.fmt then
        (s.takeRow p c.id i wb a none).andThen fun row t =>
        (t.takeRow p c.id i wb a (some (if y.axis then 128 else 4 * kprOf y.fmt))).andThen fun sc u =>
          .ok (.vals (rowValues y.fmt y.axis (u.book p y.book) row sc)) u
      else .ok (code (s.bankRow p wb a)) s
    | none =>
      if x.space = 4 then .ok (code (leBytes 128 (tabGet 0 (s.plaza p).cb (a % 16384)).toNat)) s
      else
        let len := n * fmtBits y.fmt / 8
        if scaled y.fmt then (s.readBytes p k c.id x a (len + n / 32) 1).andThen fun bs t => .ok (.vals (unitValues y.fmt n book bs)) t
        else (s.readBytes p k c.id x a len (Nat.max 1 (fmtBits y.fmt / 8))).andThen fun bs t => .ok (code bs) t
/-- An item's bytes in a format (R132, R194-R202). -/
def itemBytes (y : Layout) (x : Side) (n : Nat) (book : Book) (i : Item) : List Byte :=
  if y.fmt = 0xFF then (match i with
    | .bytes bs => bs
    | _ => List.replicate n 0)
  else if scaled y.fmt then quantUnit y.fmt n book (i.values n)
  else packBits (fmtBits y.fmt) (i.toType n y.fmt x.rnd x.sat)

/-- A batch's rows are consecutive from a multiple of the run length (R271). -/
def runOk (q : Nat) (rows : List Nat) : Bool :=
  match rows with
  | [] => false
  | r :: _ => r % 2048 % q == 0 && rows.length == q && rows == (List.range q).map fun i => r + i
/-- The units from i on that must move together (R271), read and written (R131-R134); how many they are. -/
def State.moveBatch (s : State) (p k : Nat) (c : Cmd) (i : Nat) : Eng Nat :=
  let a := srcOf c.shape
  let b := dstOf c.shape
  let n := dim c.shape 0
  let misaligned (t : State) : Eng Nat := .fail (plainFail .misaligned) t
  (s.unitAt p c i).andThen fun u0 s0 =>
    match s0.destAt p c u0.2 with
    | none => .fail (plainFail .hbounds) s0
    | some d0 =>
      let fs := s0.layoutAt p a (u0.1.getD 0)
      let fd := s0.layoutAt p b d0
      let paxS := fs.bank.isNone && a.space < 2 && scaled fs.fmt && fd.bank.isSome
      let paxD := fd.bank.isNone && (b.space < 2 || b.space == 5) && scaled fd.fmt && fs.bank.isSome
      let rowsD := scaled fd.fmt && (fd.bank.isSome || paxD)
      let axisS := if paxS then fd.axis else fs.axis
      let axisD := if paxD then fs.axis else fd.axis
      let len := Nat.max (if paxS && axisS then runRows fs.fmt else 1) (if rowsD && axisD then runRows fd.fmt else 1)
      if (u0.1.isSome || fs.bank.isNone) && (fs.fmt == 0xFF) != (fd.fmt == 0xFF) then .fail (plainFail .illegal) s0
      else
        (engAll (fun j t => t.unitAt p c j) ((List.range len).filterMap fun j => if i + j < c.units then some (i + j) else none) s0).andThen fun us t =>
          let dsts := us.map fun u => t.destAt p c u.2
          if dsts.any (fun d => d.isNone) then .fail (plainFail .hbounds) t
          else
            let ds := dsts.filterMap fun d => d.map fun r => if fd.bank.isSome then r % 16384 else r
            let srcs := us.map fun u => u.1
            let sameBanks := srcs.all fun o => match o with
              | none => true
              | some x => t.layoutAt p a x == fs
            if srcs.any (fun o => match o with
                | none => false
                | some x => ((t.layoutAt p a x).fmt == 0xFF) != (fd.fmt == 0xFF)) then .fail (plainFail .illegal) t
            else if srcs.any (fun o => match o with
                | none => false
                | some x => unitBad a (t.layoutAt p a x) x n paxS) then misaligned t
            else if ds.any (fun d => unitBad b (t.layoutAt p b d) d n paxD) then misaligned t
            else if fd.bank.isSome && rowsD && axisD && !runOk (runRows fd.fmt) ds then misaligned t
            else
              let rowSrc : List Nat := srcs.filterMap fun o => o.map fun r => r % 16384
              let unchanged := fs.fmt == fd.fmt && scaled fd.fmt && sameBanks &&
                (fs.bank.isNone || fd.bank.isNone || fs.axis == fd.axis) &&
                (fs.bank.isNone || !fs.axis || (srcs.all (fun o => o.isSome) && runOk (runRows fs.fmt) rowSrc))
              let bookOf (t : State) : Book × State :=
                if fs.bank.isSome && fs.fmt = 0x13 then (t.book p fs.book, t) else if fd.bank.isSome then (t.book p fd.book, t)
                else if fs.bank.isSome then (t.book p fs.book, t)
                else if fs.fmt = 0x13 || fd.fmt = 0x13 then t.freeBook else (t.book p 0, t)
              if unchanged && rowsD then
                (t.readRows p k i c a fs axisS srcs).andThen fun rows u =>
                  (u.writeRows p k c b fd axisD ds rows).andThen fun _ v => .ok us.length v
              else if unchanged then
                (engAll (fun o v => match o with
                  | none => Eng.ok (List.replicate (n * fmtBits fs.fmt / 8 + n / 32) 0) v
                  | some x => match fs.bank with
                    | some wb => (v.takeRow p c.id i wb x none).andThen fun row w =>
                        (w.takeRow p c.id i wb x (some (4 * kprOf fs.fmt))).andThen fun sc z => Eng.ok (row ++ sc) z
                    | none => v.readBytes p k c.id a x (n * fmtBits fs.fmt / 8 + n / 32) 1) srcs t).andThen fun bss u =>
                    (engAll (fun r v => v.writeUnit p k c b fd r.1 r.2) (ds.zip bss) u).andThen fun _ v => .ok us.length v
              else
                let (book, t1) := bookOf t
                let items : Eng (List Item) :=
                  if paxS then (t1.readRows p k i c a fs axisS srcs).andThen fun rows u =>
                    .ok ((rows.zip srcs).map fun r => if r.2.isNone then Item.zero else .vals (rowValues fs.fmt axisS book r.1.1 r.1.2)) u
                  else engAll (fun o v => v.readItem p k i c a n book o) srcs t1
                items.andThen fun is u =>
                  let dbook := if fd.bank.isSome then u.book p fd.book else book
                  if rowsD then
                    let (rows, sc) := quantRows fd.fmt axisD dbook (is.map fun x => x.values n)
                    let m := 4 * kprOf fd.fmt
                    let units := rows.zip (List.range rows.length) |>.map fun r => (r.1, if axisD then sc else (sc.drop (m * r.2)).take m)
                    (u.writeRows p k c b fd axisD ds units).andThen fun _ v => .ok us.length v
                  else
                    (engAll (fun r v => v.writeUnit p k c b (v.layoutAt p b r.1) r.1 (itemBytes (v.layoutAt p b r.1) b n dbook r.2)) (ds.zip is) u).andThen
                      fun _ v => .ok us.length v

end Sys2Proof.Machine
end

