-- ==== Sys2Proof/Machine/CopyQueue.lean ====
section
/-! DEFINITION. Engine commands: issue, the copy queue, completion and failure (R93, R123-R135, R273, R288, R289), and PUTH arrivals
(R98, R99, R135). -/
namespace Sys2Proof.Machine

/-- A producer has completed or failed: the waits on it end (R124). -/
def Wait.resolve (id : Nat) (ok : Bool) (w : Wait) : Wait :=
  match w with
  | .on x => if x = id then (if ok then .met else .failed) else w
  | _ => w
def Cmd.resolve (id : Nat) (ok : Bool) (c : Cmd) : Cmd := { c with waits := c.waits.map (Wait.resolve id ok) }
/-- Command c of plaza p ends, done or failed (R123-R126): its token leaves OUTSTANDING, and waits on it end. -/
def State.endCmd (s : State) (p : Nat) (c : Cmd) (ok : Bool) : State :=
  s.modPlace p fun q =>
    let t := tabGet ⟨.free, 0⟩ q.tokens c.tok
    { q with
      tokens := if t.st == .outstanding && t.producer == c.id then tabSet q.tokens c.tok { t with st := if ok then .done else .failed } else q.tokens
      copyQ := (q.copyQ.filter fun x => x.id != c.id).map (Cmd.resolve c.id ok)
      linkQ := (q.linkQ.filter fun x => x.id != c.id).map (Cmd.resolve c.id ok)
      blocks := q.blocks.map fun b => { b with wait := b.wait.resolve c.id ok }
      pendingN := q.pendingN.map fun x => (x.1, x.2.resolve c.id ok) }
/-- A command's waits are over: none still outstanding. -/
def Cmd.ready (c : Cmd) : Bool := c.waits.all fun w => w == .met || w == .failed
/-- A wait of the command failed (R125). -/
def Cmd.cancelled (c : Cmd) : Bool := c.waits.any fun w => w == .failed

/-- The 128-byte record of a command, with the units done before it failed (R128). -/
def Cmd.record (c : Cmd) (opc : Word) : List Byte :=
  leBytes 64 c.shape.toNat ++ leBytes 8 c.opa.toNat ++ leBytes 8 c.opb.toNat ++ leBytes 8 opc.toNat
    ++ leBytes 8 (c.major + 2 ^ 32 * c.e) ++ leBytes 8 c.pc.toNat ++ leBytes 8 (c.index + 2 ^ 32 * c.job)
    ++ leBytes 8 c.ctx ++ leBytes 8 (c.next + c.beyond.length)
/-- The opc of a command's record (R128): 0 for copies; what the other commands hold there is not stated (log 6). -/
def State.opcOf (s : State) (c : Cmd) : Word × State :=
  if c.major = majCpy || c.major = majCpyg || c.major = majPuth then (0, s)
  else s.freeDouble
/-- The snapshot entry that a failing command of the plaza takes: the next in rotation that is free (R93). -/
def Plaza.snapFree (q : Plaza) : Option Nat :=
  ((List.range 16).map fun i => (q.snapNext + i) % 16).find? fun i => !(q.snaps.any fun e => e.1 == i)
/-- An engine command fails on its own (R93, R133): its token, then a snapshot and ENGINE against its context; while no snapshot entry
is free the engine waits. A halted placement's trap is dropped (R97). -/
def State.failCmd (s : State) (p engine : Nat) (c : Cmd) (f : Failure) : Option State :=
  if (s.place p).halted then some (s.endCmd p c false)
  else match (s.plaza p).snapFree with
    | none => none
    | some i =>
      let at_ : Word := (s.plaza p).trapslot + BitVec.ofNat 64 (256 + 128 * i)
      let (opc, s0) := s.opcOf c
      let s1 := (s0.endCmd p c false).writeRuntime p at_ (c.record opc)
      let s2 := s1.modPlaza p fun q => { q with snaps := q.snaps ++ [(i, at_)], snapNext := (i + 1) % 16 }
      let r := s2.record p c.ctx .engine f.faddr
      some (s2.raiseAsync p c.ctx
        { r with async := true, pc2 := c.pc, token := c.tok, hvalid := f.hvalid, hnum := f.hnum, handle := f.handle, va := f.va
                 snap := at_, detail := f.cause.code, engine := engine, paddr := f.paddr })

/-- Commands that one queue and its spill area hold (R129). -/
def queueSize : Nat := 32 + 1024
/-- A new command of the running context (R128), its waits fixed (R124) and its token OUTSTANDING (R123). -/
def State.newCmd (s : State) (p c major : Nat) (shape : BitVec 512) (opa opb : Word) (arg t u v w : Nat) : Cmd × State :=
  let (id, s1) := s.newId
  let x := s.ctx p c
  let q := s.place p
  ({ id := id, major := major, shape := shape, opa := opa, opb := opb, e := x.w1, arg := arg, pc := x.pc, job := q.job
     index := q.index, ctx := c, tok := t, waits := [s.waitFor p u, s.waitFor p v, s.waitFor p w], started := false, next := 0
     beyond := [], stage := none, fail := none, delays := [], pinned := [], sent := false, held := [], todo := [], batch := (0, 0)
     flying := false, got := [], reread := false },
   s1.modPlace p fun y => { y with tokens := tabSet y.tokens t ⟨.outstanding, id⟩ })
/-- A command enters the copy queue (R129), unless its instruction waits for its token or for room; its checks come last (R130). -/
def issueCopy (i : Instr) (major : Nat) (check : Nat → Nat → State → Option State) (shape : Nat → State → BitVec 512) (opa opb arg t u v w : Nat)
    (s : State) : Out :=
  onContext s jobCtx fun p c =>
    if (s.token p t).st = .outstanding || queueSize ≤ (s.place p).copyQ.length then .next (s.block p c i)
    else match check p c s with
      | some bad => .next bad
      | none =>
        let (x, s1) := s.newCmd p c major (shape p s) (s.g p c opa) (if major = majBfset || major = majCbld then 0 else s.g p c opb) arg t u v w
        .next ((s1.modPlace p fun q => { q with copyQ := q.copyQ ++ [x] }).retire p c id)
/-- The check of a copy's shape at its issue (R130): ILLEGAL, or RINGSTATE for a ring not set up or of another buffer. -/
def copyCheck (puth : Bool) (n : Nat) (p c : Nat) (s : State) : Option State :=
  let v := s.shape p n
  let b := dstOf v
  if !s.shapeOk p puth v then some (s.illegal p c)
  else if b.ring != 15 && ((s.ring p b.ring).desc == 0 || ringWb (s.ring p b.ring).desc != (b.space == 3)) then some (s.trap p c .ringstate 0)
  else none
/-- CPY (R130, R131). -/
def execCpy (a b n t u v w : Nat) (s : State) : Out :=
  issueCopy (.cpy a b n t u v w) majCpy (copyCheck false n) (fun p x => x.shape p n) a b 0 t u v w s
/-- CPYG (R130, R134). -/
def execCpyg (a b n t u v w : Nat) (s : State) : Out :=
  issueCopy (.cpyg a b n t u v w) majCpyg (copyCheck false n) (fun p x => x.shape p n) a b 0 t u v w s
/-- PUTH (R130, R135), ILLEGAL where its feature is disabled (R253). -/
def execPuth (a b n t u v w : Nat) (s : State) : Out :=
  issueCopy (.puth a b n t u v w) majPuth (copyCheck true n) (fun p x => x.shape p n) a b 0 t u v w s
/-- A bank-format register value (R267, R268, R288). -/
def bankFmtOk (v : Nat) : Bool :=
  let f := v % 256
  bits v 63 32 == 0 && bits v 11 9 == 0 && bits v 23 12 < 2048 && (f ≤ 5 || f == 7 || f == 8 || (0x10 ≤ f && f ≤ 0x13))
    && bits v 31 24 < 4 && (f == 0x13 || bits v 31 24 == 0) && (f != 0x13 || bit v 8)
/-- BFSET: n is the bank, 8 and up in WB; the value checked at issue (R288). -/
def execBfset (n a t u v w : Nat) (s : State) : Out :=
  issueCopy (.bfset n a t u v w) majBfset
    (fun p c x => let y := (x.g p c a).toNat; if bankFmtOk y && x.fmtOn p (y % 256) then none else some (x.illegal p c))
    (fun _ _ => 0) a a n t u v w s
/-- CBLD: codebook slot n from handle h (R289); ILLEGAL where VQ2 is disabled (R253). -/
def execCbld (n a h t u v w : Nat) (s : State) : Out :=
  issueCopy (.cbld n a h t u v w) majCbld (fun p c x => if x.hasFeature p 1 then none else some (x.illegal p c)) (fun _ _ => 0) a a (n + 4 * h)
    t u v w s

/-- The first command of the copy queue that has not started, with every command before it a copy that has. -/
def nextToStart : List Cmd → Option Cmd
  | [] => none
  | c :: t => if !c.started then some c else if c.major = majBfset || c.major = majCbld then none else nextToStart t
/-- Destination bytes of one unit of a shape, for spaces 5 and 6 (R132, R135). -/
def destBytes (v : BitVec 512) : Nat :=
  let y := (dstOf v).fmt
  if (dstOf v).space = 6 then 256
  else dim v 0 * fmtBits y / 8 + (if scaled y then dim v 0 / 32 else 0)
/-- What fails a command before any unit moves (R134, R135, R289). -/
def Cmd.early (c : Cmd) : Option Failure :=
  if c.major = majCpyg && (dim c.shape 2 != 1 || dim c.shape 3 != 1) then some (plainFail .illegal)
  else if c.major = majCpyg && c.opa.toNat % 4 != 0 then some (plainFail .misaligned)
  else if c.major = majPuth && 65536 < c.units * destBytes c.shape then some (plainFail .hbounds)
  else if c.major = majCbld && c.opa.toNat % 8 != 0 then some (plainFail .misaligned)
  else none
/-- The handles that a copy or CBLD names (R108). -/
def Cmd.names (c : Cmd) : List Nat :=
  if c.major = majCbld then [c.arg / 4]
  else [srcOf c.shape, dstOf c.shape].filterMap fun x => if x.space = 0 then some x.handle else none
/-- A command starts: it reads its handles (R108). -/
def State.startCmd (s : State) (p id : Nat) (st : Option (Nat × Nat)) : State :=
  s.modCmd p id fun c => c.names.foldl (fun x n => x.readHandle n (s.handle p n)) { c with started := true, stage := st, fail := c.early }
/-- A command of a queue has failed while every snapshot entry is held: its engine takes no command (R93). -/
def State.snapFull (s : State) (p : Nat) (q : List Cmd) : Bool := (s.plaza p).snapFree.isNone && q.any fun c => c.fail.isSome
/-- COPY_START: the next command of the queue starts once its waits are met (R129); with a failed wait it is cancelled (R125); a ring
copy takes the stage at pc if it is EMPTY (R273). BFSET and CBLD start at the head of the queue. -/
def execCopyStart (p : Nat) (s : State) : Out :=
  if !s.serves p || s.snapFull p (s.place p).copyQ then .next s
  else match nextToStart (s.place p).copyQ with
    | none => .next s
    | some c =>
      let head := (s.place p).copyQ.head?.map (fun x => x.id) == some c.id
      let begin_ (t : State) (st : Option (Nat × Nat)) : State := t.startCmd p c.id st
      if !c.ready then .next s
      else if c.cancelled then .next (s.endCmd p c false)
      else if c.major = majBfset then .next s
      else if c.major = majCbld then .next (if head then begin_ s none else s)
      else
        let r := (dstOf c.shape).ring
        if r = 15 then .next (begin_ s none)
        else
          let x := s.ring p r
          if x.desc == 0 then .next s
          else if x.stage x.pc != .empty then .next s
          else
            let t := s.modPlace p fun q => { q with rings := tabSet q.rings r { x with
              stages := listMod x.stages x.pc fun _ => .filling, pc := (x.pc + 1) % ringStages x.desc } }
            .next (begin_ t (some (r, x.pc)))
/-- BANK_FORMAT_WRITE: BFSET at the head of the queue executes and completes (R288). -/
def execBankFormatWrite (p : Nat) (s : State) : Out :=
  match (s.place p).copyQ with
  | [] => .next s
  | c :: _ =>
    if c.major != majBfset || !c.ready || c.cancelled || !s.serves p || s.snapFull p (s.place p).copyQ then .next s
    else
      let v : W32 := c.opa.setWidth 32
      .next ((s.modPlace p fun q =>
        let bank : Nat := if 8 ≤ c.arg then c.arg % 8 + 8 else c.arg % 8
        let q1 := { q with rowUse := q.rowUse.filter fun x => x.1 / 2048 != bank }
        if 8 ≤ c.arg then { q1 with wbf := tabPut 0 q.wbf (c.arg % 8) v } else { q1 with abf := tabPut 0 q.abf (c.arg % 8) v }).endCmd p c true)

/-- Units of a command. -/
def Cmd.total (c : Cmd) : Nat := if c.major = majCbld then 256 else c.units
/-- Shape t of CBLD's slot read through its handle (R289). -/
def State.bookUnit (s : State) (p : Nat) (c : Cmd) (t : Nat) : Eng Unit :=
  (s.readGlobal p 7 c.id (c.arg / 4) (c.opa.toNat + 8 * t) 8 8 false).andThen fun bs u =>
    .ok () (u.modPlace p fun q => { q with cbk := tabPut 0 q.cbk (256 * (c.arg % 4) + t) (BitVec.ofNat 64 (leNat bs)) })
/-- Units in any order are possible where no run of rows shares scales (R132): no bank of the plaza scaled along k takes part. -/
def State.anyOrder (s : State) (p : Nat) (c : Cmd) : Bool :=
  let side (x : Side) : Bool := (x.space != 2 && x.space != 3) || (List.range 8).all fun b => !bit (s.bankReg p (x.space == 3) b).toNat 8
  c.major == majCbld || (side (srcOf c.shape) && side (dstOf c.shape))
/-- The units moved after unit i moved n of them. -/
def Cmd.moved (c : Cmd) (i n : Nat) : Cmd :=
  let all := c.beyond ++ (List.range n).map fun j => i + j
  let next := ((List.range (all.length + 1)).find? fun j => !all.contains (c.next + j)).getD 0 + c.next
  { c with next := next, beyond := all.filter fun j => next ≤ j }
/-- Unit i of a command has moved. -/
def Cmd.done (c : Cmd) (i : Nat) : Bool := i < c.next || c.beyond.contains i
/-- A unit of a command that is still to move reads a view block (R336, R346); where its handle is not VALID it may. -/
def State.needsBlock (s : State) (p : Nat) (c : Cmd) (view block i : Nat) : Bool :=
  let a := srcOf c.shape
  let h := if c.major = majCbld then c.arg / 4 else a.handle
  let n := if c.major = majCbld then 8 else dim c.shape 0 * fmtBits a.fmt / 8 + (if scaled a.fmt then dim c.shape 0 / 32 else 0)
  let el := if scaled a.fmt then 1 else Nat.max 1 (fmtBits a.fmt / 8)
  let off : Option Nat := if c.major = majCbld then some (c.opa.toNat + 8 * i) else match s.unitAt p c i with
    | .ok (o, _) _ => o
    | _ => none
  match off with
  | none => false
  | some o =>
    let y := s.cmdHandle p c.id h
    let reads (o n : Nat) : Bool :=
      let keep := y.keep o n el (a.zfill && c.major != majCbld)
      if keep = 0 then false
      else match s.useHandle y o keep .read with
        | .ok key _ => (linePieces key keep).any fun x => (s.viewBlocks x.1 x.2).any fun b => b.1.id == view && b.2.2 == block
        | .fault _ => false
        | _ => true
    -- the scale bytes of a run of rows lie after its last row (R271)
    reads o n || (c.major != majCbld && scaled a.fmt && ((dstOf c.shape).space == 2 || (dstOf c.shape).space == 3) && reads (o + 256) 128)
/-- The pins of a command on blocks that none of its units still reads are released (R346). -/
def State.unpinDone (s : State) (p id : Nat) : State :=
  match (s.place p).cmd id with
  | none => s
  | some c =>
    let spent (x : Nat × Nat) : Bool := (List.range c.total).all fun i => c.done i || !s.needsBlock p c x.1 x.2 i
    let gone := c.pinned.filter spent
    (gone.foldl (fun t x => t.modPins x.1 x.2 fun n => n - 1) s).modCmd p id fun y => { y with pinned := y.pinned.filter fun x => !gone.contains x }
/-- How a command's data at another module has failed, if it has: a lost path, or the detail that the module answered (R133, R355). -/
def State.remoteFailure (s : State) (p id : Nat) : Option Failure :=
  s.remotes.findSome? fun r =>
    if r.who != .cmd p id then none
    else if r.failed then some (plainFail .linkdown)
    else r.reply.map fun bs => plainFail (if leNat bs = 7 then .hbounds else .hunmapped)
/-- A command's writes at other modules that have not yet performed (R126). -/
def State.writesOut (s : State) (p id : Nat) : Bool := s.remotes.any fun r => r.who == .cmd p id
/-- A command's latest units have moved once every row of them is written and every write of them at another module has performed; one that was
refused or lost there fails the command, and they do not count as moved (R133, R266). -/
def State.settleUnits (s : State) (p id : Nat) : State :=
  match (s.place p).cmd id with
  | none => s
  | some c =>
    if !c.flying || !c.todo.isEmpty then s
    else match s.remoteFailure p id with
      | some f => (s.forgetRemotes (.cmd p id)).modCmd p id fun x => { x with fail := some f, flying := false, got := [] }
      | none =>
        if s.writesOut p id then s
        else (s.modCmd p id fun x => { x.moved c.batch.1 c.batch.2 with flying := false, got := [] }).unpinDone p id
/-- The next row of a command's latest units is written (R266). -/
def State.writeRow (s : State) (p id : Nat) : State := (s.writeNext p id).settleUnits p id
/-- Unit i of command c moves, if it may (R129, R131-R134); what it writes to a bank follows row by row. -/
def State.copyUnit (s : State) (p id i : Nat) : State :=
  match (s.place p).cmd id with
  | none => s
  | some c =>
    if !c.started || c.fail.isSome then s
    else if c.flying then s.writeRow p id
    else if c.total ≤ i || c.done i || (i != c.next && !s.anyOrder p c) then s
    else
      let r : Eng Nat := if c.major = majCbld then (s.bookUnit p c i).andThen fun _ t => .ok 1 t else s.moveBatch p 7 c i
      match r with
      | .ok n t => (t.modCmd p id fun x => { x with batch := (i, n), flying := true }).writeRow p id
      | .wait t => t
      | .fail f t => t.modCmd p id fun x => { x with fail := some f, todo := [], got := [] }
/-- The plaza's copy moves its next unit, of the oldest started command that still has one; where that unit is delayed at a view block, the
others that may move in any order (R132). -/
def State.copyNext (s : State) (p : Nat) : State :=
  match (s.place p).copyQ.find? fun c => c.started && c.fail.isNone && c.next < c.total with
  | some c =>
    let t := s.copyUnit p c.id c.next
    if ((t.place p).cmd c.id).any fun x => x.next == c.next && !x.delays.isEmpty && !x.flying then
      (List.range c.total).foldl (fun u i => u.copyUnit p c.id i) t
    else t
  | none => s
/-- CODEBOOK_WRITE: CBLD writes its remaining shapes and completes (R289). -/
def execCodebookWrite (p : Nat) (s : State) : Out :=
  match (s.place p).copyQ with
  | [] => .next s
  | c :: _ =>
    if c.major != majCbld || !c.started then .next s
    else
      let t := (List.range 256).foldl (fun u i => u.copyUnit p c.id i) s
      match (t.place p).cmd c.id with
      | some x => .next (if x.fail.isNone && x.next = 256 then (t.unpin p x).endCmd p x true else t)
      | none => .next t
/-- COPY_COMPLETE: the head of the queue has moved every unit, its writes have performed and are acknowledged, and a PUTH was accepted (R126, R129, R135); its stage is FULL (R273). -/
def execCopyComplete (p : Nat) (s : State) : Out :=
  match (s.place p).copyQ with
  | [] => .next s
  | c :: _ =>
    if !c.started || c.fail.isSome || c.next < c.total || (c.major = majPuth && !c.sent) then .next s
    else
      let t := match c.stage with
        | some (r, st) => s.setStage p r st .full
        | none => s
      .next ((t.unpin p c).endCmd p c true)
/-- COPY_FAILURE: the head of the queue failed (R93, R133); a ring stage it took stays FILLING (R273). -/
def execCopyFailure (p : Nat) (s : State) : Out :=
  match (s.place p).copyQ with
  | [] => .next s
  | c :: _ => match c.fail with
    | none => .next s
    | some f => match ((s.unpin p c).forgetRemotes (.cmd p c.id)).failCmd p 1 c f with
      | some t => .next t
      | none => .next (((s.unpin p c).endCmd p c false).modPlace p fun q => { q with copyQ := c :: q.copyQ })

/-- The arrival that a PUTH whose units have all moved offers (R135). -/
def State.arrivalOf (s : State) (p : Nat) (c : Cmd) : Arrival :=
  let six := (dstOf c.shape).space = 6
  let off := ((dstOf c.shape).off % 2 ^ 32)
  { loc := BitVec.ofNat 64 ((if six then 2 else 1) * 2 ^ 60 + off), len := c.units * destBytes c.shape, sender := s.plazaId p
    handler := c.opb, job := c.job, cmd := c.id, data := [] }
/-- An arrival reaches plaza p (R98, R99): a dormant handler context starts, 3 before 4, or it is queued; none where the queue of 16 is
full or the job is not there. After a WAKE that started a handler it comes in a later cycle; a placement that was halted drops it (log 27). -/
def State.acceptArrival (s : State) (p : Nat) (x : Arrival) : Option State :=
  if !s.hasJob p x.job || (s.plaza p).wakeAt = s.dev.cycle + 1 then none
  else if (s.place p).halted then some s
  else match [3, 4].find? fun c => (s.ctx p c).state == .dormant with
    | some c => some (s.startArrival p c x)
    | none => if (s.place p).arrivals.length < 16 then some (s.modPlace p fun q => { q with arrivals := q.arrivals ++ [x] }) else none
/-- The plaza and command of this module that offer an arrival to plaza p (R135). -/
def State.offerer (s : State) (p : Nat) (x : Arrival) : Option (Nat × Cmd) :=
  s.plazas.findSome? fun y => (y.2.place.copyQ.find? fun c => c.id == x.cmd && c.major == majPuth && c.started && c.fail.isNone && !c.sent
    && c.total ≤ c.next && c.target == s.plazaId p && s.arrivalOf y.1 c == x).map fun c => (y.1, c)
/-- The payload of an arrival from another module, written where it names (R135, R318). -/
def State.putPayload (s : State) (p : Nat) (x : Arrival) : State :=
  if x.data.isEmpty then s
  else ((s.putRemote p x.job (if bits x.loc.toNat 63 60 = 2 then 6 else 5) (bits x.loc.toNat 47 0) x.data).getD s)
/-- PUTH_ARRIVAL: an arrival is accepted, and the PUTH that sent it may complete (R98, R135); one from another module is answered by a
flit (log 13). -/
def execPuthArrival (p : Nat) (x : Arrival) (s : State) : Out :=
  if x.sender / 256 = s.dev.modNum then
    match s.offerer p x with
    | none => .next s
    | some (r, c) => match s.acceptArrival p x with
      | some t => .next (t.modCmd r c.id fun y => { y with sent := true })
      | none => .next (if s.hasJob p x.job then s else s.modCmd r c.id fun y => { y with fail := some (plainFail .hunmapped) })
  else match (s.putPayload p x).acceptArrival p x with
    | some t => .next (t.post { mkFlit 5 (x.sender / 256) x.cmd 0 0 0 [] with ddie := dieOf (x.sender % 256), sdie := dieOf p })
    | none => .next s
/-- The flit of a PUTH toward another module (R353; log 13): the arrival's words as its data. -/
def arrivalFlit (x : Arrival) (r tag : Nat) : List Byte :=
  leBytes 8 x.loc.toNat ++ leBytes 8 x.len ++ leBytes 8 x.sender ++ leBytes 8 x.handler.toNat ++ leBytes 8 x.job ++ leBytes 8 tag ++ leBytes 8 r
/-- A PUTH whose units have moved is offered to its plaza: here at once, on another module by a PUTH payload flit whose answer it waits
for (R135, R353). -/
def State.offerPuth (s : State) (p : Nat) : State :=
  match (s.place p).copyQ with
  | [] => s
  | c :: _ =>
    if c.major != majPuth || !c.started || c.fail.isSome || c.sent || c.next < c.total then s
    else
      let x := s.arrivalOf p c
      let m := c.target / 256
      if m = s.dev.modNum then (match execPuthArrival (c.target % 256) x s with
        | .next t => t
        | _ => s)
      else if !s.hasFeature p 7 then s.modCmd p c.id fun y => { y with fail := some (plainFail .illegal) }
      else
        let key := (m + 1) * 2 ^ 45 + c.id
        match s.askRemote (engineReq p 7) 9 key x.len (c.target % 256) (arrivalFlit x (c.target % 256) (s.fresh + 1)) with
        | .ok _ t => t.modCmd p c.id fun y => { y with sent := true }
        | .wait t => t
        | .fail cause _ _ t => t.modCmd p c.id fun y => { y with fail := some (plainFail cause) }

/-- The arrivals that reach plaza p in this cycle are served before a WAKE (R98). -/
def State.arrivalsFirst (s : State) (p : Nat) : State :=
  s.plazas.foldl (fun t x =>
    if (t.place x.1).copyQ.head?.any fun c => c.target == t.plazaId p then t.offerPuth x.1 else t) s
/-- WAKE: starts a dormant handler (R76), after the arrivals of its cycle (R98): one that would come after it comes in the next. -/
def execWake (d a b : Nat) (s0 : State) : Out :=
  onContext s0 allCtx fun p c =>
    let h := (s0.g p c a).toNat % 8
    let pc := s0.g p c b
    if h != 3 && h != 4 then .next (s0.illegal p c)
    else if pc.toNat % 4 != 0 then .next (s0.trap p c .misaligned pc)
    else
      let s := s0.arrivalsFirst p
      if s.hasPlace p && (s.ctx p h).state == .dormant then
        .next (((s.modCtx p h fun x => x.startAt pc fun y => ((y.setReg 1 (BitVec.ofNat 64 c)).setReg 2 0).setReg 3 0).modPlaza p
          fun q => { q with wakeAt := s.dev.cycle + 1 }).retireReg p c d 0)
      else .next (s.retireReg p c d 1)

end Sys2Proof.Machine
end

