-- ==== Sys2Proof/Machine/Views.lean ====
section
/-! DEFINITION. Views (R294-R301, R335-R351): registration, the view instructions, KG notices, the view engines, and containment
records (R96, R350). -/
namespace Sys2Proof.Machine

/-- Doubleword i of a record read as one number. -/
def dword (v i : Nat) : Nat := v / 2 ^ (64 * i) % 2 ^ 64

/-- What a range of a PASID's address space maps to: its pages (virtual address, home key, size), a page without what it needs, or a page
that is migrating. -/
inductive Span where
  | ok (pages : List (Nat × Nat × Nat))
  | bad
  | migrating
/-- The page of an address under a PASID's tables (R102-R104), or of its code memory and data copies as a job finds them (R257), present and
accepted. -/
def State.pageAt (s : State) (job : Option Nat) (pasid va : Nat) (ok : Trans → Bool) : Span :=
  let w := match s.codeMap job pasid va with
    | some m => Walk.ok (m.trans va)
    | none => (s.walk pasid (BitVec.ofNat 64 va)).1
  match w with
  | .migrating => .migrating
  | .none => .bad
  | .ok t =>
    if !canonical (BitVec.ofNat 64 va) || s.transAbsent t (BitVec.ofNat 64 va) || !ok t then .bad
    else .ok [(va / t.size * t.size, s.homeKey t.mod t.base, t.size)]
/-- The pages of n bytes from va added to those found, page by page. -/
def State.spanFrom (s : State) (job : Option Nat) (pasid : Nat) (ok : Trans → Bool) : Nat → Nat → Nat → List (Nat × Nat × Nat) → Span
  | 0, _, _, acc => .ok acc
  | f + 1, va, n, acc =>
    if n = 0 then .ok acc
    else match acc.find? fun x => x.1 ≤ va && va < x.1 + x.2.2 with
      | some x => let k := Nat.min n (x.1 + x.2.2 - va); s.spanFrom job pasid ok f (va + k) (n - k) acc
      | none => match s.pageAt job pasid va ok with
        | .ok (x :: _) => let k := Nat.min n (x.1 + x.2.2 - va); s.spanFrom job pasid ok f (va + k) (n - k) (x :: acc)
        | .migrating => .migrating
        | _ => .bad
/-- The pages of a list of ranges (virtual address, length). -/
def State.span (s : State) (job : Option Nat) (pasid : Nat) (ok : Trans → Bool) (rs : List (Nat × Nat)) : Span :=
  rs.foldl (fun a r => match a with
    | .ok acc => s.spanFrom job pasid ok (r.2 / 4096 + 2) r.1 r.2 acc
    | o => o) (.ok [])
/-- The state after the table reads of a list of ranges' walks, which recall the update lines of their lines (R331). -/
def State.walked (s : State) (pasid : Nat) (rs : List (Nat × Nat)) : State :=
  rs.foldl (fun t r => if r.2 = 0 then t else (List.range ((r.1 % 4096 + r.2 + 4095) / 4096)).foldl (fun u i =>
    (u.walk pasid (BitVec.ofNat 64 (r.1 + 4096 * i))).2) t) s
/-- The pieces, one per line, of n bytes at a virtual address of a page list: key and length. -/
def keyPieces (pages : List (Nat × Nat × Nat)) (va n : Nat) : List (Nat × Nat) :=
  (linePieces va n).filterMap fun x => (pageKey pages x.1).map fun k => (k, x.2)
/-- The unit of the device that asks other modules for what a view needs: view engine e (R343), or its registration. -/
def viewReq (e : Nat) : Requester := .fetch (Config.plazas + e) 0
/-- The bytes of a range at their homes, with the first poisoned unit among them (R312, R315, R331); a failure where a home cannot be
reached. -/
def State.homeBytes (s : State) (who : Requester) (ps : List (Nat × Nat)) : Res (List Byte × Option Nat) :=
  if ps.any fun x => !keyRemote x.1 && s.pathDown x.1 then .fail .linkdown 0 0 s
  else (s.gather who (farLines ps)).andThen fun far t0 =>
    let (r, t) := ps.foldl (fun (acc : (List Byte × Option Nat) × State) x =>
      let t := acc.2.recall (x.1 / 128)
      let (row, bad) := match far.find? fun y => y.1 == x.1 / 128 with
        | some y => rowReply y.2
        | none => (t.homeRow (x.1 / 128), t.homePoison (x.1 / 128))
      let unit := if bad.getLsbD 0 && x.1 % 128 < 64 then x.1 / 128 * 128 else x.1 / 128 * 128 + 64
      let first := if acc.1.2.isNone && touchesPoison bad (x.1 % 128) x.2 then some unit else acc.1.2
      ((acc.1.1 ++ leBytes x.2 (vecBytes row (x.1 % 128) x.2), first), t)) (([], none), t0)
    .ok r t
/-- Bytes written at their homes by a unit of the device: none where some home cannot be reached (R312, R353). -/
def State.putHome (s : State) (who : Option Nat) (ps : List (Nat × Nat)) (bs : List Byte) : Option State :=
  (ps.foldl (fun acc x => (acc.1.bind fun t =>
      t.writeLine who (x.1 / 128) (byteMask (x.1 % 128) x.2) (vecPut (0 : Row) (x.1 % 128) x.2 (leNat (acc.2.take x.2))) 0, acc.2.drop x.2))
    (some s, bs)).1
/-- A plaza's own copies of a range leave its L1s before the device writes it. -/
def State.flushRange (s : State) (p : Nat) (ps : List (Nat × Nat)) : State := ps.foldl (fun t x => t.flushLine p (x.1 / 128)) s

/-- The record fields of VIEWREG (R294, R295). -/
def viewFieldsOk (v m : Nat) (bases : List Nat) : Bool :=
  let w := dword v 3
  let fmt := bits (dword m 2) 7 0
  let rows := bits (dword m 1) 63 32
  let cols := bits (dword m 1) 31 0
  let stride := bits (dword m 2) 63 32
  let t := bits w 7 0
  let layout := bits w 9 8
  let ns := bits w 29 24 + 1
  fmt ≤ 2 && dword m 0 % 128 == 0 && rows != 0 && rows % 128 == 0 && cols != 0 && cols % 128 == 0 && stride % 128 == 0
    && cols * masterElem fmt ≤ stride && bits (dword m 2) 31 8 == 0 && dword m 3 == 0 && rows / 128 * (cols / 128) ≤ 2 ^ 20
    && bits w 63 48 == 0 && bits w 31 30 == 0 && bits w 23 18 == 0 && bits w 15 12 == 0 && !bit w 10 && bits w 47 40 != 0
    && bits w 39 32 != 0 && bits w 17 16 != 3 && layout != 3 && (t == 1 || (0x10 ≤ t && t ≤ 0x13)) && dword v 6 == 0 && dword v 7 == 0
    && (t == 0x13 || dword v 2 == 0) && (t != 0x13 || (layout != 0 && bit w 11)) && (t != 1 || !bit w 11)
    && (ns == 1 || bases.all fun b => b % 256 == 0)
/-- The master that a master record describes, or the one already registered with live views at its mva (R294). -/
def State.masterFor (s : State) (pasid m : Nat) : Master :=
  let new : Master := ⟨pasid, dword m 0, bits (dword m 1) 63 32, bits (dword m 1) 31 0, bits (dword m 2) 63 32, bits (dword m 2) 7 0, [], []⟩
  match s.masters.find? fun x => x.pasid == pasid && x.mva == new.mva with
  | none => new
  | some x =>
    if !(s.viewsOf x).isEmpty || (x.rows == new.rows && x.cols == new.cols && x.stride == new.stride && x.fmt == new.fmt) then x else new
/-- The ranges of a master's elements, row by row (R294). -/
def Master.ranges (m : Master) : List (Nat × Nat) := (List.range m.rows).map fun r => (m.mva + r * m.stride, m.cols * masterElem m.fmt)
/-- The view that a view record describes, before its pages and id are known (R295). -/
def viewOf (job : Option Nat) (pasid rec v mva : Nat) (bases : List Nat) : View :=
  let w := dword v 3
  { id := 0, pasid := pasid, mva := mva, bases := bases, cbva := dword v 2, br := bits w 39 32, bc := bits w 47 40
    policy := bits w 17 16, axis := b2n (bit w 11), layout := bits w 9 8, tfmt := bits w 7 0, fq := BitVec.ofNat 64 (dword v 4)
    status := rec + 0x28, job := job, pages := [], blocks := [] }
/-- The ranges of a view's blocks (R296). -/
def View.ranges (v : View) (m : Master) : List (Nat × Nat) :=
  (List.range m.blocks).map fun b => (v.blockVa m.across b % 2 ^ 64, viewStride v.tfmt)
/-- The pieces of a view's blocks at their homes. -/
def View.pieces (v : View) (m : Master) : List (Nat × Nat) := (v.ranges m).flatMap fun r => keyPieces v.pages r.1 r.2
/-- Two lists of pages or pieces share a byte. -/
def keysMeet (xs ys : List (Nat × Nat)) : Bool := xs.any fun x => ys.any fun y => rangesMeet x.1 x.2 y.1 y.2
/-- Pages as (key, size). -/
def pageKeys (pages : List (Nat × Nat × Nat)) : List (Nat × Nat) := pages.map fun x => x.2
/-- The checks of R297 after the records are read: the status of the first that fails, or the master and the view with their pages; none
while a view or codebook page migrates (R117; a migrating master page fails its check). -/
def State.viewChecks (s : State) (job : Option Nat) (pasid rec v m : Nat) (bases : List Nat) : Option (Sum Nat (Master × View)) :=
  if !viewFieldsOk v m bases then some (.inl 0x31)
  else
    let x := s.masterFor pasid m
    match s.span job pasid (fun t => t.master && t.write) x.ranges with
    | .bad => some (.inl 0x32)
    | .migrating => some (.inl 0x32)
    | .ok mp =>
      let w := viewOf job pasid rec v x.mva bases
      match s.span job pasid (fun t => t.read && !t.master) (w.ranges x) with
      | .bad => some (.inl 0x33)
      | .migrating => none
      | .ok vp =>
        let w1 := { w with pages := vp }
        let mine := w1.pieces x
        let others := s.views.flatMap fun y => match s.masterOf y with
          | some z => y.pieces z
          | none => []
        let masters := (s.masters.filter fun y => !(s.viewsOf y).isEmpty).flatMap fun y => pageKeys y.pages
        let late : Sum Nat (Master × View) :=
          if 8 ≤ (s.viewsOf x).length then .inl 0x35
          else if 4096 ≤ s.views.length then .inl 0x36
          else .inr ({ x with pages := mp }, w1)
        if keysMeet mine (pageKeys mp) || keysMeet mine masters || keysMeet mine others then some (.inl 0x33)
        else if w.tfmt != 0x13 then some late
        else if w.cbva % 8 != 0 then some (.inl 0x34)
        else match s.span job pasid (fun t => t.read) [(w.cbva, 2048)] with
          | .ok _ => some late
          | .bad => some (.inl 0x34)
          | .migrating => none
/-- The ranges whose pages VIEWREG walks, once its records have passed their checks (R297). -/
def State.regRanges (s : State) (pasid rec v m : Nat) (bases : List Nat) : List (Nat × Nat) :=
  if !viewFieldsOk v m bases then []
  else
    let x := s.masterFor pasid m
    let w := viewOf none pasid rec v x.mva bases
    x.ranges ++ w.ranges x ++ (if w.tfmt = 0x13 then [(w.cbva, 2048)] else [])
/-- A page that VIEWREG takes lies on another module, for a job whose feature is disabled (R253). -/
def State.regRemote (s : State) (p pasid : Nat) (m : Master) (v : View) : Bool :=
  let book := if v.tfmt != 0x13 then [] else match s.span v.job pasid (fun t => t.read) [(v.cbva, 2048)] with
    | .ok ps => ps
    | _ => []
  (m.pages ++ v.pages ++ book).any fun x => s.remoteOff p pasid x.2.1
/-- The lowest view id that is free (R297). -/
def State.freeView (s : State) : Nat := ((List.range 4096).find? fun i => !(s.views.any fun v => v.id == i)).getD 0
/-- The status word of a view written (R297, R298). -/
def State.putStatus (s : State) (p pasid va v : Nat) : State := s.writeVa p pasid (BitVec.ofNat 64 va) (leBytes 8 v)
/-- The view registered (R297): its KG from the generations at their homes, every block queued, never derived. -/
def State.addView (s : State) (p : Nat) (m : Master) (v : View) : Nat × State :=
  let id := s.freeView
  let blocks := (List.range m.blocks).map fun b => (b, { ViewBlock.off with kg := tabGet 0 m.gens b })
  let v1 := { v with id := id, blocks := blocks }
  let s1 := { s with
    views := s.views ++ [v1]
    masters := m :: s.masters.filter fun x => !(x.pasid == m.pasid && x.mva == m.mva)
    engines := (List.range m.blocks).foldl (fun e b =>
      let k := s.blockEngine m b
      tabSet e k ((tabGet ViewEngine.off e k).push (m.pasid, m.mva, b))) s.engines }
  (id, s1.putStatus p v.pasid v.status (2 ^ 63 + id))

/-- A view instruction: its feature (R253, R293), then its contexts. -/
def onView (s : State) (f : Nat → Nat → Out) : Out :=
  match s.cur.agent with
  | .control p c => if c = 5 || s.hasFeature p 2 then onContext s [0, 1, 2, 3, 4] f else .next (s.illegal p c)
  | _ => .next s
/-- Values of n bytes read one after another, each 8 bytes after the last (R297). -/
def State.readBases (s : State) (p c : Nat) (va : Word) : Nat → Res (List Nat)
  | 0 => .ok [] s
  | n + 1 => (s.readData p c va 8).andThen fun v t => (t.readBases p c (va + 8) n).andThen fun vs u => .ok (v :: vs) u
/-- VIEWREG (R297): ILLEGAL where the feature of its target format, or of another module's pages it takes, is disabled (R253); the id of the view, or minus the status of the first check that fails. -/
def execViewreg (d a : Nat) (s : State) : Out :=
  onView s fun p c =>
    let va := s.g p c a
    let r : Res (Nat × Nat × List Nat) := (s.readData p c va 64).andThen fun v t =>
      (t.readData p c (BitVec.ofNat 64 (dword v 0)) 32).andThen fun m u =>
        let ns := bits (dword v 3) 29 24 + 1
        let base : Word := BitVec.ofNat 64 (dword v 1)
        if ns = 1 then .ok (v, m, [dword v 1]) u
        else if base.toNat % 8 != 0 then .ok (v, m, [1, 1]) u
        else (u.readBases p c base ns).andThen fun bs w => .ok (v, m, bs) w
    onAccess r p c (.viewreg d a) fun x t0 =>
      let t := t0.walked (t0.ctxPasid p c) (t0.regRanges (t0.ctxPasid p c) va.toNat x.1 x.2.1 x.2.2)
      let fmt := bits (dword x.1 3) 7 0
      if (fmt == 0x13 && !t.hasFeature p 1) || (0x10 ≤ fmt && fmt ≤ 0x12 && !t.hasFeature p 3) then .next (t.illegal p c)
      else match t.viewChecks (t.jobOn p) (t.ctxPasid p c) va.toNat x.1 x.2.1 x.2.2 with
      | none => .next (t.block p c (.viewreg d a))
      | some (.inl st) => .next (t.retireReg p c d (0 - BitVec.ofNat 64 st))
      | some (.inr (m, v)) =>
        if t.regRemote p (t.ctxPasid p c) m v then .next (t.illegal p c)
        else let (id, u) := t.addView p m v; .next (u.retireReg p c d (BitVec.ofNat 64 id))

/-- A live view of the context's PASID. -/
def State.findView (s : State) (p c id : Nat) : Option View := s.views.find? fun v => v.id == id && v.pasid == s.ctxPasid p c
/-- A derivation of the view is in flight (R298). -/
def State.deriving_ (s : State) (v : View) : Bool :=
  s.engines.any fun e => match e.2.work with
    | some w => w.pasid == v.pasid && w.mva == v.mva && w.views.contains v.id
    | none => false
/-- A reader that waits at a view that is dropped completes with the block as it stands (R298): its pieces and bytes are kept for it. -/
def State.keepBlock (s : State) (v : View) (ds : List Delay) : List Delay :=
  ds.map fun d =>
    if d.view != v.id then d
    else match s.masterOf v with
      | none => d
      | some m =>
        let ps := keyPieces v.pages (v.blockVa m.across d.block) (viewStride v.tfmt)
        { d with
          view := 4096, pieces := ps, kept := s.mem.filter fun x => ps.any fun y => y.1 ≤ x.1 && x.1 < y.1 + y.2
          bad := s.poison.filter fun u => ps.any fun y => u * 64 < y.1 + y.2 && y.1 < u * 64 + 64 }
/-- The placement's readers at a view that is dropped (R298). -/
def Place.dropView (q : Place) (id : Nat) (keep : List Delay → List Delay) : Place :=
  let cmd (c : Cmd) : Cmd := { c with delays := keep c.delays, pinned := c.pinned.filter fun x => x.1 != id }
  { q with
    ctx := q.ctx.map fun x => (x.1, { x.2 with delays := keep x.2.delays })
    lanes := q.lanes.map fun x => (x.1, { x.2 with delays := keep x.2.delays })
    copyQ := q.copyQ.map cmd, linkQ := q.linkQ.map cmd }
/-- A view is dropped (R298, R343): its id is free, its pages are plain, and queued entries left with no live view go. -/
def State.dropView (s : State) (v : View) : State :=
  let s0 := { s with
    views := s.views.filter fun x => x.id != v.id
    plazas := s.plazas.map fun (x : Nat × Plaza) => (x.1, { x.2 with place := x.2.place.dropView v.id (s.keepBlock v) }) }
  let s1 := (s0.modHost fun h => { h with reading := h.reading.map fun x => { x with delays := s.keepBlock v x.delays } }).endNotices fun n => n.view == v.id
  let live (job : Nat × Nat × Nat) : Bool := s1.views.any fun x => x.pasid == job.1 && x.mva == job.2.1
  { s1 with engines := s1.engines.map fun (e : Nat × ViewEngine) => (e.1, { e.2 with fifo := e.2.fifo.filter live }) }
/-- VIEWDROP (R298); with bits 63-12 of g[ra] set its result is undefined (R7). -/
def execViewdrop (d a : Nat) (s : State) : Out :=
  onView s fun p c =>
    let x := (s.g p c a).toNat
    if 4096 ≤ x then
      .next (s.freeDouble.2.retireReg p c d s.freeDouble.1)
    else match s.findView p c x with
      | none => .next (s.retireReg p c d 1)
      | some v =>
        if s.deriving_ v then .next (s.block p c (.viewdrop d a))
        else .next (((s.dropView v).putStatus p v.pasid v.status v.id).retireReg p c d 0)
/-- VIEWPOL (R299). -/
def execViewpol (d a n : Nat) (s : State) : Out :=
  onView s fun p c =>
    match s.findView p c ((s.g p c a).toNat % 4096) with
    | none => .next (s.retireReg p c d (BitVec.allOnes 64))
    | some v => .next ({ s with views := s.views.map fun (x : View) => if x.id = v.id then { x with policy := n } else x }.retireReg p c d
        (BitVec.ofNat 64 v.policy))
/-- The master with live views that holds a virtual address, with its block (R294). -/
def State.masterAt (s : State) (pasid va : Nat) : Option (Master × Nat) :=
  s.masters.findSome? fun m =>
    if m.pasid == pasid && !(s.viewsOf m).isEmpty then (m.blockAt va).map fun b => (m, b) else none
/-- What VIEWTAG reads (R300): all ones where the address lies outside what sel needs. The tag generation of a block that was never derived
is undefined: a free value (log 6). -/
def State.viewTag (s : State) (pasid va key sel : Nat) : Word × State :=
  if sel = 0 then (match s.masterAt pasid va with
    | some (m, b) => BitVec.ofNat 64 (tabGet 0 m.gens b)
    | none => BitVec.allOnes 64, s)
  else match s.viewBlocks key 1 with
    | [] => (BitVec.allOnes 64, s)
    | (v, _, b) :: _ =>
      let x := tabGet ViewBlock.off v.blocks b
      if sel = 1 then (BitVec.ofNat 64 x.kg, s)
      else
        let (g, t) := if x.never && !x.poison then s.freeWord else (BitVec.ofNat 32 x.tag, s)
        (BitVec.ofNat 64 (g.toNat + 2 ^ 62 * b2n x.never + 2 ^ 63 * b2n x.poison), t)
/-- VIEWTAG (R300). -/
def execViewtag (d a n : Nat) (s : State) : Out :=
  onView s fun p c =>
    let va := s.g p c a
    onAccess (s.checkVa p (s.ctxPasid p c) va 0 .read) p c (.viewtag d a n) fun k t =>
      let (v, u) := t.viewTag (t.ctxPasid p c) va.toNat k.1 n
      .next (u.retireReg p c d v)
/-- Every block of every live view of the master has a tag at or above T(b) or is poisoned (R301). -/
def State.synced (s : State) (m : Master) (ts : List Nat) : Bool :=
  (s.viewsOf m).all fun v => (List.range m.blocks).all fun b =>
    let x := tabGet ViewBlock.off v.blocks b
    x.poison || (!x.never && !genBelow x.tag (ts.getD b 0))
/-- The poisoned view blocks of a master (R301). -/
def State.poisoned (s : State) (m : Master) : Nat :=
  ((s.viewsOf m).flatMap fun v => (List.range m.blocks).filter fun b => (tabGet ViewBlock.off v.blocks b).poison).length
/-- VIEWSYNC (R301): its plaza publishes; the generations are recorded; the derivations are waited for and acquired at K. Where the master's
last view is dropped meanwhile, no block is left to wait for or to count. -/
def execViewsync (d a : Nat) (s : State) : Out :=
  onView s fun p c =>
    let i : Instr := .viewsync d a
    match s.masterAt (s.ctxPasid p c) (s.g p c a).toNat with
    | none => match (s.ctx p c).acq with
      | some q =>
        let t := s.modCtx p c fun x => { x with acq := none }
        if q.failed then .next (t.trapAccess p c .linkdown (s.g p c a) 0)
        else if q.done then .next ((t.selfInvalidate p).retireReg p c d 0)
        else .next (s.block p c i)
      | none =>
        if (s.ctx p c).sync.isEmpty then .next (s.retireReg p c d (BitVec.allOnes 64))
        else .next ((s.selfInvalidate p).retireReg p c d 0)
    | some (m, _) =>
      let wait (ts : List Nat) (t : State) : Out :=
        if t.synced m ts then .next ((t.selfInvalidate p).retireReg p c d (BitVec.ofNat 64 (t.poisoned m)))
        else .next ((t.block p c i).modCtx p c fun x => { x with sync := ts })
      match (s.ctx p c).acq with
      | some q =>
        if q.failed then .next ((s.modCtx p c fun x => { x with acq := none }).trapAccess p c .linkdown (s.g p c a) 0)
        else if q.done then wait ((List.range m.blocks).map fun b => tabGet 0 m.gens b) (s.modCtx p c fun x => { x with acq := none })
        else .next (s.block p c i)
      | none =>
        if (s.ctx p c).sync.isEmpty then
          let seq := (s.plaza p).pubBegun
          .next (((s.block p c i).modCtx p c fun x => { x with acq := some ⟨0, s.plazaId p, seq, true, false, false⟩ }).sendPublish
            (s.plazaId p) seq (.ctx p c))
        else wait (s.ctx p c).sync s

/-- The words of a containment record (R350). -/
def State.containment (s : State) (v : View) (m : Master) (b detail paddr : Nat) : Record :=
  let home := match pageKey m.pages (m.blockVa b) with
    | some k => s.homeSlice k
    | none => 0
  { cause := .viewpoison, async := true, ctx := 0, module := s.dev.modNum, plaza := home, job := 0, index := v.id, seq := b, pc := 0
    faddr := BitVec.ofNat 64 (v.blockVa m.across b), pc2 := 0, avtail := 0, avhead := 0, altail := 0, alhead := 0, lanes := 0
    hvalid := false, hnum := 0, token := 0, handle := 0, va := BitVec.ofNat 64 (m.blockVa b), snap := 0, detail := detail, lgroup := 0
    engine := 4, paddr := if detail = 0x0F then paddr else 0, time := s.dev.ns, cycle := s.dev.cycle }
/-- The unit of the device that appends records to the fault queues of a PASID (R96). -/
def queueReq (pasid : Nat) : Requester := .fetch (Config.plazas + 64) pasid
/-- A record appended to the fault queue at va (R96): dropped and counted in `lost` where it is full, dropped where the queue cannot be
reached; it waits while a page of the queue migrates (R117) and for another module's answer about its header. -/
def State.tryAppend (s0 : State) (pasid : Nat) (va : Word) (bytes : List Byte) : Res Unit :=
  let a := va.toNat
  let s := s0.walked pasid [(a, 64)]
  match s.span none pasid (fun t => t.write) [(a, 64)] with
  | .migrating => .wait s
  | .bad => .ok () s
  | .ok hp =>
    match s.homeBytes (queueReq pasid) (keyPieces hp a 64) with
    | .wait t => .wait t
    | .fail _ _ _ t => .ok () t
    | .ok (head, _) t =>
      let word (o : Nat) : Nat := leNat ((head.drop o).take 8)
      let put (u : State) (o v : Nat) : State := (u.putHome none (keyPieces hp (a + o) 8) (leBytes 8 v)).getD u
      let n := word 0 % 2 ^ 32
      if n ≤ (word 8 + 2 ^ 64 - word 16) % 2 ^ 64 then .ok () (put t 24 (word 24 + 1))
      else
        let e := a + 64 + 128 * (word 8 % n)
        let t := t.walked pasid [(e, 128)]
        match t.span none pasid (fun t => t.write) [(e, 128)] with
        | .migrating => .wait t
        | .bad => .ok () t
        | .ok ep => .ok () ((((put t 8 (word 8 + 1)).putHome none (keyPieces ep e 128) bytes).map fun u => u.signalOwner pasid 2).getD t)
/-- Such a record, after the writes of its address space that wait (R117). -/
def State.appendFault (s : State) (pasid : Nat) (va : Word) (bytes : List Byte) : State :=
  let w : HeldWrite := ⟨0, pasid, va, bytes, true⟩
  let held (t : State) : State := { t with writes := t.writes ++ [w] }
  if s.writes.any fun x => x.pasid == pasid then held s
  else match s.tryAppend pasid va bytes with
    | .ok _ t => t
    | .wait t => held t
    | .fail _ _ _ t => t
/-- The writes that waited for a migrating page are tried again, in order (R117). -/
def State.retryWrites (s : State) : State :=
  s.writes.foldl (fun t w => if w.append then t.appendFault w.pasid w.va w.bytes else t.writeVa w.plaza w.pasid w.va w.bytes) { s with writes := [] }
/-- View block b is poisoned at generation g (R349), its tag's poison bit written where its page is reachable, and a containment record
appended (R350). -/
def State.poisonBlock (s : State) (v : View) (m : Master) (b g detail paddr : Nat) (record : Bool) : State :=
  let tagAt := v.blockVa m.across b + viewStride v.tfmt - 128
  let s1 := (s.modBlock v.id b fun x => { x with poison := true, tag := g }).walked v.pasid [(tagAt, 128)]
  let s2 := match s1.span v.job v.pasid (fun _ => true) [(tagAt, 128)] with
    | .ok ps =>
      let away (x : Nat × Nat) : Bool := keyRemote x.1 && (s1.linkTo ((keyModule x.1).getD 0)).isNone
      if (keyPieces ps tagAt 128).any away then s1
      else (s1.putHome none (keyPieces ps tagAt 128) (leBytes 4 g ++ [1] ++ List.replicate 123 0)).getD s1
    | _ => s1
  if record then s2.appendFault v.pasid v.fq (s2.containment v m b detail paddr).bytes else s2

/-- KG_NOTICE: the i-th notice reaches its view-block home here, which raises KG and acknowledges it (R341), or a home here of another module's
view, whose KG that module keeps (log 25); one on its way to another module waits for that module's acknowledgement. -/
def execKgNotice (i : Nat) (s : State) : Out :=
  match s.notices[i]? with
  | none => .next s
  | some n =>
    if n.tag.isSome then .next s
    else
      let s1 := { s with notices := s.notices.eraseIdx i }
      .next ((if n.view = noView then s1 else s1.raiseKg n).noticesEnd [n])
/-- The lines of a master block (R294). -/
def Master.blockRows (m : Master) (b : Nat) : List (Nat × Nat) :=
  (List.range 128).map fun r => (m.blockVa b + r * m.stride, 128 * masterElem m.fmt)
/-- The elements of a block's bytes. -/
def blockElems (fmt : Nat) (bs : List Byte) : List W32 :=
  (unpackBits (8 * masterElem fmt) (bs.length / masterElem fmt) bs).map (BitVec.ofNat 32)
/-- VIEW_DERIVATION: engine e takes its next block (R343, R344): generation and elements in one snapshot, for every live view. -/
def execViewDerivation (e : Nat) (s : State) : Out :=
  let x := tabGet ViewEngine.off s.engines e
  match x.fifo, x.work with
  | (pasid, mva, b) :: rest, none =>
    (match s.masters.find? fun m => m.pasid == pasid && m.mva == mva with
    | none => .next { s with engines := tabSet s.engines e { x with fifo := rest } }
    | some m =>
      let ids := (s.viewsOf m).map fun v => v.id
      let sorted := (List.range 4096).filter fun i => ids.contains i
      let start (t : State) (es : List W32) (bad : Option (Nat × Nat)) : Out :=
        let y := tabGet ViewEngine.off t.engines e
        let g := match t.masters.find? fun m => m.pasid == pasid && m.mva == mva with
          | some z => tabGet 0 z.gens b
          | none => 0
        .next { t with engines := tabSet t.engines e { fifo := y.fifo.drop 1, work := some ⟨pasid, mva, b, g, es, bad, sorted⟩ } }
      let s := s.walked pasid (m.blockRows b)
      match s.span ((s.viewsOf m).findSome? fun v => v.job) pasid (fun t => t.read) (m.blockRows b) with
      | .migrating => .next s
      | .bad => start s [] (some (0x04, 0))
      | .ok ps =>
        match s.homeBytes (viewReq e) ((m.blockRows b).flatMap fun y => keyPieces ps y.1 y.2) with
        | .wait t => .next t
        | .fail _ _ _ t => start t [] (some (0x14, 0))
        | .ok (bs, some k) t => start t (blockElems m.fmt bs) (some (0x0F, k % 2 ^ 45))
        | .ok (bs, none) t => start t (blockElems m.fmt bs) none)
  | _, _ => .next s

/-- The data part of a view block (R296, R345) from the 16,384 elements of its master block, row by row. -/
def deriveBytes (v : View) (fmt : Nat) (book : Book) (es : List W32) : List Byte :=
  let t := v.tfmt
  let val (r c : Nat) : Val := elemVal fmt (es.getD (128 * r + c) 0).toNat
  let bf (x : Val) : Nat := convVal 1 0 false false x
  if v.layout = 0 then
    if t = 1 then packBits 16 ((List.range 16384).map fun k => bf (val (k / 128) (k % 128)))
    else
      let group (g : Nat) : Nat × List Nat :=
        if v.axis = 0 then quantMx t ((List.range 32).map fun i => val (g / 4) (32 * (g % 4) + i))
        else quantMx t ((List.range 32).map fun i => val (32 * (g / 128) + i) (g % 128))
      let gs := (List.range 512).map group
      let code (r c : Nat) : Nat :=
        if v.axis = 0 then ((gs.getD (4 * r + c / 32) (0, [])).2).getD (c % 32) 0
        else ((gs.getD (r / 32 * 128 + c) (0, [])).2).getD (r % 32) 0
      packBits (fmtBits t) ((List.range 16384).map fun k => code (k / 128) (k % 128)) ++ gs.map fun g => BitVec.ofNat 8 g.1
  else
    let kpr := kprOf t
    let row (j : Nat) : List Val := (List.range (128 * kpr)).map fun e =>
      if v.layout = 1 then val (j * kpr + e % kpr) (e / kpr) else val (e / kpr) (j * kpr + e % kpr)
    if t = 1 then packBits 16 ((List.range 128).flatMap fun j => (row j).map bf)
    else
      let step := if v.axis = 0 then 1 else runRows t
      (List.range (128 / kpr / step)).flatMap fun i =>
        let (rows, scales) := quantRows t (v.axis != 0) book ((List.range step).map fun j => row (i * step + j))
        rows.flatten ++ scales
/-- How reading a codebook fails: the detail of R349, with the physical address of an error. -/
abbrev BookFail := Nat × Nat
/-- The codebook read from a view's cbva at its derivation (R345, R349): it waits while its page migrates or a home on another module answers;
a poisoned byte fails the derivation as R315 has it. -/
def State.viewBook (s : State) (e : Nat) (v : View) : Res (Sum BookFail Book) :=
  let s := s.walked v.pasid (if v.tfmt = 0x13 then [(v.cbva, 2048)] else [])
  if v.tfmt != 0x13 then .ok (.inr fun _ => 0) s
  else match s.span v.job v.pasid (fun t => t.read) [(v.cbva, 2048)] with
    | .migrating => .wait s
    | .bad => .ok (.inl (0x04, 0)) s
    | .ok ps => match s.homeBytes (viewReq e) (keyPieces ps v.cbva 2048) with
      | .ok (bs, none) t => .ok (.inr fun i => BitVec.ofNat 64 (leNat ((bs.drop (8 * i)).take 8))) t
      | .ok (_, some k) t => .ok (.inl (0x0F, k % 2 ^ 45)) t
      | .wait t => .wait t
      | .fail _ _ _ t => .ok (.inl (0x14, 0)) t
/-- The pages of a view block as a derivation that writes it walks them (R344); of a PASID that the runtime has removed, those it was registered
with: a derivation in flight completes (R351). -/
def State.viewSpan (s : State) (v : View) (va : Nat) : Span :=
  if s.hasPasid v.pasid then s.span v.job v.pasid (fun x => x.read) [(va, viewStride v.tfmt)] else .ok v.pages
/-- A read of a view block at its home on another module is on its way or has not been used yet: it holds its pin (R346). -/
def State.readPinned (s : State) (v : View) (m : Master) (b : Nat) : Bool :=
  s.remotes.any fun r => r.kind == 1 && !r.failed && (keyPieces v.pages (v.blockVa m.across b) (viewStride v.tfmt)).any fun x =>
    r.addr / 128 == x.1 / 128
/-- The views of removed PASIDs whose last derivation in flight is over are dropped (R351). -/
def State.dropOrphans (s : State) : State :=
  (s.views.filter fun v => !s.hasPasid v.pasid && !s.deriving_ v).foldl (fun t v => t.dropView v) s
/-- The write of one view of a derivation by engine e (R344-R346, R349); none: it waits. -/
def State.deriveView (s : State) (e : Nat) (w : Derivation) (m : Master) (v : View) : Res Unit :=
  let b := w.block
  let va := v.blockVa m.across b
  let fail (t : State) (detail paddr : Nat) : Res Unit := .ok () (t.poisonBlock v m b w.gen detail paddr true)
  match w.bad with
  | some (detail, paddr) => fail s detail paddr
  | none => (s.viewBook e v).andThen fun r t => match r with
    | .inl (detail, paddr) => fail t detail paddr
    | .inr book =>
      let t := t.walked v.pasid [(va, viewStride v.tfmt)]
      match t.viewSpan v va with
      | .migrating => .wait t
      | .bad => fail t 0x04 0
      | .ok ps =>
        let old := tabGet ViewBlock.off v.blocks b
        let tag := if old.never || genBelow old.tag w.gen then w.gen else old.tag
        (match t.putHome none (keyPieces ps va (viewStride v.tfmt)) (deriveBytes v m.fmt book w.elems ++ leBytes 4 tag ++ List.replicate 124 0) with
        | some u => .ok () (u.modBlock v.id b fun x => { x with tag := tag, never := false, poison := false })
        | none => fail t 0x14 0)
/-- VIEW_BLOCK_WRITE: engine e writes the next view of its derivation, while no pin is held (R344, R346). -/
def execViewBlockWrite (e : Nat) (s : State) : Out :=
  let x := tabGet ViewEngine.off s.engines e
  match x.work with
  | none => .next s
  | some w =>
    let idle (t : State) : State := { t with engines := tabSet t.engines e { (tabGet ViewEngine.off t.engines e) with work := none } }.dropOrphans
    match w.views with
    | [] => .next (idle s)
    | id :: rest =>
      let on_ (t : State) : State := { t with engines := tabSet t.engines e { (tabGet ViewEngine.off t.engines e) with
        work := if rest.isEmpty then none else some { w with views := rest } } }.dropOrphans
      match s.views.find? fun v => v.id == id, s.masters.find? fun m => m.pasid == w.pasid && m.mva == w.mva with
      | some v, some m => 
        if (tabGet ViewBlock.off v.blocks w.block).pins != 0 || s.readPinned v m w.block then .next s
        else match s.deriveView e w m v with
          | .ok _ t => .next (on_ t)
          | .wait t => .next t
          | .fail _ _ _ t => .next t
      | _, _ => .next (on_ s)

end Sys2Proof.Machine
end

