-- ==== Sys2Proof/Machine/Links.lean ====
section
/-! DEFINITION. The Umaem links (R352-R357): flits that arrive from other modules and what they do at this one, link state and the
timebase. What a flit's payload says is the model's own layout (log 13). -/
namespace Sys2Proof.Machine

/-- A link changed. -/
def State.modLink (s : State) (l : Nat) (f : Link → Link) : State :=
  s.modDev fun d => { d with links := tabSet d.links l (f (tabGet Link.off d.links l)) }
/-- A link goes down (R355, R362). -/
def State.linkFails (s : State) (l : Nat) : State :=
  if (tabGet Link.off s.dev.links l).up then (s.modLink l fun x => { x with up := false }).signal 0 else s
/-- The kinds of R353 that are not reserved. -/
def flitKnown (k : Nat) : Bool := 1 ≤ k && k ≤ 0x0E
/-- A flit reaches a link of this module (R353, R354): one whose tag fails is dropped, and 16 in a row take the link down; one of a
reserved kind is dropped and counted; one of the kind wanted has its effect. -/
def receive (kind : Nat) (f : Flit) (s : State) (go : State → Out) : Out :=
  let x := tabGet Link.off s.dev.links f.link
  if !x.up || f.dmod != s.dev.modNum then .next s
  else if !f.ok then
    let t := s.modLink f.link fun y => { y with failed := y.failed + 1 }
    .next (if 16 ≤ x.failed + 1 then t.linkFails f.link else t)
  else
    let t := s.modLink f.link fun y => { y with failed := 0 }
    if !flitKnown f.kind then .next (t.modLink f.link fun y => { y with dropped := Nat.min (y.dropped + 1) (2 ^ 32 - 1) })
    else if f.kind = kind then go t else .next s
/-- An answer leaves for the module and die that asked. -/
def State.answer (s : State) (kind : Nat) (f : Flit) (bs : List Byte) : State :=
  if f.tag = 0 then s else s.post { mkFlit kind f.smod f.tag f.addr bs.length 0 bs with ddie := f.sdie, sdie := f.ddie }
/-- The check that another module's read of a view page of this module's meets (R348), as `viewStatus` numbers it; none: it is delayed, and the
request arrives again (log 25). -/
def State.readStatus (s : State) (key n : Nat) : Option Nat :=
  (s.viewBlocks key n).foldl (fun r x => r.bind fun st => match viewCheck x.1 x.2.2 [] with
    | .served => some st
    | .stale => some (Nat.max st 1)
    | .delayed _ => none
    | .fault c => some (Nat.max st (if c = .viewstale then 2 else 3))) (some 0)
/-- A word read for another module, with its entry (R328); a poisoned one has a further byte (R315). -/
def State.wordFor (s : State) (key n : Nat) : List Byte × State :=
  let t := s.recall (key / 128)
  let bs := foundBytes n (vecBytes (t.homeRow (key / 128)) (key % 128) n, t.entryOf key)
  (if touchesPoison (t.homePoison (key / 128)) (key % 128) n then bs ++ [1] else bs, t)
/-- READ_REQUEST (R348, R353): a line with its poisoned units (op 0), or a word with its entry (op 1), read at the home here; of a view page with
what its check gave. -/
def execReadRequest (f : Flit) (s : State) : Out :=
  receive 1 f s fun t =>
    if t.absent f.addr || t.pathDown f.addr then .next t
    else match t.readStatus f.addr f.size with
      | none => .next t
      | some st =>
        let status : List Byte := if st = 0 then [] else [BitVec.ofNat 8 st]
        if f.op = 1 then
          let (bs, u) := t.wordFor f.addr f.size
          .next (u.answer 2 f (if st = 0 then bs else bs.take (f.size + 7) ++ leBytes 1 0 ++ status))
        else
          let u := t.recall (f.addr / 128)
          .next (u.answer 2 f (leBytes 128 (u.homeRow (f.addr / 128)).toNat ++ [BitVec.ofNat 8 (u.homePoison (f.addr / 128)).toNat] ++ status))
/-- A request that nothing waits for: a writeback, an addition, an engine's data (R313, R353). -/
def Remote.posted (r : Remote) : Bool :=
  r.kind == 8 || r.kind == 0x88 || match r.who with
    | .plaza _ => true
    | .host => r.kind == 3 || r.kind == 0x0D
    | _ => false
/-- An addition or an engine's data of a plaza has performed at another module: it wakes the plaza's WAITMs at scope P (R61). -/
def State.wakeFor (s : State) (r : Remote) : State :=
  match r.who with
  | .plaza p => if r.kind = 4 then s.wakeLine p (r.addr / 128) else s
  | .cmd p _ => if r.kind = 8 then s.wakeLine p (r.addr / 128) else s
  | _ => s
/-- The plaza for whose write the notices of an advance count (R341). -/
def requesterPlaza (x : Requester) : Option Nat :=
  match x with
  | .ctx p _ => some p
  | .lane p _ => some p
  | .plaza p => some p
  | .cmd p _ => some p
  | _ => none
/-- A request has written at its home: every one that carries data but a failed CAS (R66, R340). -/
def Remote.wrote (r : Remote) (bs : List Byte) : Bool :=
  !r.data.isEmpty && (r.kind == 3 || r.kind == 8
    || (r.kind == 4 && !(r.data.length == 2 * r.size && leNat (bs.take r.size) != leNat (r.data.drop r.size))))
/-- A request has performed on another module (R61, R340): each line it wrote advances the master blocks that own bytes of it, as the line's
home forwards it. -/
def State.performed (s : State) (bs : List Byte) (r : Remote) : State :=
  let t := s.wakeFor r
  if !r.wrote bs then t
  else (linePieces r.addr r.size).foldl (fun u x => u.advanceLine (requesterPlaza r.who) x.1) t
/-- The request of this module with a tag learns its answer (R353); one that nothing waits for is over when it has been performed. A notice
has raised the KG that this module keeps of its view's block (R341). -/
def State.replied (s : State) (f : Flit) : State :=
  let mine (r : Remote) : Bool := r.tag == f.tag && r.reply.isNone
  let told := (s.remotes.filter fun r => !(mine r && r.posted && f.data.isEmpty)).map fun r => if mine r then { r with reply := some f.data } else r
  let t := (s.remotes.filter mine).foldl (fun u r => u.performed f.data r) { s with remotes := told }
  ((t.notices.filter fun n => n.tag == some f.tag).foldl State.raiseKg t).endNotices fun n => n.tag == some f.tag
/-- READ_DATA (R353). -/
def execReadData (f : Flit) (s : State) : Out := receive 2 f s fun t => .next (t.replied f)
/-- ATOMIC_RESPONSE (R353). -/
def execAtomicResponse (f : Flit) (s : State) : Out := receive 5 f s fun t => .next (t.replied f)
/-- The entry of a release made by a plaza of another module (R326, R327). -/
def State.rrtFor (s : State) (key id sc seq : Nat) : State :=
  let sl := s.homeSlice key
  let es := (tabGet [] s.rrt sl).filter fun e => e.word != key / 8
  { s with rrt := tabSet s.rrt sl (⟨key / 8, id, sc, seq, 1 + listMax (es.map fun e => e.age), false⟩ :: es) }
/-- n bytes written at a home here by a host or another module (R310, R340). -/
def State.writeAt (s : State) (key n v : Nat) : State :=
  s.writeHere none (key / 128) (byteMask (key % 128) n) (vecPut (0 : Row) (key % 128) n v) 0
/-- Bytes written at homes here, line by line. -/
def State.writeBytes (s : State) (key : Nat) (bs : List Byte) : State :=
  (linePieces key bs.length).foldl (fun t x => t.writeAt x.1 x.2 (leNat ((bs.drop (x.1 - key)).take x.2))) s
/-- The answer to a write or atomic of another module: at once, or when every KG notice that it has caused since `old` is acknowledged
(R341). -/
def State.answerWrite (s old : State) (f : Flit) (bs : List Byte) : State :=
  let (before, new) := s.notices.splitAt old.notices.length
  if new.isEmpty || f.tag = 0 then s.answer 5 f bs
  else { s with notices := before ++ new.map fun n => { n with asker := some (f.smod + 256 * f.sdie, f.tag, bs) } }
/-- REMOTE_WRITE (R353): a byte-masked line with its poison (R315), or a release store with its entry (R326); a release that must wait for
an entry arrives again. Each is answered once it has performed (log 13). -/
def execRemoteWrite (f : Flit) (s : State) : Out :=
  receive 3 f s fun t =>
    if t.absent f.addr || t.pathDown f.addr then .next t
    else if f.op % 2 = 1 then
      let id := f.op / 8 % 2 ^ 16
      match t.rrtRoom (.remote (f.smod + 256 * f.sdie) f.tag) f.addr with
      | .ok _ u => .next (((u.writeAt f.addr f.size (leNat f.data)).rrtFor f.addr id (f.op / 2 % 4) (f.op / 2 ^ 19)).answerWrite t f [])
      | .wait u => .next u
      | .fail _ _ _ u => .next u
    else
      .next ((t.writeHere none (f.addr / 128) (BitVec.ofNat 128 (leNat (f.data.take 16))) (BitVec.ofNat 1024 (leNat ((f.data.drop 16).take 128)))
        (BitVec.ofNat 2 (leNat ((f.data.drop 144).take 1)))).answerWrite t f [])
/-- REMOTE_ATOMIC (R64, R66, R313, R353): performed at the home here, with its entry for a release order; answered unless it returns
nothing. -/
def execRemoteAtomic (f : Flit) (s : State) : Out :=
  receive 4 f s fun t =>
    let op := f.op % 16
    let order := f.op / 16 % 4
    let b := leNat (f.data.take f.size)
    if t.absent f.addr || t.pathDown f.addr then .next t
    else
      let (bs, u) := t.wordFor f.addr f.size
      if bs.length = f.size + 8 then .next (u.answer 5 f bs)
      else
        let old := leNat (bs.take f.size)
        let new := if op = 11 then (if old = leNat (f.data.drop f.size) then some b else none) else some (amoValue op f.size old b)
        match new with
        | none => .next (u.answer 5 f bs)
        | some v =>
          -- addc and faddc return nothing
          let bs := if op = 9 || op = 10 then [] else bs
          if order < 2 then .next ((u.writeAt f.addr f.size v).answerWrite t f bs)
          else match u.rrtRoom (.remote (f.smod + 256 * f.sdie) f.tag) f.addr with
            | .ok _ w => .next (((w.writeAt f.addr f.size v).rrtFor f.addr (f.op / 2 ^ 8 % 2 ^ 16) (f.op / 64 % 4) (f.op / 2 ^ 24)).answerWrite t f bs)
            | .wait w => .next w
            | .fail _ _ _ w => .next w
/-- Flits of one unit of an engine's data. -/
def sameUnit (f g : Flit) : Bool := f.smod == g.smod && f.sdie == g.sdie && f.op == g.op && f.size == g.size && f.addr % 2 ^ 32 == g.addr % 2 ^ 32
/-- COPY_DATA (R132, R318, R353): an engine's bytes written at homes here, or in a plaza's scratchpad or AB, and answered (log 13): with the
detail of R133 where the plaza has no placement of the job or its scratchpad is smaller. A unit that takes several flits is written whole
when its last has come. -/
def execCopyData (f : Flit) (s : State) : Out :=
  receive 8 f s fun t =>
    let r := f.op / 8 % 2 ^ 8
    if f.op % 8 < 5 then .next (if t.absent f.addr || t.pathDown f.addr then t else (t.writeBytes f.addr f.data).answerWrite t f [])
    else if flitMax * (f.addr / 2 ^ 32) + f.data.length < f.size then .next { t with inbox := t.inbox ++ [f] }
    else
      let parts := t.inbox.filter (sameUnit f) ++ [f]
      let u : State := { t with inbox := t.inbox.filter fun g => !sameUnit f g }
      let answers (v : State) (bs : List Byte) : Out := .next (parts.foldl (fun w g => w.answer 5 g bs) v)
      if !u.hasJob r (f.op / 2 ^ 16) then answers u [8]
      else match u.putRemote r (f.op / 2 ^ 16) (f.op % 8) (f.addr % 2 ^ 32) (parts.flatMap fun g => g.data) with
        | some v => answers v []
        | none => answers u [7]
/-- A KG notice arrives from another module (R341, R353), for a view of its own whose block's home is here; it is answered when it has had its
effect. -/
def State.noticeArrives (s : State) (f : Flit) : Out :=
  receive 0x0D f s fun t =>
    .next { t with notices := t.notices ++ [⟨noView, f.op, leNat (f.data.take 4), none, none, some (f.smod + 256 * f.sdie, f.tag, [])⟩] }
/-- CREDIT (R353): n credits of channel v come back on link l. -/
def execCredit (l v n : Nat) (s : State) : Out :=
  if v < 4 && (tabGet Link.off s.dev.links l).up then .next (s.modLink l fun x => { x with credit := x.credit + n }) else .next s
/-- TIMEBASE_EXCHANGE (R356): the master's time t. A module that is not locked takes it and is locked; a locked one that is behind slews by
1 ns, at most once in 10,000 ns, which is 100 ppm; time never decreases. -/
def execTimebaseExchange (t : Nat) (s : State) : Out :=
  if s.dev.host.tbmaster = s.dev.modNum then .next s
  else .next (s.modDev fun d =>
    if d.locked then
      let n := if d.ns < t && d.slewed + 10000 ≤ d.ns then d.ns + 1 else d.ns
      { d with ns := n, slewed := if n = d.ns then d.slewed else n, locked := t ≤ n + 4 && n ≤ t + 4 }
    else if d.ns ≤ t then { d with ns := t, slewed := t, locked := true } else d)
/-- The master of the timebase tells another module its time (R353, R356). -/
def State.exchange (s : State) (m : Nat) : State :=
  if s.dev.host.tbmaster = s.dev.modNum && m != s.dev.modNum then s.post (mkFlit 0x0E m 0 0 8 0 (leBytes 8 s.dev.ns)) else s
/-- LINK_DOWN (R355): link l goes down; what it carried takes another link of the route. -/
def execLinkDown (l : Nat) (s : State) : Out := .next (s.linkFails l)
/-- Bytes that a failed write carried are dirty again in the L1 that holds the line, else in the L1D; bytes stored since stay (R329). -/
def Line.redirty (x : Line) (now : Nat) (data : List Byte) : Line :=
  let mask := BitVec.ofNat 128 (leNat (data.take 16))
  { x with
    data := lineMix (mask &&& ~~~ x.dirty) (BitVec.ofNat 1024 (leNat ((data.drop 16).take 128))) x.data
    held := x.held ||| mask, dirty := x.dirty ||| mask, dirtyAt := if x.dirty = 0 then now else x.dirtyAt
    poison := x.poison ||| BitVec.ofNat 2 (leNat ((data.drop 144).take 1)) }
/-- A write of plaza p to another module has failed (R329, R355): its bytes are dirty again, a publish that runs fails, and the DCWBs and
DCINVs that wait for it fail. While step 1 of R231 runs they are dirty again in the lanes' L1, whose lines that step goes on writing back. -/
def State.writeFailed (s : State) (p : Nat) (r : Remote) : State :=
  let line := r.addr / 128
  let preparing : Bool := (s.plaza p).begun.isSome && ((s.plaza p).res == .starting || (s.plaza p).res == .resuming)
  let lanes := preparing || (lineIn (s.plaza p).l1v line).isSome
  let t : State := if r.kind != 3 then s else match lineIn ((s.plaza p).l1 lanes) line with
    | some x => s.setLine p lanes (x.redirty s.dev.cycle r.data)
    | none => s.install p lanes ((emptyLine line false).redirty s.dev.cycle r.data)
  let waits (x : Remote) : Bool := x.kind == 3 && x.addr == r.addr && x.data.isEmpty
  let u : State := { t with remotes := t.remotes.map fun x => if waits x then { x with failed := true } else x }
  u.modPlaza p fun q =>
    { q with publish := q.publish.map fun w => { w with failed := true } }
/-- A view's block whose home cannot be reached is poisoned, with its record (R349, R350): its KG and tag stay as they are at that home. -/
def State.blockLost (s : State) (view block : Nat) : State :=
  let t := s.modBlock view block fun x => { x with poison := true }
  match t.views.find? fun v => v.id == view with
  | none => t
  | some v => match t.masterOf v with
    | some m => t.appendFault v.pasid v.fq (t.containment v m block 0x14 0).bytes
    | none => t
/-- A KG notice that cannot be delivered is acknowledged by the block home, which marks the view's block poisoned (R341, R349). -/
def State.noticeLost (s : State) (tag : Nat) : State :=
  ((s.notices.filter fun n => n.tag == some tag).foldl (fun t n => t.blockLost n.view n.block) s).endNotices fun n => n.tag == some tag
/-- Requests that a test names are given up, with the flits of them that wait for a path. -/
def State.giveUp (s : State) (f : Remote → Bool) : State :=
  let gone := s.remotes.filter f
  { s with
    remotes := s.remotes.filter fun r => !f r
    waiting := s.waiting.filter fun g => g.kind == 2 || g.kind == 5 || g.kind == 7 || !(gone.any fun r => r.tag == g.tag) }
/-- A device's write toward another module has lost its path: where it was a derivation's, the view block is poisoned, and the rest of the block's
writes are given up (R349). -/
def State.deviceWriteLost (s : State) (key : Nat) : State :=
  (s.viewBlocks key 128).foldl (fun t x =>
    let lines := (keyPieces x.1.pages (x.1.blockVa x.2.1.across x.2.2) (viewStride x.1.tfmt)).map fun y => y.1 / 128
    (t.giveUp fun r => r.who == .host && r.kind == 3 && lines.contains (r.addr / 128)).blockLost x.1.id x.2.2) s
/-- The module that a request goes to. -/
def Remote.module (r : Remote) : Nat := if r.kind = 6 then r.addr / 256 else (keyModule r.addr).getD 0
/-- A request has waited for 1 ms or more and there is no path to its module (R355). -/
def State.noPath (s : State) (r : Remote) : Bool := r.since + 1000000 ≤ s.dev.ns && (s.linkTo r.module).isNone
/-- PATH_TIMEOUT (R329, R341, R355): the i-th request to another module still has no path 1 ms after it was issued: it fails, a publish request
as a failed publish. -/
def execPathTimeout (i : Nat) (s : State) : Out :=
  match s.remotes[i]? with
  | none => .next s
  | some r =>
    let gone : State := s.giveUp fun x => x.tag == r.tag
    if r.reply.isSome || r.kind = 0 || !s.noPath r then .next s
    else if r.kind = 0x0D then .next (gone.noticeLost r.tag)
    else if r.kind = 6 then .next (gone.answered r.addr r.size true r.who)
    else match r.who with
    | .plaza p => .next (gone.writeFailed p r)
    | .host => .next (if r.kind = 3 then gone.deviceWriteLost r.addr else { gone with remotes := gone.remotes ++ [{ r with failed := true }] })
    | _ => .next { gone with remotes := s.remotes.map fun x => if x.tag = r.tag then { x with failed := true } else x }
/-- LINK_REKEY (R354): the link's counter starts again under a new key. -/
def execLinkRekey (l : Nat) (s : State) : Out :=
  .next (s.modLink l fun x => { x with counter := 0, failed := 0, keygen := x.keygen + 1 })
/-- SECOND_TIER_PORT_DOWN (R366). -/
def execSecondTierPortDown (n : Nat) (s : State) : Out := .next (s.modDev fun d => { d with tierUp := tabSet d.tierUp n false })

end Sys2Proof.Machine
end

