-- ==== Sys2Proof/Machine/HostPort.lean ====
section
/-! DEFINITION. The host ports (R330, R359-R364): BAR2 and CXL.cache accesses, the management registers, partition and takeover. -/
namespace Sys2Proof.Machine

/-- The host is the standby of PRIMARY/STANDBY (R363). -/
def HostSide.standby (x : HostSide) (h : Nat) : Bool := x.partmode == 2 && (h == 1) != x.bPrimary
/-- Die d belongs to a host (R363): outside SPLIT every die, there its own half. -/
def HostSide.owns (x : HostSide) (h d : Nat) : Bool := x.partmode != 1 || (d < 4 && h == 0) || (4 ≤ d && h == 1)
/-- A host writes the management window (R360, R363): its port is up and it is not the standby. -/
def State.bar0 (s : State) (h : Nat) : Bool := s.dev.host.portUp.getD h false && !s.dev.host.standby h
/-- A host may reach a physical address through its port (R361, R363): within its half under SPLIT, not as the standby, and present. -/
def State.hostReaches (s : State) (h pa : Nat) : Bool :=
  let x := s.dev.host
  s.bar0 h && !s.absent pa && !s.pathDown pa && (x.partmode != 1 || (pa < Config.dies * Config.dieSpan && x.owns h (pa / Config.dieSpan)))
/-- The size of a host's BAR2 (R359): as its Resizable BAR capability sets it; 1 GiB until then (log 26). -/
def HostSide.bar2size (x : HostSide) (h : Nat) : Nat :=
  let n := (x.bar2win.getD h (0, 0)).2
  if n = 0 then 2 ^ 30 else n
/-- A size that BAR2 may have (R359): a power of two from 1 GiB to 2 TiB. -/
def bar2Size (n : Nat) : Bool := (List.range 12).any fun k => n == 2 ^ (30 + k)
/-- What a host's access is answered (R360, R361). -/
def State.answerHost (s : State) (h a : Nat) (x : HostAnswer) : State :=
  s.modHost fun y => { y with answers := y.answers ++ [(h, a, x)] }
/-- The poisoned 64-byte units among n bytes (R315). -/
def State.badUnits (s : State) (pa n : Nat) : List Nat := s.poison.filter fun u => u * 64 < pa + n && pa < u * 64 + 64
/-- The publishes that a host's read of n bytes awaits (R328, R330): those of the releasing plazas whose publish has not completed. -/
def State.hostNeeds (s : State) (pa n : Nat) : List (Nat × Nat) :=
  ((List.range ((pa % 8 + n + 7) / 8)).filterMap fun i => s.rrtOf ((pa / 8 + i) * 8)).filterMap fun e =>
    if s.published e.plaza e.seq then none else some (e.plaza, e.seq)
/-- A host's read of n bytes at a physical address (R330, R348, R361): an acquire at D of the units it reads. Values and entries are read
at once; the answer follows when the publishes are acknowledged (R328). A stale or poisoned view block aborts it; at a delayed one it waits, to be
checked again against what it first saw. -/
def State.hostRead (s : State) (h pa n : Nat) (delays : List Delay) : State :=
  if !s.hostReaches h pa || !s.hostReaches h (pa + n - 1) then s.answerHost h pa .unsupported
  else
    let s1 := (linePieces pa n).foldl (fun t x => t.recall (x.1 / 128)) s
    match keptBytes delays pa n with
    | some v => s1.answerHost h pa (.data (leBytes n v) ((delays.flatMap fun d => d.bad).filter fun u => u * 64 < pa + n && pa < u * 64 + 64))
    | none =>
      let checks := (s1.viewBlocks pa n).map fun x => viewCheck { x.1 with policy := 0 } x.2.2 delays
      let ds := checks.filterMap fun c => match c with
        | .delayed d => some d
        | _ => none
      if checks.any (fun c => match c with
        | .fault _ => true
        | _ => false) then s1.answerHost h pa .abort
      else if !ds.isEmpty then s1.modHost fun x => { x with reading := x.reading ++ [⟨h, pa, n, [], [], [], ds⟩] }
      else
        let needs := s1.hostNeeds pa n
        let bs := memBytes s1.mem pa n
        if needs.isEmpty then s1.answerHost h pa (.data bs (s1.badUnits pa n))
        else (needs.foldl (fun t e => t.sendPublish e.1 e.2 .host) s1).modHost fun x =>
          { x with reading := x.reading ++ [⟨h, pa, n, needs, bs, s1.badUnits pa n, []⟩] }
/-- The hosts' reads that wait at view blocks are checked again (R348, R361). -/
def State.hostRetry (s : State) : State :=
  let held := s.dev.host.reading.filter fun x => !x.delays.isEmpty
  held.foldl (fun t x => t.hostRead x.host x.addr x.size x.delays)
    (s.modHost fun x => { x with reading := x.reading.filter fun r => r.delays.isEmpty })
/-- A host's write (R330, R340, R361): performs at the home; to a view page, Completer Abort. -/
def State.hostWrite (s : State) (h pa : Nat) (bs : List Byte) : State :=
  if bs.isEmpty then s
  else if !s.hostReaches h pa || !s.hostReaches h (pa + bs.length - 1) then s.answerHost h pa .unsupported
  else if (linePieces pa bs.length).any (fun x => s.viewPage x.1) then s.answerHost h pa .abort
  else s.writeBytes pa bs
/-- n bytes at an offset lie in a host's BAR2 (R359): no transaction reaches the module outside it. -/
def State.inBar2 (s : State) (h o n : Nat) : Bool := o + n ≤ s.dev.host.bar2size h
/-- BAR2_READ (R361): host h reads n bytes at offset o. -/
def execBar2Read (h o n : Nat) (s : State) : Out :=
  .next (if n = 0 || !s.inBar2 h o n then s else s.hostRead h (s.dev.host.bar2org + o) n [])
/-- BAR2_WRITE (R361). -/
def execBar2Write (h o : Nat) (x : List Byte) (s : State) : Out :=
  .next (if s.inBar2 h o x.length then s.hostWrite h (s.dev.host.bar2org + o) x else s)
/-- CXL_HOST_ACCESS (R330, R340): a read of n bytes at a physical address, or with bytes x a write. -/
def execCxlHostAccess (h a n : Nat) (x : List Byte) (s : State) : Out :=
  .next (if x.isEmpty then (if n = 0 then s else s.hostRead h a n []) else s.hostWrite h a x)

/-- A job runs: it is RUNNING, or a placement of it is on a plaza (R238, R364). -/
def State.jobRuns (s : State) : Bool := s.placer.jobs.any (fun j => j.st == .running) || s.plazas.any fun x => x.2.res != .free
/-- PARTMODE_WRITE (R360, R363, R364): ignored while any job runs, from the standby, and with the reserved mode. -/
def execPartmodeWrite (h v : Nat) (s : State) : Out :=
  if s.jobRuns || !s.bar0 h || v % 4 = 3 then .next s
  else .next ((s.modHost fun x => { x with partmode := v % 4, bPrimary := bit v 2 }).signal 0)
/-- TAKEOVER (R364): the standby takes over once the primary's link has been down for 10 ms. -/
def execTakeover (h v : Nat) (s : State) : Out :=
  let x := s.dev.host
  let primary := b2n x.bPrimary
  if v = 1 && x.portUp.getD h false && x.standby h && !x.portUp.getD primary true && x.downAt.getD primary 0 + 10000000 ≤ s.dev.ns then
    .next ((s.modHost fun y => { y with bPrimary := !y.bPrimary }).signal 0)
  else .next s
/-- HOST_PORT_LINK_DOWN (R362, R364). -/
def execHostPortLinkDown (h : Nat) (s : State) : Out :=
  if s.dev.host.portUp.getD h false then
    .next ((s.modHost fun x => { x with portUp := listMod x.portUp h fun _ => false, downAt := listMod x.downAt h fun _ => s.dev.ns }).signal 0)
  else .next s
/-- An entry of the invalidation queue begins (R113, R360), read at its home, which recalls the update lines of its line (R331); one that cannot be
read there does not (R366; log 26). -/
def State.takeEntry (s : State) (k : Nat) : State :=
  let a := s.dev.host.invqbase + 32 * (k % s.dev.host.invqsize)
  if s.absent a || s.pathDown a then s
  else
    let t := s.recall (a / 128)
    t.invalidate (memRead t.mem a 8 % 2 ^ 20) (memRead t.mem (a + 8) 8) (memRead t.mem (a + 16) 8) (some a)
/-- INVQTAIL_WRITE (R360, R363): the entries posted since the last write begin; none while the queue is off. -/
def execInvqtailWrite (w : HostWrite) (s : State) : Out :=
  if !s.bar0 w.host then .next s else
  let x := s.dev.host
  let v := w.value
  let new := (v + 2 ^ 64 - x.invqtail) % 2 ^ 64
  let s1 := s.modHost fun y => { y with invqtail := v % 2 ^ 64 }
  if x.invqbase = 0 || x.invqsize = 0 then .next s1
  else .next ((List.range (Nat.min new x.invqsize)).foldl (fun t i => t.takeEntry (x.invqtail + i)) s1)

/-- A BAR0 register of the Job Placer (R236). -/
def Placer.setReg (x : Placer) (o v : Nat) : Placer :=
  if o = 0x2000 then { x with agestep := v % 2 ^ 32 }
  else if o = 0x2008 then (if x.jobs.isEmpty then { x with savebase := bits v 44 21 * 2 ^ 21 } else x)
  else if o = 0x2010 then (if x.jobs.isEmpty then { x with saveslots := v % 2 ^ 16 } else x)
  else if o = 0x2018 then { x with spillbase := bits v 44 12 * 4096 }
  else if o = 0x2020 then { x with spillcap := v % 2 ^ 16 }
  else if 0x2040 ≤ o && o < 0x2080 then { x with disparea := tabSet x.disparea ((o - 0x2040) / 8) (bits v 44 12 * 4096) }
  else x
/-- A BAR0 register of the host side written by host h (R360); the MSI-X table is the port's own. -/
def HostSide.setReg (x : HostSide) (h o v : Nat) : HostSide :=
  if o = 0x0100 then { x with invqbase := bits v 44 5 * 32 }
  else if o = 0x0108 then { x with invqsize := v % 2 ^ 16 }
  else if o = 0x0200 then { x with bar2org := bits v 44 30 * 2 ^ 30 }
  else if 0x0800 ≤ o && o < 0x1000 then { x with routes := tabSet x.routes ((o - 0x0800) / 8) (v % 2 ^ 24) }
  else if o = 0x3008 then { x with tbmaster := v % 2 ^ 8 }
  else if 0x8000 ≤ o && o < 0x8400 then { x with msix := tabSet x.msix (128 * h + (o - 0x8000) / 8) (BitVec.ofNat 64 v) }
  else x
/-- A pending vector that is unmasked is signalled (R362). -/
def HostSide.unmask (x : HostSide) (h o : Nat) : HostSide :=
  let v := (o - 0x8000) / 16
  let n := 64 * h + v
  if 0x8000 ≤ o && o < 0x8400 && tabGet false x.pba n && !bit (tabGet 0 x.msix (2 * n + 1)).toNat 32 then
    { x with pba := tabSet x.pba n false, signals := x.signals ++ [(h, v)] }
  else x
/-- A host may write the register at an offset (R363): under SPLIT only its own half's DISPAREAd. -/
def HostSide.mayWrite (x : HostSide) (h o : Nat) : Bool := !(0x2040 ≤ o && o < 0x2080) || x.owns h ((o - 0x2040) / 8)
/-- The timebase follows TBMASTER (R356, R360): a module that is its own master is locked; one with a new master is not until its exchanges. -/
def Device.setMaster (d : Device) (old : Nat) : Device :=
  if d.host.tbmaster = old then d else { d with locked := d.host.tbmaster == d.modNum }
/-- REGISTER_WRITE (R236, R360, R363): host h writes bytes to the register at BAR0 offset o. Accesses that are not 8 bytes and aligned complete
with Unsupported Request; the standby's BAR0 is read-only; other offsets ignore writes. -/
def execRegisterWrite (h o : Nat) (x : List Byte) (s : State) : Out :=
  let v := leNat x
  if !s.dev.host.portUp.getD h false then .next s
  else if o % 8 != 0 || x.length != 8 || 0x10000 ≤ o then .next (s.answerHost h o .unsupported)
  else if s.dev.host.standby h || !s.dev.host.mayWrite h o then .next s
  else .next (((s.modPlacer fun x => x.setReg o v).modHost fun x => (x.setReg h o v).unmask h o).modDev fun d => d.setMaster s.dev.host.tbmaster)

end Sys2Proof.Machine
end

