-- ==== Sys2Proof/Machine/LaneArith.lean ====
section
/-! DEFINITION. The single-word lane instructions: arithmetic, moves, the window, waiting, block ends, region markers, predicates and
pushes (R146-R157, R162). -/
namespace Sys2Proof.Machine

/-- VFADD: x + y rounded to FP32; bound 4 (R148). -/
def execVfadd (d a b p w k : Nat) (s : State) : Out := lane2 4 (fun x y => fadd32 x y) d a b p 0 4 w k s
/-- VFSUB: x - y rounded to FP32; bound 4 (R148). -/
def execVfsub (d a b p w k : Nat) (s : State) : Out := lane2 4 (fun x y => toF32 ((f32 x).sub (f32 y))) d a b p 0 4 w k s
/-- VFMUL: x × y rounded to FP32; bound 5 (R148). -/
def execVfmul (d a b p w k : Nat) (s : State) : Out := lane2 5 (fun x y => toF32 ((f32 x).mul (f32 y))) d a b p 0 4 w k s
/-- VFMIN: the smaller, per R149; bound 4 (R148). -/
def execVfmin (d a b p w k : Nat) (s : State) : Out := lane2 4 (fun x y => fpick32 false x y) d a b p 0 4 w k s
/-- VFMAX: the larger, per R149; bound 4 (R148). -/
def execVfmax (d a b p w k : Nat) (s : State) : Out := lane2 4 (fun x y => fpick32 true x y) d a b p 0 4 w k s
/-- VIADD: x + y; bound 2 (R148). -/
def execViadd (d a b p w k : Nat) (s : State) : Out := lane2 2 (fun x y => x + y) d a b p 0 4 w k s
/-- VISUB: x - y; bound 2 (R148). -/
def execVisub (d a b p w k : Nat) (s : State) : Out := lane2 2 (fun x y => x - y) d a b p 0 4 w k s
/-- VIMUL: low 32 bits of x × y; bound 5 (R148). -/
def execVimul (d a b p w k : Nat) (s : State) : Out := lane2 5 (fun x y => x * y) d a b p 0 4 w k s
/-- VIMIN: the smaller, I32; bound 2 (R148). -/
def execVimin (d a b p w k : Nat) (s : State) : Out := lane2 2 (fun x y => if x.slt y then x else y) d a b p 0 4 w k s
/-- VIMAX: the larger, I32; bound 2 (R148). -/
def execVimax (d a b p w k : Nat) (s : State) : Out := lane2 2 (fun x y => if x.slt y then y else x) d a b p 0 4 w k s
/-- VNMIN: the smaller, N32; bound 2 (R148). -/
def execVnmin (d a b p w k : Nat) (s : State) : Out := lane2 2 (fun x y => if x.ult y then x else y) d a b p 0 4 w k s
/-- VNMAX: the larger, N32; bound 2 (R148). -/
def execVnmax (d a b p w k : Nat) (s : State) : Out := lane2 2 (fun x y => if x.ult y then y else x) d a b p 0 4 w k s
/-- VAND: x AND y; bound 2 (R148). -/
def execVand (d a b p w k : Nat) (s : State) : Out := lane2 2 (fun x y => x &&& y) d a b p 0 4 w k s
/-- VOR: x OR y; bound 2 (R148). -/
def execVor (d a b p w k : Nat) (s : State) : Out := lane2 2 (fun x y => x ||| y) d a b p 0 4 w k s
/-- VXOR: x XOR y; bound 2 (R148). -/
def execVxor (d a b p w k : Nat) (s : State) : Out := lane2 2 (fun x y => x ^^^ y) d a b p 0 4 w k s
/-- VSHL: x shifted left by y[4:0]; bound 2 (R148). -/
def execVshl (d a b p w k : Nat) (s : State) : Out := lane2 2 (fun x y => x <<< (y.toNat % 32)) d a b p 0 4 w k s
/-- VSHR: x shifted right by y[4:0], zeros in; bound 2 (R148). -/
def execVshr (d a b p w k : Nat) (s : State) : Out := lane2 2 (fun x y => x >>> (y.toNat % 32)) d a b p 0 4 w k s
/-- VSRA: x shifted right by y[4:0], copies of x[31] in; bound 2 (R148). -/
def execVsra (d a b p w k : Nat) (s : State) : Out := lane2 2 (fun x y => x.sshiftRight (y.toNat % 32)) d a b p 0 4 w k s
/-- VMOV: copies an operand's lane word; bound 2 (R150). -/
def execVmov (d a p w k : Nat) (s : State) : Out := lane1 2 (fun x => x) d a p 0 4 w k s
/-- A scalar broadcast to every lane (R150). -/
def moveScalar (n d p w k : Nat) (s : State) : Out :=
  onLane s fun q l =>
    let (x, s1) := s.readScalar q l n
    let (em, s2) := s1.effMask q l p 0
    .next ((s2.issueRow q l 2 d (broadcast x) em).laneRetire q l 4 w k)
/-- VMOV of s0-s127 (R150). -/
def execVmovScalar (d a p w k : Nat) (s : State) : Out := moveScalar a d p w k s
/-- VMOV of s128-s191 (R150). -/
def execVmovScalarHigh (d a p w k : Nat) (s : State) : Out := moveScalar (128 + a) d p w k s
/-- VLID: lane index plus an operand; bound 2 (R151, R258). -/
def execVlid (d b p w k : Nat) (s : State) : Out :=
  onLane s fun q l =>
    let (y, s1) := s.operand q l b
    let (em, s2) := s1.effMask q l p 0
    let sh := s.shift q l
    .next ((s2.issueRow q l 2 d (rowOf fun i => BitVec.ofNat 32 (i - sh) + rowWord y i) em).laneRetire q l 4 w k)
/-- The window base set at this cycle (R152): packets from two cycles on use it, the next one is free to. After two in one packet the choice is between
the bases that the first and the second set: R152 does not say which base is the old one then (DESIGN CHOICE, log 27). -/
def Lane.setWindow (x : Lane) (now fresh n : Nat) : Lane :=
  { x with oldWindow := x.window, window := n % 16384, windowAt := now, windowPick := fresh }
/-- VWIN and VWINADD: the new base from the base in issue order and a scalar (R152). -/
def moveWindow (f : Nat → W32 → Nat) (a w k : Nat) (s : State) : Out :=
  onLane s fun p l =>
    let (v, s1) := s.scalarCode p l a
    let (id, s2) := s1.newId
    .next ((s2.modLane p l fun x => x.setWindow s.dev.cycle id (f x.window v)).laneRetire p l 4 w k)
/-- VWIN: the base from a scalar's bits 13-0 (R152). -/
def execVwin (a w k : Nat) (s : State) : Out := moveWindow (fun _ v => v.toNat % 16384) a w k s
/-- VWINADD: a scalar, read as I32, added to the base (R152). -/
def execVwinadd (a w k : Nat) (s : State) : Out := moveWindow (fun n v => wrapInt 14 ((n : Int) + v.toInt)) a w k s
/-- VWAIT: the next packet waits for cycles and counter limits (R154). -/
def execVwait (c l st : Nat) (s : State) : Out :=
  onLane s fun p g =>
    .next ((s.laneRetire p g 4 0 0).modLane p g fun x =>
      { x with nextAt := s.dev.cycle + 1 + c, loadLimit := l, storeLimit := st })
/-- VBEND: the block issues nothing more; its levels are dropped (R155). -/
def execVbend (s : State) : Out :=
  onLane s fun p l =>
    .next (s.modLane p l fun x => { x with pc := x.pc + 4, nextAt := s.dev.cycle + 1, ended := true, levels := [] })
/-- VRGN: issue is held until the group is quiet, when REGION_MARKER records its state (R156). -/
def execVrgn (s : State) : Out :=
  onLane s fun p l => .next ((s.laneRetire p l 4 0 0).modLane p l fun x => { x with marking := true })

/-- A predicate operation with bound 1 (R157). -/
def predOp (f : W32 → W32 → W32) (d a b w k : Nat) (s : State) : Out :=
  onLane s fun p l =>
    let (x, s1) := s.readPred p l a
    let (y, s2) := s1.readPred p l b
    .next ((s2.issuePred p l 1 d (f x y)).laneRetire p l 4 w k)
/-- PAND (R157). -/
def execPand (d a b w k : Nat) (s : State) : Out := predOp (fun x y => x &&& y) d a b w k s
/-- POR (R157). -/
def execPor (d a b w k : Nat) (s : State) : Out := predOp (fun x y => x ||| y) d a b w k s
/-- PXOR (R157). -/
def execPxor (d a b w k : Nat) (s : State) : Out := predOp (fun x y => x ^^^ y) d a b w k s
/-- PANDN: pA AND NOT pB (R157). -/
def execPandn (d a b w k : Nat) (s : State) : Out := predOp (fun x y => x &&& ~~~ y) d a b w k s
/-- p[a] AND p[b] AND p0, as the lane group numbers its lanes (R157, R258). -/
def State.maskOf (s : State) (p l a b : Nat) : W32 × State :=
  let (x, s1) := s.readPred p l a
  let (y, s2) := s1.readPred p l b
  ((x &&& y &&& (s.lane p l).pred 0) >>> s.shift p l, s2)
/-- A scalar from a masked predicate (R157). -/
def maskScalar (f : Nat → W32 → W32) (d a b w k : Nat) (s : State) : Out :=
  onLane s fun p l =>
    let (m, s1) := s.maskOf p l a b
    .next ((s1.issueScalar p l 1 d (f (s.width p) m)).laneRetire p l 4 w k)
/-- PBAL: the masked predicate into a scalar (R157). -/
def execPbal (d a b w k : Nat) (s : State) : Out := maskScalar (fun _ m => m) d a b w k s
/-- PSET: pd := s[sa] AND p[pb] (R157). -/
def execPset (d b n w k : Nat) (s : State) : Out :=
  onLane s fun p l =>
    let (v, s1) := s.readScalar p l n
    let (y, s2) := s1.readPred p l b
    .next ((s2.issuePred p l 1 d ((v <<< s.shift p l) &&& y)).laneRetire p l 4 w k)
/-- PPOPC: set bits of the masked predicate (R157). -/
def execPpopc (d a b w k : Nat) (s : State) : Out := maskScalar (fun _ m => BitVec.ofNat 32 (popCount m.toNat 32)) d a b w k s
/-- PFIRST: the lowest set bit of the masked predicate; the group's width if none (R157, R258). -/
def execPfirst (d a b w k : Nat) (s : State) : Out :=
  maskScalar (fun n m => BitVec.ofNat 32 (((List.range n).find? fun i => m.getLsbD i).getD n)) d a b w k s
/-- PUSHP: stages an alley push; a ninth is a lane fault (R157, R162). -/
def execPushp (a b n w k : Nat) (s : State) : Out :=
  onLane s fun p l =>
    let (m, s1) := s.maskOf p l a b
    let (v, s2) := s1.readScalar p l n
    if 8 ≤ (s.lane p l).pushes.length then .next (s.laneIllegalHere p l)
    else .next ((s2.modLane p l fun x => { x with pushes := x.pushes ++ [⟨m, v⟩] }).laneRetire p l 4 w k)

end Sys2Proof.Machine
end

