-- ==== Sys2Proof/Machine/LaneTyped.lean ====
section
/-! DEFINITION. The typed and cross-lane double-word lane instructions (R158-R160, R203-R224, R258, R261, R263). -/
namespace Sys2Proof.Machine

/-- Element j, wd bits wide, of a lane word (R22, R23). -/
def elemOf (wd : Nat) (x : W32) (j : Nat) : Nat := x.toNat / 2 ^ (wd * j) % 2 ^ wd
/-- A lane word of elements wd bits wide. -/
def packElems (wd : Nat) (f : Nat → Nat) : W32 :=
  BitVec.ofNat 32 ((List.range (32 / wd)).foldl (fun acc j => acc + f j % 2 ^ wd * 2 ^ (wd * j)) 0)
/-- Element e of a row (R22). -/
def rowElem (wd : Nat) (r : Row) (e : Nat) : Nat := elemOf wd (rowWord r (e / (32 / wd))) (e % (32 / wd))

/-- VALU on float elements (R212): ADD, SUB, MUL, MIN, MAX, ABS, NEG. -/
def valuFloat (f : Fmt) (op x y : Nat) : Nat :=
  let a := decodeF f x
  let b := decodeF f y
  if op = 0 then roundNE f (a.add b) else if op = 1 then roundNE f (a.sub b) else if op = 2 then roundNE f (a.mul b)
  else if op = 3 then floatPick f false x y else if op = 4 then floatPick f true x y
  else if a.isNan then nanOf f
  else if op = 5 then x % 2 ^ f.signAt else x ^^^ 2 ^ f.signAt
/-- VALU on integer elements of type t (R212). -/
def valuInt (t op x y : Nat) : Nat :=
  let w := typeWidth t
  let a := elemInt t x
  let b := elemInt t y
  if op = 0 then wrapInt w (a + b) else if op = 1 then wrapInt w (a - b) else if op = 2 then wrapInt w (a * b)
  else if op = 3 then (if a < b then x else y) else if op = 4 then (if a < b then y else x)
  else if op = 5 then wrapInt w a.natAbs else if op = 6 then wrapInt w (-a)
  else if op = 7 then intCode t (clampInt t (a + b)) else if op = 8 then intCode t (clampInt t (a - b))
  else if op = 9 then wrapInt w (a * b / (2 ^ w : Int))
  else if op = 10 then x * 2 ^ (y % w) % 2 ^ w
  else wrapInt w (a / (2 ^ (y % w) : Int))
/-- VALU on one pair of elements (R212). -/
def valuElem (t op x y : Nat) : Nat :=
  match typeFmt t with
  | some f => valuFloat f op x y
  | none => valuInt t op x y
/-- VALU: typed elementwise arithmetic; bound 5 (R212). -/
def execValu (d a b o t q v w k : Nat) (s : State) : Out :=
  onLane s fun p l =>
    let wd := typeWidth t
    let (x, s1) := s.operandW p l wd a
    let (y, s2) := s1.operandW p l wd b
    let (em, s3) := s2.effMask p l q v
    let row := rowOf fun i => packElems wd fun j => valuElem t o (elemOf wd (rowWord x i) j) (elemOf wd (rowWord y i) j)
    .next ((s3.issueRow p l 5 d row em).laneRetire p l 8 w k)
/-- A fused multiply-add of one format, rounded once (R203, R213). -/
def fmaElem (f : Fmt) (n x y z : Nat) : Nat :=
  let m := (decodeF f x).mul (decodeF f y)
  let c := decodeF f z
  roundNE f ((if 2 ≤ n then m.flip else m).add (if n % 2 = 1 then c.flip else c))
/-- VFMA; bound 5 (R213). -/
def execVfma (d a b c n t q v w k : Nat) (s : State) : Out :=
  onLane s fun p l =>
    let wd := typeWidth t
    let f := (typeFmt t).getD fp32
    let (x, s1) := s.operandW p l wd a
    let (y, s2) := s1.operandW p l wd b
    let (z, s3) := s2.operandW p l wd c
    let (em, s4) := s3.effMask p l q v
    let row := rowOf fun i => packElems wd fun j =>
      fmaElem f n (elemOf wd (rowWord x i) j) (elemOf wd (rowWord y i) j) (elemOf wd (rowWord z i) j)
    .next ((s4.issueRow p l 5 d row em).laneRetire p l 8 w k)
/-- Conversion of one element; into its own type the identity (R214). -/
def vcvtElem (t g rnd sat x : Nat) : Nat := if t = g then x else convElem t g rnd (sat == 1) x
/-- VCVT of one lane word x, merging into z when narrowing (R214). -/
def vcvtWord (t g rnd sat part : Nat) (x z : W32) : W32 :=
  let ws := typeWidth t
  let wd := typeWidth g
  let ns := 32 / ws
  let nd := 32 / wd
  if ws ≤ wd then packElems wd fun j => vcvtElem t g rnd sat (elemOf ws x (part * nd + j))
  else packElems wd fun j =>
    if part * ns ≤ j && j < part * ns + ns then vcvtElem t g rnd sat (elemOf ws x (j - part * ns)) else elemOf wd z j
/-- VCVT; bound 5 (R214). -/
def execVcvt (d a c t g r st f q v w k : Nat) (s : State) : Out :=
  onLane s fun p l =>
    let (x, s1) := s.operandW p l (typeWidth t) a
    let (z, s2) := if typeWidth g < typeWidth t then s1.operandW p l (typeWidth g) c else (0, s1)
    let (em, s3) := s2.effMask p l q v
    .next ((s3.issueRow p l 5 d (rowOf fun i => vcvtWord t g r st f (rowWord x i) (rowWord z i)) em).laneRetire p l 8 w k)
/-- VCMP: compares into a predicate; lanes outside the mask get 0; bound 3 (R158). -/
def execVcmp (d a b c t q v w k : Nat) (s : State) : Out :=
  onLane s fun p l =>
    let (x, s1) := s.operand p l a
    let (y, s2) := s1.operand p l b
    let (em, s3) := s2.effMask p l q v
    let m := (List.range 32).foldl (fun acc i => if compareCond c (typedCmp t (rowWord x i) (rowWord y i)) then acc + 2 ^ i else acc) 0
    .next ((s3.issuePred p l 3 d (em &&& BitVec.ofNat 32 m)).laneRetire p l 8 w k)
/-- VSEL: a's lane word where the selecting predicate (inverted by i) is set, else b's; bound 2 (R159). -/
def execVsel (d a b g i q v w k : Nat) (s : State) : Out :=
  onLane s fun p l =>
    let (x, s1) := s.operand p l a
    let (y, s2) := s1.operand p l b
    let (m, s3) := s2.readPred p l g
    let (em, s4) := s3.effMask p l q v
    .next ((s4.issueRow p l 2 d (rowMix (if i = 1 then ~~~ m else m) x y) em).laneRetire p l 8 w k)
/-- VSFN: an FP32 special function; bound 12 (R205, R206, R215). -/
def execVsfn (d a f q v w k : Nat) (s : State) : Out := lane1 12 (sfn f) d a q v 8 w k s

/-- Lanes of a segment (R160, R216, R258, R261). -/
def segWidth (seg width : Nat) : Nat := Nat.min (32 / 2 ^ seg) width
/-- The 32-bit working value of an element (R204, R216): FP32 for float types, else extended by its signedness. -/
def widen (t x : Nat) : W32 :=
  if t = 0 then BitVec.ofNat 32 x else if t < 7 then toF32 (elemVal t x) else BitVec.ofInt 32 (elemInt t x)
/-- One combination of VRED and VSCAN (R204, R216): 0 sum, 1 min, 2 max, 3 and, 4 or, 5 xor. -/
def combine (t o : Nat) (x y : W32) : W32 :=
  if t < 7 then (if o = 0 then fadd32 x y else fpick32 (o == 2) x y)
  else if o = 0 then x + y
  else if o = 1 then (if (if typeSigned t then x.slt y else x.ult y) then x else y)
  else if o = 2 then (if (if typeSigned t then x.slt y else x.ult y) then y else x)
  else if o = 3 then x &&& y else if o = 4 then x ||| y else x ^^^ y
/-- One side of a combination absent passes the other (R204). -/
def combineOpt (t o : Nat) : Option W32 → Option W32 → Option W32
  | none, y => y
  | x, none => x
  | some x, some y => some (combine t o x y)
/-- One level of the tree of R204. -/
def pairUp (t o : Nat) : List (Option W32) → List (Option W32)
  | x :: y :: rest => combineOpt t o x y :: pairUp t o rest
  | l => l
/-- The reduction of a power-of-two number of positions, level by level (R204). -/
def treeReduce (t o : Nat) : Nat → List (Option W32) → Option W32
  | 0, l => (l.head?).getD none
  | n + 1, l => treeReduce t o n (pairUp t o l)
/-- The enabled elements of a segment of n lanes from lane b, with their working values, absent ones none. -/
def segElems (t b n : Nat) (em : W32) (r : Row) : List (Option W32) :=
  let per := 32 / typeWidth t
  (List.range (n * per)).map fun e => if em.getLsbD (b + e / per) then some (widen t (rowElem (typeWidth t) r (b * per + e))) else none
/-- VRED: a segmented reduction into every enabled lane; bound 8 (R204, R216). -/
def execVred (d a o g t q v w k : Nat) (s : State) : Out :=
  onLane s fun p l =>
    let (x, s1) := s.operandW p l (typeWidth t) a
    let (em, s2) := s1.effMask p l q v
    let n := segWidth g (s.width p)
    let sums := (List.range (32 / n)).map fun j => ((treeReduce t o 7 (segElems t (j * n) n em x)).getD 0)
    .next ((s2.issueRow p l 8 d (rowOf fun i => sums.getD (i / n) 0) em).laneRetire p l 8 w k)
/-- The identity of an exclusive scan, as a working value (R217). -/
def scanIdentity (t o : Nat) : W32 :=
  if o = 0 || o = 4 || o = 5 then 0 else if o = 3 then BitVec.allOnes 32
  else if t < 7 then (if o = 1 then 0x7F800000 else 0xFF800000)
  else BitVec.ofInt 32 (if o = 1 then intMax t else intMin t)
/-- The working value written back in the element type (R217). -/
def narrow (t : Nat) (x : W32) : Nat :=
  if t = 0 then x.toNat else if t < 7 then convElem 0 t 0 false x.toNat else x.toNat % 2 ^ typeWidth t
/-- A sequential scan of a segment's positions (R204, R217). -/
def scanList (t o excl : Nat) : Option W32 → List (Option W32) → List W32
  | _, [] => []
  | run, none :: rest => 0 :: scanList t o excl run rest
  | run, some x :: rest =>
    let next := match run with
      | none => x
      | some r => combine t o r x
    (if excl = 1 then run.getD (scanIdentity t o) else next) :: scanList t o excl (some next) rest
/-- VSCAN: a segmented scan; bound 8 (R204, R217). -/
def execVscan (d a o x g t q v w k : Nat) (s : State) : Out :=
  onLane s fun p l =>
    let wd := typeWidth t
    let (r, s1) := s.operandW p l wd a
    let (em, s2) := s1.effMask p l q v
    let n := segWidth g (s.width p)
    let outs := (List.range (32 / n)).flatMap fun j => scanList t o x none (segElems t (j * n) n em r)
    .next ((s2.issueRow p l 8 d (rowOf fun i => packElems wd fun j => narrow t (outs.getD (i * (32 / wd) + j) 0)) em).laneRetire p l 8 w k)
/-- The source lane of VSHFL for lane i (R160, R258, R261): none when it lies outside lane i's segment. -/
def shuffleFrom (m delta w i : Nat) (b : W32) : Option Nat :=
  let base := i - i % w
  if m = 0 then some (base + b.toNat % 32 % w)
  else if m = 1 then (if delta ≤ i % w then some (i - delta) else none)
  else if m = 2 then (if i % w + delta < w then some (i + delta) else none)
  else if (i % w) ^^^ delta < w then some (base + ((i % w) ^^^ delta)) else none
/-- VSHFL: moves lane words across lanes; bound 4 (R160). -/
def execVshfl (d a b m g o q v w k : Nat) (s : State) : Out :=
  onLane s fun p l =>
    let (x, s1) := s.operand p l a
    let (y, s2) := s1.operand p l b
    let (em, s3) := s2.effMask p l q v
    let n := segWidth g (s.width p)
    .next ((s3.issueRow p l 4 d (rowOf fun i => rowWord x ((shuffleFrom m o n i (rowWord y i)).getD i)) em).laneRetire p l 8 w k)
/-- VPERM's result for index x over tables of n elements from element b0 (R218, R258). -/
def permElem (wd n b0 two x : Nat) (w16 : Bool) (ta tc : Row) : Nat :=
  let x := if w16 then (if two = 1 then x % (2 * n) else x % n) else x
  if x < n then rowElem wd ta (b0 + x) else if two = 1 && x < 2 * n then rowElem wd tc (b0 + (x - n)) else 0
/-- VPERM: element permutation by index; bound 4 (R218). -/
def execVperm (d a b c z t q v w k : Nat) (s : State) : Out :=
  onLane s fun p l =>
    let wd := typeWidth t
    let per := 32 / wd
    let (x, s1) := s.operandW p l wd a
    let (y, s2) := s1.operandW p l wd b
    let (u, s3) := if z = 1 then s2.operandW p l wd c else (0, s2)
    let (em, s4) := s3.effMask p l q v
    let n := s.width p * per
    let b0 := s.shift p l * per
    let row := rowOf fun i => packElems wd fun j => permElem wd n b0 z (elemOf wd (rowWord y i) j) (s.place p).w16 x u
    .next ((s4.issueRow p l 4 d row em).laneRetire p l 8 w k)
/-- VROTM: a misaligned byte span of two rows; bound 4 (R219, R263). -/
def execVrotm (d a b c z o q v w k : Nat) (s : State) : Out :=
  onLane s fun p l =>
    let (x, s1) := s.operand p l a
    let (y, s2) := s1.operand p l b
    let (u, s3) := if z = 1 then s2.scalarCode p l c else (0, s2)
    let (em, s4) := s3.effMask p l q v
    let off := if z = 1 then u.toNat % 128 else o
    let both := x.toNat + y.toNat * 2 ^ 1024
    .next ((s4.issueRow p l 4 d (BitVec.ofNat 1024 (both / 2 ^ (8 * off))) em).laneRetire p l 8 w k)
/-- The exact sum of a lane's products (R207, R223). -/
def dotSum : List Val → Val
  | [] => .fin false 0 0
  | [x] => x
  | x :: t => x.add (dotSum t)
/-- VDOT on one lane (R223): float products summed exactly and added to z with one rounding, integers modulo 2^32. -/
def dotWord (t g : Nat) (x y z : W32) : W32 :=
  let wd := typeWidth t
  let pairs := (List.range (32 / wd)).map fun j => (elemOf wd x j, elemOf wd y j)
  if t < 7 then toF32 ((f32 z).add (dotSum (pairs.map fun e => (elemVal t e.1).mul (elemVal g e.2))))
  else BitVec.ofInt 32 (z.toInt + (pairs.map fun e => elemInt t e.1 * elemInt g e.2).foldl (fun u v => u + v) 0)
/-- VDOT; bound 5 (R223). -/
def execVdot (d a b c t g q v w k : Nat) (s : State) : Out :=
  onLane s fun p l =>
    let wd := typeWidth t
    let (x, s1) := s.operandW p l wd a
    let (y, s2) := s1.operandW p l wd b
    let (z, s3) := s2.operand p l c
    let (em, s4) := s3.effMask p l q v
    .next ((s4.issueRow p l 5 d (rowOf fun i => dotWord t g (rowWord x i) (rowWord y i) (rowWord z i)) em).laneRetire p l 8 w k)
/-- The enabled lanes of a mask, ascending. -/
def lanesOf (em : W32) : List Nat := (List.range 32).filter fun i => em.getLsbD i
/-- VMXQ: the enabled lanes quantised as one MX group, the scale into a scalar; bound 8 (R199, R224); ILLEGAL where MX formats are
disabled (R253). -/
def execVmxq (d a c x f m q v w k : Nat) (s : State) : Out :=
  onLane s fun p l =>
    if !s.hasFeature p 3 then .next (s.laneIllegalHere p l) else
    let (r, s1) := s.operand p l a
    let wd := if m = 2 then 4 else 8
    let (z, s2) := s1.operandW p l wd c
    let (em, s3) := s2.effMask p l q v
    let ls := lanesOf em
    let (scale, codes) := if ls.isEmpty then (0, []) else quantMx (0x10 + m) (ls.map fun i => f32 (rowWord r i))
    let row := rowOf fun i => match findIdx (fun j => j == i) ls 0 with
      | some (n, _) => packElems wd fun j => if j = f then codes.getD n 0 else elemOf wd (rowWord z i) j
      | none => 0
    .next (((s3.issueRow p l 8 d row em).issueScalar p l 8 x (BitVec.ofNat 32 scale)).laneRetire p l 8 w k)
/-- The bits of a word in reverse order. -/
def bitReverse (x : W32) : W32 := BitVec.ofNat 32 ((List.range 32).foldl (fun acc i => if x.getLsbD i then acc + 2 ^ (31 - i) else acc) 0)
/-- VBIT on one lane (R222): POPC, CLZ, BREV, EXTN, EXTI, INS, BSEL. -/
def bitWord (o : Nat) (a b c : W32) : W32 :=
  let pos := b.toNat % 32
  let len := Nat.min (b.toNat / 32 % 64) 32
  let m := BitVec.ofNat 32 ((2 ^ len - 1) * 2 ^ pos)
  if o = 0 then BitVec.ofNat 32 (popCount a.toNat 32)
  else if o = 1 then BitVec.ofNat 32 (if a = 0 then 32 else 31 - Nat.log2 a.toNat)
  else if o = 2 then bitReverse a
  else if o = 3 then BitVec.ofNat 32 (a.toNat / 2 ^ pos % 2 ^ len)
  else if o = 4 then (if len = 0 then 0 else BitVec.ofInt 32 (sgn len (a.toNat / 2 ^ pos)))
  else if o = 5 then (a &&& ~~~ m) ||| ((c <<< pos) &&& m)
  else (a &&& c) ||| (b &&& ~~~ c)
/-- VBIT; bound 3 (R222). -/
def execVbit (d a b c o q v w k : Nat) (s : State) : Out :=
  onLane s fun p l =>
    let (x, s1) := s.operand p l a
    let (y, s2) := if 3 ≤ o then s1.operand p l b else (0, s1)
    let (z, s3) := if 5 ≤ o then s2.operand p l c else (0, s2)
    let (em, s4) := s3.effMask p l q v
    .next ((s4.issueRow p l 3 d (rowOf fun i => bitWord o (rowWord x i) (rowWord y i) (rowWord z i)) em).laneRetire p l 8 w k)
/-- VBCAST: one element to every element; bound 2 (R220, R258). -/
def execVbcast (d a b z i t q v w k : Nat) (s : State) : Out :=
  onLane s fun p l =>
    let wd := typeWidth t
    let per := 32 / wd
    let (x, s1) := s.operandW p l wd a
    let (n, s2) := if z = 1 then s1.scalarCode p l b else (BitVec.ofNat 32 i, s1)
    let (em, s3) := s2.effMask p l q v
    let e := s.shift p l * per + n.toNat % (s.width p * per)
    .next ((s3.issueRow p l 2 d (rowOf fun _ => packElems wd fun _ => rowElem wd x e) em).laneRetire p l 8 w k)
/-- VGETL: one lane's word into a scalar, when the mask is nonzero; bound 2 (R221, R258). -/
def execVgetl (d a b i q v w k : Nat) (s : State) : Out :=
  onLane s fun p l =>
    let (x, s1) := s.operand p l a
    let (n, s2) := if b = 0 then (BitVec.ofNat 32 i, s1) else s1.scalarCode p l b
    let (em, s3) := s2.effMask p l q v
    let lane := s.shift p l + n.toNat % s.width p
    .next ((if em = 0 then s3 else s3.issueScalar p l 2 d (rowWord x lane)).laneRetire p l 8 w k)

end Sys2Proof.Machine
end

