-- ==== Sys2Proof/Machine/Nest.lean ====
section
/-! DEFINITION. The matrix engine: nests, their checks, steps and drains (R207-R209, R273-R281). -/
namespace Sys2Proof.Machine

/-- The consumer cursor of a ring as it will stand when a nest issued now starts (R277): after the takes that the active nest still makes. -/
def State.startCursor (s : State) (p r : Nat) : Nat :=
  let x := s.ring p r
  let left (a : Active) (ring : Nat) (adv : Option Nat) (held : Option Nat) : Nat :=
    match adv with
    | none => 0
    | some l => if ring != r || a.phase == .finished then 0
        else
          let here := a.phase == .take && a.nest.firstOf a.idx l && held.isNone
          a.nest.takes l - a.nest.takeNo a.idx l - b2n (!here)
  match (s.place p).active with
  | none => x.cc
  | some a => (x.cc + left a a.nest.ringa a.nest.advA a.stageA + left a a.nest.ringb a.nest.advB a.stageB) % Nat.max 1 (ringStages x.desc)
/-- The first row that an operand reads at a tuple: of the buffer, or of the stage held then (R276, R277). -/
def State.plannedRow (s : State) (p : Nat) (n : Nest) (ring : Nat) (adv : Option Nat) (cc : Nat) (idx : List Nat) (o : Int) : Nat :=
  if ring = 15 then wrapInt 14 o
  else
    let d := (s.ring p ring).desc
    let st := (cc + n.takeNo idx (adv.getD 0)) % Nat.max 1 (ringStages d)
    wrapInt 14 ((ringBase d + st * ringRows d : Nat) + o)
/-- The ring rules of R277 for one operand. -/
def State.ringOk (s : State) (p : Nat) (ring : Nat) (wb : Bool) (advs : List Nat) : Bool :=
  advs.length ≤ 1 && (advs.isEmpty == (ring == 15)) && (ring == 15 || ((s.ring p ring).desc != 0 && ringWb (s.ring p ring).desc == wb))
/-- What MGO finds of a nest (R277, R278): NESTINVALID, BANKCONFLICT, or the k values per row of A and B. -/
inductive NestCheck where
  | invalid
  | conflict
  | ok (kprA kprB : Nat)
  deriving DecidableEq, Repr
/-- An integer bank format (R208). -/
def intFmt (f : Nat) : Bool := f == 7 || f == 8
/-- The rows of one operand over the whole nest: for each tuple, the first row of each sub-array's stream. -/
def State.nestRows (s : State) (p : Nat) (n : Nest) (ring : Nat) (adv : Option Nat) (off : List Nat → Nat → Int) : List (List Nat) :=
  let cc := if ring = 15 then 0 else s.startCursor p ring
  (List.range n.total).map fun t => let idx := n.tuple t; [0, 1, 2, 3].map fun j => s.plannedRow p n ring adv cc idx (off idx j)
/-- Format codes of the banks that rows of a step of m rows lie in. -/
def State.rowFmts (s : State) (p : Nat) (wb : Bool) (m : Nat) (rows : List (List Nat)) : List Nat :=
  rows.flatMap fun rs => rs.flatMap fun r => (List.range m).map fun i => s.rowReg p wb (r + i) % 256
/-- Every format of a list is the first one, which is not raw (R277). -/
def oneFmt : List Nat → Option Nat
  | [] => none
  | f :: t => if f != 0 && t.all (fun g => g == f) then some f else none
/-- The last row of every step of a ring operand lies in 0 to rows - 1 (R277). -/
def State.ringFits (s : State) (p : Nat) (n : Nest) (ring m : Nat) (off : List Nat → Nat → Int) : Bool :=
  ring == 15 || (List.range n.total).all fun t =>
    let idx := n.tuple t
    [0, 1, 2, 3].all fun j => 1 ≤ off idx j + (m : Int) && off idx j + (m : Int) ≤ (ringRows (s.ring p ring).desc : Nat)
/-- The rows of a step lie in one bank (R277). -/
def spanOk (m : Nat) (rows : List (List Nat)) : Bool := rows.all fun rs => rs.all fun r => r % 2048 + m ≤ 2048
/-- In every cycle the rows that distinct streams read lie in distinct banks (R278): `stream` numbers the streams, those of the same offset being
one (R274). -/
def banksOk (stream : Nat → Nat) (m : Nat) (rows : List (List Nat)) : Bool :=
  rows.all fun rs => (List.range m).all fun c => [0, 1, 2, 3].all fun i => [0, 1, 2, 3].all fun j =>
    stream i == stream j || (rs.getD i 0 + c) % 16384 / 2048 != (rs.getD j 0 + c) % 16384 / 2048
/-- MGO's checks (R277, then R278). -/
def State.checkNest (s : State) (p : Nat) (n : Nest) : NestCheck :=
  let drains := n.flagged fun v => v.drain
  let d := n.drainLevel
  let advsA := n.flagged fun v => v.adva
  let advsB := n.flagged fun v => v.advb
  if drains.length != 1 || levels6.any (fun l => d < l && (n.level l).present && !(n.level l).k) then .invalid
  else if !s.ringOk p n.ringa false advsA || !s.ringOk p n.ringb true advsB || (n.ringa != 15 && n.ringa == n.ringb) then .invalid
  else
    let rowsA := s.nestRows p n n.ringa n.advA n.offA
    let rowsB := s.nestRows p n n.ringb n.advB n.offB
    match oneFmt (s.rowFmts p false 1 rowsA), oneFmt (s.rowFmts p true 1 rowsB) with
    | some fa, some fb =>
      let kstep := Nat.max (kprOf fa) (kprOf fb)
      let na := kstep / kprOf fa
      let nb := kstep / kprOf fb
      if intFmt fa != intFmt fb || (n.out == 2) != intFmt fa then .invalid
      else if !s.ringFits p n n.ringa na n.offA || !s.ringFits p n n.ringb nb n.offB then .invalid
      else if !spanOk na rowsA || !spanOk nb rowsB then .invalid
      else if !banksOk (streamA n.mode) na rowsA || !banksOk (streamB n.mode) nb rowsB then .conflict
      else .ok (kprOf fa) (kprOf fb)
    | _, _ => .invalid

/-- The active nest changed. -/
def State.modActive (s : State) (p : Nat) (f : Active → Active) : State := s.modPlace p fun q => { q with active := q.active.map f }
/-- Accumulators at +0 (R276). -/
def zeroAcc : List (List (List W32)) := List.replicate 4 (List.replicate 128 (List.replicate 128 0))
/-- NEST_ACTIVATE (R280): the pending nest starts, or is cancelled by a failed wait (R125). -/
def execNestActivate (p : Nat) (s : State) : Out :=
  match (s.place p).active, (s.place p).pendingN with
  | none, some (n, c) =>
    if !c.ready || !s.serves p then .next s
    else
      let t := s.modPlace p fun q => { q with pendingN := none }
      if c.cancelled then .next (t.endCmd p c false)
      else
        let a : Active := { nest := n, cmd := c, idx := [0, 0, 0, 0, 0, 0], phase := .take, stageA := none, stageB := none
                            kprA := c.arg % 16, kprB := c.arg / 16, acc := zeroAcc, spoiled := [false, false, false, false], todo := [], got := []
                            drain := none, drains := 0 }
        .next (t.modPlace p fun q => { q with active := some a })
  | _, _ => .next s

/-- The nest stands where pre-emption stops it (R291): at a new iteration of its innermost advance level, or at a new step. A drain goes on. -/
def Active.atStop (a : Active) : Bool :=
  a.phase == .take && (if a.nest.advA.isNone && a.nest.advB.isNone then true
    else a.nest.firstOf a.idx (Nat.max (a.nest.advA.getD 0) (a.nest.advB.getD 0)))
/-- One operand's take at the start of a step (R273, R276): nothing to take, a stage taken, or none FULL. -/
def State.takeStage (s : State) (p ring : Nat) (need : Bool) (held : Option Nat) : Option (Option Nat × State) :=
  if !need || held.isSome then some (held, s)
  else
    let x := s.ring p ring
    if x.stage x.cc = .full then
      some (some x.cc, s.modPlace p fun q => { q with rings := tabSet q.rings ring { x with
        stages := listMod x.stages x.cc (fun _ => .draining), cc := (x.cc + 1) % Nat.max 1 (ringStages x.desc) } })
    else none
/-- The rows that a step reads (R274, R276): of both operands, each stream's rows in turn, the scales as a row of their own (R266). Streams with the
same offset read one row once. -/
def Active.reads (a : Active) : List RowRead :=
  let kstep := Nat.max a.kprA a.kprB
  let of_ (wb : Bool) (streams : List Nat) (m : Nat) : List RowRead :=
    streams.eraseDups.flatMap fun o => (List.range m).flatMap fun i => [⟨wb, o, i, false⟩, ⟨wb, o, i, true⟩]
  of_ false ([0, 1, 2, 3].map (streamA a.nest.mode)) (kstep / a.kprA) ++ of_ true ([0, 1, 2, 3].map (streamB a.nest.mode)) (kstep / a.kprB)
/-- The running nest is discarded, its token failing (R281). -/
def State.dropNest (s : State) (p : Nat) (a : Active) : State := (s.modPlace p fun q => { q with active := a.discard }).endCmd p a.cmd false
/-- A nest takes the stages its step starts with (R273, R276); one that waits for a stage in a halted placement is discarded (R281). -/
def State.nestTake (s : State) (p : Nat) (a : Active) : State :=
  let wait (t : State) : State := if (t.place p).halted then t.dropNest p a else t
  if !s.lanesRun p && a.atStop then s
  else match s.takeStage p a.nest.ringa (a.nest.begins a.idx a.nest.advA) a.stageA with
    | none => wait s
    | some (sa, t) =>
      let t1 := t.modActive p fun x => { x with stageA := sa }
      match t1.takeStage p a.nest.ringb (a.nest.begins a.idx a.nest.advB) a.stageB with
      | none => wait t1
      | some (sb, u) => u.modActive p fun x => { x with stageB := sb, phase := .step, todo := a.reads, got := [] }
/-- NEST_STAGE_TAKE (R276). -/
def execNestStageTake (p : Nat) (s : State) : Out :=
  match (s.place p).active with
  | some a => .next (if a.phase = .take then s.nestTake p a else s)
  | none => .next s

/-- A value read back as an integer (R208). -/
def Val.toZ : Val → Int
  | .fin neg m e => scaledInt neg m e 0
  | _ => 0
/-- The exact sum of a group's products (R207); NaN for infinities of both signs. -/
def groupSum (a b : List Val) : Val :=
  match (a.zip b).map fun x => x.1.mul x.2 with
  | [] => .fin false 0 0
  | x :: t => t.foldl Val.add x
/-- One output's accumulation over a step, group by group (R207, R208): g k values at a time. -/
def accStep (isInt : Bool) (g : Nat) (a b : List Val) : Nat → W32 → W32
  | 0, acc => acc
  | k + 1, acc =>
    let new := if isInt then acc + BitVec.ofInt 32 (((a.take g).zip (b.take g)).foldl (fun z x => z + x.1.toZ * x.2.toZ) 0)
      else toF32 ((f32 acc).add (groupSum (a.take g) (b.take g)))
    accStep isInt g (a.drop g) (b.drop g) k new
/-- The row of an operand at this step (R276). -/
def State.nestRow (s : State) (p ring : Nat) (held : Option Nat) (o : Int) : Nat :=
  if ring = 15 then wrapInt 14 o
  else
    let d := (s.ring p ring).desc
    wrapInt 14 ((ringBase d + held.getD 0 * ringRows d : Nat) + o)
/-- The row of AB or WB that a read of the step names: row `row` of the stream with that offset (R276). -/
def State.readRow_ (s : State) (p : Nat) (a : Active) (r : RowRead) : Nat :=
  let at_ (ring : Nat) (held : Option Nat) (off : List Nat → Nat → Int) (stream : Nat → Nat) : Nat :=
    (s.nestRow p ring held (off a.idx (([0, 1, 2, 3].find? fun j => stream j == r.stream).getD 0)) + r.row) % 16384
  if r.wb then at_ a.nest.ringb a.stageB a.nest.offB (streamB a.nest.mode) else at_ a.nest.ringa a.stageA a.nest.offA (streamA a.nest.mode)
/-- One row read by the step, whole and as one action (R266): the k-th of those left. -/
def State.nestReadOne (s : State) (p : Nat) (a : Active) (k : Nat) : State :=
  match a.todo[k % a.todo.length]? with
  | none => s
  | some r =>
    let x := s.readRow_ p a r
    let reg := s.rowReg p r.wb x
    let (bs, t) := s.readRowAs p r.wb (if r.scales then (scalePlace reg x).1 else x) (if r.scales then 2 else 1)
    let got : RowGot := ⟨r, x, reg, bs⟩
    t.modActive p fun y => { y with todo := y.todo.erase r, got := y.got ++ [got] }
/-- What a step has read of one operand for a stream (R276): 128 columns of kstep values, and whether every read fits the nest. The register
as it stood at the payload's read says how the row decodes. -/
def State.operandOf (s : State) (p : Nat) (a : Active) (wb : Bool) (stream m kpr : Nat) : List (List Val) × Bool :=
  let rows := (List.range m).map fun i =>
    let find (sc : Bool) : RowGot := (a.got.find? fun g => g.read == ⟨wb, stream, i, sc⟩).getD ⟨⟨wb, stream, i, sc⟩, 0, 0, []⟩
    let x := find false
    let f := x.reg % 256
    let fits := f != 0 && kprOf f == kpr && intFmt f == (a.nest.out == 2)
    let vals : List Val :=
      if !fits then []
      else if scaled f then
        let scales := ((find true).bytes.drop (scalePlace x.reg x.at_).2).take (if bit x.reg 8 then 128 else 4 * kpr)
        rowValues f (bit x.reg 8) (s.book p (bits x.reg 31 24)) x.bytes scales
      else (unpackBits (16 / kpr) (128 * kpr) x.bytes).map (elemVal f)
    (vals, fits)
  ((List.range 128).map fun c => rows.flatMap fun r => (r.1.drop (c * kpr)).take kpr, rows.all fun r => r.2)
/-- k values per group of formats with a kpr (R207, R268). -/
def kpcOfKpr (k : Nat) : Nat := if k = 8 then 2 else k
/-- The accumulation of one step (R276, R207, R208). -/
def State.nestAccumulate (s : State) (p : Nat) (a : Active) : Active :=
  let isInt := a.nest.out == 2
  let kstep := Nat.max a.kprA a.kprB
  let g := Nat.min (kpcOfKpr a.kprA) (kpcOfKpr a.kprB)
  let fresh := a.nest.firstOf a.idx a.nest.drainLevel
  let acc0 := if fresh then zeroAcc else a.acc
  let spoil0 := if fresh then [false, false, false, false] else a.spoiled
  let one (j : Nat) : List (List W32) × Bool :=
    let (av, fa) := s.operandOf p a false (streamA a.nest.mode j) (kstep / a.kprA) a.kprA
    let (bv, fb) := s.operandOf p a true (streamB a.nest.mode j) (kstep / a.kprB) a.kprB
    let old := acc0.getD j []
    if !fa || !fb || spoil0.getD j false then (old, true)
    else ((old.zip av).map fun m => (m.1.zip bv).map fun n => accStep isInt g m.2 n.2 (kstep / g) n.1, false)
  let rs := [0, 1, 2, 3].map one
  { a with acc := rs.map fun r => r.1, spoiled := rs.map fun r => r.2, got := [] }
/-- The tuple after the current one, or the end of the nest. -/
def Active.advance (a : Active) : Active :=
  let t := levels6.foldl (fun acc l => acc * a.nest.count l + a.idx.getD l 0) 0
  if t + 1 < a.nest.total then { a with idx := a.nest.tuple (t + 1), phase := .take } else { a with phase := .finished }
/-- CB rows of a tile (R279). -/
def Nest.tileRows (n : Nest) : Nat := if n.out = 1 then 256 else 512
/-- The planes swap where no drain is in flight (R274, R276): the sums begin to drain and the nest goes on; else it waits. -/
def Active.swap (a : Active) : Active :=
  if a.drain.isNone then { a with drain := some ⟨a.idx, a.acc, a.spoiled, 0, List.range a.nest.tileRows⟩ }.advance else { a with phase := .swap }
/-- The sums of a step whose rows are all read (R276): the stages whose last read this was are EMPTY, then the planes swap or the next tuple comes. -/
def State.nestSum (s : State) (p : Nat) (a : Active) : State :=
  let a1 := s.nestAccumulate p a
  let ends (adv : Option Nat) : Bool := match adv with
    | some l => a.nest.lastOf a.idx l
    | none => false
  let release (t : State) (yes : Bool) (ring : Nat) (held : Option Nat) : State :=
    match held with
    | some st => if yes then t.setStage p ring st .empty else t
    | none => t
  let s1 := release (release s (ends a.nest.advA) a.nest.ringa a.stageA) (ends a.nest.advB) a.nest.ringb a.stageB
  let a2 := { a1 with stageA := if ends a.nest.advA then none else a1.stageA, stageB := if ends a.nest.advB then none else a1.stageB }
  s1.modPlace p fun q => { q with active := some (if a.nest.lastOf a.idx a.nest.drainLevel then a2.swap else a2.advance) }

/-- An element drained (R209, R279): alone, or added to what stands there; a spoiled one is written as R276 says. -/
def drained (out : Nat) (plus spoiled : Bool) (old : Nat) (acc : W32) : Nat :=
  if spoiled then (if out = 0 then 0x7FC00000 else if out = 1 then 0x7FC0 else 0)
  else if out = 2 then (if plus then (acc + BitVec.ofNat 32 old).toNat else acc.toNat)
  else
    let sum := if plus then toF32 ((decodeF (if out = 1 then bf16 else fp32) old).add (f32 acc)) else acc
    if out = 1 then roundNE bf16 (f32 sum) else sum.toNat
/-- Where the drain of a tuple writes sub-array j, and whether it adds (R276, R279). -/
def Nest.drainRow (n : Nest) (idx : List Nat) (j : Nat) : Int := n.cbase + n.offset idx (n.drainLevel + 1) (fun v => v.sc) + j * n.sc
def Nest.plus (n : Nest) (idx : List Nat) : Bool :=
  n.add || levels6.any fun l => l ≤ n.drainLevel && (n.level l).present && (n.level l).k && idx.getD l 0 != 0
/-- One CB row of sub-array j's tile written, as one action (R266, R279): row r of the tile. -/
def Nest.drainPut (n : Nest) (d : Drain) (j : Nat) (cb : Tab Row) (r : Nat) : Tab Row :=
  let per := if n.out = 1 then 2 else 4
  let width := if n.out = 1 then 16 else 32
  let at_ := wrapInt 14 (n.drainRow d.idx j + (r : Nat))
  let old := unpackBits width (1024 / width) (leBytes 128 (tabGet 0 cb at_).toNat)
  let xs := (((d.acc.getD j []).getD (r / per) []).drop (128 / per * (r % per))).take (128 / per)
  let new := (old.zip xs).map fun x => drained n.out (n.plus d.idx) (d.spoiled.getD j false) x.1 x.2
  tabPut 0 cb at_ (BitVec.ofNat 1024 (leNat (packBits width new)))
/-- Rows of sub-array j's tile written to CB (R279). -/
def State.drainRows (s : State) (p : Nat) (n : Nest) (d : Drain) (j : Nat) (rs : List Nat) : State :=
  s.modPlaza p fun y => { y with cb := rs.foldl (n.drainPut d j) y.cb }
/-- The whole tile of sub-array j (R279). -/
def State.drainTile (s : State) (p : Nat) (n : Nest) (d : Drain) (j : Nat) : State := s.drainRows p n d j (List.range n.tileRows)
/-- A drain after rows of its sub-array have been written: the next sub-array follows, and after the last one the drain is over (R276, R279), a
discarded nest with it (R281). -/
def Active.drainedRows (a : Active) (d : Drain) (left : List Nat) : Option Active :=
  if !left.isEmpty then some { a with drain := some { d with rows := left } }
  else if d.sub < 3 then some { a with drain := some { d with sub := d.sub + 1, rows := List.range a.nest.tileRows } }
  else if a.phase = .discarded then none
  else some { a with drain := none, drains := a.drains + 1 }
/-- One row of the drain in flight is written (R266, R279): the k-th of those left of its sub-array. -/
def State.nestDrainOne (s : State) (p k : Nat) : State :=
  match (s.place p).active with
  | none => s
  | some a => match a.drain with
    | none => s
    | some d => match d.rows[k % d.rows.length]? with
      | none => s
      | some r => (s.drainRows p a.nest d d.sub [r]).modPlace p fun q => { q with active := a.drainedRows d (d.rows.erase r) }
/-- The rows of the drain's sub-array that are left (R279). -/
def State.drainSub (s : State) (p : Nat) : State :=
  match (s.place p).active with
  | none => s
  | some a => match a.drain with
    | none => s
    | some d => (s.drainRows p a.nest d d.sub d.rows).modPlace p fun q => { q with active := a.drainedRows d [] }
/-- Sub-arrays that a drain still has to write. -/
def Place.draining (q : Place) : Nat :=
  match q.active with
  | none => 0
  | some a => match a.drain with
    | none => 0
    | some d => 4 - d.sub
/-- One move of the running nest's accumulation (R276); k says which row of a step is read next. -/
def State.nestStep (s : State) (p k : Nat) : State :=
  match (s.place p).active with
  | none => s
  | some a => match a.phase with
    | .take => s.nestTake p a
    | .step => if a.todo.isEmpty then s.nestSum p a else s.nestReadOne p a k
    | .swap => s.modPlace p fun q => { q with active := some a.swap }
    | .finished => s
    | .discarded => s
/-- Moves of the running nest's accumulation, rows in order. -/
def State.nestMoves (s : State) (p : Nat) : Nat → State
  | 0 => s
  | n + 1 => (s.nestStep p 0).nestMoves p n
/-- NEST_DRAIN: the drain in flight writes its remaining sub-arrays, in rising order (R279). -/
def execNestDrain (p : Nat) (s : State) : Out := .next ((List.range (s.place p).draining).foldl (fun t _ => t.drainSub p) s)
/-- NEST_COMPLETE: after the last drain the command's token completes (R281). -/
def execNestComplete (p : Nat) (s : State) : Out :=
  match (s.place p).active with
  | some a => .next (if a.phase = .finished && a.drain.isNone then (s.modPlace p fun q => { q with active := none }).endCmd p a.cmd true else s)
  | none => .next s

end Sys2Proof.Machine
end

