-- ==== Sys2Proof/Machine/Matrix.lean ====
section
/-! DEFINITION. The matrix-engine instructions: MNSET, MGO, RSET, RWAIT, RMARK, MSTAT (R280, R282-R287, R290). -/
namespace Sys2Proof.Machine

/-- A shadow-nest write, or ILLEGAL for a reserved bit of its register values (R283). -/
def setShadow (ok : Word → Word → Bool) (f : Word → Word → Nest → Nest) (a b : Nat) (s : State) : Out :=
  onContext s jobCtx fun p c =>
    let x := s.g p c a
    let y := s.g p c b
    if ok x y then .next ((s.modPlace p fun q => { q with shadow := f x y q.shadow }).retire p c id) else .next (s.illegal p c)
/-- MNSET of level n with its flags (R283). -/
def execMnsetLvl (n a f : Nat) (s : State) : Out :=
  setShadow (fun _ _ => true) (fun x _ q =>
    let v := x.toNat
    let l : NestLevel := ⟨bits v 15 0, sgn 16 (bits v 31 16), sgn 16 (bits v 47 32), sgn 16 (bits v 63 48), bit f 0, bit f 1, bit f 2, bit f 3⟩
    { q with levels := listMod q.levels n fun _ => l }) a 0 s
/-- MNSET of the bases and rings (R283). -/
def execMnsetBase (a r q : Nat) (s : State) : Out :=
  setShadow (fun x _ => bits x.toNat 15 14 == 0 && bits x.toNat 31 30 == 0 && bits x.toNat 63 46 == 0) (fun x _ n =>
    { n with abase := bits x.toNat 13 0, bbase := bits x.toNat 29 16, cbase := bits x.toNat 45 32, ringa := r, ringb := q }) a 0 s
/-- MNSET of the control part (R283). -/
def execMnsetCtl (a b : Nat) (s : State) : Out :=
  setShadow (fun x y => bits x.toNat 63 5 == 0 && bits x.toNat 3 2 != 3 && bits y.toNat 63 48 == 0) (fun x y n =>
    { n with mode := bits x.toNat 1 0, out := bits x.toNat 3 2, add := bit x.toNat 4, sa := sgn 16 (bits y.toNat 15 0)
             sb := sgn 16 (bits y.toNat 31 16), sc := sgn 16 (bits y.toNat 47 32) }) a b s
/-- The major opcode of MGO (R282). -/
def majMgo : Nat := 0x68
/-- MGO: the shadow into the pending slot, after its checks (R277, R278, R280, R284). -/
def execMgo (t u v w : Nat) (s : State) : Out :=
  onContext s jobCtx fun p c =>
    let q := s.place p
    if (s.token p t).st = .outstanding || q.pendingN.isSome then .next (s.block p c (.mgo t u v w))
    else match s.checkNest p q.shadow with
      | .invalid => .next (s.trap p c .nestinvalid 0)
      | .conflict => .next (s.trap p c .bankconflict 0)
      | .ok ka kb =>
        let (x, s1) := s.newCmd p c majMgo 0 0 0 (ka + 16 * kb) t u v w
        .next ((s1.modPlace p fun y => { y with pendingN := some (q.shadow, x) }).retire p c id)

/-- A ring descriptor value that may be set (R272). -/
def ringDescOk (d : Word) : Bool :=
  d == 0 || (bits d.toNat 63 32 == 0 && bits d.toNat 15 15 == 0 && 2 ≤ ringStages d && ringStages d ≤ 8 && 1 ≤ ringRows d && ringRows d ≤ 2048
    && ringBase d + ringStages d * ringRows d ≤ 16384)
/-- A ring set up with a descriptor: every stage EMPTY, both cursors 0 (R272). -/
def newRing (d : Word) : Ring := ⟨d, 0, 0, List.replicate (ringStages d) .empty⟩
/-- The active or pending nest, or a copy, uses ring n (R285). -/
def Place.ringBusy (q : Place) (n : Nat) : Bool :=
  let names (x : Nest) : Bool := x.ringa == n || x.ringb == n
  q.copyQ.any (fun c => (c.major == majCpy || c.major == majCpyg || c.major == majPuth) && (dstOf c.shape).ring == n)
    || (match q.active with
      | some a => names a.nest
      | none => false)
    || (match q.pendingN with
      | some (x, _) => names x
      | none => false)
/-- RSET: a descriptor written and its ring reset (R285). -/
def execRset (n a : Nat) (s : State) : Out :=
  onContext s jobCtx fun p c =>
    let d := s.g p c a
    let x := s.ring p n
    if !ringDescOk d then .next (s.illegal p c)
    else if x.stages.any (fun st => st == .filling || st == .draining) || (s.place p).ringBusy n then .next (s.trap p c .ringstate 0)
    else .next ((s.modPlace p fun q => { q with rings := tabSet q.rings n (newRing d) }).retire p c id)
/-- RWAIT: until the stage at pc is EMPTY, the stage at cc is FULL, or every stage is EMPTY (R286). -/
def execRwait (d n k : Nat) (s : State) : Out :=
  onContext s jobCtx fun p c =>
    let x := s.ring p n
    if x.desc = 0 then .next (s.trap p c .ringstate 0)
    else
      let met := if k = 0 then x.stage x.pc == .empty else if k = 1 then x.stage x.cc == .full else x.stages.all fun st => st == .empty
      let v := if k = 0 then x.pc else if k = 1 then x.cc else 0
      if met then .next (s.retireReg p c d (BitVec.ofNat 64 v)) else .next (s.block p c (.rwait d n k))
/-- The code of a stage state (R290). -/
def StageState.code : StageState → Nat
  | .empty => 0
  | .filling => 1
  | .full => 2
  | .draining => 3
/-- The stage state of a code. -/
def stageOf (n : Nat) : StageState := if n = 0 then .empty else if n = 1 then .filling else if n = 2 then .full else .draining
/-- A ring as MSTAT reads it (R290). -/
def Ring.image (x : Ring) : Nat :=
  x.cc * 2 ^ 20 + x.pc * 2 ^ 16 + (x.stages.zip (List.range x.stages.length)).foldl (fun acc y => acc + y.1.code * 4 ^ y.2) 0
/-- A ring image that RMARK accepts (R287). -/
def imageOk (stages v : Nat) : Bool :=
  bits v 63 23 == 0 && !bit v 19 && bits v 15 0 < 4 ^ stages && bits v 22 20 < stages && bits v 18 16 < stages
/-- A copy executes on a stage, or the active nest holds it (R273). -/
def Place.stageUsed (q : Place) (n st : Nat) : Bool :=
  q.copyQ.any (fun c => c.started && c.stage == some (n, st)) || match q.active with
    | some a => (a.nest.ringa == n && a.stageA == some st) || (a.nest.ringb == n && a.stageB == some st)
    | none => false
/-- RMARK: a ring's states and cursors forced (R287). -/
def execRmark (n a : Nat) (s : State) : Out :=
  onContext s jobCtx fun p c =>
    let v := (s.g p c a).toNat
    let x := s.ring p n
    let k := ringStages x.desc
    if x.desc = 0 then .next (s.trap p c .ringstate 0)
    else if !imageOk k v then .next (s.illegal p c)
    else if (List.range k).any fun st => (s.place p).stageUsed n st then .next (s.trap p c .ringstate 0)
    else
      let y : Ring := { x with cc := bits v 22 20, pc := bits v 18 16, stages := (List.range k).map fun st => stageOf (v / 4 ^ st % 4) }
      .next ((s.modPlace p fun q => { q with rings := tabSet q.rings n y }).retire p c id)
/-- The words MSTAT reads of the engine (R290). -/
def Place.engineWord (q : Place) : Nat :=
  let shadow := q.shadow.levels.any fun l => l.present
  match q.active with
  | none => b2n shadow * 8 + b2n q.pendingN.isSome * 2
  | some a =>
    a.drains % 2 ^ 32 * 2 ^ 32 + b2n shadow * 8 + b2n a.drain.isSome * 4 + b2n q.pendingN.isSome * 2 + 1
/-- The index of a level of the active nest, 0 with none (R290). -/
def Place.nestIdx (q : Place) (l : Nat) : Nat :=
  match q.active with
  | some a => a.idx.getD l 0
  | none => 0
/-- MSTAT (R290). -/
def execMstat (d sel a : Nat) (s : State) : Out :=
  onContext s jobCtx fun p c =>
    let q := s.place p
    let v := (s.g p c a).toNat
    let n := v % 8
    if (sel = 3 || sel = 4) && 8 ≤ v then .next (s.illegal p c)
    else if sel = 5 && 16 ≤ v then .next (s.illegal p c)
    else
      let r : Nat :=
        if sel = 0 then q.engineWord
        else if sel = 1 then q.nestIdx 0 + q.nestIdx 1 * 2 ^ 16 + q.nestIdx 2 * 2 ^ 32 + q.nestIdx 3 * 2 ^ 48
        else if sel = 2 then q.nestIdx 4 + q.nestIdx 5 * 2 ^ 16
        else if sel = 3 then (s.ring p n).image
        else if sel = 4 then (s.ring p n).desc.toNat
        else (s.bankReg p (bit v 3) n).toNat
      .next (s.retireReg p c d (BitVec.ofNat 64 r))

end Sys2Proof.Machine
end

