-- ==== Sys2Proof/Machine/Packet.lean ====
section
/-! DEFINITION. Issue on the lanes (R14, R27-R30, R53, R152-R155, R179, R258, R262): which group issues, the packet's words, its
checks at decode, and its run. The meaning of an instruction is handed in. -/
namespace Sys2Proof.Machine

/-- A VAMO of the lane group has been issued and has not ended (R226). -/
def State.amoBegun (s : State) (p l : Nat) : Bool := (s.lane p l).busy && !(s.lane p l).stopped && (s.lane p l).vamo.held.isSome
/-- A lane group's FENCE is met (R54): no store of a masked class is still to perform. -/
def Lane.fenceMet (x : Lane) : Bool := x.stores.all fun st => !bit x.fence st.cls
/-- A lane group can issue in cycle `now`, but for what its next instruction finds (R179). -/
def Lane.ready (x : Lane) (now : Nat) : Bool :=
  x.busy && !x.draining && !x.stopped && !x.ended && !x.marking && x.nextAt ≤ now && x.loads ≤ x.loadLimit && x.stores.length ≤ x.storeLimit
    && x.fenceMet
/-- The pipe of a lane group half (R175, R262). -/
def pipeOf (l : Nat) : Nat := l / 2 % 4
/-- The pipe of l has issued nothing in this cycle, and l is ready (R179). -/
def Place.mayIssue (q : Place) (now l : Nat) : Bool :=
  (tabGet (99, 0) q.pipes (pipeOf l)).2 ≤ now && (tabGet Lane.off q.lanes l).ready now
/-- The ready groups of a pipe that come before l (R179): the current one, or, unless l is that, those dispatched before it. -/
def Place.rivals (q : Place) (now l : Nat) : List Nat :=
  let cur := (tabGet (99, 0) q.pipes (pipeOf l)).1
  if l = cur then []
  else (q.lanes.map fun y => y.1).filter fun j =>
    let x := tabGet Lane.off q.lanes j
    j != l && pipeOf j == pipeOf l && x.ready now && (j == cur || x.dispatched < (tabGet Lane.off q.lanes l).dispatched)

/-- The memory-and-special set (R28). -/
def memSpecial : Instr → Bool
  | .vlds .. => true | .vsts .. => true | .vldg .. => true | .vstg .. => true | .vldu .. => true | .vstu .. => true
  | .vamo .. => true | .vldb .. => true | .vstb .. => true | .vsfn .. => true
  | _ => false
/-- Instructions that issue alone (R28): VWAIT, VBEND, VRGN and PUSHP. -/
def alone : Instr → Bool
  | .vwait .. => true | .vbend => true | .vrgn => true | .pushp .. => true
  | _ => false
/-- A counted load or store (R153): none, or whether it counts as a load. -/
def counts : Instr → Option Bool
  | .vldg .. => some true | .vldu .. => some true | .vamo .. => some true
  | .vsts .. => some false | .vstu .. => some false | .vstg .. => some false | .vstb .. => some false
  | _ => none
/-- The v-register destination field, 0 for none (R28). -/
def vdField (i : Instr) (w : Nat) : Nat :=
  match i with
  | .vcmp .. => 0 | .vgetl .. => 0 | .vwait .. => 0
  | .pand .. => 0 | .por .. => 0 | .pxor .. => 0 | .pandn .. => 0 | .pbal .. => 0 | .pset .. => 0 | .ppopc .. => 0 | .pfirst .. => 0 | .pushp .. => 0
  | _ => fld w 24 19
/-- The s-register fields of a lane instruction word (R16, R20, R258), by its major. -/
def scalarFields (w e : Nat) : List Nat :=
  let m := major w
  if 1 ≤ m && m ≤ 0x1D then [fld w 24 17, fld w 16 9, fld w 8 1]
  else if 0x1E ≤ m && m ≤ 0x26 then [fld w 24 17, fld w 16 9]
  else if m == 0x27 || m == 0x28 || m == 0x32 || m == 0x35 then [fld w 24 17]
  else if m == 0x52 then (if fld w 11 5 == 1 then [fld w 18 12] else if fld w 11 5 == 2 then [fld w 18 12 + 128] else [])
  else if 0x59 ≤ m && m ≤ 0x5D then (if m == 0x5A then [fld w 10 3] else [fld w 24 17, fld w 10 3])
  else if m == 0x6F then [fld e 7 0]
  else if m == 0x6C then [fld e 12 5]
  else []
/-- What a W16 kernel further refuses (R258, R261): s registers above 95, and a VSHFL xor delta of its segment width or more. -/
def badHalf (w e : Nat) : Bool :=
  (scalarFields w e).any (fun n => 96 ≤ n) ||
    (major w == 0x68 && fld e 12 11 == 3 && Nat.min (32 / 2 ^ fld e 7 5) 16 ≤ fld e 4 0)
/-- A lane instruction as its group decodes it (R14, R258). -/
def decodeHalf (w16 : Bool) (w e : Nat) : Option Instr := if w16 && badHalf w e then none else decodeLane w e

/-- An instruction of a packet: its address, its words and its meaning as decoded, if any. -/
structure Fetched where
  pc : Word
  w0 : Nat
  w1 : Nat
  i  : Option Instr
/-- An instruction of a feature that the job does not have (R253). -/
def State.laneOff (s : State) (p : Nat) (i : Instr) : Bool :=
  match i with
  | .vamo _ _ _ _ _ _ _ _ t _ _ _ _ _ => t == 0 && !s.hasFeature p 6
  | .vmxq .. => !s.hasFeature p 3
  | _ => false
/-- An instruction of a packet as decoded: none where it raises ILLEGAL before any effect (R14, R253, R258). -/
def State.decodePart (s : State) (p w0 w1 : Nat) : Option Instr := (decodeHalf (s.place p).w16 w0 w1).filter fun i => !s.laneOff p i
/-- The words of one lane instruction, or the address that cannot be fetched, when its fetch leaves no TLB entry (R81, R377). -/
def State.laneInstr (s : State) (p l : Nat) (va : Word) : Res (Sum Word Fetched) :=
  (s.laneWord p l va).andThen fun r t =>
    match r with
    | none => .ok (.inl va) t
    | some w0 =>
      if isDouble w0 then (match t.laneWord p l (va + 4) with
        | .ok none u => .ok (.inl (va + 4)) (u.oldTlb s p)
        | .ok (some w1) u => .ok (.inr ⟨va, w0, w1, u.decodePart p w0 w1⟩) u
        | .wait u => .wait (u.oldTlb s p)
        | .fail c a b u => .fail c a b u)
      else .ok (.inr ⟨va, w0, 0, t.decodePart p w0 0⟩) t
/-- A private instruction that carries the pair bit (R20, R28). VWAIT, VBEND and VRGN have no pair bit but a reserved one there (R154-R156): a word of
theirs with it set stands alone, where the spec is silent, though as the last of a loop body R17 counts bit 0 (DESIGN CHOICE, log 27). -/
def paired (w : Nat) : Bool := 0x40 ≤ major w && w % 2 == 1 && major w != 0x55 && major w != 0x56 && major w != 0x57
/-- The checks of a packet of two (R28). -/
def pairOk (a b : Fetched) : Bool :=
  match a.i, b.i with
  | some i, some j =>
    0x40 ≤ major b.w0 && b.w0 % 2 == 0 && !(memSpecial i && memSpecial j) && !alone i && !alone j &&
      (vdField i a.w0 == 0 || vdField i a.w0 != vdField j b.w0)
  | _, _ => false
/-- A full counter holds an instruction (R153). -/
def Lane.full (x : Lane) (i : Instr) : Bool :=
  match counts i with
  | some true => 63 ≤ x.loads
  | some false => 63 ≤ x.stores.length
  | none => false
/-- Bytes of an instruction of the packet (R12). -/
def Fetched.len (f : Fetched) : Nat := if isDouble f.w0 then 8 else 4
/-- The state in which an instruction of the packet runs (log 1). -/
def State.runAs (s : State) (p l : Nat) (f : Fetched) : State := { s with cur := ⟨.lane p l, f.pc, f.w0, f.w1, f.len⟩ }
/-- A packet held at its issue: the group tries again in the next cycle, and the pipe is as before (R112, R153, R179). -/
def State.holdLane (s old : State) (p l : Nat) : State :=
  (s.modLane p l fun x => { x with nextAt := Nat.max x.nextAt (s.dev.cycle + 1) }).modPlace p fun q => { q with pipes := (old.place p).pipes }
/-- An instruction was held: its group is where it was and was not stopped. -/
def Lane.held (x : Lane) (pc : Word) (now : Nat) : Bool := x.busy && x.pc == pc && x.nextAt ≤ now && !x.stopped && !x.ended && !x.marking
/-- The group at its packet's issue: waits are met, the window resolved (R30, R152, R154), the pipe taken (R179). -/
def State.beginPacket (s : State) (p l : Nat) : State :=
  let now := s.dev.cycle
  (s.modLane p l fun x => { x with loadLimit := 127, storeLimit := 127, fence := 0, base := x.windowFor now, packetWait := 0 }).modPlace p
    fun q => { q with pipes := tabSet q.pipes (pipeOf l) (l, now + 1) }
/-- What comes of an attempt to issue a packet: it is held, in the state that the attempt leaves, or it has issued. -/
abbrev Attempt := Sum State Out
/-- One instruction of a packet runs; a held one leaves what its attempt left. -/
def runOne (ex : Instr → State → Out) (p l : Nat) (f : Fetched) (i : Instr) (s : State) (k : State → Attempt) : Attempt :=
  if (s.lane p l).full i then .inl s
  else match ex i (s.runAs p l f) with
    | .next t => if (t.lane p l).held f.pc s.dev.cycle then .inl t else k t
    | o => .inr o
/-- A packet of two whose second instruction uses memory: that one is tried first, so that a hold holds the whole packet. -/
def secondHeld (ex : Instr → State → Out) (p l : Nat) (a b : Fetched) (j : Instr) (s : State) : Option State :=
  let s1 := s.modLane p l fun x => { x with pc := b.pc }
  if (s.lane p l).full j then some s
  else if !memSpecial j then none
  else match ex j (s1.runAs p l b) with
    | .next t => if (t.lane p l).held b.pc s.dev.cycle then some (t.modLane p l fun x => { x with pc := a.pc }) else none
    | _ => none
/-- FETCH on the lanes (R377): pc is the address of the instruction that holds the word; a SPENT block passes over the word. -/
def State.laneFetchFault (s : State) (p l : Nat) (pc va : Word) (r : Record) : State :=
  s.lanePass p l (va - (s.lane p l).pc + 4).toNat { r with pc := pc }
/-- The outcome of fetching an instruction of the packet. -/
def onFetched (r : Res (Sum Word Fetched)) (p l : Nat) (pc : Word) (k : Fetched → State → Attempt) : Attempt :=
  match r with
  | .ok (.inr f) t => k f t
  | .ok (.inl va) t => .inr (.next (t.laneFetchFault p l pc va (t.laneRecord p l .fetch va)))
  | .wait t => .inl t
  | .fail c va pa t => .inr (.next (if c = .illegal then t.laneIllegalAt p l 4 pc 0 0
      else t.laneFetchFault p l pc va { t.laneRecord p l c va with paddr := pa }))
/-- The bytes of the packet whose first instruction is a (R14, R28), as far as its second can be fetched. -/
def State.packetLen (s : State) (p l : Nat) (a : Fetched) : Nat :=
  if paired a.w0 then (match s.laneInstr p l (a.pc + BitVec.ofNat 64 a.len) with
    | .ok (.inr b) _ => a.len + b.len
    | _ => a.len)
  else a.len
/-- A lane group's attempt to issue its next packet (R28). -/
def attempt (ex : Instr → State → Out) (p l : Nat) (s : State) : Attempt :=
  let pc := (s.lane p l).pc
  onFetched (s.laneInstr p l pc) p l pc fun a s1 =>
    match a.i with
    | none => .inr (.next (s1.laneIllegalAt p l (s1.packetLen p l a) a.pc a.w0 a.w1))
    | some i =>
      if !paired a.w0 then runOne ex p l a i (s1.beginPacket p l) fun t => .inr (.next t)
      else
        let pc2 := a.pc + BitVec.ofNat 64 a.len
        onFetched (s1.laneInstr p l pc2) p l pc2 fun b s2 =>
          match b.i with
          | none => .inr (.next (s2.laneIllegalAt p l (a.len + b.len) b.pc b.w0 b.w1))
          | some j =>
            if !pairOk a b then .inr (.next (s2.laneIllegalAt p l (a.len + b.len) a.pc a.w0 a.w1))
            else
              let s3 := s2.beginPacket p l
              match secondHeld ex p l a b j s3 with
              | some t => .inl t
              | none => runOne ex p l a i s3 fun t =>
                if (t.lane p l).stopped then .inr (.next t) else runOne ex p l b j t fun u => .inr (.next u)
/-- A lane group can issue in this cycle: its attempt is not held (R179). -/
def canIssue (ex : Instr → State → Out) (p l : Nat) (s : State) : Bool :=
  match attempt ex p l s with
  | .inl _ => false
  | .inr _ => true
/-- A lane group's turn (R28, R179): it issues its next packet if no other group of its pipe that comes before it can issue. -/
def runLane (ex : Instr → State → Out) (p l : Nat) (s : State) : Out :=
  if !(s.place p).mayIssue s.dev.cycle l || ((s.place p).rivals s.dev.cycle l).any (fun j => canIssue ex p j s) then .next s
  else match attempt ex p l s with
    | .inl t => .next (t.holdLane s p l)
    | .inr o => o

end Sys2Proof.Machine
end

