-- ==== Sys2Proof/Machine/Womal.lean ====
section
/-! DEFINITION. The Womal rewriter (R256): the fixups that finish a portable image's text. -/
namespace Sys2Proof.Machine

/-- A field that only some forms of an instruction use. -/
def usedField (used : Bool) (f : Nat × Nat × Nat) : List (Nat × Nat × Nat) := if used then [f] else []
/-- Where the words of an instruction name g, s, v and p registers and operand codes (R15-R21): (word, lowest bit, width). Only fields that the
instruction's form uses; events have none. -/
def regFields : Instr → List (Nat × Nat × Nat)
  | .add .. | .sub .. | .and .. | .or .. | .xor .. | .andn .. =>
    [(0, 17, 8), (0, 9, 8), (0, 1, 8)]
  | .shl .. | .shr .. | .sra .. | .mul .. | .mulhs .. | .mulhn .. =>
    [(0, 17, 8), (0, 9, 8), (0, 1, 8)]
  | .divs .. | .divn .. | .rems .. | .remn .. | .min .. | .max .. =>
    [(0, 17, 8), (0, 9, 8), (0, 1, 8)]
  | .minn .. | .maxn .. | .slt .. | .sltn .. | .seq .. | .sh1add .. =>
    [(0, 17, 8), (0, 9, 8), (0, 1, 8)]
  | .sh2add .. | .sh3add .. | .sne .. =>
    [(0, 17, 8), (0, 9, 8), (0, 1, 8)]
  | .clz .. | .popc .. | .addi .. | .andi .. | .ori .. | .xori .. =>
    [(0, 17, 8), (0, 9, 8)]
  | .shli .. | .shri .. | .srai .. | .slti .. | .sltni .. | .beq .. =>
    [(0, 17, 8), (0, 9, 8)]
  | .bne .. | .blt .. | .bge .. | .bltn .. | .bgen .. | .jalr .. =>
    [(0, 17, 8), (0, 9, 8)]
  | .li .. | .lih .. | .loop .. | .fqry .. =>
    [(0, 17, 8)]
  | .ldb .. | .ldbn .. | .ldh .. | .ldhn .. | .ldw .. | .ldwn .. =>
    [(0, 20, 5), (0, 15, 5)]
  | .ldd .. | .stb .. | .sth .. | .stw .. | .std .. | .lda .. =>
    [(0, 20, 5), (0, 15, 5)]
  | .strel .. | .csrw .. | .csrs .. | .csrc .. | .bcancel .. | .launch .. =>
    [(0, 20, 5), (0, 15, 5)]
  | .jwait .. | .viewreg .. | .viewdrop .. | .viewpol .. | .viewtag .. | .viewsync .. =>
    [(0, 20, 5), (0, 15, 5)]
  | .mstat .. =>
    [(0, 20, 5), (0, 15, 5)]
  | .amo .. | .waitm .. | .sret .. | .wake .. | .emit .. =>
    [(0, 20, 5), (0, 15, 5), (0, 10, 5)]
  | .split .. =>
    [(0, 20, 5), (0, 15, 5), (0, 10, 5), (0, 0, 5)]
  | .amoAddc .. | .amoFaddc .. | .cpy .. | .cpyg .. | .puth .. | .mnsetCtl .. =>
    [(0, 15, 5), (0, 10, 5)]
  | .lsched .. =>
    [(0, 15, 5), (0, 10, 5)]
  | .csrr .. | .hget .. | .hgetva .. | .shget .. | .bseq .. | .ttest .. =>
    [(0, 20, 5)]
  | .ttestOut .. | .ttestFailed .. | .lix .. | .lixh .. | .rwait .. | .jbar .. =>
    [(0, 20, 5)]
  | .icpf .. | .icinv .. | .dcpf .. | .dcwb .. | .dcinv .. | .xlt .. =>
    [(0, 15, 5)]
  | .shld .. | .shst .. | .shset .. | .bwait .. | .twaitm .. | .tfreem .. =>
    [(0, 15, 5)]
  | .exit .. | .ckpt .. | .mnsetLvl .. | .mnsetBase .. | .rset .. | .rmark .. =>
    [(0, 15, 5)]
  | .bfset .. | .cbld .. | .lgo .. =>
    [(0, 15, 5)]
  | .popp .. | .poppn .. =>
    [(0, 20, 5), (0, 10, 5)]
  | .cas .. =>
    [(0, 20, 5), (0, 15, 5), (0, 10, 5), (1, 0, 5)]
  | .vfadd .. | .vfsub .. | .vfmul .. | .vfmin .. | .vfmax .. | .viadd .. =>
    [(0, 19, 6), (0, 12, 7), (0, 5, 7), (0, 3, 2)]
  | .visub .. | .vimul .. | .vimin .. | .vimax .. | .vnmin .. | .vnmax .. =>
    [(0, 19, 6), (0, 12, 7), (0, 5, 7), (0, 3, 2)]
  | .vand .. | .vor .. | .vxor .. | .vshl .. | .vshr .. | .vsra .. =>
    [(0, 19, 6), (0, 12, 7), (0, 5, 7), (0, 3, 2)]
  | .vmov .. | .vmovScalar .. | .vmovScalarHigh .. =>
    [(0, 19, 6), (0, 12, 7), (0, 3, 2)]
  | .vlid .. =>
    [(0, 19, 6), (0, 5, 7), (0, 3, 2)]
  | .vwin .. | .vwinadd .. =>
    [(0, 12, 7)]
  | .pand .. | .por .. | .pxor .. | .pandn .. =>
    [(0, 17, 3), (0, 14, 3), (0, 11, 3)]
  | .pbal .. | .ppopc .. | .pfirst .. =>
    [(0, 17, 8), (0, 14, 3), (0, 11, 3)]
  | .pset .. =>
    [(0, 17, 3), (0, 11, 3), (0, 3, 8)]
  | .pushp .. =>
    [(0, 14, 3), (0, 11, 3), (0, 3, 8)]
  | .valu _ _ _ o _ _ _ _ _ =>
    [(0, 19, 6), (0, 12, 7), (1, 22, 3)] ++ usedField (o != 5 && o != 6) (0, 5, 7)
  | .vfma .. | .vdot .. =>
    [(0, 19, 6), (0, 12, 7), (0, 5, 7), (1, 25, 7), (1, 22, 3)]
  | .vcvt _ _ _ t g _ _ _ _ _ _ _ =>
    [(0, 19, 6), (0, 12, 7), (1, 22, 3)] ++ usedField (typeWidth g < typeWidth t) (1, 25, 7)
  | .vcmp .. =>
    [(0, 19, 3), (0, 12, 7), (0, 5, 7), (1, 22, 3)]
  | .vsel .. =>
    [(0, 19, 6), (0, 12, 7), (0, 5, 7), (1, 0, 3), (1, 22, 3)]
  | .vsfn .. | .vred .. | .vscan .. =>
    [(0, 19, 6), (0, 12, 7), (1, 22, 3)]
  | .vshfl _ _ _ m _ _ _ _ _ _ =>
    [(0, 19, 6), (0, 12, 7), (1, 22, 3)] ++ usedField (m == 0) (0, 5, 7)
  | .vperm _ _ _ _ z _ _ _ _ _ =>
    [(0, 19, 6), (0, 12, 7), (0, 5, 7), (1, 22, 3)] ++ usedField (z == 1) (1, 25, 7)
  | .vrotm _ _ _ _ z _ _ _ _ _ =>
    [(0, 19, 6), (0, 12, 7), (0, 5, 7), (1, 22, 3)] ++ usedField (z == 1) (1, 25, 7)
  | .vmxq .. =>
    [(0, 19, 6), (0, 12, 7), (1, 25, 7), (1, 5, 8), (1, 22, 3)]
  | .vbit _ _ _ _ o _ _ _ _ =>
    [(0, 19, 6), (0, 12, 7), (1, 22, 3)] ++ usedField (3 ≤ o) (0, 5, 7) ++ usedField (5 ≤ o) (1, 25, 7)
  | .vbcast _ _ _ z _ _ _ _ _ _ =>
    [(0, 19, 6), (0, 12, 7), (1, 22, 3)] ++ usedField (z == 1) (0, 5, 7)
  | .vgetl _ _ b _ _ _ _ _ =>
    [(0, 12, 7), (1, 0, 8), (1, 22, 3)] ++ usedField (b != 0) (0, 5, 7)
  | .vlds .. | .vldu .. | .vldb .. =>
    [(0, 19, 6), (0, 12, 7), (1, 22, 3)]
  | .vsts .. | .vstu .. | .vstb .. =>
    [(0, 12, 7), (0, 5, 7), (1, 22, 3)]
  | .vldg .. =>
    [(0, 19, 6), (0, 12, 7), (0, 5, 7), (1, 22, 3)]
  | .vstg .. =>
    [(0, 12, 7), (0, 5, 7), (1, 25, 7), (1, 22, 3)]
  | .vamo _ _ _ _ _ _ _ o _ _ _ _ _ _ =>
    [(0, 12, 7), (0, 5, 7), (1, 25, 7), (1, 22, 3)] ++ usedField (o < 9) (0, 19, 6)
  | _ => []

/-- The latency bound L of a lane instruction with a wait field (R29); counted results and instructions without a bound have none. -/
def laneBound : Instr → Option Nat
  | .pand .. => some 1 | .por .. => some 1 | .pxor .. => some 1 | .pandn .. => some 1 | .pbal .. => some 1 | .pset .. => some 1
  | .ppopc .. => some 1 | .pfirst .. => some 1 | .pushp .. => some 1
  | .viadd .. => some 2 | .visub .. => some 2 | .vand .. => some 2 | .vor .. => some 2 | .vxor .. => some 2 | .vshl .. => some 2
  | .vshr .. => some 2 | .vsra .. => some 2 | .vimin .. => some 2 | .vimax .. => some 2 | .vnmin .. => some 2 | .vnmax .. => some 2
  | .vmov .. => some 2 | .vmovScalar .. => some 2 | .vmovScalarHigh .. => some 2 | .vsel .. => some 2 | .vbcast .. => some 2
  | .vgetl .. => some 2 | .vlid .. => some 2 | .vwin .. => some 2 | .vwinadd .. => some 2
  | .vcmp .. => some 3 | .vbit .. => some 3
  | .vfadd .. => some 4 | .vfsub .. => some 4 | .vfmin .. => some 4 | .vfmax .. => some 4 | .vshfl .. => some 4 | .vperm .. => some 4
  | .vrotm .. => some 4
  | .vfmul .. => some 5 | .vimul .. => some 5 | .vfma .. => some 5 | .vdot .. => some 5 | .vcvt .. => some 5 | .valu .. => some 5
  | .vred .. => some 8 | .vscan .. => some 8 | .vmxq .. => some 8 | .vldb .. => some 8
  | .vlds .. => some 10
  | .vsfn .. => some 12
  | _ => none

/-- Where the instructions of a text start, with whether the lanes run them: a block's text runs from its entry to its VBEND (log 21). -/
def scanText (entries : List Nat) : List Nat → Nat → Bool → Bool → List (Nat × Bool)
  | [], _, _, _ => []
  | _ :: t, o, lane, true => scanText entries t (o + 4) lane false
  | w :: t, o, lane, false =>
    let l := lane || entries.contains o
    (o, l) :: scanText entries t (o + 4) (l && major w != 0x56) (isDouble w)
/-- A slice's decoder (R13, R14, R258). -/
def decodeSlice (lane w16 : Bool) (w0 w1 : Nat) : Option Instr := if lane then decodeHalf w16 w0 w1 else decodeControl w0 w1
/-- Bits hi to lo of a word cleared. -/
def clearBits (w hi lo : Nat) : Nat := w - fld w hi lo * 2 ^ lo
/-- The word with bits hi to lo replaced by v. -/
def setBits (w hi lo v : Nat) : Nat := clearBits w hi lo + v * 2 ^ lo
/-- The first word and its variants with a legal number in the fields that a register, predicate or scalar code can make illegal (destination; a
and b; sa), so that virtual numbers decode (R256). -/
def plainWords (w : Nat) : List Nat :=
  let d := [w, clearBits w 24 22, setBits w 19 17 1, setBits w 21 19 1]
  let a := d.flatMap fun x => [x, clearBits x 16 14, setBits x 18 12 72, setBits x 18 12 0]
  a.flatMap fun x => [x, setBits x 11 5 72, clearBits x 8 6, clearBits x 10 8]
/-- The E word and its variants, likewise. -/
def plainE (e : Nat) : List Nat := [e, clearBits e 7 5, clearBits e 12 10, setBits e 31 25 72]
/-- An instruction whose register fields hold virtual numbers, with some legal numbers in their places (R256). -/
def virtualInstr (lane w16 : Bool) (w0 w1 : Nat) : Option Instr :=
  ((plainWords w0).flatMap fun a => (plainE w1).map fun b => (a, b)).findSome? fun x => decodeSlice lane w16 x.1 x.2
/-- A map value that a register field of the slice may hold (R16, R18, R20, R256): it fits, and an 8-bit field names g0-g31 on the control core,
s0-s191 on the lanes. What an instruction's own rule refuses besides is raised when the word is run. -/
def legalReg (lane : Bool) (width v : Nat) : Bool := v < 2 ^ width && (width != 8 || v < (if lane then 192 else 32))
/-- One register field replaced by its map value, if that is legal there (R256). -/
def mapField (lane : Bool) (map : List Byte) (w : Nat) (f : Nat × Nat × Nat) : Option Nat :=
  let v := (map.getD (fld w (f.2.1 + f.2.2 - 1) f.2.1) 0).toNat
  if legalReg lane f.2.2 v then some (setBits w (f.2.1 + f.2.2 - 1) f.2.1 v) else none
/-- A fixup entry's fields (R256). -/
structure Fixup where
  off  : Nat
  kind : Nat
  gap  : Nat
/-- A fixup entry, none if malformed for a text of n bytes. -/
def fixupOf (n e : Nat) : Option Fixup :=
  if bits e 63 56 != 0 || bits e 47 36 != 0 || 3 < bits e 35 32 || bits e 31 0 % 4 != 0 || n ≤ bits e 31 0 then none
  else some ⟨bits e 31 0, bits e 35 32, bits e 55 48⟩
/-- The instruction that owns the word at an offset: its start, its slice, which of its words it is. -/
def ownerOf (starts : List (Nat × Bool)) (ws : List Nat) (off : Nat) : Option (Nat × Bool × Nat) :=
  starts.findSome? fun x =>
    if x.1 = off then some (x.1, x.2, 0)
    else if x.1 + 4 = off && isDouble (ws.getD (x.1 / 4) 0) then some (x.1, x.2, 1) else none
/-- The text after one fixup, none where the word does not fit its kind (R256). -/
def applyFixup (w16 : Bool) (starts : List (Nat × Bool)) (map : List Byte) (base : Word) (ws : List Nat) (f : Fixup) : Option (List Nat) :=
  match ownerOf starts ws f.off with
  | none => none
  | some (o, lane, j) =>
    let w0 := ws.getD (o / 4) 0
    let w1 := ws.getD (o / 4 + 1) 0
    let put (v : Nat) : Option (List Nat) := some (listMod ws (f.off / 4) fun _ => v)
    if f.kind = 0 then match virtualInstr lane w16 w0 w1 with
      | none => none
      | some i =>
        let mine := (regFields i).filter fun x => x.1 == j
        if mine.isEmpty then none
        else (mine.foldl (fun acc x => acc.bind fun w => mapField lane map w x) (some (if j = 0 then w0 else w1))).bind put
    else if f.kind = 1 then
      if !lane || j != 0 then none
      else match virtualInstr true w16 w0 w1 with
        | none => none
        | some i => match laneBound i, counts i with
          | some l, _ => put (clearBits w0 2 1 + Nat.min 3 (l - 1 - f.gap) * 2)
          | none, some _ => some ws
          | none, _ => none
    else if lane || j != 1 then none
    else match decodeControl w0 w1 with
      | some (.lix ..) => put ((w1 + (if f.kind = 2 then base.toNat else base.toNat / 2 ^ 32)) % 2 ^ 32)
      | some (.lixh ..) => put ((w1 + (if f.kind = 2 then base.toNat else base.toNat / 2 ^ 32)) % 2 ^ 32)
      | _ => none
/-- The finished text (R256), none where a fixup refuses the launch. -/
def finishText (w16 : Bool) (entries : List Nat) (base : Word) (text : List Nat) (fixups : List Nat) (map : List Byte) : Option (List Nat) :=
  let starts := scanText entries text 0 false false
  let fs := fixups.map (fixupOf (4 * text.length))
  fs.foldl (fun acc f => acc.bind fun ws => f.bind fun x => applyFixup w16 starts map base ws x) (some text)

end Sys2Proof.Machine
end

