-- ==== Sys2Proof/Machine/Launch.lean ====
section
/-! DEFINITION. LAUNCH and JWAIT (R143-R145, R239, R250-R257): the launch record, the code object, selection, and the acceptance of a
launch by the Job Placer (R235). -/
namespace Sys2Proof.Machine

/-- What LAUNCH finds of a record or an object: malformed (status 0x25), or a value. -/
abbrev Found? (α : Type) := Res (Option α)
/-- Goes on where a part was well formed. -/
def need {α β : Type} (r : Found? α) (f : α → State → Found? β) : Found? β :=
  r.andThen fun x t => match x with
    | some a => f a t
    | none => .ok none t
/-- 4 and 8 little-endian bytes of a list (R4). -/
def at4 (bs : List Byte) (o : Nat) : Nat := leNat ((bs.drop o).take 4)
def at8 (bs : List Byte) (o : Nat) : Nat := leNat ((bs.drop o).take 8)
/-- A list cut into pieces of n bytes. -/
def chunks (n k : Nat) (bs : List Byte) : List (List Byte) := (List.range k).map fun i => (bs.drop (n * i)).take n
/-- Bytes read by context c in an address space, line by line. -/
def State.readRange (s : State) (p c pasid : Nat) : List (Nat × Nat) → Res (List Byte)
  | [] => .ok [] s
  | (va, n) :: rest => (s.readAs p c pasid (BitVec.ofNat 64 va) n 0).andThen fun v t =>
      (t.readRange p c pasid rest).andThen fun bs u => .ok (leBytes n v ++ bs) u

/-- An object as LAUNCH reads it: by which context, in which address space, and where it begins. -/
structure Source where
  p     : Nat
  c     : Nat
  pasid : Nat
  va    : Nat
/-- n bytes of the object from an offset. -/
def State.objBytes (s : State) (o : Source) (off n : Nat) : Res (List Byte) := s.readRange o.p o.c o.pasid (linePieces (o.va + off) n)

/-- A variant table entry (R251). -/
structure Variant where
  imgoff : Nat
  imglen : Nat
  revlo  : Nat
  revhi  : Nat
  req    : Nat
  kind   : Nat
/-- An image header with its tables (R252); `tables` where they lie, for the bytes they take. -/
structure Image where
  v       : Variant
  khw     : Nat
  textoff : Nat
  textlen : Nat
  roles   : List (Option Nat)
  table   : List (Nat × Bool × Bool)
  rings   : List (Nat × Word)
  loops   : List (Nat × Nat)
  sites   : List Nat
  tables  : List (Nat × Nat)
  fixoff  : Nat
  nfix    : Nat
/-- The entries of a variant table, none if one is malformed (R251, R252). -/
def variantOf (size : Nat) (bs : List Byte) : Option Variant :=
  let v : Variant := ⟨at4 bs 4, at4 bs 0, at4 bs 8, at4 bs 12, at4 bs 16, at8 bs 24 % 256⟩
  if v.imgoff % 64 != 0 || size < v.imgoff + v.imglen || v.imglen < 128 || 1 < v.kind || at8 bs 24 / 256 != 0 then none else some v
/-- The object header (R250): the object's size and its variant table. -/
def State.readHeader (s : State) (o : Source) : Found? (Nat × List Variant) :=
  (s.objBytes o 0 64).andThen fun h t =>
    let size := at4 h 4
    let nvar := at8 h 8 % 256
    let vtab := at4 h 12
    if at4 h 0 != 0x4F4D5947 || nvar = 0 || 16 < nvar || at4 h 8 / 256 != 0 || (h.drop 16).any (fun b => b != 0) || vtab % 32 != 0
        || size < 64 || size < vtab + 32 * nvar then .ok none t
    else (t.objBytes o vtab (32 * nvar)).andThen fun bs u =>
      let vs := (chunks 32 nvar bs).filterMap (variantOf size)
      .ok (if vs.length = nvar && (vs.filter fun v => v.kind == 1).length ≤ 1 then some (size, vs) else none) u
/-- A role's entry: none where the header names none (R252). -/
def roleOf (x : Nat) : Option Nat := if x = 0xFFFFFFFF then none else some x
/-- An entry offset within the text (R252). -/
def inText (len x : Nat) : Bool := x % 4 == 0 && x < len
/-- Offsets in ascending order. -/
def rising : List Nat → Bool
  | a :: b :: t => a < b && rising (b :: t)
  | _ => true
/-- The words of the CKPT sites are CKPTs (R252). -/
def State.sitesOk (s : State) (o : Source) (text : Nat) : List Nat → Res Bool
  | [] => .ok true s
  | x :: t => (s.objBytes o (text + x) 4).andThen fun bs u =>
      match decodeControl (leNat bs) 0 with
      | some (.ckpt _) => u.sitesOk o text t
      | _ => .ok false u
/-- An image header and its tables, none if malformed (R252, R254). -/
def State.readImage (s : State) (o : Source) (size : Nat) (v : Variant) : Found? Image :=
  (s.objBytes o v.imgoff 128).andThen fun h t =>
    let khw := at4 h 0
    let textoff := at4 h 4
    let textlen := at4 h 8
    let btoff := at4 h 12
    let nblk := at4 h 24 % 256
    let nring := at4 h 24 / 256 % 256
    let ckoff := at4 h 32
    let ringoff := at4 h 36
    let nfix := at4 h 40
    let fixoff := at4 h 44
    let nck := at4 h 52
    let roles := [roleOf (at4 h 20), roleOf (at4 h 16), roleOf (at4 h 28)]
    let loops := (List.range 6).map fun i => (at4 h (56 + 8 * i), at4 h (60 + 8 * i))
    let room := size - v.imgoff
    let entries := if btoff = 0 then 0 else nblk + 1
    let fits (off n : Nat) : Bool := n == 0 || off + n ≤ room
    if bits khw 23 18 != 0 || 1 < bits khw 3 2 || textoff % 64 != 0 || textlen % 4 != 0 || room < textoff + textlen || btoff % 8 != 0
        || (btoff == 0 && nblk != 0) || 8 < nring || 65535 < nck || bits (at4 h 24) 31 16 != 0 || at4 h 48 != 0
        || (h.drop 104).any (fun b => b != 0) || loops.any (fun x => 3 < x.2)
        || roles.any (fun r => r.any fun x => !inText textlen x)
        || !fits btoff (8 * entries) || !fits ringoff (16 * nring) || !fits ckoff (4 * nck)
        || (if v.kind = 0 then nfix != 0 || fixoff != 0 else !fits fixoff (if nfix = 0 then 0 else 8 * nfix + 256)) then .ok none t
    else
      (t.objBytes o (v.imgoff + btoff) (8 * entries)).andThen fun bt t1 =>
      (t1.objBytes o (v.imgoff + ringoff) (16 * nring)).andThen fun rt t2 =>
      (t2.objBytes o (v.imgoff + ckoff) (4 * nck)).andThen fun ct t3 =>
        let blocks := (chunks 8 entries bt).map fun b => leNat b
        let rings := (chunks 16 nring rt).map fun b => (at8 b 0 % 256, BitVec.ofNat 64 (at8 b 1), leNat (b.drop 9))
        let sites := (chunks 4 nck ct).map leNat
        let table := blocks.map fun b => (bits b 31 0, bit b 32, bit b 33)
        if blocks.any (fun b => bits b 63 34 != 0 || !inText textlen (bits b 31 0)) || rings.any (fun r => 7 < r.1 || r.2.2 != 0 || !ringDescOk r.2.1)
            || sites.any (fun x => !inText textlen x) || !rising sites || table.any (fun b => b.2.1) != bit khw 1 then .ok none t3
        else (t3.sitesOk o (v.imgoff + textoff) sites).andThen fun ok t4 =>
          .ok (if ok then some { v := v, khw := khw, textoff := textoff, textlen := textlen, roles := roles, table := table
                                 rings := rings.map fun r => (r.1, r.2.1), loops := loops, sites := sites, fixoff := fixoff, nfix := nfix
                                 tables := [(btoff, 8 * entries), (ringoff, 16 * nring), (ckoff, 4 * nck), (fixoff, 8 * nfix + 256)] }
               else none) t4
/-- Every image of the object; the counts of CKPT sites agree (R252). -/
def State.readImages (s : State) (o : Source) (size : Nat) : List Variant → Found? (List Image)
  | [] => .ok (some []) s
  | v :: vs => need (s.readImage o size v) fun x t => need (t.readImages o size vs) fun xs u =>
      .ok (if xs.all fun y => y.sites.length == x.sites.length then some (x :: xs) else none) u

/-- The required features of an image (R254, R255). -/
def Image.required (x : Image) : Nat := x.v.req ||| (b2n (bit x.khw 0) + 2 * b2n (bit x.khw 16) + 4 * b2n (bit x.khw 17))
/-- An image that the enabled features and the generation allow (R255). -/
def Image.eligible (x : Image) (en : Nat) : Bool :=
  x.required &&& (2 ^ 32 - 1 - en) == 0 && bits x.khw 31 24 ≤ bits Config.revision.toNat 31 24
/-- A native candidate for this revision (R255). -/
def Image.candidate (x : Image) (en : Nat) : Bool :=
  x.v.kind == 0 && x.v.revlo ≤ Config.revision.toNat && Config.revision.toNat ≤ x.v.revhi && x.eligible en
/-- The better of two native candidates, the first where they are equal (R255). -/
def better (x y : Nat × Image) : Nat × Image :=
  if y.2.v.revlo < x.2.v.revlo then x else if x.2.v.revlo < y.2.v.revlo then y
  else if popCount y.2.required 32 < popCount x.2.required 32 then y else x
/-- Selection (R255): the variant's index and image. -/
def select (en : Nat) (xs : List Image) : Option (Nat × Image) :=
  let ys := (List.range xs.length).zip xs
  match ys.filter fun y => y.2.candidate en with
  | y :: t => some (t.foldl better y)
  | [] => ys.find? fun y => y.2.v.kind == 1 && y.2.eligible en
/-- The key slot of a PASID, counted from 1, with its generation; 0 where it is bound to none (R373). -/
def State.keyOf (s : State) (pasid : Nat) : Nat × Nat :=
  let k := tabGet 0 s.dev.pasidKey pasid
  if k = 0 then (0, 0) else (k, (tabGet KeySlot.off s.dev.keys (k - 1)).gen)
/-- The enabled features of a launch in a PASID (R253). -/
def State.enabledFeatures (s : State) (pasid : Nat) : Nat :=
  let k := tabGet 0 s.dev.pasidKey pasid
  0xFF &&& (2 ^ 32 - 1 - if k = 0 then 0 else (tabGet KeySlot.off s.dev.keys (k - 1)).masked)

/-- The enabled dies that a record's diemask allows a launch from plaza p (R144, R363): none where the launch is refused. -/
def State.allowedDies (s : State) (p mask : Nat) : Option Nat :=
  let split := s.dev.host.partmode = 1
  let half := if dieOf p < 4 then 0x0F else 0xF0
  let want := if mask = 0 then (if split then half else 0xFF) else mask
  let on_ := (List.range 8).foldl (fun m d => if bit want d && (tabGet Die.off s.dev.dies d).enabled then m + 2 ^ d else m) 0
  if on_ = 0 || (split && want &&& (0xFF - half) != 0) then none else some on_
/-- The enabled plazas on the dies of a mask. -/
def State.plazasOn (s : State) (mask : Nat) : List Nat := (List.range Config.plazas).filter fun q => s.plazaEnabled q && bit mask (dieOf q)
/-- The reserved fields of a launch record are zero (R144). -/
def recordOk (r : List Byte) : Bool :=
  let w := at8 r 0x18
  bits w 63 44 == 0 && bits w 15 7 == 0 && bits w 4 2 == 0 && at4 r 0x24 == 0 && (r.drop 0x48).all (fun b => b == 0) && at8 r 0x40 % 8 == 0
/-- The extents in force (R239), none where the record gives one for a level that the table lacks or where there are too many placements. -/
def extentsOf (r : List Byte) (loops : List (Nat × Nat)) : Option (List Nat) :=
  let es := ((List.range 6).zip loops).map fun x =>
    let e := at4 r (0x28 + 4 * x.1)
    if x.2.2 = 3 then 0 else if e = 0 then x.2.1 else e
  let bad := ((List.range 6).zip loops).any fun x => x.2.2 == 3 && at4 r (0x28 + 4 * x.1) != 0
  let total := (es.zip loops).foldl (fun n x => if x.2.2 = 1 || x.2.2 = 2 then n * x.1 else n) 1
  if bad || 0xFFFFFFFF < total then none else some es
/-- Number of placements (R239). -/
def placements (es kinds : List Nat) : Nat := (es.zip kinds).foldl (fun n x => if x.2 = 1 || x.2 = 2 then n * x.1 else n) 1

/-- Address and frame of the n-th allocation of code memory (R257; log 21): whole pages of near memory of the first die that serves. -/
def codeBase (n : Nat) : Word := BitVec.ofNat 64 ((Config.codeVa n).toNat % 2 ^ 44 * 4096)
def State.codeFrame (s : State) (n : Nat) : Nat :=
  ((List.range Config.dies).find? s.dieServes).getD 0 * Config.dieSpan + Config.codeFrame n % (Config.dieSpan / 4096) * 4096
/-- Pages of n bytes, in bytes. -/
def pageRound (n : Nat) : Nat := (n + 4095) / 4096 * 4096
/-- The finished text at address va is used by a job that has not ended, or by a launch not yet accepted (R257). -/
def Placer.uses (x : Placer) (va : Word) : Bool :=
  (x.jobs.map (fun j => j.launch) ++ x.requests.map fun r => r.launch).any fun l => l.code.any fun c => c.1 == va
/-- Room for one entry more in the rewriter cache (R257): the least recently used entries that no running job uses leave it. The entries
stand in order of use. -/
def Placer.evictTexts (x : Placer) : Nat → List Rewrite → List Rewrite
  | 0, es => es
  | n + 1, es =>
    if es.length < Config.rewriteRoom then es
    else match es.find? fun e => !x.uses e.va with
      | some e => x.evictTexts n (es.erase e)
      | none => es
/-- A portable image finished (R256, R257): the rewriter cache's text, or a rewrite that fills it; its address, frame and length and the
image's data sections. None: the launch is refused. -/
def State.rewrite (s : State) (o : Source) (size idx : Nat) (x : Image) : Found? ((Word × Nat × Nat) × List Byte) :=
  (s.objBytes o 0 size).andThen fun obj t =>
    let image := obj.drop x.v.imgoff
    let after := image.drop (x.textoff + x.textlen)
    let gap := pageRound x.textlen - x.textlen
    let data := (image.take x.v.imglen).drop (x.textoff + pageRound x.textlen)
    let inTable (a : Nat) : Bool := x.tables.any fun y => y.1 ≤ a && a < y.1 + y.2
    let stray := (((List.range gap).zip after).any fun y => y.2 != 0 && x.textoff + x.textlen + y.1 < x.v.imglen && !inTable (x.textoff + x.textlen + y.1))
    let key := t.keyOf o.pasid
    if stray then .ok none t
    else match t.placer.rewrites.find? fun e => e.slot == key.1 && e.gen == key.2 && e.object == obj && e.variant == idx with
      | some e => .ok (some ((e.va, e.frame, e.len), data)) (t.modPlacer fun y => { y with rewrites := y.rewrites.erase e ++ [e] })
      | none =>
        let n := t.placer.codeCount
        let text := (chunks 4 (x.textlen / 4) (image.drop x.textoff)).map leNat
        let fix := (chunks 8 x.nfix (image.drop x.fixoff)).map leNat
        let map := (image.drop (x.fixoff + 8 * x.nfix)).take 256
        match finishText (bit x.khw 0) (x.table.map fun b => b.1) (codeBase n) text fix map with
        | none => .ok none t
        | some ws =>
          let e : Rewrite := ⟨key.1, key.2, obj, idx, codeBase n, t.codeFrame n, x.textlen⟩
          .ok (some ((e.va, e.frame, e.len), data))
            ({ t with mem := memPutBytes t.mem e.frame (ws.flatMap (leBytes 4)) }.modPlacer fun y =>
              { y with codeCount := n + 1, rewrites := y.evictTexts y.rewrites.length y.rewrites ++ [e] })

/-- What LAUNCH concludes: a status, or a launch with its number of placements. -/
inductive Verdict where
  | status (n : Nat)
  | launch (l : Launch) (total : Nat)
/-- The launch that a record, its object and the chosen image make (R144, R252, R254). -/
def launchOf (s : State) (p : Nat) (r : List Byte) (pasid dies : Nat) (x : Image) (extents : List Nat) (base : Word)
    (code : Option (Word × Nat × Nat)) (data : List Byte) : Launch :=
  let w := at8 r 0x18
  let va (off : Nat) : Word := base + BitVec.ofNat 64 off
  { pasid := pasid, argva := BitVec.ofNat 64 (at8 r 8), donewa := BitVec.ofNat 64 (at8 r 0x10), diemask := dies, preempt := bit w 6
    gang := bit w 5, prio := bits w 1 0, scratch := Nat.max (at4 r 0x20) (bits x.khw 15 8 * 8192), ckptva := BitVec.ofNat 64 (at8 r 0x40)
    extents := extents, kinds := x.loops.map fun y => y.2, features := BitVec.ofNat 32 (s.enabledFeatures pasid), w16 := bit x.khw 0
    groups := if bits x.khw 7 4 = 0 then 16 else bits x.khw 7 4, roles := x.roles.map fun y => y.map va
    table := x.table.map fun b => ⟨va b.1, b.2.1, b.2.2⟩, rings := x.rings, never := bits x.khw 3 2 == 1, plaza := p
    sites := x.sites.map va, record := r, seq := (s.plaza p).pubBegun, data := data, code := code }
/-- The checks of R143 on a record whose object has been read, in the order 0x25, 0x21, 0x22, 0x23, 0x24. -/
def State.judge (s : State) (o : Source) (r : List Byte) (size dies : Nat) (xs : List Image) : Res Verdict :=
  let scratch := at4 r 0x20
  let large (m : Nat) : Bool := Config.scratchMax < Nat.max scratch m
  match select (s.enabledFeatures o.pasid) xs with
  | none => .ok (.status (if large 0 then 0x21 else if scratch % 8192 != 0 then 0x22 else 0x23)) s
  | some (idx, x) =>
    match extentsOf r x.loops with
    | none => .ok (.status 0x25) s
    | some es =>
      let total := placements es (x.loops.map fun y => y.2)
      let gang := bit (at8 r 0x18) 5
      let done (l : Launch) (t : State) : Res Verdict :=
        .ok (if large (bits x.khw 15 8 * 8192) then .status 0x21
             else if scratch % 8192 != 0 then .status 0x22
             else if gang && ((t.plazasOn dies).length < total || t.placer.saveslots < total) then .status 0x24
             else .launch l total) t
      if x.v.kind = 0 then
        done (launchOf s o.p r o.pasid dies x es (BitVec.ofNat 64 (o.va + x.v.imgoff + x.textoff)) none []) s
      else (s.rewrite o size idx x).andThen fun y t =>
        match y with
        | none => .ok (.status 0x25) t
        | some (code, data) => done (launchOf t o.p r o.pasid dies x es code.1 (some code) data) t
/-- The reading of a launch record's object (R144, R250-R255), up to the verdict. -/
def State.readObject (s : State) (o : Source) (r : List Byte) : Res Verdict :=
  match (if recordOk r && o.va % 4 == 0 then s.allowedDies o.p (bits (at8 r 0x18) 23 16) else none) with
  | none => .ok (.status 0x25) s
  | some dies => (s.readHeader o).andThen fun h u =>
    match h with
    | none => .ok (.status 0x25) u
    | some (size, vs) => (u.readImages o size vs).andThen fun xs v =>
      match xs with
      | none => .ok (.status 0x25) v
      | some xs => v.judge o r size dies xs
/-- LAUNCH's reading of its record and object (R143, R144, R250-R255), up to its verdict. -/
def State.readLaunch (s : State) (p c : Nat) (ea : Word) : Res Verdict :=
  let mine := s.ctxPasid p c
  (s.checkVa p mine ea 256 .read).andThen fun _ t0 =>
  (t0.readRange p c mine (linePieces ea.toNat 256)).andThen fun r t =>
    let pasid := if c = 5 then bits (at8 r 0x18) 43 24 else mine
    t.readObject ⟨p, c, pasid, at8 r 0⟩ r

/-- The contexts of LAUNCH and JWAIT (R118). -/
def launchCtx : List Nat := [0, 1, 2, 5]
/-- The request of a context that the Job Placer has not accepted. -/
def State.launchAt (s : State) (p c : Nat) : Option Request := s.placer.requests.find? fun r => r.plaza == p && r.ctx == c
/-- A context's request is dropped. -/
def State.dropRequest (s : State) (p c : Nat) : State :=
  s.modPlacer fun y => { y with requests := y.requests.filter fun r => !(r.plaza == p && r.ctx == c) }
/-- LAUNCH (R143): the record and the object are read and checked; a launch that passes waits for the Job Placer (R235). A request whose
enabled features have changed meanwhile is made again (R253). -/
def execLaunch (d a : Nat) (s : State) : Out :=
  onContext s launchCtx fun p c =>
    let live := match s.launchAt p c with
      | some r => (s.ctx p c).wait == some (Instr.launch d a) && r.launch.features == BitVec.ofNat 32 (s.enabledFeatures r.launch.pasid)
      | none => false
    if live then .next (s.block p c (.launch d a))
    else
      let t := s.dropRequest p c
      onAccess (t.readLaunch p c (t.g p c a)) p c (.launch d a) fun v u =>
        match v with
        | .status n => .next (u.retireReg p c d (-(BitVec.ofNat 64 n)))
        | .launch l total =>
          .next ((u.modPlacer fun y => { y with requests := y.requests ++ [Request.mk p c s.dev.cycle l total] }).block p c (.launch d a))

/-- Queued launches at a level. -/
def Placer.depth (x : Placer) (level : Nat) : Nat :=
  (x.fifo.filter fun id => x.jobs.any fun j => j.id == id && j.level == level).length
/-- The level has room for a launch (R236). -/
def Placer.room (x : Placer) (level : Nat) : Bool := x.depth level < 256 + x.spillcap
/-- The next id from n on that no running job and no retained completion bears (R235), within as many tries as there can be such ids. -/
def Placer.freeId (x : Placer) : Nat → Nat → Nat
  | 0, n => n
  | k + 1, n =>
    if (x.jobs.any fun j => j.id == n) || (x.completed.any fun c => c.job == n) then x.freeId k (if n = 0x7FFFFFFF then 1 else n + 1) else n
/-- A request is before another in the order of R235. -/
def Request.before (x y : Request) : Bool :=
  x.at_ < y.at_ || (x.at_ == y.at_ && (x.plaza < y.plaza || (x.plaza == y.plaza && x.ctx < y.ctx)))
/-- The first request in the order of R235. -/
def firstRequest : List Request → Option Request
  | [] => none
  | x :: t => match firstRequest t with
    | none => some x
    | some y => some (if y.before x then y else x)
/-- The request's context waits in its LAUNCH and runs; the register it writes. -/
def State.awaits (s : State) (r : Request) : Option Nat :=
  if !s.runs r.plaza r.ctx || (s.ctx r.plaza r.ctx).state != .waiting then none
  else match (s.ctx r.plaza r.ctx).wait with
    | some (.launch d _) => some d
    | _ => none
/-- The completions kept: the 4,096 most recent (R145). -/
def keepCompletions (cs : List Completion) : List Completion := cs.drop (cs.length - 4096)
/-- The completion word's write (R145): a release at D by plaza p, asked for by the Job Placer's unit c; whether a word was written. There is
none to write where the record names none (R144); it is lost where the job's PASID does not map it for writing, it is not aligned, or its home
cannot be reached (log 15). -/
def State.writeCompletion (s : State) (p c pasid : Nat) (donewa value : Word) : Res Bool :=
  if donewa = 0 then .ok false s
  else match (s.checkVa p pasid donewa 8 .write).andThen fun k t => t.releaseStore (.ctx p c) p 2 k.1 8 value.toNat with
    | .ok _ t => .ok true t
    | .wait t => .wait t
    | .fail _ _ _ t => .ok false t
/-- A job becomes ENDED (R145, R238, R242, R248, R257): its completion is kept, its host is signalled where a completion word was written
(R362), its save slots, data copies and schedule slots are released. -/
def State.endJob (s : State) (j : Job) (p : Nat) (value : Word) (written : Bool) : State :=
  let s1 := s.modPlacer fun y =>
    { y with
      jobs := y.jobs.filter (fun x => x.id != j.id), fifo := y.fifo.filter (fun x => x != j.id)
      codeMaps := y.codeMaps.filter fun m => m.job != j.id
      completed := keepCompletions (y.completed ++ [⟨j.id, value, j.ends, p, (s.plaza p).pubBegun⟩]) }
  let s2 : State := { s1 with slots := s1.slots.map fun (x : Nat × Slot) => (x.1, if x.2.job = some j.id then Slot.off else x.2) }
  if written then s2.signalOwner j.launch.pasid 1 else s2
/-- The mappings of a portable image for a new job, its data sections copied to pages of its own (R257). -/
def State.mapCode (s : State) (id : Nat) (l : Launch) : State :=
  match l.code with
  | none => s
  | some (va, frame, len) =>
    let text : CodeMap := ⟨id, l.pasid, va.toNat, frame, pageRound len, true⟩
    let n := s.placer.codeCount
    let data : CodeMap := ⟨id, l.pasid, va.toNat + pageRound len, s.codeFrame n, pageRound l.data.length, false⟩
    if l.data.isEmpty then s.modPlacer fun y => { y with codeMaps := y.codeMaps ++ [text] }
    else { s with mem := memPutBytes s.mem (s.codeFrame n) l.data }.modPlacer fun y =>
      { y with codeCount := n + 1, codeMaps := y.codeMaps ++ [text, data] }
/-- A job moved to this module (R260): the object is read and a variant selected again (R255), and its placements that had started are
owed anew. Nothing happens where the launch is refused or its id is in use. -/
def State.moveIn (s : State) (m : Move) : State :=
  if s.placer.jobs.any fun j => j.id == m.id then s
  else match s.readObject ⟨m.plaza, 5, m.pasid, at8 m.record 0⟩ m.record with
    | .ok (.launch l total) t =>
      let j : Job :=
        { id := m.id, launch := l, st := .queued, total := total, first := m.first, saves := [], restarts := m.restarts, left := m.left
          ended := m.ended, ends := m.ends, halt := m.halt, level := l.prio, since := s.dev.ns, prio := l.prio, slots := 0 }
      (t.mapCode m.id l).modPlacer fun y => { y with jobs := y.jobs ++ [j], fifo := y.fifo ++ [m.id] }
    | .ok (.status _) t => t
    | .wait t => t
    | .fail _ _ _ t => t
/-- What a pre-empted placement keeps for a restart (R260), with the checkpoint word at its home. -/
def Saved.restart (v : Saved) (l : Launch) (word : Word) : Restart :=
  let site (c : Nat) : Option Nat := (tabGet (Ctx.off .ended) v.place.ctx c).restart.bind fun a => l.sites.findIdx? fun x => x + 4 == a
  ⟨v.place.index, word, v.place.avtail, v.place.altail, v.place.alhead, v.place.qdead, [site 0, site 1, site 2]⟩
/-- Where checkpoint words lie (R260): the key of each, none where a placement has none or its address is not mapped; a page that migrates
makes the move wait (R117). -/
def State.checkpointKeys (s : State) (job pasid : Nat) : List Word → Res (List (Option Nat))
  | [] => .ok [] s
  | ea :: t =>
    let (w, u) := match s.codeMap (some job) pasid ea.toNat with
      | some m => (Walk.ok (m.trans ea.toNat), s)
      | none => s.walk pasid ea
    match w with
    | .migrating => .wait u
    | .none => (u.checkpointKeys job pasid t).andThen fun ks v => .ok (none :: ks) v
    | .ok tr => (u.checkpointKeys job pasid t).andThen fun ks v =>
        .ok ((if ea = 0 || v.transAbsent tr ea then none else some (v.transKey tr ea)) :: ks) v
/-- A checkpoint word as its home holds it, its line read there already where that is another module (R331); 0 where there is none or its home
cannot be reached (log 23). -/
def State.checkpointAt (s : State) (who : Requester) (far : List (Nat × List Byte)) (k : Option Nat) : Word × State :=
  match k with
  | none => (0, s)
  | some key => match s.gathered who far (key / 128) with
    | .ok r t => (BitVec.ofNat 64 (vecBytes r.1 (key % 128) 8), t)
    | .wait t => (0, t)
    | .fail _ _ _ t => (0, t)
/-- The checkpoint words at the homes of a list of addresses (R260), in their order. -/
def State.checkpoints (s : State) (p job pasid : Nat) (eas : List Word) : Res (List Word) :=
  (s.checkpointKeys job pasid eas).andThen fun ks t =>
    (t.gather (.ctx p 11) (farLines (ks.filterMap fun k => k.map fun x => (x, 8)))).andThen fun far u =>
      let r := ks.foldl (fun (acc : List Word × State) k => let (w, v) := acc.2.checkpointAt (.ctx p 11) far k; (acc.1 ++ [w], v)) ([], u)
      .ok r.1 r.2
/-- A job whose placements have all been pre-empted is moved by the runtime (R260); this module is its source and its target. Where a checkpoint
word must come from another module the move waits and is tried again. -/
def State.moveJob (s : State) (id p : Nat) : State :=
  match s.placer.jobs.find? fun j => j.id == id with
  | none => s
  | some j =>
    if s.plazas.any fun x => x.2.res != .free && x.2.place.job == id then s
    else match s.checkpoints p id j.launch.pasid (j.saves.map fun v => v.place.ckptwa) with
      | .wait t => t
      | .fail _ _ _ t => t
      | .ok ws t =>
        let m : Move := ⟨id, p, j.launch.pasid, j.launch.record, j.first, j.ended, j.ends, j.left, j.halt,
          j.restarts ++ (j.saves.zip ws).map fun v => v.1.restart j.launch v.2⟩
        (t.modPlacer fun y =>
          { y with jobs := y.jobs.filter (fun x => x.id != id), fifo := y.fifo.filter (fun x => x != id)
                   codeMaps := y.codeMaps.filter fun x => x.job != id }).moveIn m
/-- LAUNCH_ACCEPT (R235): the first request of an earlier cycle whose level has room becomes a QUEUED job, so that those of one cycle are all
there to be ordered; its LAUNCH writes the id and retires. A job
without placements ends at once with status 0 (R238). -/
def execLaunchAccept (s : State) : Out :=
  match firstRequest (s.placer.requests.filter fun r => r.at_ < s.dev.cycle && (s.awaits r).isSome && s.placer.room r.launch.prio
      && r.launch.features == BitVec.ofNat 32 (s.enabledFeatures r.launch.pasid)) with
  | none => .next s
  | some r =>
    let id := s.placer.freeId (s.placer.jobs.length + s.placer.completed.length + 1) s.placer.nextId
    let j : Job :=
      { id := id, launch := r.launch, st := .queued, total := r.total, first := 0, saves := [], restarts := [], left := [], ended := 0, ends := [], halt := none
        level := r.launch.prio, since := s.dev.ns, prio := r.launch.prio, slots := 0 }
    let accepted (u : State) : State :=
      (((u.dropRequest r.plaza r.ctx).mapCode id r.launch).modPlacer fun y => { y with nextId := if id = 0x7FFFFFFF then 1 else id + 1 }).retireReg
        r.plaza r.ctx ((s.awaits r).getD 0) (BitVec.ofNat 64 id)
    if r.total = 0 then
      let value : Word := BitVec.ofNat 64 (2 ^ 63)
      match s.writeCompletion r.plaza 10 r.launch.pasid r.launch.donewa value with
      | .ok written t => .next ((accepted t).endJob j r.plaza value written)
      | .wait t => .next t
      | .fail _ _ _ t => .next t
    else .next ((accepted s).modPlacer fun y => { y with jobs := y.jobs ++ [j], fifo := y.fifo ++ [id] })

/-- JWAIT (R145): waits for a running job, then acquires at K all that its placements did; all ones for an id that is neither running nor
kept. -/
def execJwait (d a i : Nat) (s : State) : Out :=
  onContext s launchCtx fun p c =>
    let id := (s.g p c a).toNat % 2 ^ 32
    let job : Instr := .jwait d a i
    match s.resumeAcquire p c with
    | some r => onAccess r p c job fun v t => .next (t.retireReg p c d v)
    | none =>
      if s.placer.jobs.any fun j => j.id == id then .next (s.block p c job)
      else match s.placer.completed.find? fun x => x.job == id with
        | none => .next (s.retireReg p c d (BitVec.allOnes 64))
        | some x =>
          if x.ends.all fun e => e == p then .next (s.retireReg p c d x.value)
          else if x.plaza = p then .next ((s.selfInvalidate p).retireReg p c d x.value)
          else onAccess (s.acquireWith p c 1 x.value (some (s.plazaId x.plaza, x.seq))) p c job fun v t => .next (t.retireReg p c d v)
/-- JWAIT_TIMEOUT (R145): the timeout of a JWAIT on a job still running writes 0. -/
def execJwaitTimeout (p c : Nat) (s : State) : Out :=
  let x := s.ctx p c
  match x.wait with
  | some (.jwait d a i) =>
    let id := (x.reg a).toNat % 2 ^ 32
    if s.runs p c && x.state == .waiting && i != 0 && !s.busy p c && x.since + i * 1024 ≤ s.dev.cycle && (s.placer.jobs.any fun j => j.id == id)
    then .next (s.retireReg p c d 0) else .next s
  | _ => .next s

end Sys2Proof.Machine
end

