-- ==== Sys2Proof/Machine/Placer.lean ====
section
/-! DEFINITION. The Job Placer (R234-R249): queues and aging, placing, pre-emption and saving, and the start, resume and end of placements
(R187, R188, R229-R233, R243, R246-R248, R374). -/
namespace Sys2Proof.Machine

/-- A list sorted by insertion. -/
def insertBy {α : Type} (le : α → α → Bool) (x : α) : List α → List α
  | [] => [x]
  | y :: t => if le x y then x :: y :: t else y :: insertBy le x t
def sortBy {α : Type} (le : α → α → Bool) : List α → List α
  | [] => []
  | x :: t => insertBy le x (sortBy le t)

/-- The start values of g1-g6 of placement idx (R239, R243): its coordinate at a spatial level, the extent at a TEMPORAL one. -/
def Launch.coords (l : Launch) (idx : Nat) : List Nat :=
  ([0, 1, 2, 3, 4, 5].foldr (fun i (x : List Nat × Nat) =>
    let k := l.kinds.getD i 3
    let e := l.extents.getD i 0
    if k = 1 || k = 2 then (x.2 % e :: x.1, x.2 / e) else ((if k = 0 then e else 0) :: x.1, x.2)) ([], idx)).1
/-- A role context at the start of a placement (R243). -/
def Launch.roleCtx (l : Launch) (idx job : Nat) (entry : Word) : Ctx :=
  let regs := (l.coords idx).map (fun v => BitVec.ofNat 64 v) ++ [l.argva, BitVec.ofNat 64 idx, BitVec.ofNat 64 job]
  { Ctx.off .running with
    g := ((List.range 9).zip regs).foldl (fun t x => tabPut 0 t (x.1 + 1) x.2) [], pc := entry }
/-- The placement at its start (R243). -/
def Launch.place (l : Launch) (job idx : Nat) : Place :=
  let ctx (c : Nat) : Ctx := if 3 ≤ c then Ctx.off .dormant else match (l.roles.getD c none) with
    | some e => l.roleCtx idx job e
    | none => Ctx.off .ended
  { Place.off with
    job := job, index := idx, pasid := l.pasid, argva := l.argva
    ckptwa := if l.ckptva = 0 then 0 else l.ckptva + BitVec.ofNat 64 (8 * idx)
    scrsize := l.scratch, features := l.features, w16 := l.w16, groups := l.groups, gang := l.gang, table := l.table
    ctx := [0, 1, 2, 3, 4].map fun c => (c, ctx c)
    rings := l.rings.foldl (fun t r => tabSet t r.1 (newRing r.2)) [] }
/-- A placement that starts again (R260): its avenue and alley empty with their counters kept, each role context that had retired a CKPT at the
word after that site of the selected variant, with g10 the checkpoint word. -/
def Launch.restartPlace (l : Launch) (job : Nat) (r : Restart) : Place :=
  let q := l.place job r.index
  { q with
    avtail := r.avtail, altail := r.altail, alhead := r.alhead, qdead := r.qdead
    ctx := q.ctx.map fun x => match (r.sites.getD x.1 none).bind (fun i => l.sites[i]?) with
      | some site => (x.1, { x.2 with pc := site + 4, restart := some (site + 4), g := tabPut 0 x.2.g 10 r.word })
      | none => x }
/-- The dies of a diemask, ascending. -/
def diesOf (mask : Nat) : List Nat := (List.range 8).filter fun d => bit mask d
/-- The preferred dies of placement idx (R240). -/
def Launch.preferred (l : Launch) (idx : Nat) : List Nat :=
  let ds := diesOf l.diemask
  if l.kinds.any fun k => k == 2 then
    let cs := l.coords idx
    let dl := [0, 1, 2, 3, 4, 5].foldl (fun acc i => if l.kinds.getD i 3 = 2 then acc * l.extents.getD i 0 + cs.getD i 0 else acc) 0
    [ds.getD (dl % Nat.max 1 ds.length) 0]
  else ds
/-- A plaza on which a placement can be put (R240): enabled, its die ON, none resident on it. -/
def State.plazaFree (s : State) (q : Nat) : Bool :=
  s.plazaEnabled q && (tabGet Die.off s.dev.dies (dieOf q)).power == 0 && (s.plaza q).res == .free && (s.plaza q).freeAt ≤ s.dev.cycle
/-- The plaza that placement idx goes to (R240). -/
def State.pickPlaza (s : State) (l : Launch) (idx : Nat) : Option Nat :=
  let free := (List.range Config.plazas).filter fun q => bit l.diemask (dieOf q) && s.plazaFree q
  match free.find? fun q => (l.preferred idx).contains (dieOf q) with
  | some q => some q
  | none => free.head?

/-- Placements of a job that are on plazas. -/
def State.onPlazas (s : State) (job : Nat) : List (Nat × Plaza) := s.plazas.filter fun x => x.2.res != .free && x.2.place.job == job
/-- The pre-empted placements that the job owes, those that restart among them (R238, R260, R338), ascending. -/
def State.owedSaves (s : State) (j : Job) : List Nat :=
  sortBy (fun a b => a ≤ b) ((j.saves.map (fun v => v.place.index) ++ j.restarts.map fun r => r.index).filter fun i => !((s.onPlazas j.id).any fun x => x.2.place.index == i))
/-- Placements of a job whose save is pending: it owes each of them once that save is complete (R338). One that is halted is not saved (R249). -/
def State.saving (s : State) (job : Nat) : List Nat :=
  ((s.onPlazas job).filter fun x => x.2.preempt && !x.2.place.halted).map fun x => x.2.place.index
/-- Save slots not taken (R236, R242). -/
def State.freeSlots (s : State) : Nat := s.placer.saveslots - s.placer.jobs.foldl (fun n j => n + j.slots) 0
/-- Job number id, if it runs. -/
def State.job (s : State) (id : Nat) : Option Job := s.placer.jobs.find? fun j => j.id == id
/-- A job changed. -/
def State.modJob (s : State) (id : Nat) (f : Job → Job) : State :=
  s.modPlacer fun y => { y with jobs := y.jobs.map fun j => if j.id = id then f j else j }
/-- Placement idx of a job put on plaza q (R237, R240, R242): new, with a save slot, or resumed; its step 1 comes 16 cycles after that of the one
before on its die. Its contexts, CSRs and arrival queue are there from now on (R69, R99); what else a saved placement holds comes back when it
resumes. -/
def State.assign (s : State) (j : Job) (q idx : Nat) (resume : Bool) : State :=
  let start := Nat.max s.dev.cycle (listMax ((s.plazas.filter fun x => dieOf x.1 == dieOf q).map fun x => x.2.startAt))
  let first := (s.onPlazas j.id).isEmpty
  let again := j.restarts.find? fun r => r.index == idx
  let place := if resume then (match j.saves.find? fun v => v.place.index == idx with
      | some v => { v.place with blocks := [], alley := [], lanes := [], pipes := [], freeze := none, copyQ := [], linkQ := [], pendingN := none
                                 active := none, async := [], records := [], refused := [] }
      | none => { Place.off with job := j.id, index := idx, pasid := j.launch.pasid })
    else match again with
      | some r => j.launch.restartPlace j.id r
      | none => j.launch.place j.id idx
  (s.modPlaza q fun x =>
    { x with res := if resume then .resuming else .starting, preempt := false, await := none, startAt := start + 16, begun := none
             place := place }).modJob j.id fun y =>
    { y with prio := if first then y.level else y.prio, first := if resume || again.isSome then y.first else y.first + 1
             restarts := y.restarts.filter fun r => r.index != idx
             slots := if resume then y.slots else y.slots + 1 }
/-- The job's next owed placement put on a plaza, if plazas and slots allow (R241): pre-empted ones go first. -/
def State.placeNext (s : State) (id : Nat) : Option State :=
  match s.job id with
  | none => none
  | some j => match s.owedSaves j with
    | i :: _ =>
      let again := j.restarts.any fun r => r.index == i
      if again && s.freeSlots = 0 then none else (s.pickPlaza j.launch i).map fun q => s.assign j q i !again
    | [] =>
      if j.first < j.total && 0 < s.freeSlots then (s.pickPlaza j.launch j.first).map fun q => s.assign j q j.first false else none
/-- Up to n owed placements placed in order. -/
def State.placeMany (s : State) (id : Nat) : Nat → State × Nat
  | 0 => (s, 0)
  | n + 1 => match s.placeNext id with
    | none => (s, 0)
    | some t => let r := t.placeMany id n; (r.1, r.2 + 1)
/-- Placements a job owes now (R238, R338). -/
def State.owed (s : State) (j : Job) : Nat := (s.owedSaves j).length + (j.total - j.first)
/-- A job that owes nothing more, and will owe nothing when its saves complete, is RUNNING and leaves its FIFO (R238, R338). -/
def State.settleJob (s : State) (id : Nat) : State :=
  match s.job id with
  | none => s
  | some j =>
    if s.owed j = 0 && (s.saving id).isEmpty then
      (s.modJob id fun y => { y with st := .running }).modPlacer fun y => { y with fifo := y.fifo.filter fun x => x != id }
    else s
/-- What a job can place now (R241): a GANG job all or none. None: nothing. -/
def State.tryPlace (s : State) (j : Job) : Option State :=
  if s.placer.saveslots = 0 || s.owed j = 0 then none
  else if j.launch.gang then
    if !(s.saving j.id).isEmpty then none
    else let r := s.placeMany j.id (Nat.min (s.owed j) (Config.plazas + 1))
      if r.2 = s.owed j then some (r.1.settleJob j.id) else none
  else
    let r := s.placeMany j.id Config.plazas
    if r.2 = 0 then none else some (r.1.settleJob j.id)

/-- A set of plazas whose placements are pre-empted together, with its rank (R245): priority, start, job, index. -/
structure Victim where
  prio   : Nat
  start  : Nat
  job    : Nat
  index  : Nat
  plazas : List Nat
/-- Victims are taken in this order (R245): lowest priority, then latest start. -/
def Victim.le (x y : Victim) : Bool :=
  x.prio < y.prio || (x.prio == y.prio && (y.start < x.start || (x.start == y.start && (x.job < y.job || (x.job == y.job && x.index ≤ y.index)))))
/-- A job that the head job may pre-empt (R244). -/
def Job.yields (j head : Job) : Bool := j.launch.preempt && !j.launch.never && j.id != head.id && j.prio < head.level
/-- The candidates for the head job (R244, R245); a halted placement is never saved (R249). -/
def State.candidates (s : State) (head : Job) : List Victim :=
  let ok (x : Nat × Plaza) : Bool := !x.2.preempt && !x.2.place.halted
  let inMask (q : Nat) : Bool := bit head.launch.diemask (dieOf q)
  s.placer.jobs.flatMap fun j =>
    if !j.yields head then []
    else
      let on_ := s.onPlazas j.id
      if j.launch.gang then
        (if !on_.isEmpty && on_.all ok && on_.any (fun x => inMask x.1) then
          [⟨j.prio, listMax (on_.map fun x => x.2.startAt), j.id, 0, on_.map fun x => x.1⟩] else [])
      else (on_.filter fun x => ok x && inMask x.1).map fun x => ⟨j.prio, x.2.startAt, j.id, x.2.place.index, [x.1]⟩
/-- Victims taken until they give n plazas of the mask (R245). -/
def takeVictims (mask : Nat) : Nat → List Victim → List Victim
  | _, [] => []
  | n, v :: t => if n = 0 then [] else v :: takeVictims mask (n - (v.plazas.filter fun q => bit mask (dieOf q)).length) t
/-- A victim's save is requested; a RUNNING job joins the tail of its FIFO as REQUEUED (R238, R245, R246). -/
def State.preempt (s : State) (v : Victim) : State :=
  let s1 := v.plazas.foldl (fun t q => t.modPlaza q fun x => { x with preempt := true }) s
  match s1.job v.job with
  | none => s1
  | some j =>
    if j.st == .running then
      (s1.modJob v.job fun y => { y with st := .requeued, level := y.launch.prio, since := s.dev.ns }).modPlacer fun y => { y with fifo := y.fifo ++ [v.job] }
    else s1
/-- Pre-emption for a head job that cannot place (R245); none where it would not help. -/
def State.tryPreempt (s : State) (head : Job) : Option State :=
  let mask := head.launch.diemask
  let onMask (f : Plaza → Bool) : Nat := ((List.range Config.plazas).filter fun q => bit mask (dieOf q) && f (s.plaza q)).length
  let free := ((List.range Config.plazas).filter fun q => bit mask (dieOf q) && s.plazaFree q).length
  let coming := onMask fun x => x.res != .free && x.preempt
  let fresh := head.total - head.first + head.restarts.length
  let want := (s.owedSaves head).length - head.restarts.length + (if head.launch.gang then fresh else Nat.min fresh s.freeSlots)
  let need := want - free - coming
  let vs := sortBy Victim.le (s.candidates head)
  let have_ := vs.foldl (fun n v => n + (v.plazas.filter fun q => bit mask (dieOf q)).length) 0
  if s.placer.saveslots = 0 || need = 0 || vs.isEmpty || (head.launch.gang && (s.freeSlots < fresh || !(s.saving head.id).isEmpty || have_ < need)) then none
  else some ((takeVictims mask need vs).foldl (fun t v => t.preempt v) s)
/-- The queued jobs, highest level first, each level in FIFO order (R241). -/
def State.queue (s : State) : List Job :=
  let js := s.placer.fifo.filterMap s.job
  [3, 2, 1, 0].flatMap fun l => js.filter fun j => j.level == l
/-- The jobs that a halt has left owing nothing leave the FIFO (R238, R249). -/
def State.settleQueue (s : State) : State := s.placer.fifo.foldl (fun t id => t.settleJob id) s
/-- JOB_PLACE (R241, R245): the head job places what it can, else pre-empts; where it is not GANG and no plaza of its diemask is free, the
first later job that can place does. -/
def execJobPlace (s0 : State) : Out :=
  let s := s0.settleQueue
  match s.queue with
  | [] => .next s
  | head :: rest =>
    match s.tryPlace head with
    | some t => .next t
    | none =>
      match s.tryPreempt head with
      | some t => .next t
      | none =>
        let free := (List.range Config.plazas).any fun q => bit head.launch.diemask (dieOf q) && s.plazaFree q
        if head.launch.gang || free then .next s
        else .next ((rest.findSome? fun j => s.tryPlace j).getD s)
/-- One level's aged launches move up, in their order (R237). -/
def State.ageLevel (s : State) (level : Nat) : State :=
  let due (id : Nat) : Bool := match s.job id with
    | some j => j.level == level && j.since + s.placer.agestep * 1000 ≤ s.dev.ns
    | none => false
  let up := s.placer.fifo.filter due
  let s1 := up.foldl (fun t id => t.modJob id fun j => { j with level := level + 1, since := s.dev.ns }) s
  s1.modPlacer fun y => { y with fifo := (y.fifo.filter fun id => !up.contains id) ++ up }
/-- AGING (R237): launches that have waited AGESTEP at a level below 3 move to the tail of the next. -/
def execAging (s : State) : Out :=
  if s.placer.agestep = 0 then .next s else .next (((s.ageLevel 2).ageLevel 1).ageLevel 0)

/-- What a placement needs to end (R248). -/
def Place.over (q : Place) : Bool :=
  [0, 1, 2].all (fun c => (tabGet (Ctx.off .ended) q.ctx c).state == .ended)
    && q.blocks.all (fun b => b.st == .cancelled) && q.copyQ.isEmpty && q.linkQ.isEmpty && q.pendingN.isNone && q.active.isNone
    && q.tokens.all (fun t => t.2.st != .outstanding)
    && [3, 4].all (fun c => let x := tabGet (Ctx.off .ended) q.ctx c; x.state == .dormant || x.state == .ended) && q.arrivals.isEmpty
/-- The placement on plaza p is held for its save (R97, R246). -/
def State.held (s : State) (p : Nat) : Bool :=
  (s.plaza p).res == .resident && (s.plaza p).preempt && !(s.plaza p).stopped && !s.serves p && !(s.place p).halted
/-- Everything begun has completed (R226, R246): the contexts' accesses, a VAMO's, the commands that execute, and the nest at its stop (R291). A
placement that has ended meanwhile is not saved (R249). -/
def State.saveReady (s : State) (p : Nat) : Bool :=
  let q := s.place p
  s.held p && !q.over && [0, 1, 2, 3, 4].all (fun c => !s.busy p c) && q.lanes.all (fun x => !s.amoBegun p x.1) && (q.copyQ ++ q.linkQ).all (fun c => !c.started) && match q.active with
    | none => true
    | some a => a.atStop && a.drain.isNone
/-- A context as it is saved (R70, R83, R246): a waiting one runs its instruction again on resume, whose first fetch is a line access. -/
def Ctx.saved (x : Ctx) : Ctx :=
  { x.uncount with state := if x.state = .waiting then .running else x.state, wait := none, acq := none, delays := [], sync := [], lineAccess := true, asked := [] }
/-- A block as it is saved (R187): one that has completed no longer holds its lane group. -/
def Block.saved (b : Block) : Block :=
  match b.st with
  | .complete => { b with lane := none }
  | .spentComplete => { b with lane := none }
  | _ => b
/-- The handles' users are forgotten with the accesses that used them. -/
def Handle.idle (h : Handle) : Handle := { h with user := none, fail := none }
/-- A trap kept for a context of the placement that has come to a boundary is delivered before the placement is saved (R97). -/
def State.keptTrap (s : State) (p : Nat) : Option State := [0, 1, 2, 3, 4].findSome? fun c => s.takeKept p c
/-- SAVE_COMPLETE (R187, R246, R338): the placement is in its save slot, with its pending records (R97); its plaza is free and the
placement owed. -/
def execSaveComplete (p : Nat) (s : State) : Out :=
  if !s.saveReady p then .next s
  else match s.keptTrap p with
  | some t => .next t
  | none =>
    let s0 := [0, 1, 2, 3, 4].foldl (fun t c => t.forgetRemotes (.ctx p c)) s
    let s1 := (s.place p).lanes.foldl (fun t x => (t.landAll p x.1).forgetRemotes (.lane p x.1)) s0
    let q := s1.plaza p
    let mine (r : Record) : Bool := s1.ours p r
    let place := { q.place with
      ctx := q.place.ctx.map fun (x : Nat × Ctx) => (x.1, x.2.saved)
      blocks := q.place.blocks.map Block.saved
      handles := q.place.handles.map fun (x : Nat × Handle) => (x.1, x.2.idle)
      records := q.place.records ++ q.pending.filter mine, qmoved := false }
    let v : Saved := ⟨place, q.wb, q.ab, q.cb, q.scratch, p, q.pubBegun⟩
    let s2 := s1.modPlaza p fun x =>
      { x with res := .free, preempt := false, place := Place.off, pending := x.pending.filter fun r => !mine r }
    let s3 := s2.modPlacer fun y => { y with requests := y.requests.filter fun r => !(r.plaza == p && r.ctx != 5) }
    .next (s3.modJob place.job fun j => { j with saves := j.saves.filter (fun w => w.place.index != place.index) ++ [v] })

/-- A tenant change (R374): the plaza publishes, its L1s, the departing PASIDs' instruction lines and TLB entries and its buffers are
cleared. Whether it is done. -/
def State.changeTenant (s : State) (p : Nat) (key : Nat × Nat) : Bool × State :=
  let (t, ok) := s.publishLines p
  if !ok || t.noticesFrom p || (t.plaza p).publish.isSome then (false, t)
  else
    let n := ((t.plaza p).pubBegun + 1) % 2 ^ 32
    (true, t.modPlaza p fun q =>
      { q with
        pubBegun := n, pubDone := n, l1d := [], l1v := [], fills := q.fills.map fun f => { f with cancelled := true }
        icache := q.icache.filter (fun x => x.pasid == s.runtime), tlb := q.tlb.filter (fun x => x.pasid == s.runtime)
        ifills := q.ifills.map (fun f => if f.pasid == s.runtime then f else { f with cancelled := true })
        wb := [], ab := [], cb := [], tenant := some key })
/-- A placement may begin step 1 of R231 (R242): its time has come, every one put on its die before it has begun, and the latest of them 16 cycles
ago. -/
def State.mayBegin (s : State) (p : Nat) : Bool :=
  let q := s.plaza p
  q.startAt ≤ s.dev.cycle + 16 && s.plazas.all fun x =>
    x.1 == p || dieOf x.1 != dieOf p ||
      (if x.2.begun.isNone && (x.2.res == .starting || x.2.res == .resuming) then q.startAt < x.2.startAt else x.2.begun.isNone || x.2.startAt ≤ s.dev.cycle)
/-- A line of a way that leaves the lanes' L1 for a scratchpad of `size` segments (R231). -/
def Plaza.leaving (q : Plaza) (size : Nat) (x : Line) : Bool := q.segments ≤ x.way && x.way < size
/-- Step 1 of R231, after the tenant change that comes before it (R374). Whether it is done: a waiting step goes on when it is tried again. -/
def State.leaveL1 (s : State) (p size : Nat) (key : Nat × Nat) : Bool × State :=
  let change : Bool := (s.plaza p).tenant.any fun k => k != key
  let (ok, s1) := if change then s.changeTenant p key else (true, s)
  let s2 := if change && ok then s1.modPlaza p fun q => { q with begun := q.begun.map fun n => n + 20480 } else s1
  let s3 := if ok then ((s2.plaza p).l1v.filter ((s2.plaza p).leaving size)).foldl (fun t x => t.evictLine p true x) s2 else s2
  (ok && !((s3.plaza p).l1v.any ((s3.plaza p).leaving size)) && !s3.noticesFrom p, s3)
/-- Steps 1 to 3 of R231 for a scratchpad of `size` segments. Whether they are done. -/
def State.prepare (s : State) (p size : Nat) (key : Nat × Nat) : Bool × State :=
  let now := s.dev.cycle
  let s1 := if (s.plaza p).begun.isNone && s.mayBegin p then s.modPlaza p fun q => { q with begun := some now, startAt := now + 16 } else s
  if !s.live p || (s1.plaza p).begun.isNone then (false, s)
  else
    let (ok, s2) := s1.leaveL1 p size key
    if !ok || now < ((s2.plaza p).begun.getD 0) + 16 * size then (false, s2)
    else (true, s2.modPlaza p fun x => { x with segments := size, scratch := [], tenant := some key })
/-- The acquire at K of a release made on plaza `from_` (module-wide number) with `seq` publishes begun there (R143, R328): done, or
waiting for that plaza's publish. -/
def State.acquirePlaza (s : State) (p from_ seq : Nat) : Bool × State :=
  if from_ = p then (true, s)
  else if s.published (s.plazaId from_) seq then (true, (s.selfInvalidate p).modPlaza p fun q => { q with await := none })
  else match (s.plaza p).await with
    | some a =>
      if a.done then (true, (s.selfInvalidate p).modPlaza p fun q => { q with await := none })
      else if a.failed then (false, s.modPlaza p fun q => { q with await := none })
      else (false, s)
    | none =>
      (false, (s.modPlaza p fun q => { q with await := some ⟨0, s.plazaId from_, seq, false, false, false⟩ }).sendPublish (s.plazaId from_) seq (.ctx p 9))
/-- PLACEMENT_START (R143, R231, R232, R243): the acquire of its LAUNCH, the steps of R231, and the start of its contexts. -/
def execPlacementStart (p : Nat) (s : State) : Out :=
  match s.job (s.place p).job with
  | none => .next s
  | some j =>
    if (s.plaza p).res != .starting then .next s
    else
      let (ok, s1) := s.prepare p (j.launch.scratch / 8192) (s.keyOf j.launch.pasid)
      if !ok then .next s1
      else
        let (got, s2) := s1.acquirePlaza p j.launch.plaza j.launch.seq
        if !got then .next s2
        else .next (s2.modPlaza p fun q => { q with res := .resident })
/-- The lane group of a block that resumes on lane group l in cycle `at_` (R181, R187, R188): it restarts at its marker, but a SPENT block goes on as
it stands, and the one that a freeze names stays stopped. -/
def Lane.reseat (x : Lane) (b : Block) (l plaza at_ : Nat) (frozen : Bool) : Lane :=
  let y := { x with marker := x.marker.moved (l / 2) plaza }
  let z := if b.st == .spentRunning then { y with nextAt := at_ + 1, delays := [], acq := none } else y.restart at_
  { z with draining := false, dispatched := at_, freeAt := 0, stopped := b.st == .faulted || frozen }
/-- The blocks that go back onto lane groups, in sequence order, one in a cycle (R175, R187). -/
def State.reseat (s : State) (p : Nat) (lanes : Tab Lane) (blocks : List Block) : State :=
  (blocks.filter fun b => b.lane.isSome).foldl (fun t b =>
    match (t.place p).freeHalf t.dev.cycle (b.lane.getD 0 % 2), b.lane with
    | some l, some old =>
      let frozen := (t.place p).freeze.any fun f => f.seq == b.seq
      let x := (tabGet Lane.off lanes old).reseat b l (t.plazaId p) (t.place p).dispatchAt frozen
      t.modPlace p fun q =>
        { q with lanes := tabSet q.lanes l x, dispatchAt := q.dispatchAt + 1
                 blocks := q.blocks.map fun y => if y.seq = b.seq then { y with lane := some l } else y }
    | _, _ => t) s
/-- Records are delivered again on a new plaza in their order, with its number and the time (R97). -/
def State.redeliver (s : State) (p : Nat) (rs : List Record) : State :=
  (s.modPlaza p fun q => { q with pending := q.pending ++ rs.map fun r => { r with module := s.dev.modNum, plaza := p, time := s.dev.ns } }).openNext p
/-- PLACEMENT_RESUME (R97, R116, R188, R231, R247): the steps of R231, then the saved state, and its records delivered again. -/
def execPlacementResume (p : Nat) (s : State) : Out :=
  match s.job (s.place p).job with
  | none => .next s
  | some j =>
    if (s.plaza p).res != .resuming then .next s
    else match j.saves.find? fun v => v.place.index == (s.place p).index with
      | none => .next s
      | some v =>
        let (ok, s1) := s.prepare p (v.place.scrsize / 8192) (s.keyOf v.place.pasid)
        if !ok then .next s1
        else
          let (got, s2) := s1.acquirePlaza p v.plaza v.seq
          if !got then .next s2
          else
            let now := s2.place p
            let place := { v.place with
              ctx := now.ctx, arrivals := now.arrivals, faultq := now.faultq, viewflags := now.viewflags
              handles := v.place.handles.map fun (x : Nat × Handle) => (x.1, x.2.resume)
              blocks := v.place.blocks.map (fun b => { b with lane := none }), lanes := [], pipes := [], records := [], refused := []
              dispatchAt := s.dev.cycle }
            let s3 := s2.modPlaza p fun q =>
              { q with res := .resident, place := place, wb := v.wb, ab := v.ab, cb := v.cb, scratch := v.scratch }
            let s4 := s3.modJob j.id fun y => { y with saves := y.saves.filter fun w => w.place.index != v.place.index }
            .next (((s4.reseat p v.place.lanes v.place.blocks).redeliver p (v.place.refused ++ v.place.records)).settleJob j.id)

/-- The halt of a placement as the Job Placer records it (R95, R145): when, which placement, the status of the context named. -/
def Place.haltMark (q : Place) : Option (Nat × Nat × W32) :=
  if q.halted && q.ctx.any fun x => x.2.halted then
    some (q.haltAt, q.index, ((tabGet (Ctx.off .ended) q.ctx q.haltCtx).exitStatus).getD 0)
  else none
/-- The earlier of two halts; in one cycle the lower index (R145). -/
def firstHalt (a b : Option (Nat × Nat × W32)) : Option (Nat × Nat × W32) :=
  match a, b with
  | some x, some y => if y.1 < x.1 || (y.1 == x.1 && y.2.1 < x.2.1) then b else a
  | none, _ => b
  | _, none => a
/-- The completion value (R145). -/
def completionValue (h : Option (Nat × Nat × W32)) : Word :=
  BitVec.ofNat 64 (2 ^ 63 + match h with
    | some x => 2 ^ 62 + x.2.2.toNat
    | none => 0)
/-- The plaza is free of its placement, from the next cycle (R248). -/
def State.vacate (s : State) (p : Nat) : State :=
  s.modPlaza p fun q => { q with res := .free, preempt := false, await := none, freeAt := s.dev.cycle + 1, place := Place.off }
/-- PLACEMENT_END (R145, R232, R248, R330): the last placement's end writes the completion word and ends the job; before any other counts as
ended its plaza publishes. -/
def execPlacementEnd (p : Nat) (s : State) : Out :=
  let q := s.place p
  match s.job q.job with
  | none => .next s
  | some j =>
    if (s.plaza p).res != .resident || !q.over then .next s
    else
      let s1 := q.lanes.foldl (fun t x => t.landAll p x.1) s
      let j1 := { j with left := j.left ++ q.left, ended := j.ended + 1, ends := j.ends ++ [p], halt := firstHalt j.halt q.haltMark }
      if j1.ended = j1.total then
        let value := completionValue j1.halt
        match s1.writeCompletion p 9 j.launch.pasid j.launch.donewa value with
        | .ok written t => .next ((t.endJob j1 p value written).vacate p)
        | .wait t => .next t
        | .fail _ _ _ t => .next t
      else
        let ended (t : State) : Out := .next (((t.vacate p).modJob j.id fun _ => j1).settleJob j.id)
        match (s1.plaza p).await with
        | some a =>
          if a.done then ended s1
          else if a.failed then .next (s1.modPlaza p fun x => { x with await := none })
          else .next s1
        | none =>
          let n := (s1.plaza p).pubBegun
          .next ((s1.modPlaza p fun x => { x with await := some ⟨0, s.plazaId p, n, true, false, false⟩ }).sendPublish (s.plazaId p) n (.ctx p 9))

end Sys2Proof.Machine
end

