-- ==== Sys2Proof/Machine/Power.lean ====
section
/-! DEFINITION. Power, start-up and protection (R82, R90, R367-R376): die power states, the start-up steps and their journal, the
tenant key slots, the security alarm. -/
namespace Sys2Proof.Machine

/-- A die of this module. -/
def State.die (s : State) (d : Nat) : Die := tabGet Die.off s.dev.dies d
/-- A die changed. -/
def State.modDie (s : State) (d : Nat) (f : Die → Die) : State := s.modDev fun v => { v with dies := tabSet v.dies d (f (s.die d)) }
/-- The plazas of a die. -/
def diePlazas (d : Nat) : List Nat := (List.range Config.plazasPerDie).map fun i => d * Config.plazasPerDie + i
/-- A placement is on the die (R368). -/
def State.dieUsed (s : State) (d : Nat) : Bool := (diePlazas d).any fun p => (s.plaza p).res != .free
/-- The die's slices hold an RRT entry (R368). -/
def State.dieReleases (s : State) (d : Nat) : Bool := s.rrt.any fun t => t.1 / 24 == d && !t.2.isEmpty
/-- Some master block has its generation, or some live view's block its KG, which its tag line's home holds (R341), at a key that meets a test
(R368). -/
def State.generationsAt (s : State) (f : Nat → Bool) : Bool :=
  let at_ (pages : List (Nat × Nat × Nat)) (va : Nat) : Bool := (pageKey pages va).any f
  s.masters.any (fun m => (List.range m.blocks).any fun b => at_ m.pages (m.blockVa b))
    || s.views.any fun v => match s.masterOf v with
      | some m => (List.range m.blocks).any fun b => at_ v.pages (v.blockVa m.across b + viewStride v.tfmt - 128)
      | none => false
/-- The die's slices hold such a generation or KG (R368). -/
def State.dieGenerations (s : State) (d : Nat) : Bool := s.generationsAt fun k => k < 2 ^ 45 && s.homeDie k == d
/-- A second-tier port has an RRT entry or view state, which keeps its homing where it is (R312). -/
def State.portHeld (s : State) (n : Nat) : Bool :=
  let mine (k : Nat) : Bool := Config.tierBase ≤ k && k < 2 ^ 45 && tierPort k == n
  s.rrt.any (fun t => t.2.any fun e => mine (e.word * 8)) || s.generationsAt mine
/-- Ports that another die stands in for are homed on their own die again, once it serves and nothing holds them (R312, R368). -/
def State.rehome (s : State) : State :=
  s.modDev fun d => { d with tierHome := d.tierHome.filter fun x => !(s.dieServes (x.1 / 2) && !s.portHeld x.1) }
/-- The ports that a die homes are homed on the lowest-numbered die that serves (R312, R368). -/
def State.moveHomes (s : State) (d : Nat) : State :=
  let die := ((List.range Config.dies).find? fun x => x != d && s.dieServes x).getD 0
  let mine (n : Nat) : Bool := s.homeDie (Config.tierBase + n * Config.tierSpan) == d
  s.modDev fun v => { v with tierHome := (List.range 16).foldl (fun t n => if mine n then tabSet t n (die + 1) else t) v.tierHome }
/-- Every other enabled die is OFF (R368). -/
def State.lastDie (s : State) (d : Nat) : Bool := (List.range Config.dies).all fun x => x == d || !s.dieServes x
/-- A die goes OFF (R368): the contents of its near memory, plazas, view engines and schedule slots are lost. -/
def State.dieOff (s : State) (d : Nat) : State :=
  let mine (pa : Nat) : Bool := d * Config.dieSpan ≤ pa && pa < (d + 1) * Config.dieSpan
  let s1 := (s.moveHomes d).modDie d fun x => { x with power := 2, returning := false }
  { s1 with
    mem := s1.mem.filter fun (c : Nat × Byte) => !mine c.1
    poison := s1.poison.filter fun u => !mine (u * 64)
    plazas := s1.plazas.filter fun (x : Nat × Plaza) => dieOf x.1 != d
    engines := s1.engines.filter fun (x : Nat × ViewEngine) => x.1 / 8 != d
    slots := s1.slots.filter fun (x : Nat × Slot) => x.1 / 4 != d }
/-- The device runtime starts context 5 of a die's plaza 0 at the dispatcher (R82, R368, R370), whose address is a multiple of 4 as every PC
(R11). -/
def State.startDispatcher (s : State) (d : Nat) : State :=
  s.modPlaza (d * Config.plazasPerDie) fun q => { q with ctx5 := { Ctx.off .running with pc := Config.dispatcherEntry d &&& ~~~ 3 } }
/-- DIEPWR_WRITE (R363, R368): the state that a host requests for die d. From OFF, IDLE powers the die up as a return to ON does, at once and with its
plazas counted out (log 24). -/
def execDiepwrWrite (d : Nat) (w : HostWrite) (s : State) : Out :=
  let x := s.die d
  let want := w.value % 4
  if !s.bar0 w.host || !s.dev.host.owns w.host d || d ≥ Config.dies || !x.enabled || want = 3 || want = x.power then .next s
  else if want = 0 then
    .next (s.modDie d fun y => if x.power = 1 then { y with power := 0 } else { y with returning := true })
  else if s.dieUsed d then .next s
  else if want = 1 then
    .next (if x.power = 2 then ((s.modDie d fun y => { y with power := 1, returning := false }).rehome).startDispatcher d
      else s.modDie d fun y => { y with power := 1 })
  else if s.dieReleases d || s.dieGenerations d || s.lastDie d then .next s
  else .next (s.dieOff d)
/-- DIE_POWER_ON_COMPLETE (R368). -/
def execDiePowerOnComplete (d : Nat) (s : State) : Out :=
  if (s.die d).returning then .next (((s.modDie d fun x => { x with power := 0, returning := false }).rehome).startDispatcher d) else .next s

/-- PASIDBIND (R363, R373): [19:0] PASID, [25:20] slot, [63] valid; under SPLIT of a PASID of the host's own. -/
def execPasidbind (w : HostWrite) (s : State) : Out :=
  let v := w.value
  if !s.bar0 w.host || (s.dev.host.partmode == 1 && tabGet 0 s.dev.host.owner (v % 2 ^ 20) != w.host) then .next s
  else .next (s.modDev fun d => { d with pasidKey := tabPut 0 d.pasidKey (v % 2 ^ 20) (if bit v 63 then bits v 25 20 + 1 else 0) })
/-- A job of a PASID bound to key slot n is queued or running (R373). -/
def State.slotUsed (s : State) (n : Nat) : Bool := s.placer.jobs.any fun j => tabGet 0 s.dev.pasidKey j.launch.pasid == n + 1
/-- A key slot loaded or erased: its generation advances and the slot's rewriter cache entries are dropped (R257, R373). -/
def State.setKey (s : State) (n : Nat) (loaded : Bool) (masked : Nat) : State :=
  (s.modDev fun d =>
    { d with keys := tabSet d.keys n ⟨((tabGet KeySlot.off d.keys n).gen + 1) % 2 ^ 32, loaded, masked⟩ }).modPlacer fun y =>
    { y with rewrites := y.rewrites.filter fun e => e.slot != n + 1 }
/-- KEY_LOAD (R373, R375): over a host port that is up, slot n loaded (f = 1) or erased (f = 0), with the policy m; f = 2 sets the policy alone.
An erasure or a reload is ignored while a job uses the slot; no load before an alarm is acknowledged. -/
def execKeyLoad (n f m : Nat) (s : State) : Out :=
  let x := tabGet KeySlot.off s.dev.keys n
  if n ≥ 64 || f ≥ 3 || !(s.dev.host.portUp.contains true) then .next s
  else if f = 2 then .next (s.modDev fun d => { d with keys := tabSet d.keys n { x with masked := m % 2 ^ 9 } })
  else if (s.slotUsed n && (f = 0 || x.loaded)) || (f = 1 && s.dev.alarmDue) then .next s
  else .next (s.setKey n (f == 1) (m % 2 ^ 9))
/-- JOURNALCLR (R363, R372). -/
def execJournalclr (w : HostWrite) (s : State) : Out :=
  .next (if w.value = 1 && s.bar0 w.host then s.modDev fun d => { d with journal := d.journal.map fun e => { e with absent := true } } else s)
/-- ALARMACK (R363, R375). -/
def execAlarmack (w : HostWrite) (s : State) : Out := .next (if w.value = 1 && s.bar0 w.host then s.modDev fun d => { d with alarmDue := false } else s)
/-- POWER_HOLD (R367): the average over the last 1 ms exceeds 6,000 W (n not 0), or does not. -/
def execPowerHold (n : Nat) (s : State) : Out := .next (s.modDev fun d => { d with hold := n != 0 })
/-- What outlives the power (R369): the journal and the alarm record; the module's number and runtime PASID are set from outside (log 5), and the
hosts' memory is no part of the module (log 14). PASID entries go with the near memory that holds them (R102). -/
def State.cold (s : State) (ph : Phase) : State :=
  let r := State.reset
  { r with
    dev := { r.dev with phase := ph, modNum := s.dev.modNum, starts := s.dev.starts, journal := s.dev.journal, alarms := s.dev.alarms, alarmDue := s.dev.alarmDue }
    mem := s.mem.filter fun (c : Nat × Byte) => 2 ^ 45 ≤ c.1
    runtime := s.runtime, fresh := s.fresh, agenda := s.agenda }
/-- POWER_REMOVAL (R369). -/
def execPowerRemoval (s : State) : Out := .next (s.cold .unpowered)

/-- The last outcome recorded for a unit in a step, if an entry is left (R371, R372). -/
def lastOutcome (j : List JournalEntry) (step unit plaza : Nat) : Option Nat :=
  (j.reverse.find? fun e => !e.absent && e.step == step && e.unit == unit && e.plaza == plaza).map fun e => e.outcome
/-- An entry for this start (R371). -/
def Device.note (d : Device) (step unit plaza outcome : Nat) : Device :=
  { d with journal := d.journal ++ [⟨d.starts % 2 ^ 16, step, unit, plaza, outcome, (Config.journalMs d.starts d.journal.length).toNat, false⟩] }
/-- One unit's part of a step (R370-R372): done, or failed and then its alternate (3) or skip (2); a unit whose last outcome was not
"done" is not tried again. Whether it came up. -/
def Device.unit (d : Device) (old : List JournalEntry) (step unit plaza instead : Nat) (fails : Bool) : Bool × Device :=
  match lastOutcome old step unit plaza with
  | some (_ + 1) => (false, d.note step unit plaza instead)
  | _ => if fails then (false, (d.note step unit plaza 1).note step unit plaza instead) else (true, d.note step unit plaza 0)
/-- A unit of a step without alternate (R370): start-up stops where it fails, or last failed. -/
def Device.only (d : Device) (old : List JournalEntry) (step unit : Nat) (fails : Bool) : Device :=
  match lastOutcome old step unit 0xFF with
  | some (_ + 1) => { d.note step unit 0xFF 1 with phase := .startStopped }
  | _ => if fails then { d.note step unit 0xFF 1 with phase := .startStopped } else d.note step unit 0xFF 0
/-- The enabled dies. -/
def Device.enabledDies (d : Device) : List Nat := (List.range Config.dies).filter fun i => (tabGet Die.off d.dies i).enabled
/-- At least one die must be left, or start-up stops (R370). -/
def Device.needDie (d : Device) : Device := if d.enabledDies.isEmpty then { d with phase := .startStopped } else d
/-- Step 3 for die i (R370). -/
def Device.startDie (d : Device) (old : List JournalEntry) (x : StartUp) (i : Nat) : Device :=
  let (ok, w) := d.unit old 3 (i * 32) 0xFF 3 (x.deadDies.contains i)
  { w with dies := tabSet w.dies i ⟨ok, 0, false⟩ }
/-- Step 4 for plaza p (R370), if its die is enabled; plaza 0 of a die disables it. -/
def Device.startPlaza (d : Device) (old : List JournalEntry) (x : StartUp) (p : Nat) : Device :=
  if !(tabGet Die.off d.dies (dieOf p)).enabled then d
  else
    let (ok, w) := d.unit old 4 (dieOf p * 32 + p % Config.plazasPerDie / 8) p 3 (x.deadPlazas.contains p)
    if ok then w
    else
      let w1 := { w with disabled := w.disabled ++ [p] }
      if p % Config.plazasPerDie = 0 then { w1 with dies := tabSet w1.dies (dieOf p) Die.off } else w1
/-- Step 5 for second-tier port p (R312, R370), with its capacity in GiB. -/
def Device.startPort (d : Device) (old : List JournalEntry) (x : StartUp) (p : Nat) : Device :=
  let (ok, w) := d.unit old 5 p 0xFF 2 (x.deadPorts.contains p)
  let home := if (tabGet Die.off d.dies (p / 2)).enabled then w.tierHome else tabSet w.tierHome p ((d.enabledDies.head?.getD 0) + 1)
  { w with tierHome := home, tierUp := tabSet w.tierUp p ok, tierCap := tabSet w.tierCap p (if ok then Nat.min (tabGet 0 x.capacity p) 1024 else 0) }
/-- Step 6 for Umaem link l (R356, R370). -/
def Device.startLink (d : Device) (old : List JournalEntry) (x : StartUp) (l : Nat) : Device :=
  let (ok, w) := d.unit old 6 l 0xFF 2 (x.deadLinks.contains l)
  { w with links := tabSet w.links l { Link.off with up := ok } }
/-- Step 7 for the dispatcher of die i, if that is enabled (R370). -/
def Device.startLast (d : Device) (old : List JournalEntry) (x : StartUp) (i : Nat) : Device :=
  if (tabGet Die.off d.dies i).enabled then d.only old 7 (i * 32) (x.deadDispatchers.contains i) else d
/-- How many units the seven steps have (R370). -/
def startUnits : Nat := 250
/-- Unit n of start-up in the order of the steps (R370): the controller; the base, with which the host ports come up; 8 dies; 192 plazas; 16
second-tier ports; 24 links; 8 dispatchers. -/
def Device.startUnit (d : Device) (old : List JournalEntry) (x : StartUp) (n : Nat) : Device :=
  if n = 0 then d.only old 1 0 x.ctlFails
  else if n = 1 then
    let w := d.only old 2 0 x.baseFails
    if w.phase == .startStopped then w else { w with host := { w.host with portUp := [true, true] } }
  else if n < 10 then
    let w := d.startDie old x (n - 2)
    if n = 9 then w.needDie else w
  else if n < 202 then
    let w := d.startPlaza old x (n - 10)
    if n = 201 then w.needDie else w
  else if n < 218 then d.startPort old x (n - 202)
  else if n < 242 then d.startLink old x (n - 218)
  else d.startLast old x (n - 242)
/-- The next unit, unless start-up has stopped. -/
def Device.startNext (d : Device) (x : StartUp) : Device :=
  if d.phase == .starting then { d.startUnit (d.journal.take d.startLog) x d.startPos with startPos := d.startPos + 1 } else d
/-- k units one after the other. -/
def Device.startSome (x : StartUp) : Nat → Device → Device
  | 0, d => d
  | k + 1, d => Device.startSome x k (d.startNext x)
/-- Start-up ends with its last unit: the module is up, and the dispatchers run (R356, R370). -/
def State.startDone (s : State) : State :=
  if s.dev.phase == .starting && startUnits ≤ s.dev.startPos then
    s.dev.enabledDies.foldl (fun u i => u.startDispatcher i) (s.modDev fun d => { d with phase := .up, locked := d.modNum == d.host.tbmaster })
  else s
/-- A start-up begins (R370-R372). -/
def State.startBegin (s : State) : State :=
  (s.cold .starting).modDev fun d => { d with starts := d.starts + 1, startLog := d.journal.length }
/-- START_UP (R370-R372, R376): the units of the seven steps, or as many of them as come before power or an alarm may cut it short; it goes on from
there if neither does. It stops where a unit without alternate fails, or no die is left. -/
def execStartUp (x : StartUp) (s : State) : Out :=
  let go (t : State) : Out :=
    .next (t.modDev fun d => Device.startSome x (match x.upTo with
      | some k => Nat.min k startUnits - d.startPos
      | none => startUnits - d.startPos) d).startDone
  if s.dev.phase == .starting then go s
  else if s.dev.phase == .reset || s.dev.phase == .unpowered then go s.startBegin
  else .next s
/-- SECURITY_ALARM (R375, R376): keys are erased, links and ports go down, the alarm is recorded in a free entry, and the module is
halted until power is removed. -/
def execSecurityAlarm (n : Nat) (s : State) : Out :=
  if s.dev.phase = .unpowered then .next s
  else .next (s.modDev fun d =>
    { d with
      phase := .halted, alarmDue := true, keys := d.keys.map fun (k : Nat × KeySlot) => (k.1, { k.2 with gen := (k.2.gen + 1) % 2 ^ 32, loaded := false })
      alarms := if d.alarms.length < 16 then d.alarms ++ [(d.ns / 1000 % 2 ^ 48, n % 16)] else d.alarms
      links := d.links.map fun (l : Nat × Link) => (l.1, { l.2 with up := false })
      host := { d.host with portUp := d.host.portUp.map fun _ => false } })
/-- PLAZA_RESTART (R90): the plaza's contexts and engines go on as they stand (log 24). -/
def execPlazaRestart (p : Nat) (s : State) : Out := .next (s.modPlaza p fun q => { q with stopped := false })

end Sys2Proof.Machine
end

