-- ==== Sys2Proof/Machine/Schedule.lean ====
section
/-! DEFINITION. Link schedules (R304-R306, R357): LSCHED, LGO, the steps, pauses and the end of a schedule. -/
namespace Sys2Proof.Machine

/-- Major opcodes of LSCHED and LGO (R293). -/
def majLsched : Nat := 0x76
def majLgo : Nat := 0x77
/-- A command enters the link queue (R129), unless its instruction waits for its token or for room; its feature comes first (R293). -/
def issueLink (i : Instr) (major n opa opb t u v w : Nat) (s : State) : Out :=
  match s.cur.agent with
  | .control p c =>
    if c != 5 && !s.hasFeature p 4 then .next (s.illegal p c)
    else onContext s jobCtx fun p c =>
      if (s.token p t).st = .outstanding || queueSize ≤ (s.place p).linkQ.length then .next (s.block p c i)
      else
        let (x, s1) := s.newCmd p c major 0 (s.g p c opa) (if major = majLgo then 0 else s.g p c opb) n t u v w
        .next ((s1.modPlace p fun q => { q with linkQ := q.linkQ ++ [x] }).retire p c id)
  | _ => .next s
/-- LSCHED (R304). -/
def execLsched (n a b t u v w : Nat) (s : State) : Out := issueLink (.lsched n a b t u v w) majLsched n a b t u v w s
/-- LGO (R306). -/
def execLgo (n a t u v w : Nat) (s : State) : Out := issueLink (.lgo n a t u v w) majLgo n a a t u v w s

/-- Schedule slot n of die d. -/
def State.slot (s : State) (d n : Nat) : Slot := tabGet Slot.off s.slots (4 * d + n)
/-- A schedule slot changed. -/
def State.modSlot (s : State) (d n : Nat) (f : Slot → Slot) : State := { s with slots := tabSet s.slots (4 * d + n) (f (s.slot d n)) }
/-- The four doublewords of a step (R304). -/
def stepOf (v : Nat) : SchedStep :=
  let w0 := dword v 0
  let w3 := dword v 3
  { tslot := bits w0 63 32, op := bits w0 31 28, port := bits w0 27 23, tok := bits w0 22 16, aux := bits w0 15 0
    sh := bits (dword v 1) 52 48, soff := bits (dword v 1) 47 0, dh := bits (dword v 2) 52 48, doff := bits (dword v 2) 47 0
    count := bits w3 63 32, sfmt := bits w3 31 24, wfmt := bits w3 23 16, dfmt := bits w3 15 8 }
/-- A step without defects (R304): its formats are codes of R120, the local source's not raw. -/
def stepOk (v : Nat) : Bool :=
  let x := stepOf v
  x.op ≤ 4 && x.port < 24 && (if x.op = 4 then x.tok < 64 else x.tok == 0)
    && (if x.op ≤ 1 then bits x.aux 7 3 == 0 else if x.op = 3 then x.aux < 24 else x.aux == 0)
    && bits (dword v 1) 63 53 == 0 && bits (dword v 2) 63 53 == 0 && bits (dword v 3) 7 0 == 0
    && x.sfmt != 0xFF && fmtOk x.sfmt && fmtOk x.wfmt && fmtOk x.dfmt
    && (x.count % 32 == 0 || !(scaled x.sfmt || scaled x.wfmt || scaled x.dfmt))
/-- Steps in ascending tslot (R304). -/
def stepsRise : List SchedStep → Bool
  | [] => true
  | [_] => true
  | a :: b :: t => decide (a.tslot ≤ b.tslot) && stepsRise (b :: t)
/-- The keys of pieces of the placement's address space that the link engine reads (R304). -/
def State.engineKeys (s : State) (p : Nat) : List (Nat × Nat) → Res (List (Nat × Nat × Nat))
  | [] => .ok [] s
  | (va, n) :: rest => (s.checkVa p (s.place p).pasid (BitVec.ofNat 64 va) 0 .read).andThen fun k t =>
    (t.engineKeys p rest).andThen fun ks u => .ok ((va, k.1, n) :: ks) u
/-- The bytes of those pieces, the lines of other modules having been gathered. -/
def State.takeVa (s : State) (p : Nat) (far : List (Nat × List Byte)) : List (Nat × Nat × Nat) → Res (List Byte)
  | [] => .ok [] s
  | (va, key, n) :: rest =>
    (((s.gathered (engineReq p 8) far (key / 128)).andThen fun r v => takeBytes r.1 r.2 key n v).at_ (BitVec.ofNat 64 va)).andThen fun x t =>
      (t.takeVa p far rest).andThen fun bs u => .ok (leBytes n x ++ bs) u
/-- n bytes of the placement's address space read by the link engine at their homes (R304, R332). -/
def State.engineVa (s : State) (p : Nat) (ps : List (Nat × Nat)) : Res (List Byte) :=
  (s.engineKeys p ps).andThen fun ks t =>
    let u := ks.foldl (fun v x => (v.writeBack p (x.2.1 / 128)).mergeOwn p (x.2.1 / 128)) t
    (u.gather (engineReq p 8) (farLines (ks.map fun x => x.2))).andThen fun far v => v.takeVa p far ks
/-- The command of the link queue whose failure waits for a snapshot entry (R93); `sent` marks it. -/
def Place.linkStuck (q : Place) : Option Cmd := q.linkQ.find? fun c => c.sent
/-- The first command of the link queue that has not started (R129): none while the engine takes no commands (R93). -/
def Place.linkHead (q : Place) : Option Cmd := if q.linkStuck.isSome then none else q.linkQ.find? fun c => !c.started
/-- A command of the link queue fails (R93): its token at once; its trap waits while every snapshot entry is held. -/
def State.failLink (s : State) (p : Nat) (c : Cmd) (f : Failure) : State :=
  match s.failCmd p 3 c f with
  | some t => t
  | none => (s.endCmd p c false).modPlace p fun q => { q with linkQ := { c with started := true, fail := some f, sent := true } :: q.linkQ }
/-- A failure that waited takes a snapshot entry that has been freed (R93). -/
def State.retryLink (s : State) (p : Nat) : State :=
  match (s.place p).linkStuck with
  | some c => (match c.fail with
    | some f => (s.failCmd p 3 c f).getD s
    | none => s)
  | none => s
/-- What LSCHED does at the head of its queue (R304); a step in a format that the launch does not enable is malformed for it (R253). The reserved
bits of g[rb] are not looked at: R6 and R304 do not say what follows of one that is set (DESIGN CHOICE, log 27). -/
def State.loadSchedule (s : State) (p : Nat) (c : Cmd) : State :=
  let d := dieOf p
  let sl := s.slot d c.arg
  let count := bits c.opb.toNat 15 0
  let tp := bits c.opb.toNat 47 32
  if sl.running then s
  else if sl.job.isSome && sl.job != some c.job then s.failLink p c (plainFail .protect)
  else if count = 0 || 4096 < count || tp = 0 then s.failLink p c (plainFail .illegal)
  else if c.opa.toNat % 32 != 0 then s.failLink p c { plainFail .misaligned with faddr := c.opa }
  else match s.engineVa p (linePieces c.opa.toNat (32 * count)) with
    | .wait t => t
    | .fail cause va pa t => t.failLink p c { plainFail cause with faddr := va, paddr := if cause = .memerr then pa else 0 }
    | .ok bs t =>
      let vs := (List.range count).map fun i => leNat ((bs.drop (32 * i)).take 32)
      let steps := vs.map stepOf
      if !(vs.all stepOk) || !stepsRise steps || steps.any (fun x => [x.sfmt, x.wfmt, x.dfmt].any fun f => !t.fmtOn p f) then t.failLink p c (plainFail .illegal)
      else (t.modSlot d c.arg fun x => { x with job := some c.job, index := c.index, plaza := p, steps := steps, period := tp, next := 0 }).endCmd p c true
/-- SCHEDULE_LOAD: LSCHED at the head of the link queue executes (R129, R304). -/
def execScheduleLoad (p : Nat) (s : State) : Out :=
  if !s.serves p then .next s
  else match (s.place p).linkHead with
    | none => .next (s.retryLink p)
    | some c =>
      if c.major != majLsched || !c.ready then .next s
      else if c.cancelled then .next (s.endCmd p c false)
      else .next (s.loadSchedule p c)
/-- What LGO does at the head of its queue (R306, R356); the schedule runs at the placement that loaded it. -/
def State.startSchedule (s : State) (p : Nat) (c : Cmd) : State :=
  let d := dieOf p
  let sl := s.slot d c.arg
  if sl.running then s
  else if sl.job.isNone then s.failLink p c (plainFail .illegal)
  else if sl.job != some c.job then s.failLink p c (plainFail .protect)
  else if !s.dev.locked then s.failLink p c (plainFail .linkdown)
  else if c.opa.toNat < s.dev.ns then s.failLink p c (plainFail .illegal)
  else match s.findPlace c.job sl.index with
    | none => s.failLink p c (plainFail .hunmapped)
    | some (none, _) => s
    | some (some q, _) =>
      if !s.serves q then s
      else
        let s1 := (s.modCmd p c.id fun x => { x with started := true }).modSlot d c.arg fun x =>
          { x with running := true, start := c.opa.toNat, next := 0, plaza := q, cmd := some (p, c.id), result := none, fail := none }
        if q = p then s1 else s1.modPlace q fun y => { y with linkQ := { c with started := true, tok := 127 } :: y.linkQ }
/-- SCHEDULE_START: LGO at the head of the link queue executes (R129, R306). -/
def execScheduleStart (p : Nat) (s : State) : Out :=
  if !s.serves p then .next s
  else match (s.place p).linkHead with
    | none => .next (s.retryLink p)
    | some c =>
      if c.major != majLgo || !c.ready then .next s
      else if c.cancelled then .next (s.endCmd p c false)
      else .next (s.startSchedule p c)

/-- A step that no schedule has. -/
def noStep : SchedStep := ⟨0, 0, 0, 0, 0, 0, 0, 0, 0, 0, 0, 0, 0⟩
/-- The time of step i (R306): S + tslot, and Tp for each pause that moves it. -/
def Slot.time (x : Slot) (i : Nat) : Nat :=
  let base := x.start + (x.steps.getD i noStep).tslot
  base + x.period * (x.pauses.filter fun q => decide (q.1 < base) || (match q.2 with
    | some j => decide (j ≤ i)
    | none => false)).length
/-- The next step is due (R306). -/
def State.stepDue (s : State) (x : Slot) : Bool := x.running && x.fail.isNone && x.next < x.steps.length && x.time x.next ≤ s.dev.ns
/-- The next step is ready (R305). -/
def State.stepReady (s : State) (x : Slot) : Bool :=
  let y := x.steps.getD x.next noStep
  let h := (s.handle x.plaza y.sh).st
  if y.op = 0 then h == .valid || h == .empty
  else if y.op = 1 || y.op = 3 then x.data.any fun e => e.1 == x.next
  else if y.op = 4 then (s.token x.plaza y.tok).st != .outstanding
  else true
/-- Bytes of a run of n elements (R304). -/
def runBytes (f n : Nat) : Nat := (n * fmtBits f + 7) / 8 + (if scaled f then n / 32 else 0)
/-- The exact values of a run. -/
def runValues (book : Book) (f n : Nat) (bs : List Byte) : List Val :=
  if scaled f then unitValues f n book bs else (unpackBits (fmtBits f) n bs).map (elemVal f)
/-- A run from values (R195-R199, R202). -/
def runFrom (book : Book) (f n : Nat) (xs : List Val) : List Byte :=
  if scaled f then quantUnit f n book xs else packBits (fmtBits f) (xs.map (convVal f 0 false false))
/-- A run converted; one format throughout moves unchanged. -/
def runConv (book : Book) (f g n : Nat) (bs : List Byte) : List Byte :=
  if f = g then bs
  else if scaled f || scaled g then runFrom book g n (runValues book f n bs)
  else packBits (fmtBits g) ((unpackBits (fmtBits f) n bs).map (convElem f g 0 false))
/-- A step that would convert between raw bytes and a format: the spec gives it no values; it fails as a copy of such a kind does (R132;
DESIGN CHOICE, log 22). -/
def SchedStep.rawMix (y : SchedStep) : Bool :=
  if y.op = 0 then y.wfmt == 0xFF else if y.op = 1 then y.wfmt == 0xFF || y.dfmt == 0xFF else y.op == 2 && y.dfmt == 0xFF
/-- The module at the far end of a port, as the routes have it (R360; log 22). -/
def State.portPeer (s : State) (l : Nat) : Nat := ((List.range 256).find? fun m => bit (tabGet 0 s.dev.host.routes m) l).getD 0
/-- A flit sent on one link (R352); none where it is down or due for a new key (R354). -/
def State.sendOn (s : State) (l : Nat) (f : Flit) : Option State :=
  let x := tabGet Link.off s.dev.links l
  if x.up && x.counter < 2 ^ 48 - 1 then some (s.emit l f) else none
/-- Link l returns n credits of channel v to the module at its far end (R353); how many it grants and when the spec does not say (log 25). -/
def State.giveCredit (s : State) (l v n : Nat) : State := (s.sendOn l (mkFlit 0x0C (s.portPeer l) 0 v n 0 [])).getD s
/-- The place of the next step among the steps of its schedule that send on port l, from 0: its data is for the step of that place among the
receiver's steps that take data on the port (R305; log 22). -/
def Slot.sendRank (x : Slot) (l : Nat) : Nat :=
  ((x.steps.take x.next).filter fun y => (y.op == 0 && y.port == l) || (y.op == 3 && y.aux % 32 == l)).length
/-- Schedule data sent on a port to a module and die (R305, R353; log 13), at most 224 bytes in each flit (R352): the slot, the place i of its
step, and from which byte of the run the flit goes on. -/
def State.sendRun (s : State) (d n i l dmod ddie : Nat) (bs : List Byte) : Eng Unit :=
  (List.range (Nat.max 1 ((bs.length + flitMax - 1) / flitMax))).foldl (fun r j => r.andThen fun _ t =>
    match t.sendOn l { mkFlit 0x0A dmod n (flitMax * j) bs.length i ((bs.drop (flitMax * j)).take flitMax) with sdie := d, ddie := ddie } with
    | some u => .ok () u
    | none => .fail (plainFail .linkdown) s) (.ok () s)
/-- What a step has computed, kept until it has been written. -/
def State.keepResult (s : State) (d n : Nat) (bs : List Byte) : State := s.modSlot d n fun x => { x with result := some bs }
/-- The effect of the next step of slot n of die d (R305). -/
def State.stepEffect (s : State) (d n : Nat) : Eng Unit :=
  let x := s.slot d n
  let y := x.steps.getD x.next noStep
  let p := x.plaza
  let id := match x.cmd with
    | some c => c.2
    | none => 0
  let data := tabGet [] x.data x.next
  let (book, s) := if [y.sfmt, y.wfmt, y.dfmt].contains 0x13 then s.freeBook else ((fun _ => 0 : Book), s)
  let source (t : State) : Eng (List Byte) := t.readGlobal p 8 id y.sh y.soff (runBytes y.sfmt y.count) 1 false
  let write (bs : List Byte) (t : State) : Eng Unit := (t.keepResult d n bs).writeGlobal p 8 id y.dh y.doff bs
  if y.rawMix then .fail (plainFail .illegal) s
  else if y.op = 0 then
    (source s).andThen fun bs t => t.sendRun d n (x.sendRank y.port) y.port (y.aux / 256) (y.aux % 8) (runConv book y.sfmt y.wfmt y.count bs)
  else if y.op = 1 then match x.result with
    | some bs => write bs s
    | none => (source s).andThen fun bs t =>
      write (runFrom book y.dfmt y.count (((runValues book y.wfmt y.count data).zip (runValues book y.sfmt y.count bs)).map fun v => f32 (toF32 (v.1.add v.2)))) t
  else if y.op = 2 then match x.result with
    | some bs => write bs s
    | none => (source s).andThen fun bs t => write (runConv book y.sfmt y.dfmt y.count bs) t
  else if y.op = 3 then (write data s).andThen fun _ t => t.sendRun d n (x.sendRank (y.aux % 32)) (y.aux % 32) (t.portPeer (y.aux % 32)) 0 data
  else if (s.token p y.tok).st = .failed then .fail (plainFail .tokenfailed) s
  else .ok () s
/-- A STALE source handle of a SEND that is due is refreshed (R114). -/
def State.refreshSource (s : State) (x : Slot) : State :=
  let y := x.steps.getD x.next noStep
  match x.cmd with
  | some c => if y.op = 0 && (s.handle x.plaza y.sh).st == .stale then
      (match s.engineUse x.plaza c.2 y.sh y.soff (runBytes y.sfmt y.count) .read with
      | .wait t => t
      | _ => s) else s
  | none => s
/-- The pins of the running schedule's step are released (R346). -/
def State.unpinSlot (s : State) (x : Slot) : State :=
  match x.cmd with
  | none => s
  | some c => match (s.place x.plaza).cmd c.2 with
    | some y => s.unpin x.plaza y
    | none => s
/-- How the running schedule has failed outside its steps, if it has: the refresh of a handle it uses (R114), or the loss of the link on which
its next step awaits data (R306). -/
def State.slotFailure (s : State) (x : Slot) : Option Failure :=
  let y := x.steps.getD x.next noStep
  let refresh := x.cmd.bind fun c => ((s.place x.plaza).cmd c.2).bind fun k => k.fail
  if refresh.isSome then refresh
  else if (y.op == 1 || y.op == 3) && !s.stepReady x && !(tabGet Link.off s.dev.links y.port).up then some (plainFail .linkdown)
  else none
/-- Each step reads its handles when it executes (R305): what the step before read is forgotten. -/
def State.dropHeld (s : State) (x : Slot) : State :=
  match x.cmd with
  | some c => s.modCmd x.plaza c.2 fun k => { k with held := [] }
  | none => s
/-- SCHEDULE_STEP: the next step of slot n of die d runs when it is due and ready (R305, R306). -/
def execScheduleStep (d n : Nat) (s : State) : Out :=
  let x := s.slot d n
  if !s.stepDue x then .next s
  else match s.slotFailure x with
  | some f => .next (s.modSlot d n fun y => { y with fail := some f, result := none })
  | none =>
  if !s.stepReady x then .next (s.refreshSource x)
  else match s.stepEffect d n with
    | .ok _ t => .next (((t.unpinSlot x).dropHeld x).modSlot d n fun y =>
      { y with next := y.next + 1, result := none, data := y.data.filter fun e => e.1 != y.next })
    | .wait t => .next t
    | .fail f t => .next ((t.unpinSlot x).modSlot d n fun y => { y with fail := some f, result := none })
/-- The ports that a schedule names, with the peer's module and die (R306, R357). -/
def Slot.ports (x : Slot) : List (Nat × Option Nat × Nat) :=
  (x.steps.flatMap fun y =>
    if y.op ≤ 1 then [(y.port, some (y.aux / 256), y.aux % 8)] else if y.op = 3 then [(y.port, none, 0), (y.aux % 32, none, 0)] else []).eraseDups
/-- A pause flit on every port of the schedule (R357): its time and its slot. -/
def State.flood (s : State) (d n t : Nat) : State :=
  (s.slot d n).ports.foldl (fun u x =>
    (u.sendOn x.1 { mkFlit 0x0B (x.2.1.getD (u.portPeer x.1)) n t 0 0 [] with sdie := d, ddie := x.2.2 }).getD u) s
/-- PAUSE: the next step is not ready at its time t, and its engine raises a pause (g = 0); or a pause reaches this engine from another
participant (g = 1). Pauses of one time are one (R306). -/
def execPause (d n t g : Nat) (s : State) : Out :=
  let x := s.slot d n
  if g = 0 then
    (if s.stepDue x && x.time x.next == t && !s.stepReady x && (s.slotFailure x).isNone then
      .next ((s.modSlot d n fun y => { y with pauses := (t, some y.next) :: y.pauses.filter fun q => q.1 != t }).flood d n t)
    else .next s)
  else if x.pauses.any fun q => q.1 == t then .next s
  else .next ((s.modSlot d n fun y => { y with pauses := (t, none) :: y.pauses }).flood d n t)
/-- Pauses that are due by now (R306): a step that is not ready at its time raises one, and another for each period that passes. -/
def State.pauseSlot (s : State) (k ns : Nat) : State :=
  let x := tabGet Slot.off s.slots k
  (List.range (ns / Nat.max x.period 1 + 1)).foldl (fun t _ =>
    let y := tabGet Slot.off t.slots k
    onward (execPause (k / 4) (k % 4) (y.time y.next) 0) t) s
/-- SCHEDULE_DATA: data for step i of slot n of die d arrives and is held (R305). -/
def execScheduleData (d n i : Nat) (x : List Byte) (s : State) : Out := .next (s.modSlot d n fun y => { y with data := tabSet y.data i x })
/-- The slot after its schedule ended (R304, R306); data that came early for the next run is held (R305), a failed schedule's is dropped. -/
def Slot.stop (x : Slot) : Slot :=
  { x with running := false, pauses := [], cmd := none, data := if x.fail.isSome then [] else x.data, result := none, fail := none }
/-- SCHEDULE_COMPLETE: the last step has written and the token completes, or the schedule failed (R306). -/
def execScheduleComplete (d n : Nat) (s : State) : Out :=
  let x := s.slot d n
  match x.cmd with
  | none => .next s
  | some (p, id) =>
    if x.running && x.fail.isNone && s.writesOut x.plaza id then
      .next (match s.remoteFailure x.plaza id with
        | some f => (s.forgetRemotes (.cmd x.plaza id)).modSlot d n fun y => { y with fail := some f, result := none }
        | none => s)
    else
    let done (t : State) : State :=
      (t.modSlot d n Slot.stop).modPlace x.plaza fun q => { q with linkQ := q.linkQ.filter fun c => c.id != id }
    match (s.place p).cmd id with
    | none => .next (if x.running then done s else s)
    | some c =>
      if !x.running then .next s
      else match x.fail with
        | some f => .next ((done s).failLink p c f)
        | none => .next (if x.next < x.steps.length then s else done (s.endCmd p c true))

end Sys2Proof.Machine
end

