-- ==== Sys2Proof/Machine/Wake.lean ====
section
/-! DEFINITION. What ends a context's wait or changes it (R61, R62, R74, R83, R93, R348): a blocking instruction runs again and finds its
condition met, or waits on. -/
namespace Sys2Proof.Machine

/-- The blocking instruction that a context waits in, run again from its start (R83). -/
def retry (i : Instr) (st : State) : Out :=
  match i with
  | .ldb d a c i => execLdb d a c i st
  | .ldbn d a c i => execLdbn d a c i st
  | .ldh d a c i => execLdh d a c i st
  | .ldhn d a c i => execLdhn d a c i st
  | .ldw d a c i => execLdw d a c i st
  | .ldwn d a c i => execLdwn d a c i st
  | .ldd d a c i => execLdd d a c i st
  | .stb r a c i => execStb r a c i st
  | .sth r a c i => execSth r a c i st
  | .stw r a c i => execStw r a c i st
  | .std r a c i => execStd r a c i st
  | .lda d a c s z o => execLda d a c s z o st
  | .strel r a c s z o => execStrel r a c s z o st
  | .amo d a b z s o p => execAmo d a b z s o p st
  | .amoAddc a b z => execAmoAddc a b z st
  | .amoFaddc a b => execAmoFaddc a b st
  | .cas d a b z s o c => execCas d a b z s o c st
  | .waitm d a b z s c => execWaitm d a b z s c st
  | .loop c b l m p => execLoop c b l m p st
  | .loopi c b l m p => execLoopi c b l m p st
  | .ckpt a => execCkpt a st
  | .icpf a => execIcpf a st
  | .icinv a => execIcinv a st
  | .dcpf a => execDcpf a st
  | .dcwb a => execDcwb a st
  | .dcinv a => execDcinv a st
  | .shld n a c => execShld n a c st
  | .shst n a c => execShst n a c st
  | .popp d b => execPopp d b st
  | .poppn d b => execPoppn d b st
  | .emit d a b e o t => execEmit d a b e o t st
  | .split d a b p e o t f => execSplit d a b p e o t f st
  | .bwait a => execBwait a st
  | .twait n => execTwait n st
  | .twaitm a => execTwaitm a st
  | .tfree n => execTfree n st
  | .tfreem a => execTfreem a st
  | .cpy a b n t u v w => execCpy a b n t u v w st
  | .cpyg a b n t u v w => execCpyg a b n t u v w st
  | .puth a b n t u v w => execPuth a b n t u v w st
  | .bfset n a t u v w => execBfset n a t u v w st
  | .cbld n a h t u v w => execCbld n a h t u v w st
  | .mgo t u v w => execMgo t u v w st
  | .rwait d n c => execRwait d n c st
  | .launch d a => execLaunch d a st
  | .jwait d a i => execJwait d a i st
  | .jbar d m => execJbar d m st
  | .viewreg d a => execViewreg d a st
  | .viewdrop d a => execViewdrop d a st
  | .viewtag d a s => execViewtag d a s st
  | .viewsync d a => execViewsync d a st
  | .lsched n a b t u v w => execLsched n a b t u v w st
  | .lgo n a t u v w => execLgo n a t u v w st
  | _ => .next st
/-- A waiting context may go on: it runs, or its access must complete before its placement is saved (R246). -/
def State.mayFinish (s : State) (p c : Nat) : Bool :=
  (s.ctx p c).state == .waiting && (s.runs p c || (s.live p && (s.plaza p).res == .resident && s.busy p c))
/-- The waiting context's instruction runs again. -/
def retryCtx (p c : Nat) (s : State) : Out :=
  let x := s.ctx p c
  match x.wait with
  | some i => if s.mayFinish p c then retry i { s with cur := ⟨.control p c, x.pc, x.w0, x.w1, x.len⟩ } else .next s
  | none => .next s
/-- CONDITION_MET (R83): the context's blocking instruction retires, if its condition is met. -/
def execConditionMet (p c : Nat) (s : State) : Out := retryCtx p c s
/-- WAITM_WAKE (R61): a sleeping WAITM loads again. -/
def execWaitmWake (p c : Nat) (s : State) : Out :=
  match (s.ctx p c).wait with
  | some (.waitm ..) => retryCtx p c s
  | _ => .next s
/-- WATCHDOG (R62): a WAITM that has slept WDOG cycles traps at its instruction. -/
def execWatchdog (p c : Nat) (s : State) : Out :=
  let x := s.ctx p c
  match x.wait with
  | some (.waitm _ a _ _ _ _) =>
    if s.runs p c && x.state == .waiting && !s.busy p c && x.acq.isNone && x.wdog != 0 && x.since + x.wdog.toNat ≤ s.dev.cycle then
      .next (s.trap p c .watchdog (x.reg a))
    else .next s
  | _ => .next s
/-- ENGINE_TRAP (R93): a trap kept for a context is taken at its boundary. -/
def execEngineTrap (p c : Nat) (s : State) : Out := if s.runs p c then .next ((s.takeKept p c).getD s) else .next s
/-- DELAYED_READ_RECHECK (R348): a context's read, a lane group's packet or the copy's unit is tried again. -/
def execDelayedReadRecheck (p : Nat) (x : Reader) (s : State) : Out :=
  match x with
  | .ctx c => retryCtx p c s
  | .lane l => .next (s.modLane p l fun y => if y.delays.isEmpty then y else { y with nextAt := Nat.min y.nextAt s.dev.cycle })
  | .copy => .next (s.copyNext p)
  | .host => .next s.hostRetry
/-- WRITEBACK_ACKNOWLEDGEMENT (R74, R117, R231): a DCWB or DCINV of context c may retire, a placement's start go on (c = 9), a page publish
end. -/
def execWritebackAcknowledgement (p c : Nat) (s : State) : Out :=
  let t := s.finishMoves
  if c = 9 then (match (t.plaza p).res with
    | .starting => execPlacementStart p t
    | .resuming => execPlacementResume p t
    | _ => .next t)
  else match (t.ctx p c).wait with
    | some (.dcwb _) => retryCtx p c t
    | some (.dcinv _) => retryCtx p c t
    | _ => .next t

end Sys2Proof.Machine
end

