-- ==== Sys2Proof/Machine/Dispatch.lean ====
section
/-! DEFINITION. What each instruction and step does: one arm per row of spec/opcode_table.json. -/
namespace Sys2Proof.Machine

def exec (i : Instr) (s : State) : Host.Outcome State Fault Refusal :=
  match i with
  | .add v0 v1 v2 v3 => Sys2Proof.Machine.execAdd v0 v1 v2 v3 s
  | .sub v0 v1 v2 v3 => Sys2Proof.Machine.execSub v0 v1 v2 v3 s
  | .and v0 v1 v2 v3 => Sys2Proof.Machine.execAnd v0 v1 v2 v3 s
  | .or v0 v1 v2 v3 => Sys2Proof.Machine.execOr v0 v1 v2 v3 s
  | .xor v0 v1 v2 v3 => Sys2Proof.Machine.execXor v0 v1 v2 v3 s
  | .andn v0 v1 v2 v3 => Sys2Proof.Machine.execAndn v0 v1 v2 v3 s
  | .shl v0 v1 v2 v3 => Sys2Proof.Machine.execShl v0 v1 v2 v3 s
  | .shr v0 v1 v2 v3 => Sys2Proof.Machine.execShr v0 v1 v2 v3 s
  | .sra v0 v1 v2 v3 => Sys2Proof.Machine.execSra v0 v1 v2 v3 s
  | .mul v0 v1 v2 v3 => Sys2Proof.Machine.execMul v0 v1 v2 v3 s
  | .mulhs v0 v1 v2 v3 => Sys2Proof.Machine.execMulhs v0 v1 v2 v3 s
  | .mulhn v0 v1 v2 v3 => Sys2Proof.Machine.execMulhn v0 v1 v2 v3 s
  | .divs v0 v1 v2 v3 => Sys2Proof.Machine.execDivs v0 v1 v2 v3 s
  | .divn v0 v1 v2 v3 => Sys2Proof.Machine.execDivn v0 v1 v2 v3 s
  | .rems v0 v1 v2 v3 => Sys2Proof.Machine.execRems v0 v1 v2 v3 s
  | .remn v0 v1 v2 v3 => Sys2Proof.Machine.execRemn v0 v1 v2 v3 s
  | .min v0 v1 v2 v3 => Sys2Proof.Machine.execMin v0 v1 v2 v3 s
  | .max v0 v1 v2 v3 => Sys2Proof.Machine.execMax v0 v1 v2 v3 s
  | .minn v0 v1 v2 v3 => Sys2Proof.Machine.execMinn v0 v1 v2 v3 s
  | .maxn v0 v1 v2 v3 => Sys2Proof.Machine.execMaxn v0 v1 v2 v3 s
  | .slt v0 v1 v2 v3 => Sys2Proof.Machine.execSlt v0 v1 v2 v3 s
  | .sltn v0 v1 v2 v3 => Sys2Proof.Machine.execSltn v0 v1 v2 v3 s
  | .seq v0 v1 v2 v3 => Sys2Proof.Machine.execSeq v0 v1 v2 v3 s
  | .sh1add v0 v1 v2 v3 => Sys2Proof.Machine.execSh1add v0 v1 v2 v3 s
  | .sh2add v0 v1 v2 v3 => Sys2Proof.Machine.execSh2add v0 v1 v2 v3 s
  | .sh3add v0 v1 v2 v3 => Sys2Proof.Machine.execSh3add v0 v1 v2 v3 s
  | .clz v0 v1 v2 => Sys2Proof.Machine.execClz v0 v1 v2 s
  | .popc v0 v1 v2 => Sys2Proof.Machine.execPopc v0 v1 v2 s
  | .sne v0 v1 v2 v3 => Sys2Proof.Machine.execSne v0 v1 v2 v3 s
  | .addi v0 v1 v2 => Sys2Proof.Machine.execAddi v0 v1 v2 s
  | .andi v0 v1 v2 => Sys2Proof.Machine.execAndi v0 v1 v2 s
  | .ori v0 v1 v2 => Sys2Proof.Machine.execOri v0 v1 v2 s
  | .xori v0 v1 v2 => Sys2Proof.Machine.execXori v0 v1 v2 s
  | .shli v0 v1 v2 => Sys2Proof.Machine.execShli v0 v1 v2 s
  | .shri v0 v1 v2 => Sys2Proof.Machine.execShri v0 v1 v2 s
  | .srai v0 v1 v2 => Sys2Proof.Machine.execSrai v0 v1 v2 s
  | .slti v0 v1 v2 => Sys2Proof.Machine.execSlti v0 v1 v2 s
  | .sltni v0 v1 v2 => Sys2Proof.Machine.execSltni v0 v1 v2 s
  | .li v0 v1 => Sys2Proof.Machine.execLi v0 v1 s
  | .lih v0 v1 => Sys2Proof.Machine.execLih v0 v1 s
  | .beq v0 v1 v2 => Sys2Proof.Machine.execBeq v0 v1 v2 s
  | .bne v0 v1 v2 => Sys2Proof.Machine.execBne v0 v1 v2 s
  | .blt v0 v1 v2 => Sys2Proof.Machine.execBlt v0 v1 v2 s
  | .bge v0 v1 v2 => Sys2Proof.Machine.execBge v0 v1 v2 s
  | .bltn v0 v1 v2 => Sys2Proof.Machine.execBltn v0 v1 v2 s
  | .bgen v0 v1 v2 => Sys2Proof.Machine.execBgen v0 v1 v2 s
  | .j v0 => Sys2Proof.Machine.execJ v0 s
  | .call v0 => Sys2Proof.Machine.execCall v0 s
  | .jalr v0 v1 v2 => Sys2Proof.Machine.execJalr v0 v1 v2 s
  | .loop v0 v1 v2 v3 v4 => Sys2Proof.Machine.execLoop v0 v1 v2 v3 v4 s
  | .loopi v0 v1 v2 v3 v4 => Sys2Proof.Machine.execLoopi v0 v1 v2 v3 v4 s
  | .fence v0 => Sys2Proof.Machine.execFence v0 s
  | .fqry v0 v1 => Sys2Proof.Machine.execFqry v0 v1 s
  | .nop => Sys2Proof.Machine.execNop s
  | .ldb v0 v1 v2 v3 => Sys2Proof.Machine.execLdb v0 v1 v2 v3 s
  | .ldbn v0 v1 v2 v3 => Sys2Proof.Machine.execLdbn v0 v1 v2 v3 s
  | .ldh v0 v1 v2 v3 => Sys2Proof.Machine.execLdh v0 v1 v2 v3 s
  | .ldhn v0 v1 v2 v3 => Sys2Proof.Machine.execLdhn v0 v1 v2 v3 s
  | .ldw v0 v1 v2 v3 => Sys2Proof.Machine.execLdw v0 v1 v2 v3 s
  | .ldwn v0 v1 v2 v3 => Sys2Proof.Machine.execLdwn v0 v1 v2 v3 s
  | .ldd v0 v1 v2 v3 => Sys2Proof.Machine.execLdd v0 v1 v2 v3 s
  | .stb v0 v1 v2 v3 => Sys2Proof.Machine.execStb v0 v1 v2 v3 s
  | .sth v0 v1 v2 v3 => Sys2Proof.Machine.execSth v0 v1 v2 v3 s
  | .stw v0 v1 v2 v3 => Sys2Proof.Machine.execStw v0 v1 v2 v3 s
  | .std v0 v1 v2 v3 => Sys2Proof.Machine.execStd v0 v1 v2 v3 s
  | .lda v0 v1 v2 v3 v4 v5 => Sys2Proof.Machine.execLda v0 v1 v2 v3 v4 v5 s
  | .strel v0 v1 v2 v3 v4 v5 => Sys2Proof.Machine.execStrel v0 v1 v2 v3 v4 v5 s
  | .amo v0 v1 v2 v3 v4 v5 v6 => Sys2Proof.Machine.execAmo v0 v1 v2 v3 v4 v5 v6 s
  | .amoAddc v0 v1 v2 => Sys2Proof.Machine.execAmoAddc v0 v1 v2 s
  | .amoFaddc v0 v1 => Sys2Proof.Machine.execAmoFaddc v0 v1 s
  | .waitm v0 v1 v2 v3 v4 v5 => Sys2Proof.Machine.execWaitm v0 v1 v2 v3 v4 v5 s
  | .csrr v0 v1 => Sys2Proof.Machine.execCsrr v0 v1 s
  | .csrw v0 v1 v2 => Sys2Proof.Machine.execCsrw v0 v1 v2 s
  | .csrs v0 v1 v2 => Sys2Proof.Machine.execCsrs v0 v1 v2 s
  | .csrc v0 v1 v2 => Sys2Proof.Machine.execCsrc v0 v1 v2 s
  | .icpf v0 => Sys2Proof.Machine.execIcpf v0 s
  | .icinv v0 => Sys2Proof.Machine.execIcinv v0 s
  | .icinvAll => Sys2Proof.Machine.execIcinvAll s
  | .dcpf v0 => Sys2Proof.Machine.execDcpf v0 s
  | .dcwb v0 => Sys2Proof.Machine.execDcwb v0 s
  | .dcinv v0 => Sys2Proof.Machine.execDcinv v0 s
  | .xlt v0 v1 v2 => Sys2Proof.Machine.execXlt v0 v1 v2 s
  | .hinv v0 => Sys2Proof.Machine.execHinv v0 s
  | .hinvAll => Sys2Proof.Machine.execHinvAll s
  | .hget v0 v1 => Sys2Proof.Machine.execHget v0 v1 s
  | .hgetva v0 v1 => Sys2Proof.Machine.execHgetva v0 v1 s
  | .shld v0 v1 v2 => Sys2Proof.Machine.execShld v0 v1 v2 s
  | .shst v0 v1 v2 => Sys2Proof.Machine.execShst v0 v1 v2 s
  | .shset v0 v1 v2 => Sys2Proof.Machine.execShset v0 v1 v2 s
  | .shget v0 v1 v2 => Sys2Proof.Machine.execShget v0 v1 v2 s
  | .popp v0 v1 => Sys2Proof.Machine.execPopp v0 v1 s
  | .poppn v0 v1 => Sys2Proof.Machine.execPoppn v0 v1 s
  | .bcancel v0 v1 => Sys2Proof.Machine.execBcancel v0 v1 s
  | .bseq v0 v1 => Sys2Proof.Machine.execBseq v0 v1 s
  | .bwait v0 => Sys2Proof.Machine.execBwait v0 s
  | .twait v0 => Sys2Proof.Machine.execTwait v0 s
  | .twaitm v0 => Sys2Proof.Machine.execTwaitm v0 s
  | .ttest v0 v1 => Sys2Proof.Machine.execTtest v0 v1 s
  | .ttestOut v0 => Sys2Proof.Machine.execTtestOut v0 s
  | .ttestFailed v0 => Sys2Proof.Machine.execTtestFailed v0 s
  | .tfree v0 => Sys2Proof.Machine.execTfree v0 s
  | .tfreem v0 => Sys2Proof.Machine.execTfreem v0 s
  | .exit v0 => Sys2Proof.Machine.execExit v0 s
  | .trap v0 => Sys2Proof.Machine.execTrap v0 s
  | .sret v0 v1 v2 => Sys2Proof.Machine.execSret v0 v1 v2 s
  | .hret => Sys2Proof.Machine.execHret s
  | .wake v0 v1 v2 => Sys2Proof.Machine.execWake v0 v1 v2 s
  | .ckpt v0 => Sys2Proof.Machine.execCkpt v0 s
  | .tbr => Sys2Proof.Machine.execTbr s
  | .lix v0 v1 => Sys2Proof.Machine.execLix v0 v1 s
  | .lixh v0 v1 => Sys2Proof.Machine.execLixh v0 v1 s
  | .cas v0 v1 v2 v3 v4 v5 v6 => Sys2Proof.Machine.execCas v0 v1 v2 v3 v4 v5 v6 s
  | .emit v0 v1 v2 v3 v4 v5 => Sys2Proof.Machine.execEmit v0 v1 v2 v3 v4 v5 s
  | .split v0 v1 v2 v3 v4 v5 v6 v7 => Sys2Proof.Machine.execSplit v0 v1 v2 v3 v4 v5 v6 v7 s
  | .cpy v0 v1 v2 v3 v4 v5 v6 => Sys2Proof.Machine.execCpy v0 v1 v2 v3 v4 v5 v6 s
  | .cpyg v0 v1 v2 v3 v4 v5 v6 => Sys2Proof.Machine.execCpyg v0 v1 v2 v3 v4 v5 v6 s
  | .puth v0 v1 v2 v3 v4 v5 v6 => Sys2Proof.Machine.execPuth v0 v1 v2 v3 v4 v5 v6 s
  | .mnsetLvl v0 v1 v2 => Sys2Proof.Machine.execMnsetLvl v0 v1 v2 s
  | .mnsetBase v0 v1 v2 => Sys2Proof.Machine.execMnsetBase v0 v1 v2 s
  | .mnsetCtl v0 v1 => Sys2Proof.Machine.execMnsetCtl v0 v1 s
  | .mgo v0 v1 v2 v3 => Sys2Proof.Machine.execMgo v0 v1 v2 v3 s
  | .rset v0 v1 => Sys2Proof.Machine.execRset v0 v1 s
  | .rwait v0 v1 v2 => Sys2Proof.Machine.execRwait v0 v1 v2 s
  | .rmark v0 v1 => Sys2Proof.Machine.execRmark v0 v1 s
  | .bfset v0 v1 v2 v3 v4 v5 => Sys2Proof.Machine.execBfset v0 v1 v2 v3 v4 v5 s
  | .cbld v0 v1 v2 v3 v4 v5 v6 => Sys2Proof.Machine.execCbld v0 v1 v2 v3 v4 v5 v6 s
  | .launch v0 v1 => Sys2Proof.Machine.execLaunch v0 v1 s
  | .jwait v0 v1 v2 => Sys2Proof.Machine.execJwait v0 v1 v2 s
  | .jbar v0 v1 => Sys2Proof.Machine.execJbar v0 v1 s
  | .viewreg v0 v1 => Sys2Proof.Machine.execViewreg v0 v1 s
  | .viewdrop v0 v1 => Sys2Proof.Machine.execViewdrop v0 v1 s
  | .viewpol v0 v1 v2 => Sys2Proof.Machine.execViewpol v0 v1 v2 s
  | .viewtag v0 v1 v2 => Sys2Proof.Machine.execViewtag v0 v1 v2 s
  | .viewsync v0 v1 => Sys2Proof.Machine.execViewsync v0 v1 s
  | .lsched v0 v1 v2 v3 v4 v5 v6 => Sys2Proof.Machine.execLsched v0 v1 v2 v3 v4 v5 v6 s
  | .lgo v0 v1 v2 v3 v4 v5 => Sys2Proof.Machine.execLgo v0 v1 v2 v3 v4 v5 s
  | .mstat v0 v1 v2 => Sys2Proof.Machine.execMstat v0 v1 v2 s
  | .vfadd v0 v1 v2 v3 v4 v5 => Sys2Proof.Machine.execVfadd v0 v1 v2 v3 v4 v5 s
  | .vfsub v0 v1 v2 v3 v4 v5 => Sys2Proof.Machine.execVfsub v0 v1 v2 v3 v4 v5 s
  | .vfmul v0 v1 v2 v3 v4 v5 => Sys2Proof.Machine.execVfmul v0 v1 v2 v3 v4 v5 s
  | .vfmin v0 v1 v2 v3 v4 v5 => Sys2Proof.Machine.execVfmin v0 v1 v2 v3 v4 v5 s
  | .vfmax v0 v1 v2 v3 v4 v5 => Sys2Proof.Machine.execVfmax v0 v1 v2 v3 v4 v5 s
  | .viadd v0 v1 v2 v3 v4 v5 => Sys2Proof.Machine.execViadd v0 v1 v2 v3 v4 v5 s
  | .visub v0 v1 v2 v3 v4 v5 => Sys2Proof.Machine.execVisub v0 v1 v2 v3 v4 v5 s
  | .vimul v0 v1 v2 v3 v4 v5 => Sys2Proof.Machine.execVimul v0 v1 v2 v3 v4 v5 s
  | .vimin v0 v1 v2 v3 v4 v5 => Sys2Proof.Machine.execVimin v0 v1 v2 v3 v4 v5 s
  | .vimax v0 v1 v2 v3 v4 v5 => Sys2Proof.Machine.execVimax v0 v1 v2 v3 v4 v5 s
  | .vnmin v0 v1 v2 v3 v4 v5 => Sys2Proof.Machine.execVnmin v0 v1 v2 v3 v4 v5 s
  | .vnmax v0 v1 v2 v3 v4 v5 => Sys2Proof.Machine.execVnmax v0 v1 v2 v3 v4 v5 s
  | .vand v0 v1 v2 v3 v4 v5 => Sys2Proof.Machine.execVand v0 v1 v2 v3 v4 v5 s
  | .vor v0 v1 v2 v3 v4 v5 => Sys2Proof.Machine.execVor v0 v1 v2 v3 v4 v5 s
  | .vxor v0 v1 v2 v3 v4 v5 => Sys2Proof.Machine.execVxor v0 v1 v2 v3 v4 v5 s
  | .vshl v0 v1 v2 v3 v4 v5 => Sys2Proof.Machine.execVshl v0 v1 v2 v3 v4 v5 s
  | .vshr v0 v1 v2 v3 v4 v5 => Sys2Proof.Machine.execVshr v0 v1 v2 v3 v4 v5 s
  | .vsra v0 v1 v2 v3 v4 v5 => Sys2Proof.Machine.execVsra v0 v1 v2 v3 v4 v5 s
  | .vmov v0 v1 v2 v3 v4 => Sys2Proof.Machine.execVmov v0 v1 v2 v3 v4 s
  | .vmovScalar v0 v1 v2 v3 v4 => Sys2Proof.Machine.execVmovScalar v0 v1 v2 v3 v4 s
  | .vmovScalarHigh v0 v1 v2 v3 v4 => Sys2Proof.Machine.execVmovScalarHigh v0 v1 v2 v3 v4 s
  | .vlid v0 v1 v2 v3 v4 => Sys2Proof.Machine.execVlid v0 v1 v2 v3 v4 s
  | .vwin v0 v1 v2 => Sys2Proof.Machine.execVwin v0 v1 v2 s
  | .vwinadd v0 v1 v2 => Sys2Proof.Machine.execVwinadd v0 v1 v2 s
  | .vwait v0 v1 v2 => Sys2Proof.Machine.execVwait v0 v1 v2 s
  | .vbend => Sys2Proof.Machine.execVbend s
  | .vrgn => Sys2Proof.Machine.execVrgn s
  | .pand v0 v1 v2 v3 v4 => Sys2Proof.Machine.execPand v0 v1 v2 v3 v4 s
  | .por v0 v1 v2 v3 v4 => Sys2Proof.Machine.execPor v0 v1 v2 v3 v4 s
  | .pxor v0 v1 v2 v3 v4 => Sys2Proof.Machine.execPxor v0 v1 v2 v3 v4 s
  | .pandn v0 v1 v2 v3 v4 => Sys2Proof.Machine.execPandn v0 v1 v2 v3 v4 s
  | .pbal v0 v1 v2 v3 v4 => Sys2Proof.Machine.execPbal v0 v1 v2 v3 v4 s
  | .pset v0 v1 v2 v3 v4 => Sys2Proof.Machine.execPset v0 v1 v2 v3 v4 s
  | .ppopc v0 v1 v2 v3 v4 => Sys2Proof.Machine.execPpopc v0 v1 v2 v3 v4 s
  | .pfirst v0 v1 v2 v3 v4 => Sys2Proof.Machine.execPfirst v0 v1 v2 v3 v4 s
  | .pushp v0 v1 v2 v3 v4 => Sys2Proof.Machine.execPushp v0 v1 v2 v3 v4 s
  | .valu v0 v1 v2 v3 v4 v5 v6 v7 v8 => Sys2Proof.Machine.execValu v0 v1 v2 v3 v4 v5 v6 v7 v8 s
  | .vfma v0 v1 v2 v3 v4 v5 v6 v7 v8 v9 => Sys2Proof.Machine.execVfma v0 v1 v2 v3 v4 v5 v6 v7 v8 v9 s
  | .vcvt v0 v1 v2 v3 v4 v5 v6 v7 v8 v9 v10 v11 => Sys2Proof.Machine.execVcvt v0 v1 v2 v3 v4 v5 v6 v7 v8 v9 v10 v11 s
  | .vcmp v0 v1 v2 v3 v4 v5 v6 v7 v8 => Sys2Proof.Machine.execVcmp v0 v1 v2 v3 v4 v5 v6 v7 v8 s
  | .vsel v0 v1 v2 v3 v4 v5 v6 v7 v8 => Sys2Proof.Machine.execVsel v0 v1 v2 v3 v4 v5 v6 v7 v8 s
  | .vsfn v0 v1 v2 v3 v4 v5 v6 => Sys2Proof.Machine.execVsfn v0 v1 v2 v3 v4 v5 v6 s
  | .vred v0 v1 v2 v3 v4 v5 v6 v7 v8 => Sys2Proof.Machine.execVred v0 v1 v2 v3 v4 v5 v6 v7 v8 s
  | .vscan v0 v1 v2 v3 v4 v5 v6 v7 v8 v9 => Sys2Proof.Machine.execVscan v0 v1 v2 v3 v4 v5 v6 v7 v8 v9 s
  | .vshfl v0 v1 v2 v3 v4 v5 v6 v7 v8 v9 => Sys2Proof.Machine.execVshfl v0 v1 v2 v3 v4 v5 v6 v7 v8 v9 s
  | .vperm v0 v1 v2 v3 v4 v5 v6 v7 v8 v9 => Sys2Proof.Machine.execVperm v0 v1 v2 v3 v4 v5 v6 v7 v8 v9 s
  | .vrotm v0 v1 v2 v3 v4 v5 v6 v7 v8 v9 => Sys2Proof.Machine.execVrotm v0 v1 v2 v3 v4 v5 v6 v7 v8 v9 s
  | .vdot v0 v1 v2 v3 v4 v5 v6 v7 v8 v9 => Sys2Proof.Machine.execVdot v0 v1 v2 v3 v4 v5 v6 v7 v8 v9 s
  | .vmxq v0 v1 v2 v3 v4 v5 v6 v7 v8 v9 => Sys2Proof.Machine.execVmxq v0 v1 v2 v3 v4 v5 v6 v7 v8 v9 s
  | .vbit v0 v1 v2 v3 v4 v5 v6 v7 v8 => Sys2Proof.Machine.execVbit v0 v1 v2 v3 v4 v5 v6 v7 v8 s
  | .vbcast v0 v1 v2 v3 v4 v5 v6 v7 v8 v9 => Sys2Proof.Machine.execVbcast v0 v1 v2 v3 v4 v5 v6 v7 v8 v9 s
  | .vgetl v0 v1 v2 v3 v4 v5 v6 v7 => Sys2Proof.Machine.execVgetl v0 v1 v2 v3 v4 v5 v6 v7 s
  | .vlds v0 v1 v2 v3 v4 v5 v6 v7 => Sys2Proof.Machine.execVlds v0 v1 v2 v3 v4 v5 v6 v7 s
  | .vsts v0 v1 v2 v3 v4 v5 v6 v7 => Sys2Proof.Machine.execVsts v0 v1 v2 v3 v4 v5 v6 v7 s
  | .vldg v0 v1 v2 v3 v4 v5 v6 v7 v8 v9 => Sys2Proof.Machine.execVldg v0 v1 v2 v3 v4 v5 v6 v7 v8 v9 s
  | .vstg v0 v1 v2 v3 v4 v5 v6 v7 v8 v9 => Sys2Proof.Machine.execVstg v0 v1 v2 v3 v4 v5 v6 v7 v8 v9 s
  | .vldu v0 v1 v2 v3 v4 v5 v6 v7 v8 => Sys2Proof.Machine.execVldu v0 v1 v2 v3 v4 v5 v6 v7 v8 s
  | .vstu v0 v1 v2 v3 v4 v5 v6 v7 v8 => Sys2Proof.Machine.execVstu v0 v1 v2 v3 v4 v5 v6 v7 v8 s
  | .vamo v0 v1 v2 v3 v4 v5 v6 v7 v8 v9 v10 v11 v12 v13 => Sys2Proof.Machine.execVamo v0 v1 v2 v3 v4 v5 v6 v7 v8 v9 v10 v11 v12 v13 s
  | .vldb v0 v1 v2 v3 v4 v5 v6 v7 v8 v9 => Sys2Proof.Machine.execVldb v0 v1 v2 v3 v4 v5 v6 v7 v8 v9 s
  | .vstb v0 v1 v2 v3 v4 v5 v6 v7 v8 v9 => Sys2Proof.Machine.execVstb v0 v1 v2 v3 v4 v5 v6 v7 v8 v9 s
  | .conditionMet v0 v1 => Sys2Proof.Machine.execConditionMet v0 v1 s
  | .waitmWake v0 v1 => Sys2Proof.Machine.execWaitmWake v0 v1 s
  | .watchdog v0 v1 => Sys2Proof.Machine.execWatchdog v0 v1 s
  | .engineTrap v0 v1 => Sys2Proof.Machine.execEngineTrap v0 v1 s
  | .icacheFill v0 v1 => Sys2Proof.Machine.execIcacheFill v0 v1 s
  | .l1FillReturn v0 v1 => Sys2Proof.Machine.execL1FillReturn v0 v1 s
  | .translationWalkEnd v0 v1 => Sys2Proof.Machine.execTranslationWalkEnd v0 v1 s
  | .handleRefresh v0 v1 => Sys2Proof.Machine.execHandleRefresh v0 v1 s
  | .atsInvalidation v0 v1 v2 => Sys2Proof.Machine.execAtsInvalidation v0 v1 v2 s
  | .invalidationComplete v0 => Sys2Proof.Machine.execInvalidationComplete v0 s
  | .pagePublish v0 v1 v2 => Sys2Proof.Machine.execPagePublish v0 v1 v2 s
  | .copyStart v0 => Sys2Proof.Machine.execCopyStart v0 s
  | .copyComplete v0 => Sys2Proof.Machine.execCopyComplete v0 s
  | .copyFailure v0 => Sys2Proof.Machine.execCopyFailure v0 s
  | .bankFormatWrite v0 => Sys2Proof.Machine.execBankFormatWrite v0 s
  | .codebookWrite v0 => Sys2Proof.Machine.execCodebookWrite v0 s
  | .puthArrival v0 v1 => Sys2Proof.Machine.execPuthArrival v0 v1 s
  | .blockDispatch v0 => Sys2Proof.Machine.execBlockDispatch v0 s
  | .laneResultLands v0 v1 v2 => Sys2Proof.Machine.execLaneResultLands v0 v1 v2 s
  | .laneStorePerforms v0 v1 v2 => Sys2Proof.Machine.execLaneStorePerforms v0 v1 v2 s
  | .regionMarker v0 v1 => Sys2Proof.Machine.execRegionMarker v0 v1 s
  | .blockComplete v0 v1 => Sys2Proof.Machine.execBlockComplete v0 v1 s
  | .blockRetire v0 => Sys2Proof.Machine.execBlockRetire v0 s
  | .alleyEntryPoppable v0 => Sys2Proof.Machine.execAlleyEntryPoppable v0 s
  | .freezeSettle v0 => Sys2Proof.Machine.execFreezeSettle v0 s
  | .qdeadlock v0 => Sys2Proof.Machine.execQdeadlock v0 s
  | .nestActivate v0 => Sys2Proof.Machine.execNestActivate v0 s
  | .nestStageTake v0 => Sys2Proof.Machine.execNestStageTake v0 s
  | .nestDrain v0 => Sys2Proof.Machine.execNestDrain v0 s
  | .nestComplete v0 => Sys2Proof.Machine.execNestComplete v0 s
  | .scheduleLoad v0 => Sys2Proof.Machine.execScheduleLoad v0 s
  | .scheduleStart v0 => Sys2Proof.Machine.execScheduleStart v0 s
  | .scheduleStep v0 v1 => Sys2Proof.Machine.execScheduleStep v0 v1 s
  | .pause v0 v1 v2 v3 => Sys2Proof.Machine.execPause v0 v1 v2 v3 s
  | .scheduleComplete v0 v1 => Sys2Proof.Machine.execScheduleComplete v0 v1 s
  | .sweeperWriteback v0 v1 v2 => Sys2Proof.Machine.execSweeperWriteback v0 v1 v2 s
  | .publishRequest v0 v1 v2 => Sys2Proof.Machine.execPublishRequest v0 v1 v2 s
  | .publishComplete v0 => Sys2Proof.Machine.execPublishComplete v0 s
  | .publishAcknowledgement v0 v1 v2 v3 => Sys2Proof.Machine.execPublishAcknowledgement v0 v1 v2 v3 s
  | .kgNotice v0 => Sys2Proof.Machine.execKgNotice v0 s
  | .viewDerivation v0 => Sys2Proof.Machine.execViewDerivation v0 s
  | .viewBlockWrite v0 => Sys2Proof.Machine.execViewBlockWrite v0 s
  | .delayedReadRecheck v0 v1 => Sys2Proof.Machine.execDelayedReadRecheck v0 v1 s
  | .launchAccept => Sys2Proof.Machine.execLaunchAccept s
  | .jobPlace => Sys2Proof.Machine.execJobPlace s
  | .aging => Sys2Proof.Machine.execAging s
  | .saveComplete v0 => Sys2Proof.Machine.execSaveComplete v0 s
  | .placementStart v0 => Sys2Proof.Machine.execPlacementStart v0 s
  | .placementResume v0 => Sys2Proof.Machine.execPlacementResume v0 s
  | .placementEnd v0 => Sys2Proof.Machine.execPlacementEnd v0 s
  | .readRequest v0 => Sys2Proof.Machine.execReadRequest v0 s
  | .readData v0 => Sys2Proof.Machine.execReadData v0 s
  | .remoteWrite v0 => Sys2Proof.Machine.execRemoteWrite v0 s
  | .remoteAtomic v0 => Sys2Proof.Machine.execRemoteAtomic v0 s
  | .atomicResponse v0 => Sys2Proof.Machine.execAtomicResponse v0 s
  | .copyData v0 => Sys2Proof.Machine.execCopyData v0 s
  | .scheduleData v0 v1 v2 v3 => Sys2Proof.Machine.execScheduleData v0 v1 v2 v3 s
  | .credit v0 v1 v2 => Sys2Proof.Machine.execCredit v0 v1 v2 s
  | .timebaseExchange v0 => Sys2Proof.Machine.execTimebaseExchange v0 s
  | .linkDown v0 => Sys2Proof.Machine.execLinkDown v0 s
  | .pathTimeout v0 => Sys2Proof.Machine.execPathTimeout v0 s
  | .linkRekey v0 => Sys2Proof.Machine.execLinkRekey v0 s
  | .bar2Read v0 v1 v2 => Sys2Proof.Machine.execBar2Read v0 v1 v2 s
  | .bar2Write v0 v1 v2 => Sys2Proof.Machine.execBar2Write v0 v1 v2 s
  | .partmodeWrite v0 v1 => Sys2Proof.Machine.execPartmodeWrite v0 v1 s
  | .takeover v0 v1 => Sys2Proof.Machine.execTakeover v0 v1 s
  | .invqtailWrite v0 => Sys2Proof.Machine.execInvqtailWrite v0 s
  | .diepwrWrite v0 v1 => Sys2Proof.Machine.execDiepwrWrite v0 v1 s
  | .diePowerOnComplete v0 => Sys2Proof.Machine.execDiePowerOnComplete v0 s
  | .pasidbind v0 => Sys2Proof.Machine.execPasidbind v0 s
  | .keyLoad v0 v1 v2 => Sys2Proof.Machine.execKeyLoad v0 v1 v2 s
  | .journalclr v0 => Sys2Proof.Machine.execJournalclr v0 s
  | .alarmack v0 => Sys2Proof.Machine.execAlarmack v0 s
  | .registerWrite v0 v1 v2 => Sys2Proof.Machine.execRegisterWrite v0 v1 v2 s
  | .secondTierPortDown v0 => Sys2Proof.Machine.execSecondTierPortDown v0 s
  | .powerHold v0 => Sys2Proof.Machine.execPowerHold v0 s
  | .powerRemoval => Sys2Proof.Machine.execPowerRemoval s
  | .startUp v0 => Sys2Proof.Machine.execStartUp v0 s
  | .securityAlarm v0 => Sys2Proof.Machine.execSecurityAlarm v0 s
  | .jwaitTimeout v0 v1 => Sys2Proof.Machine.execJwaitTimeout v0 v1 s
  | .uncorrectableError v0 => Sys2Proof.Machine.execUncorrectableError v0 s
  | .hostPortLinkDown v0 => Sys2Proof.Machine.execHostPortLinkDown v0 s
  | .plazaRestart v0 => Sys2Proof.Machine.execPlazaRestart v0 s
  | .writebackAcknowledgement v0 v1 => Sys2Proof.Machine.execWritebackAcknowledgement v0 v1 s
  | .cxlHostAccess v0 v1 v2 v3 => Sys2Proof.Machine.execCxlHostAccess v0 v1 v2 v3 s

end Sys2Proof.Machine
end

