-- ==== Sys2Proof/Machine/Sched.lean ====
section
/-! DEFINITION. What one move of the module does (log 1): the agenda's next choice, or a round of the automatic order. The meaning of
an instruction is handed in. -/
namespace Sys2Proof.Machine

/-- Issue is held in one cycle of four (R367). -/
def State.issueHeld (s : State) : Bool := s.dev.hold && s.dev.cycle % 4 == 3
/-- A context's turn: a trap kept for it is taken, or else its next instruction runs (R87, R97). -/
def runControl (ex : Instr → State → Out) (p c : Nat) (s : State) : Out :=
  if !s.runs p c || s.issueHeld then .next s
  else match s.takeKept p c with
    | some t => .next t
    | none =>
      if (s.ctx p c).state != .running then .next s
      else match s.fetch p c with
        | .inr t => .next t
        | .inl (i, t) =>
          let x := t.ctx p c
          ex i { t with cur := ⟨.control p c, x.pc, x.w0, x.w1, x.len⟩ }
/-- A lane group's turn: while its placement's lanes run, or until a VAMO that has begun has performed, before the placement is saved
(R226). -/
def runGroup (ex : Instr → State → Out) (p l : Nat) (s : State) : Out :=
  if !s.powered p || !(s.lanesRun p || s.amoBegun p l) || s.issueHeld then .next s else runLane ex p l s
/-- A fill of the instruction cache from this module's near memory has been in flight for 4,096 cycles (R78); others have no bound. -/
def IFill.overdue (f : IFill) (now : Nat) : Bool := f.key < Config.tierBase && f.since + 4096 ≤ now
/-- What a plaza's lanes do before a cycle ends: blocks complete, retire and are dispatched in the first cycle in which they can (R168, R170), a
freeze settles in the first in which it can (R182), and the deadlock count goes on (R186). -/
def State.endCycle (s : State) (p : Nat) : State :=
  if !s.powered p then s
  else
    let s1 := onward (execFreezeSettle p) (s.settleBlocks p)
    onward (execQdeadlock p) (s1.modPlaza p fun q => q.countDeadlock 1)
/-- What a cycle's beginning brings a plaza: results land by their bounds (R29), alley entries become poppable (R170), overdue instruction fills
end (R78) and overdue lines are written back (R311). -/
def State.startCycle (s : State) (p : Nat) : State :=
  let s1 := (s.place p).lanes.foldl (fun t y => t.landDue p y.1) s
  let s2 := onward (execAlleyEntryPoppable p) s1
  let s3 := ((s2.plaza p).ifills.filter fun f => f.overdue s2.dev.cycle).foldl (fun t f => t.finishIFill p f) s2
  (((s3.plaza p).l1d ++ (s3.plaza p).l1v).filter fun x => s3.sweepLate p x).foldl (fun t x => t.writeBack p x.key) s3
/-- One cycle ends and the next begins (R3). -/
def State.nextCycle (s : State) : State :=
  let s1 := s.plazas.foldl (fun t x => t.endCycle x.1) s
  let s2 := s1.modDev fun d => { d with cycle := d.cycle + 1 }
  s2.plazas.foldl (fun t x => t.startCycle x.1) s2
/-- Cycles pass. -/
def State.cycles : Nat → State → State
  | 0, s => s
  | n + 1, s => State.cycles n s.nextCycle
/-- Time passes (R3, R29): what it brings at each cycle, the pauses that schedules owe by the new time (R306), and another try of writes and
deliveries that wait for a migrating page (R117); ports come home (R312), and flits that waited for a path leave (R355). -/
def State.tick (s : State) (cycles ns : Nat) : State :=
  let s1 := (State.cycles cycles s).modDev fun d => { d with ns := d.ns + ns }
  let s2 := (((s1.slots.foldl (fun t x => t.pauseSlot x.1 ns) s1).retryWrites).rehome).repost
  s2.plazas.foldl (fun t x => t.openNext x.1) s2

/-- The oldest counted result of a lane group lands (R29, R153). -/
def State.landCounted (s : State) (p l : Nat) : State :=
  match (s.lane p l).results.find? fun r => r.counted && !r.landed && r.at_ < s.dev.cycle with
  | some r => s.land p l r
  | none => s
/-- The lane groups' events of a plaza (R155, R156, R167, R168, R170, R182, R186). -/
def State.autoLanes (s : State) (p : Nat) : State :=
  let s1 := (s.place p).lanes.foldl (fun t y => runAll [execLaneStorePerforms p y.1 0, execRegionMarker p y.1, execBlockComplete p y.1] (t.landCounted p y.1)) s
  runAll [execAlleyEntryPoppable p, execBlockRetire p, execBlockDispatch p, execFreezeSettle p, execQdeadlock p] s1
/-- The engines' events of a plaza (R126-R135, R276-R281, R288, R289, R304, R306). -/
def State.autoEngines (s : State) (p : Nat) : State :=
  let s1 := (runAll [execCopyStart p] s).copyNext p
  let s2 := runAll [execCodebookWrite p, execBankFormatWrite p, execCopyFailure p] (s1.offerPuth p)
  let s3 := runAll [execCopyComplete p, execNestActivate p, execNestStageTake p] s2
  let s4 := if s3.issueHeld then s3 else s3.nestMoves p 8
  runAll [execNestDrain p, execNestComplete p, execScheduleLoad p, execScheduleStart p] s4
/-- The events of a plaza's contexts, handles and placement (R62, R78, R83, R109, R114, R145, R231, R246-R248, R316). -/
def State.autoCore (s : State) (p : Nat) : State :=
  let s1 := runAll [execIcacheFill p 0, execL1FillReturn p 0, execPlacementStart p, execPlacementResume p] s
  let s2 := (s1.place p).handles.foldl (fun t h => runAll [execTranslationWalkEnd p h.1, execHandleRefresh p h.1] t) s1
  let s3 := [0, 1, 2, 3, 4, 5].foldl (fun t c => runAll [execConditionMet p c, execWatchdog p c, execJwaitTimeout p c] t) s2
  runAll [execSaveComplete p, execPlacementEnd p] s3
/-- Writebacks of a plaza's lines that have reached SWEEPAGE, and the end of its publish (R311, R329). -/
def State.autoCaches (s : State) (p : Nat) : State :=
  let due := ((s.plaza p).l1d ++ (s.plaza p).l1v).filter fun x => s.sweepDue p x
  runAll [execPublishComplete p] (due.foldl (fun t x => t.writeBack p x.key) s)
/-- What a plaza's units do in a round of the automatic order (log 1). -/
def State.autoPlaza (s : State) (p : Nat) : State :=
  let s1 := if s.live p then s.autoCore p else s
  (if s.powered p then (s1.autoEngines p).autoLanes p else s1).autoCaches p
/-- A schedule slot's events (R305, R306). -/
def State.autoSlot (s : State) (k : Nat) : State :=
  let d := k / 4
  let n := k % 4
  let s1 := runAll [execScheduleStep d n] s
  runAll [execPause d n ((s1.slot d n).time (s1.slot d n).next) 0, execScheduleComplete d n] s1
/-- What the units outside the plazas do in a round (log 1). -/
def State.autoModule (s : State) : State :=
  let s1 := s.requests.foldl (fun t r => onward (execPublishRequest r.1 r.2.1 r.2.2) t) s
  let s2 := s1.acks.foldl (fun t r => onward (execPublishAcknowledgement r.1 r.2.1 r.2.2.1 r.2.2.2) t) s1
  let s3 := s2.notices.foldl (fun t _ => onward (execKgNotice 0) t) s2
  let s4 := s3.engines.foldl (fun t e => runAll [execViewDerivation e.1, execViewBlockWrite e.1] t) s3
  let s5 := s4.slots.foldl (fun t x => t.autoSlot x.1) s4
  let s6 := s5.dev.dies.foldl (fun t x => onward (execDiePowerOnComplete x.1) t) s5
  (runAll [execInvalidationComplete 0, execLaunchAccept, execAging, execJobPlace] s6).finishMoves.hostRetry
/-- A word of a resident instruction line is read anew at its home (R86). -/
def State.refetch (s : State) (p pasid line word : Nat) : State :=
  match s.iline p pasid line, s.readILine (.ctx p 6) p pasid line with
  | some x, .ok (some (d, bad, _)) t =>
    let y : ILine := { x with data := vecPut x.data (4 * (word % 16)) 4 (vecBytes d (4 * (word % 16)) 4), bad := x.bad || bad }
    t.modPlaza p fun q => { q with icache := q.icache.map fun z => if z.pasid == pasid && z.line == line then y else z }
  | _, _ => s

/-- A view of a PASID that the runtime removes (R351): its status word is 0 with its id, as R298 writes it, and it is dropped, at once or when its
derivation in flight is over. -/
def State.loseView (s : State) (v : View) : State :=
  let va := v.status
  let t := match s.span v.job v.pasid (fun x => x.write) [(va, 8)] with
    | .ok ps => ((s.walked v.pasid [(va, 8)]).putHome none (keyPieces ps va 8) (leBytes 8 v.id)).getD s
    | _ => s
  if t.deriving_ v then t else t.dropView v
/-- The device runtime keeps a PASID's entry at an address, for a process of that host, or removes it, which drops its views (R102, R297, R351);
its queued derivations go. -/
def State.setPasid (s : State) (n : Nat) (a : Option Nat) (owner : Nat) : State :=
  let k := n % 2 ^ 20
  match a with
  | some x => { s with pasids := tabSet s.pasids k x }.modHost fun h => { h with owner := tabSet h.owner k (owner % 2) }
  | none =>
    let s0 := (s.views.filter fun v => v.pasid == k).foldl (fun t v => t.loseView v) s
    let s1 : State := { s0 with engines := s0.engines.map fun (e : Nat × ViewEngine) => (e.1, { e.2 with fifo := e.2.fifo.filter fun j => j.1 != k }) }
    { s1 with pasids := s1.pasids.filter fun x => x.1 != k }.modHost fun h => { h with owner := h.owner.filter fun x => x.1 != k }
/-- Events that the hosts and the key sessions cause, which a module takes whose host ports are up (R359-R364, R372, R373, R375). -/
def hostEvent (i : Instr) : Bool :=
  match i with
  | .bar2Read _ _ _ => true
  | .bar2Write _ _ _ => true
  | .cxlHostAccess _ _ _ _ => true
  | .partmodeWrite _ _ => true
  | .takeover _ _ => true
  | .invqtailWrite _ => true
  | .diepwrWrite _ _ => true
  | .pasidbind _ => true
  | .keyLoad _ _ _ => true
  | .journalclr _ => true
  | .alarmack _ => true
  | .registerWrite _ _ _ => true
  | .hostPortLinkDown _ => true
  | _ => false
/-- Whether a choice has an effect in a phase: everything has while the module is up or was only reset; in start-up and after it stopped, the next
unit, the hosts, time, power and alarms (R370-R372, R376); once halted, power and a further alarm (R375); without power, start-up (R369). What lies
outside the module has its effects in every phase. -/
def takes (ph : Phase) (c : Choice) : Bool :=
  match c with
  | .hostStore _ _ => true
  | .bar2Window _ _ _ => true
  | .tick _ _ => ph != .unpowered
  | .boot => ph == .reset || ph == .starting || ph == .up
  | .pasidEntry _ _ _ => ph == .reset || ph == .up
  | .event i => match ph, i with
    | .reset, _ => true
    | .up, _ => true
    | .unpowered, .startUp _ => true
    | .starting, .startUp _ => true
    | .unpowered, _ => false
    | _, .powerRemoval => true
    | _, .securityAlarm _ => true
    | .halted, _ => false
    | _, i => hostEvent i
  | _ => ph == .reset || ph == .up
/-- One choice (log 1). Lines of the two L1s and translations may leave their caches at any time (log 7). -/
def runChoice (ex : Instr → State → Out) (c : Choice) (s : State) : Out :=
  let up : Bool := s.dev.phase == .up
  if !takes s.dev.phase c then .next s
  else match c with
  | .control p c => runControl ex p c s
  | .lane p l => runGroup ex p l s
  | .event i => ex i { s with cur := ⟨.device, 0, 0, 0, 0⟩ }
  | .tick cycles ns => .next (if up then s.tick cycles ns else s.modDev fun d => { d with ns := d.ns + ns })
  | .nestStep p k => .next (if s.powered p && !s.issueHeld then s.nestStep p k else s)
  | .nestDrain p k => .next (if s.powered p then s.nestDrainOne p k else s)
  | .copyUnit p k j => .next (if s.powered p then s.copyUnit p k j else s)
  | .evictLine p lanes key => .next (match lineIn ((s.plaza p).l1 lanes) key with
      | some x => if up then s.evictLine p lanes x else s
      | none => s)
  | .evictTlb p pasid va => .next (s.modPlaza p fun q => { q with tlb := q.tlb.filter fun x => !(x.pasid == pasid && x.va == va) })
  | .refetch p pasid line word => .next (if up then s.refetch p pasid line word else s)
  | .hostStore key x => .next (if 2 ^ 45 ≤ key then { s with mem := memPut s.mem key x } else s)
  | .pasidEntry n a owner => .next (s.setPasid n a owner)
  | .bar2Window h base size => .next (if bar2Size size then
      s.modHost fun x => { x with bar2win := [0, 1].map fun i => if i = h then (base, size) else x.bar2win.getD i (0, 0) } else s)
  | .markPage old new len => .next (s.markPage old new len)
  | .remap old => .next (s.remapped old)
  | .keepPage old => .next (s.pageKept old)
  | .notice f => if up then s.noticeArrives f else .next s
  | .exchange m => .next (if up then s.exchange m else s)
  | .giveCredit l v n => .next (if up then s.giveCredit l v n else s)
  | .landPart p l n words => .next (if s.powered p then s.landPart p l n words else s)
  | .jobIn m => .next (if up && s.live m.plaza then s.moveIn m else s)
  | .moveJob id p => .next (if up && s.live p then s.moveJob id p else s)
  | .boot => execStartUp ⟨false, false, [], [], [], [], [], [], none⟩ s
  | .auto p => .next (if up then s.autoPlaza p else s)
  | .autoModule => .next (if up then s.autoModule else s)
/-- The choices of one plaza in a round: its contexts in ascending order, its lane groups, its other units. -/
def plazaRound (p : Nat) (q : Plaza) : List Choice :=
  [.control p 0, .control p 1, .control p 2, .control p 3, .control p 4, .control p 5] ++ q.place.lanes.map (fun y => Choice.lane p y.1) ++ [.auto p]
/-- A round of the automatic order (log 1): before start-up, start-up in which nothing fails (log 2); then every plaza, the module's other
units, and one cycle of time, in ns by the 1.7 GHz clock (R3; log 9). -/
def State.round (s : State) : List Choice :=
  if s.dev.phase = .reset || s.dev.phase = .starting then [.boot]
  else s.plazas.flatMap (fun x => plazaRound x.1 x.2) ++ [.autoModule, .tick 1 ((s.dev.cycle + 1) * 10 / 17 - s.dev.cycle * 10 / 17)]
/-- One step of a module that runs: the agenda's next choice with the meanings `ex`; with none, a round is put on it (log 1). -/
def runAgenda (ex : Instr → State → Out) (s : State) : Out :=
  match s.agenda with
  | c :: rest => runChoice ex c { s with agenda := rest }
  | [] => .next { s with agenda := s.round, phaseNo := s.phaseNo + 1 }
/-- One step of the module with the meanings `ex` (log 1): the agenda's next choice, which has its effect if the phase takes it; with nothing on the
agenda, nothing moves without power, after start-up stopped or after a security alarm (R369, R370, R375). -/
def runStep (ex : Instr → State → Out) (s : State) : Out :=
  if !s.agenda.isEmpty then runAgenda ex s
  else match s.dev.phase with
    | .unpowered => .fault .unpowered
    | .startStopped => .fault .startUpStopped
    | .halted => .fault .alarmHalted
    | _ => runAgenda ex s

/-- A word stored at a virtual address of an instruction line. -/
def lineWith (words : List Nat) : BitVec 512 := BitVec.ofNat 512 (leNat (words.flatMap (leBytes 4)))
/-- The instruction words of w, 32 bits each, low word first. -/
def twoWords (w : Nat) : List Nat := [w % 2 ^ 32, w / 2 ^ 32 % 2 ^ 32]
/-- A control instruction placed where context 5 of plaza 0 fetches next: address 0 of the runtime's address space, in the plaza's
instruction cache (log 2). -/
def State.placeControl (s : State) (w : Nat) : State :=
  let line : ILine := ⟨s.runtime, 0, lineWith (twoWords w), false, 0, 1⟩
  let s1 := s.modDev fun d => { d with phase := .up, dies := tabSet d.dies 0 ⟨true, 0, false⟩, disabled := d.disabled.filter (· != 0) }
  let s2 := s1.modPlaza 0 fun q =>
    { q with stopped := false, icache := line :: q.icache.filter fun y => !(y.pasid == s.runtime && y.line == 0)
             ctx5 := { q.ctx5 with state := .running, pc := 0, wait := none, acq := none } }
  { s2 with agenda := [.control 0 5] }
/-- A lane instruction placed where a lane group fetches next: plaza 0 runs a placement of one block on lane group 0, whose text is at
virtual address 0 of the placement's address space, near memory address 0 (log 2). -/
def State.placeLane (s : State) (w : Nat) : State :=
  let s1 := s.modDev fun d => { d with phase := .up, dies := tabSet d.dies 0 ⟨true, 0, false⟩, disabled := d.disabled.filter (· != 0) }
  let t : Trans := ⟨Config.thisModule, 0, 4096, true, false, false, true, false, false⟩
  let block : Block := ⟨0, 0, 0, 0xFFFFFFFF, 0, 0, 0, 0, 0, .met, false, false, 0, .running, some 0, [], 0⟩
  let s2 := s1.modPlaza 0 fun q =>
    { q with
      stopped := false, res := .resident, tlb := ⟨0, 0, t⟩ :: q.tlb
      place := { q.place with
        pasid := 0, features := 0xFF, w16 := false, blocks := [block], avtail := 1, freeze := none, pipes := []
        lanes := [(0, { Lane.off with busy := true, p := [(0, 0xFFFFFFFF)] })] } }
  { s2 with mem := memWrite s2.mem 0 8 (w % 2 ^ 64), agenda := [.lane 0 0] }
/-- The instruction whose bits are w placed where the next step fetches it (log 2). -/
def State.placeWord (s : State) (w : Nat) : State :=
  match decodeControl (w % 2 ^ 32) (w / 2 ^ 32 % 2 ^ 32) with
  | some _ => s.placeControl w
  | none => s.placeLane w

end Sys2Proof.Machine
end

