-- ==== Sys2Proof/Machine/Step.lean ====
section
/-! DEFINITION. One step of the module, and where a table word is placed so that the next step runs it. -/
namespace Sys2Proof.Machine

/-- One step (log 1): the choice at the head of the agenda, with the meanings of `exec`. -/
def step (s : State) : Host.Outcome State Fault Refusal := runStep exec s

/-- s with the instruction whose bits are w stored where `step` fetches next (log 2). -/
def State.withFetchWord (s : State) (_nbits w : Nat) : State := s.placeWord w

end Sys2Proof.Machine
end

