-- ==== Sys2Proof/Machine/Registers.lean ====
section
/-! DEFINITION. What a host reads in the management window BAR0 (R236, R360, R368, R371-R373, R375). -/
namespace Sys2Proof.Machine

/-- One bit of a CRC-32: the reflected IEEE 802.3 polynomial (log 24). -/
def crcBit (c : Nat) : Nat := if c % 2 = 1 then (c / 2) ^^^ 0xEDB88320 else c / 2
/-- CRC-32 of bytes (R371). -/
def crc32 (bs : List Byte) : Nat :=
  bs.foldl (fun c b => (List.range 8).foldl (fun x _ => crcBit x) (c ^^^ b.toNat)) 0xFFFFFFFF ^^^ 0xFFFFFFFF
/-- The first doubleword of a journal entry (R371). -/
def JournalEntry.head (e : JournalEntry) : Nat :=
  e.start % 2 ^ 16 * 2 ^ 48 + e.step % 256 * 2 ^ 40 + e.unit % 256 * 2 ^ 32 + e.plaza % 256 * 2 ^ 24 + e.outcome % 256 * 2 ^ 16
/-- The second: the check over the first, and the time (R371). An entry marked absent has a check that fails. -/
def JournalEntry.tail (e : JournalEntry) : Nat :=
  let c := crc32 (leBytes 8 e.head)
  (if e.absent then c ^^^ 0xFFFFFFFF else c) * 2 ^ 32 + e.ms % 2 ^ 32
/-- Doubleword i of the journal window: the last 256 entries, the newest in the last place (R371, R372). -/
def journalWord (j : List JournalEntry) (i : Nat) : Nat :=
  match j.reverse[255 - i / 2]? with
  | none => 0
  | some e => if i % 2 = 0 then e.head else e.tail
/-- The Job Placer's registers (R236). -/
def Placer.readReg (x : Placer) (o : Nat) : Nat :=
  if o = 0x2000 then x.agestep
  else if o = 0x2008 then x.savebase
  else if o = 0x2010 then x.saveslots
  else if o = 0x2018 then x.spillbase
  else if o = 0x2020 then x.spillcap
  else if 0x2040 ≤ o && o < 0x2080 then tabGet 0 x.disparea ((o - 0x2040) / 8)
  else if o = 0x2080 then (List.range 4).foldl (fun n l => n + Nat.min (x.depth l) 0xFFFF * 2 ^ (16 * l)) 0
  else 0
/-- The host side's registers (R360); the MSI-X table and pending bits are those of host h's port. -/
def HostSide.readReg (x : HostSide) (h o : Nat) : Nat :=
  if o = 0x0008 then x.partmode + 4 * b2n x.bPrimary
  else if o = 0x0100 then x.invqbase
  else if o = 0x0108 then x.invqsize
  else if o = 0x0110 then x.invqtail
  else if o = 0x0118 then x.invqhead
  else if o = 0x0200 then x.bar2org
  else if 0x0800 ≤ o && o < 0x1000 then tabGet 0 x.routes ((o - 0x0800) / 8)
  else if o = 0x3008 then x.tbmaster
  else if o = 0x3018 then x.pauseprop
  else if 0x8000 ≤ o && o < 0x8400 then (tabGet 0 x.msix (128 * h + (o - 0x8000) / 8)).toNat
  else if o = 0x9000 then (List.range 64).foldl (fun n v => n + b2n (tabGet false x.pba (64 * h + v)) * 2 ^ v) 0
  else 0
/-- The registers of power, ports, keys, alarms and the journal (R360, R368, R371, R373, R375). -/
def Device.readReg (d : Device) (o : Nat) : Nat :=
  if o = 0x3000 then d.ns
  else if o = 0x3010 then b2n d.locked
  else if 0x4000 ≤ o && o < 0x4100 then
    let p := (o - 0x4000) / 16
    if o % 16 = 0 then tabGet 0 d.tierCap p else 3 * b2n (tabGet false d.tierUp p)
  else if 0x5000 ≤ o && o < 0x5040 then
    let x := tabGet Die.off d.dies ((o - 0x5000) / 8)
    x.power * 256 + (if x.returning then 0 else x.power)
  else if 0x5100 ≤ o && o < 0x5300 then
    let k := tabGet KeySlot.off d.keys ((o - 0x5100) / 8)
    k.gen * 2 ^ 32 + b2n k.loaded * 512 + k.masked
  else if 0x5800 ≤ o && o < 0x5880 then
    match d.alarms[(o - 0x5800) / 8]? with
    | some a => a.1 * 2 ^ 16 + a.2
    | none => 0
  else if 0x6000 ≤ o && o < 0x7000 then journalWord d.journal ((o - 0x6000) / 8)
  else if 0xF000 ≤ o && o < 0xF0C0 then
    let x := tabGet Link.off d.links ((o - 0xF000) / 8)
    x.dropped * 2 ^ 32 + b2n x.up
  else 0
/-- What a host reads of n bytes at BAR0 offset o: 8 bytes, aligned; none for Unsupported Request (R360), or where its port is down. IDENT reads 0
while start-up has not passed, and so it does where it stopped in step 1 (R370). Offsets that no list names read 0. -/
def State.readRegister (s : State) (h o n : Nat) : Option Nat :=
  if o % 8 != 0 || n != 8 || 0x10000 ≤ o then none
  else if !s.dev.host.portUp.getD h false then (if o = 0 && s.dev.phase == .startStopped then some 0 else none)
  else if o = 0 then some (if s.dev.phase == .up then (s.feature 0 0).toNat * 2 ^ 32 + s.dev.modNum else 0)
  else some (if 0x2000 ≤ o && o < 0x2100 then s.placer.readReg o else Nat.max (s.dev.host.readReg h o) (s.dev.readReg o))

end Sys2Proof.Machine
end

