-- ==== Sys2Proof/Safety.lean ====
section
/-! DEFINITION. What counts as a safe outcome and a well-formed state, and what an instruction's completion means, in the terms the
statements use. -/
namespace Sys2Proof.Machine

/-- The module goes on. -/
def Outcome.goesOn (o : Out) : Prop := ∃ t, o = .next t
/-- A move that no instruction's meaning refuses. -/
def Outcome.notRefused (o : Out) : Prop := ∀ r, o ≠ .refused r
/-- The module's memory is in its canonical form. -/
def State.memOk (s : State) : Prop := memWf s.mem = true

/-- t differs from s in nothing but context c of plaza p. -/
def State.sameButCtx (s t : State) (p c : Nat) : Prop := t = s.modCtx p c fun _ => t.ctx p c
/-- No wake of the supervisor (R89) and no halt (R95) waits for context c's instruction to complete. -/
def State.noWake (s : State) (p c : Nat) : Prop := ¬(c = 5 ∧ (s.plaza p).wakeDue = true) ∧ (s.ctx p c).ending = none
/-- No hardware loop of the context ends at its instruction (R50). -/
def Ctx.noLoopEnd (x : Ctx) : Prop := ∀ l, l < 4 → (levelOf x.levels l).active = true → (levelOf x.levels l).last ≠ x.pc
/-- What every completed instruction leaves in its context (R37, R46, R50, R70, R83): the fields it may not change are as before, INSRET
counts it, and unless a loop ends there it falls through with the loops as they were. -/
def Ctx.completed (x y : Ctx) : Prop :=
  y = { x with g := y.g, pc := y.pc, prev := x.pc, state := .running, wait := none, levels := y.levels, insret := x.insret + 1,
               lineAccess := y.lineAccess, sleep := y.sleep, asked := y.asked, counting := none, acq := none, delays := [], sync := [] }
  ∧ (y.sleep = x.sleep ∨ y.sleep = none)
  ∧ (x.noLoopEnd → y.pc = x.pc + BitVec.ofNat 64 x.len ∧ y.levels = x.levels)
/-- Instruction i completes in context c of plaza p and writes g[d] := v and nothing else: a write to g0 is discarded, every other
register, every other context, the memory and the rest of the module are as before. -/
def writesG (i : Instr) (s : State) (p c d : Nat) (v : Word) : Prop :=
  ∃ t, exec i s = .next t ∧ s.sameButCtx t p c ∧ (s.ctx p c).completed (t.ctx p c)
    ∧ ∀ n, t.g p c n = if n = d ∧ d ≠ 0 then v else s.g p c n
/-- Instruction i completes in context c of plaza p by a taken transfer to `target`, with g[d] := v (none written for d = 0): loop levels
whose body does not hold the target end (R51). -/
def jumpsTo (i : Instr) (s : State) (p c : Nat) (target : Word) (d : Nat) (v : Word) : Prop :=
  ∃ t, exec i s = .next t ∧ s.sameButCtx t p c ∧ (t.ctx p c).pc = target ∧ (t.ctx p c).insret = (s.ctx p c).insret + 1
    ∧ (t.ctx p c).prev = (s.ctx p c).pc ∧ (t.ctx p c).state = .running
    ∧ (∀ n, t.g p c n = if n = d ∧ d ≠ 0 then v else s.g p c n)
    ∧ (t.ctx p c).levels = (s.ctx p c).levels.map fun l =>
        (l.1, if l.2.first ≤ target ∧ target ≤ l.2.last then l.2 else { l.2 with active := false })
/-- Instruction i of context c of plaza p takes a trap of that cause with that faulting address (R87, R89, R92): nothing else of it takes
effect. -/
def trapsWith (i : Instr) (s : State) (p c : Nat) (cause : Cause) (faddr : Word) : Prop :=
  exec i s = .next (s.takeTrap p c (s.record p c cause faddr))

/-- No result in flight leaves the scalar s[n] undefined (R30). -/
def State.scalarReady (s : State) (p l n : Nat) : Prop := (s.lane p l).undef s.dev.cycle (.scalar n) = false
/-- Instruction i issues in lane group half l of plaza p, and v is on its way to s[d] with bound 1 (R29, R38). -/
def issuesS (i : Instr) (s : State) (p l d : Nat) (v : W32) : Prop :=
  exec i s = .next ((s.issueScalar p l 1 d v).laneRetire p l 4 0 0)

/-- A shared register-register instruction computes f (R16, R37, R38): at width 64, at width 32 sign-extended with x = 1, and on the
lanes at width 32. -/
def computes2 (mk : Nat → Nat → Nat → Nat → Instr) (f : (w : Nat) → BitVec w → BitVec w → BitVec w) : Prop :=
  (∀ s p c d a b, s.cur.agent = .control p c → s.noWake p c →
    writesG (mk d a b 0) s p c d (f 64 (s.g p c a) (s.g p c b))
    ∧ writesG (mk d a b 1) s p c d ((f 32 ((s.g p c a).setWidth 32) ((s.g p c b).setWidth 32)).signExtend 64))
  ∧ ∀ s p l d a b x, s.cur.agent = .lane p l → s.scalarReady p l a → s.scalarReady p l b →
    issuesS (mk d a b x) s p l d (f 32 ((s.lane p l).scalar a) ((s.lane p l).scalar b))
/-- A control-only register-register instruction computes f, and is ILLEGAL on the lanes (R25, R39). -/
def computes2Control (mk : Nat → Nat → Nat → Nat → Instr) (f : (w : Nat) → BitVec w → BitVec w → BitVec w) : Prop :=
  (∀ s p c d a b, s.cur.agent = .control p c → s.noWake p c →
    writesG (mk d a b 0) s p c d (f 64 (s.g p c a) (s.g p c b))
    ∧ writesG (mk d a b 1) s p c d ((f 32 ((s.g p c a).setWidth 32) ((s.g p c b).setWidth 32)).signExtend 64))
  ∧ ∀ s p l d a b x, s.cur.agent = .lane p l → exec (mk d a b x) s = .next (s.laneIllegalHere p l)
/-- A shared instruction on one register computes f (R38): at width 64, at width 32 sign-extended with x = 1, and on the lanes. -/
def computes1 (mk : Nat → Nat → Nat → Instr) (f : (w : Nat) → BitVec w → BitVec w) : Prop :=
  (∀ s p c d a, s.cur.agent = .control p c → s.noWake p c →
    writesG (mk d a 0) s p c d (f 64 (s.g p c a))
    ∧ writesG (mk d a 1) s p c d ((f 32 ((s.g p c a).setWidth 32)).signExtend 64))
  ∧ ∀ s p l d a x, s.cur.agent = .lane p l → s.scalarReady p l a → issuesS (mk d a x) s p l d (f 32 ((s.lane p l).scalar a))
/-- An instruction with a 9-bit immediate computes f of the register and the immediate (R40). -/
def computesImm (mk : Nat → Nat → Nat → Instr) (f : (w : Nat) → BitVec w → BitVec 9 → BitVec w) : Prop :=
  (∀ s p c d a i, s.cur.agent = .control p c → s.noWake p c →
    writesG (mk d a i) s p c d (f 64 (s.g p c a) (BitVec.ofNat 9 i)))
  ∧ ∀ s p l d a i, s.cur.agent = .lane p l → s.scalarReady p l a →
    issuesS (mk d a i) s p l d (f 32 ((s.lane p l).scalar a) (BitVec.ofNat 9 i))

/-- The byte of a line that an L1 holds. -/
def Line.byteAt (x : Line) (i : Nat) : Option Byte := if x.held.getLsbD i then some (x.data.extractLsb' (8 * i) 8) else none
/-- The byte at a home key that plaza p's L1D (lanes = false) or lanes' L1 (lanes = true) holds. -/
def State.cached (s : State) (p : Nat) (lanes : Bool) (key : Nat) : Option Byte :=
  (lineIn ((s.plaza p).l1 lanes) (key / 128)).bind fun x => x.byteAt (key % 128)
/-- Context c of plaza p may access n bytes at ea, and its TLB has the translation (R57, R105): aligned, canonical, mapped, permitted;
`key` is the home location, on no view's page now or when its read was delayed. -/
def State.grants (s : State) (p c : Nat) (ea : Word) (n : Nat) (need : Need) (key : Nat) : Prop :=
  ea.toNat % n = 0 ∧ canonical ea = true ∧ ∃ t, s.translate p (s.ctxPasid p c) ea = .ok (some t) s ∧ s.transAbsent t ea = false
    ∧ t.grants need = true ∧ key = s.transKey t ea ∧ s.remoteOff p (s.ctxPasid p c) key = false ∧ s.viewPage key = false
    ∧ keptBytes (s.ctx p c).delays key n = none
/-- Plaza p's L1D has the line of a key and nothing else of the plaza has it. -/
def State.l1dOnly (s : State) (p key : Nat) (x : Line) : Prop :=
  (s.plaza p).hasUpdate (key / 128) = false ∧ lineIn (s.plaza p).l1d (key / 128) = some x ∧ lineIn (s.plaza p).l1v (key / 128) = none

/-- A data line is the only one of its key in an L1. -/
def onlyLine (ls : List Line) (line : Nat) (x : Line) : Prop := lineIn ls line = some x ∧ ∀ y ∈ ls, y.key = line → y.upd = false → y = x
/-- Plaza p's L1D has the bytes of a read of n bytes at a key, whole and not poisoned, no rule on a private page being broken (R310, R315,
R317). -/
def State.l1dHas (s : State) (p key n : Nat) (x : Line) : Prop :=
  s.l1dOnly p key x ∧ onlyLine (s.plaza p).l1d (key / 128) x ∧ x.held &&& byteMask (key % 128) n = byteMask (key % 128) n ∧ touchesPoison x.poison (key % 128) n = false
    ∧ s.privClash p x (byteMask (key % 128) n) = false
/-- Plaza p's lanes' L1 has the bytes of a lane's read of n bytes at a key, whole and not poisoned, no rule on a private page being broken
(R230, R315, R317). -/
def State.l1vHas (s : State) (p key n : Nat) (x : Line) : Prop :=
  key % 128 + n ≤ 128 ∧ (s.plaza p).hasUpdate (key / 128) = false ∧ onlyLine (s.plaza p).l1v (key / 128) x
    ∧ x.held &&& byteMask (key % 128) n = byteMask (key % 128) n ∧ touchesPoison x.poison (key % 128) n = false
    ∧ s.privClash p x (byteMask (key % 128) n) = false
/-- The word of n bytes at a key lies at a home of this module that can be reached; it is not poisoned, no plaza holds an addition to its
line, plaza p holds nothing of it, and no other plaza has written it as private to itself (R310, R315, R317, R331). -/
def State.homeOnly (s : State) (p key n : Nat) : Prop :=
  key < 2 ^ 45 ∧ key % 128 + n ≤ 128 ∧ s.pathDown key = false ∧ (∀ q, (s.plaza q).hasUpdate (key / 128) = false)
    ∧ touchesPoison (s.homePoison (key / 128)) (key % 128) n = false ∧ s.privOther p (key / 128) (byteMask (key % 128) n) = false
    ∧ ∀ lanes, ∀ x ∈ (s.plaza p).l1 lanes, x.key ≠ key / 128
/-- A piece (key, bytes) of a range lies in one line of this module at a home that can be reached; it is not poisoned, and no plaza holds an
addition to its line (R312, R315, R331). -/
def State.pieceHome (s : State) (x : Nat × Nat) : Prop :=
  x.1 < 2 ^ 45 ∧ x.1 % 128 + x.2 ≤ 128 ∧ s.pathDown x.1 = false ∧ touchesPoison (s.homePoison (x.1 / 128)) (x.1 % 128) x.2 = false
    ∧ ∀ q, (s.plaza q).hasUpdate (x.1 / 128) = false
/-- Context c has nothing in progress: its next instruction is at its start (R83). -/
def State.atStart (s : State) (p c : Nat) : Prop := (s.ctx p c).acq = none ∧ (s.ctx p c).sleep = none ∧ ∀ r ∈ s.remotes, r.who ≠ .ctx p c
/-- WAITM's condition on the value v that it read, with comparand y, both n bytes wide (R61). -/
def conditionHolds (cond n v y : Nat) : Prop :=
  let x := (BitVec.ofNat (8 * n) v).toInt
  let w := (BitVec.ofNat (8 * n) y).toInt
  (cond = 0 ∧ v = y) ∨ (cond = 1 ∧ v ≠ y) ∨ (cond = 2 ∧ w ≤ x) ∨ (cond = 3 ∧ y ≤ v) ∨ (cond = 4 ∧ x < w)
    ∨ (cond = 5 ∧ v < y) ∨ (cond = 6 ∧ v &&& y ≠ 0)
/-- Instruction i completes in context c of plaza p (R37, R46): the context has what every completed instruction leaves, g[d] := v (nothing
written for d = 0), and every other register of it is as before. -/
def completesWith (i : Instr) (s : State) (p c d : Nat) (v : Word) (more : State → Prop) : Prop :=
  ∃ t, exec i s = .next t ∧ (s.ctx p c).completed (t.ctx p c) ∧ (∀ n, t.g p c n = if n = d ∧ d ≠ 0 then v else s.g p c n) ∧ more t

/-- Instruction i completes in context c of plaza p by appending a command x to the copy queue (or the link queue) with its token t made
OUTSTANDING and its waits fixed on the tokens' producers (R123, R124, R128, R129); no register and no byte of memory changes. -/
def issuesCmd (i : Instr) (s : State) (p c : Nat) (link : Bool) (t u v w : Nat) (x : Cmd → Prop) : Prop :=
  ∃ y z, exec i s = .next y ∧ x z
    ∧ (if link then (y.place p).linkQ = (s.place p).linkQ ++ [z] ∧ (y.place p).copyQ = (s.place p).copyQ
       else (y.place p).copyQ = (s.place p).copyQ ++ [z] ∧ (y.place p).linkQ = (s.place p).linkQ)
    ∧ z.tok = t ∧ z.ctx = c ∧ z.pc = (s.ctx p c).pc ∧ z.job = (s.place p).job ∧ z.index = (s.place p).index ∧ z.started = false ∧ z.next = 0
    ∧ z.waits = [s.waitFor p u, s.waitFor p v, s.waitFor p w]
    ∧ y.token p t = ⟨.outstanding, z.id⟩ ∧ (∀ m, m ≠ t → y.token p m = s.token p m)
    ∧ (y.ctx p c).g = (s.ctx p c).g ∧ (y.ctx p c).insret = (s.ctx p c).insret + 1 ∧ y.mem = s.mem

/-- What a lane instruction reads of an operand code as lane words of a type wd bits wide, where no result in flight leaves it undefined
and no other group's VSTB of this cycle writes it (R21, R30, R31, R180): a v row at the packet's window base, a ring position, a broadcast scalar. -/
def State.laneOperand (s : State) (p l wd code : Nat) : Option Row :=
  let x := s.lane p l
  let now := s.dev.cycle
  if code < 64 then (if x.undefRow now ((x.base + code) % 16384) = 0 ∧ ∀ t ∈ (s.plaza p).torn, t.row = (x.base + code) % 16384 → t.lane = l ∨ t.cycle ≠ now
    then some (s.cbRow p ((x.base + code) % 16384)) else none)
  else if code < 72 then match x.ring[code - 64]? with
    | some e => if e.written && !(x.results.any fun r => r.ring == e.id && r.pending now) then some e.data else none
    | none => none
  else if x.undef now (.scalar (code - 72)) then none else some (broadcast (splatElem wd (x.scalar (code - 72))))
/-- No result in flight leaves predicate n undefined (R30). -/
def State.predReady (s : State) (p l n : Nat) : Prop := (s.lane p l).undef s.dev.cycle (.pred n) = false
/-- The effective mask of a lane instruction (R23): its predicate, inverted if inv = 1, AND p0. -/
def State.laneMaskIs (s : State) (p l n inv : Nat) (em : W32) : Prop :=
  s.predReady p l n ∧ em = (if inv = 1 then ~~~((s.lane p l).pred n) else (s.lane p l).pred n) &&& (s.lane p l).pred 0
/-- Instruction i of len bytes issues in lane group half l of plaza p: a row result with that bound and mask is on its way to v[d] and the
ring, with wait field w and pair bit k (R28-R32, R146). -/
def issuesV (i : Instr) (s : State) (p l bound d : Nat) (row : Row) (em : W32) (len w k : Nat) : Prop :=
  exec i s = .next ((s.issueRow p l bound d row em).laneRetire p l len w k)
/-- Instruction i issues, with a predicate on its way to p[d]. -/
def issuesP (i : Instr) (s : State) (p l bound d : Nat) (v : W32) (len w k : Nat) : Prop :=
  exec i s = .next ((s.issuePred p l bound d v).laneRetire p l len w k)
/-- A single-word lane instruction computes f of two operands, lane by lane, with that bound (R146, R148). -/
def lanes2 (mk : Nat → Nat → Nat → Nat → Nat → Nat → Instr) (bound : Nat) (f : W32 → W32 → W32) : Prop :=
  ∀ (s : State) p l d a b q w k x y em, s.cur.agent = .lane p l → s.laneOperand p l 32 a = some x → s.laneOperand p l 32 b = some y →
    s.laneMaskIs p l q 0 em → issuesV (mk d a b q w k) s p l bound d (rowOf fun i => f (rowWord x i) (rowWord y i)) em 4 w k
/-- No hardware loop of the lane group ends at its instruction (R50). -/
def Lane.noLoopEnd (x : Lane) : Prop := ∀ l, l < 4 → (levelOf x.levels l).active = true → (levelOf x.levels l).last ≠ x.pc
/-- t differs from s in nothing but lane group half l of plaza p and the count of fresh numbers. -/
def State.sameButLane (s t : State) (p l : Nat) : Prop := t = { s.modLane p l (fun _ => t.lane p l) with fresh := t.fresh }

/-- The magnitude of code k of a float format with mb mantissa bits, in units of its smallest subnormal (R190); beyond the largest finite code it
goes on as with an unbounded exponent range (R194). -/
def codeMag (mb k : Nat) : Nat := if k / 2 ^ mb = 0 then k else (2 ^ mb + k % 2 ^ mb) * 2 ^ (k / 2 ^ mb - 1)
/-- What R194's mode makes of an exact magnitude from k up to below k + 1: k where it is exact, else by the mode, the sign, and how it compares
with the middle. -/
def roundsTo (rnd : Nat) (neg : Bool) (exact : Prop) [Decidable exact] (half : Ordering) (k : Nat) : Nat :=
  if exact then k
  else if rnd = 0 then (if half = .lt then k else if half = .gt then k + 1 else if k % 2 = 0 then k else k + 1)
  else if rnd = 1 then k
  else if rnd = 2 then (if neg then k + 1 else k)
  else if neg then k else k + 1
/-- A float format as R190's table has it: the model's name, the widths of exponent and mantissa, the bias, the code of the largest finite magnitude,
of infinity, of the canonical NaN (+0 in E2M1, R195), and of what overflows without saturation (R195). -/
structure FloatRow where
  fmt    : Fmt
  eb     : Nat
  mb     : Nat
  bias   : Nat
  top    : Nat
  inf    : Option Nat
  nan    : Nat
  beyond : Nat
/-- The table of R190. -/
def floatTable : List FloatRow :=
  [⟨fp32, 8, 23, 127, 0x7F7FFFFF, some 0x7F800000, 0x7FC00000, 0x7F800000⟩, ⟨bf16, 8, 7, 127, 0x7F7F, some 0x7F80, 0x7FC0, 0x7F80⟩,
    ⟨fp16, 5, 10, 15, 0x7BFF, some 0x7C00, 0x7E00, 0x7C00⟩, ⟨e4m3, 4, 3, 7, 0x7E, none, 0x7F, 0x7F⟩,
    ⟨e5m2, 5, 2, 15, 0x7B, some 0x7C, 0x7E, 0x7C⟩, ⟨e2m1, 2, 1, 1, 7, none, 0, 7⟩]
/-- The integer element types of R22 with their widths and ranges (R193). -/
def intTypes : List (Nat × Nat × Int × Int) :=
  [(7, 8, -128, 127), (8, 8, 0, 255), (9, 16, -32768, 32767), (10, 16, 0, 65535), (11, 32, -2147483648, 2147483647), (12, 32, 0, 4294967295)]
/-- The exact rounding of num / den to a code of FP32's magnitudes under nearest-even, in units of 2^-149; overflow to infinity (R194, R195). -/
def nearest32 (num den c : Nat) : Prop :=
  ∃ k, codeMag 23 k * den ≤ num ∧ num < codeMag 23 (k + 1) * den
    ∧ c = Nat.min (roundsTo 0 false (num = codeMag 23 k * den) (compare (2 * num) ((codeMag 23 k + codeMag 23 (k + 1)) * den)) k) 0x7F800000

end Sys2Proof.Machine
end

