-- ==== Sys2Proof/Certificates/Slice0/Obligations.lean ====
section
/-! DEFINITION. The statements about the model, from the numbered rules of the spec: first what each group of rules claims, then the
obligations, each a group of claims. -/
open Sys2Proof Sys2Proof.Machine

/-- R38: ADD, SUB, AND, OR, XOR, ANDN and the three shift-and-add forms, on both slices, with nothing else changed (R37). -/
def Claims.LogicAndAdd : Prop :=
  computes2 .add (fun _ a b => a + b) ∧ computes2 .sub (fun _ a b => a - b) ∧ computes2 .and (fun _ a b => a &&& b)
  ∧ computes2 .or (fun _ a b => a ||| b) ∧ computes2 .xor (fun _ a b => a ^^^ b) ∧ computes2 .andn (fun _ a b => a &&& ~~~b)
  ∧ computes2 .sh1add (fun _ a b => (a <<< 1) + b) ∧ computes2 .sh2add (fun _ a b => (a <<< 2) + b)
  ∧ computes2 .sh3add (fun _ a b => (a <<< 3) + b)

/-- R38, R40: the shifts, by the amount modulo the width and by an immediate. -/
def Claims.Shifts : Prop :=
  computes2 .shl (fun w a b => a <<< (b.toNat % w)) ∧ computes2 .shr (fun w a b => a >>> (b.toNat % w))
  ∧ computes2 .sra (fun w a b => a.sshiftRight (b.toNat % w))
  ∧ computesImm .shli (fun _ a i => a <<< i.toNat) ∧ computesImm .shri (fun _ a i => a >>> i.toNat)
  ∧ computesImm .srai (fun _ a i => a.sshiftRight i.toNat)

/-- R38: MUL is the low half of the product, MULHS and MULHN the high halves of the signed and the unsigned product. -/
def Claims.Products : Prop :=
  computes2 .mul (fun _ a b => a * b)
  ∧ computes2 .mulhs (fun w a b => BitVec.ofInt w (a.toInt * b.toInt / 2 ^ w))
  ∧ computes2 .mulhn (fun w a b => BitVec.ofNat w (a.toNat * b.toNat / 2 ^ w))

/-- R39: the quotients and remainders, defined for every pair, and control-only (R25). -/
def Claims.Division : Prop :=
  computes2Control .divs (fun w a b =>
    if b = 0 then BitVec.allOnes w else if a = BitVec.intMin w ∧ b = BitVec.allOnes w then a else BitVec.ofInt w (a.toInt.tdiv b.toInt))
  ∧ computes2Control .divn (fun w a b => if b = 0 then BitVec.allOnes w else BitVec.ofNat w (a.toNat / b.toNat))
  ∧ computes2Control .rems (fun w a b =>
    if b = 0 then a else if a = BitVec.intMin w ∧ b = BitVec.allOnes w then 0
    else BitVec.ofInt w (a.toInt - a.toInt.tdiv b.toInt * b.toInt))
  ∧ computes2Control .remn (fun w a b => if b = 0 then a else BitVec.ofNat w (a.toNat - a.toNat / b.toNat * b.toNat))

/-- R38, R40: minima, maxima and comparisons; a comparison writes 1 or 0. -/
def Claims.Comparisons : Prop :=
  computes2 .min (fun _ a b => if a.toInt < b.toInt then a else b) ∧ computes2 .max (fun _ a b => if b.toInt < a.toInt then a else b)
  ∧ computes2 .minn (fun _ a b => if a.toNat < b.toNat then a else b) ∧ computes2 .maxn (fun _ a b => if b.toNat < a.toNat then a else b)
  ∧ computes2 .slt (fun _ a b => if a.toInt < b.toInt then 1 else 0) ∧ computes2 .sltn (fun _ a b => if a.toNat < b.toNat then 1 else 0)
  ∧ computes2 .seq (fun _ a b => if a = b then 1 else 0) ∧ computes2 .sne (fun _ a b => if a = b then 0 else 1)
  ∧ computesImm .slti (fun w a i => if a.toInt < (i.signExtend w).toInt then 1 else 0)
  ∧ computesImm .sltni (fun w a i => if a.toNat < (i.signExtend w).toNat then 1 else 0)

/-- R38: CLZ counts the zero bits above the highest one bit, POPC the one bits. -/
def Claims.BitCounts : Prop :=
  ∃ clz popc : (w : Nat) → BitVec w → BitVec w,
    computes1 .clz clz ∧ computes1 .popc popc
    ∧ (∀ w, w = 32 ∨ w = 64 → ∀ a : BitVec w, (clz w a).toNat ≤ w ∧ a.toNat < 2 ^ (w - (clz w a).toNat)
        ∧ (a = 0 ∨ 2 ^ (w - 1 - (clz w a).toNat) ≤ a.toNat) ∧ (a = 0 → (clz w a).toNat = w))
    ∧ ∀ w, w = 32 ∨ w = 64 → ∀ a : BitVec w, (popc w a).toNat = ((List.range w).filter fun i => a.getLsbD i).length

/-- R40, R41, R67: the immediates. -/
def Claims.Immediates : Prop :=
  computesImm .addi (fun w a i => a + i.signExtend w) ∧ computesImm .andi (fun w a i => a &&& i.signExtend w)
  ∧ computesImm .ori (fun w a i => a ||| i.signExtend w) ∧ computesImm .xori (fun w a i => a ^^^ i.signExtend w)
  ∧ (∀ (s : State) p c d i, s.cur.agent = .control p c → s.noWake p c → i < 2 ^ 17 →
      writesG (.li d i) s p c d ((BitVec.ofNat 17 i).signExtend 64)
      ∧ writesG (.lih d i) s p c d ((BitVec.ofNat 32 (i % 2 ^ 16 * 2 ^ 16 + (s.g p c d).toNat % 2 ^ 16)).signExtend 64))
  ∧ (∀ (s : State) p l d i, s.cur.agent = .lane p l → s.scalarReady p l 0 →
      issuesS (.li d i) s p l d ((BitVec.ofNat 17 i).signExtend 32))
  ∧ (∀ (s : State) p l d i, s.cur.agent = .lane p l → s.scalarReady p l d →
      issuesS (.lih d i) s p l d (BitVec.ofNat 32 (i % 2 ^ 16 * 2 ^ 16 + ((s.lane p l).scalar d).toNat % 2 ^ 16)))
  ∧ ∀ (s : State) p c d e, s.cur.agent = .control p c → c ≤ 5 → s.noWake p c → e < 2 ^ 32 →
      writesG (.lix d e) s p c d ((BitVec.ofNat 32 e).signExtend 64)
      ∧ writesG (.lixh d e) s p c d (BitVec.ofNat 64 ((s.g p c d).toNat % 2 ^ 32 + e * 2 ^ 32))

/-- R42: each conditional branch is taken as its comparison says, to PC + 4 × offset, and else falls through; nothing is written. -/
def Claims.Branches : Prop :=
  ∀ (s : State) p c a b o, s.cur.agent = .control p c → s.noWake p c →
    let x := s.g p c a
    let y := s.g p c b
    let dest := (s.ctx p c).pc + 4 * (BitVec.ofNat 9 o).signExtend 64
    let does (i : Instr) (taken : Prop) : Prop := (taken → jumpsTo i s p c dest 0 0) ∧ (¬taken → writesG i s p c 0 0)
    does (.beq a b o) (x = y) ∧ does (.bne a b o) (x ≠ y) ∧ does (.blt a b o) (x.toInt < y.toInt)
    ∧ does (.bge a b o) (y.toInt ≤ x.toInt) ∧ does (.bltn a b o) (x.toNat < y.toNat) ∧ does (.bgen a b o) (y.toNat ≤ x.toNat)

/-- R43, R44, R45: J, CALL and JALR; a JALR to an address that is no multiple of 4 raises MISALIGNED with the target as faddr. -/
def Claims.Jumps : Prop :=
  ∀ (s : State) p c, s.cur.agent = .control p c → s.noWake p c →
    let pc := (s.ctx p c).pc
    (∀ o, jumpsTo (.j o) s p c (pc + 4 * (BitVec.ofNat 25 o).signExtend 64) 0 0)
    ∧ (∀ o, jumpsTo (.call o) s p c (pc + 4 * (BitVec.ofNat 25 o).signExtend 64) 31 (pc + 4))
    ∧ ∀ d a i, let t := s.g p c a + 4 * (BitVec.ofNat 9 i).signExtend 64
      (t.toNat % 4 = 0 → jumpsTo (.jalr d a i) s p c t d (pc + 4))
      ∧ (t.toNat % 4 ≠ 0 → trapsWith (.jalr d a i) s p c .misaligned t)

/-- R47: the control-only transfers of R42 to R44 raise ILLEGAL on the lanes. -/
def Claims.TransfersOnLanes : Prop :=
  ∀ (s : State) p l a b o, s.cur.agent = .lane p l →
    ∀ i ∈ [Instr.beq a b o, .bne a b o, .blt a b o, .bge a b o, .bltn a b o, .bgen a b o, .j o, .call o, .jalr a b o],
      exec i s = .next (s.laneIllegalHere p l)

/-- R54-R56: FENCE and NOP complete in a control context with nothing written (its accesses perform in program order); on the lanes NOP
issues alone and FENCE holds the next packet for the classes of its mask. FQRY writes its word zero-extended, and on the lanes with bound 1. -/
def Claims.FenceNopFqry : Prop :=
  (∀ (s : State) p c m, s.cur.agent = .control p c → s.noWake p c → writesG (.fence m) s p c 0 0 ∧ writesG .nop s p c 0 0)
  ∧ (∀ (s : State) p l m, s.cur.agent = .lane p l →
      exec .nop s = .next (s.laneRetire p l 4 0 0)
      ∧ exec (.fence m) s = .next ((s.modLane p l fun x => { x with fence := m }).laneRetire p l 4 0 0))
  ∧ (∀ (s : State) p c d, s.cur.agent = .control p c → s.noWake p c →
      writesG (.fqry d 0) s p c d 0x094000A0
      ∧ (c ≠ 5 → writesG (.fqry d 1) s p c d ((s.place p).features.setWidth 64))
      ∧ (c = 5 → writesG (.fqry d 1) s p c d 0xFF)
      ∧ writesG (.fqry d 2) s p c d (BitVec.ofNat 32 ((List.range 192).filter fun q =>
          (tabGet Die.off s.dev.dies (q / 24)).enabled && !s.dev.disabled.contains q).length |>.setWidth 64)
      ∧ (∀ w, 5 ≤ w → w < 256 → writesG (.fqry d w) s p c d 0)
      ∧ (∃ v : W32, writesG (.fqry d 3) s p c d (v.setWidth 64) ∧ ∀ k, k < 8 → v.getLsbD k = (tabGet Die.off s.dev.dies k).enabled)
      ∧ writesG (.fqry d 4) s p c d 32)
  ∧ ∀ (s : State) p l d, s.cur.agent = .lane p l → issuesS (.fqry d 0) s p l d 0x094000A0
      ∧ issuesS (.fqry d 4) s p l d 32 ∧ issuesS (.fqry d 1) s p l d (s.place p).features ∧ ∀ w, 5 ≤ w → w < 256 → issuesS (.fqry d w) s p l d 0

/-- R17, R48, R49: a LOOPI or LOOP of n iterations whose body's words can be read and end well starts level l over the b words after it;
with n = 0 it goes on after the body with no level changed. -/
def Claims.LoopStarts : Prop :=
  ∀ (s : State) p c n a b l ws t, s.cur.agent = .control p c → s.noWake p c → 1 ≤ b → b < 512 → l < 4 →
    let pc := (s.ctx p c).pc
    readWords (fun va u => if !canonical va then .ok none u else u.peekWord (.ctx p c) p (s.ctxPasid p c) va) b (pc + 4) s = .ok (.inr ws) t →
    badBody false ws = false → (t.ctx p c) = s.ctx p c → (s.ctx p c).len = 4 → t.noWake p c →
    (∀ j, j < 4 → (levelOf (s.ctx p c).levels j).active = true → j ≠ l → (levelOf (s.ctx p c).levels j).last ≠ pc) →
    let starts (i : Instr) (n : Nat) : Prop := ∃ u, exec i s = .next u ∧ t.sameButCtx u p c
      ∧ (u.ctx p c).insret = (s.ctx p c).insret + 1 ∧ (u.ctx p c).g = (s.ctx p c).g
      ∧ if n = 0 then (u.ctx p c).pc = pc + 4 + 4 * BitVec.ofNat 64 b ∧ (u.ctx p c).levels = (s.ctx p c).levels
        else (u.ctx p c).pc = pc + 4 ∧ ∀ j, levelOf (u.ctx p c).levels j =
          if j = l then ⟨true, pc + 4, pc + 4 * BitVec.ofNat 64 b, n, 0, 0, 0⟩ else levelOf (s.ctx p c).levels j
    starts (.loopi n b l 0 0) n ∧ starts (.loop a b l 0 0) (s.g p c a).toNat

/-- R50: at the last instruction of a level's body with more than one iteration left the context goes back to the body's first word, the
count falls by one; with one left the level ends and the context falls through. -/
def Claims.LoopEnds : Prop :=
  ∀ (s : State) p c l v, s.cur.agent = .control p c → s.noWake p c → l < 4 → levelOf (s.ctx p c).levels l = v → v.active = true → v.last = (s.ctx p c).pc →
    (∀ j, j < 4 → j ≠ l → (levelOf (s.ctx p c).levels j).active = true → (levelOf (s.ctx p c).levels j).last ≠ (s.ctx p c).pc) →
    ∃ t, exec .nop s = .next t ∧ s.sameButCtx t p c
      ∧ (∀ j, j ≠ l → levelOf (t.ctx p c).levels j = levelOf (s.ctx p c).levels j)
      ∧ (1 < v.remaining → (t.ctx p c).pc = v.first
        ∧ levelOf (t.ctx p c).levels l = { v with remaining := v.remaining - 1, iteration := v.iteration + 1 })
      ∧ (v.remaining ≤ 1 → (t.ctx p c).pc = (s.ctx p c).pc + BitVec.ofNat 64 (s.ctx p c).len
        ∧ (levelOf (t.ctx p c).levels l).active = false)

/-- R37, R46, R50, R70: what retiring an instruction with a register write does, in one place: the register, INSRET, the fall-through, and
nothing outside the context. -/
def Claims.RetireEffect : Prop :=
  ∀ (s : State) p c d v, s.noWake p c → s.sameButCtx (s.retireReg p c d v) p c ∧ (s.ctx p c).completed ((s.retireReg p c d v).ctx p c)
    ∧ ∀ n, (s.retireReg p c d v).g p c n = if n = d ∧ d ≠ 0 then v else s.g p c n

/-- R57: the checks of an access and their order: alignment, canonical form, a valid mapping, permission. -/
def Claims.AccessChecks : Prop :=
  ∀ (s : State) p pasid ea n need, 0 < n →
    (ea.toNat % n ≠ 0 → s.checkVa p pasid ea n need = .fail .misaligned ea 0 s)
    ∧ (ea.toNat % n = 0 → canonical ea = false → s.checkVa p pasid ea n need = .fail .page ea 0 s)
    ∧ (ea.toNat % n = 0 → canonical ea = true →
        (∀ t, s.translate p pasid ea = .ok none t → s.checkVa p pasid ea n need = .fail .page ea 0 t)
        ∧ ∀ x t, s.translate p pasid ea = .ok (some x) t → t.transAbsent x ea = false →
          (x.grants need = false → s.checkVa p pasid ea n need = .fail .protect ea 0 t)
          ∧ (x.grants need = true → t.viewPage (t.transKey x ea) = false → t.remoteOff p pasid (t.transKey x ea) = false →
              s.checkVa p pasid ea n need = .ok (t.transKey x ea, x.priv) t))
    ∧ (canonical ea = true ↔ ea.toNat / 2 ^ 57 = if ea.getLsbD 56 then 127 else 0)
    ∧ ∀ x : Trans, (x.grants .read = true ↔ x.read = true) ∧ (x.grants .write = true ↔ x.write = true)
        ∧ (x.grants .atomic = true ↔ x.read = true ∧ x.write = true ∧ x.atomic = true)

/-- R57: an access that fails a check takes that check's trap with faddr = ea, and writes no register; for every load and store. -/
def Claims.AccessFails : Prop :=
  ∀ (s : State) p c r a k o cause fa pa t, s.cur.agent = .control p c → c ≤ 5 → cause ≠ .illegal →
    ∀ f ∈ [(Instr.ldb r a k o, 1, Need.read), (.ldbn r a k o, 1, .read), (.ldh r a k o, 2, .read), (.ldhn r a k o, 2, .read),
           (.ldw r a k o, 4, .read), (.ldwn r a k o, 4, .read), (.ldd r a k o, 8, .read),
           (.stb r a k o, 1, .write), (.sth r a k o, 2, .write), (.stw r a k o, 4, .write), (.std r a k o, 8, .write)],
      let ea := s.g p c a + (BitVec.ofNat 11 o).signExtend 64 * BitVec.ofNat 64 f.2.1
      s.checkVa p (s.ctxPasid p c) ea f.2.1 f.2.2 = .fail cause fa pa t → exec f.1 s = .next (t.trapAccess p c cause fa pa)

/-- R58: a load whose bytes the L1D holds writes them to its register, extended as its form says, and changes no other register and no byte
of memory or of any L1. -/
def Claims.LoadsOnHit : Prop :=
  ∀ (s : State) p c d a k o key x, s.cur.agent = .control p c → c ≤ 5 → s.noWake p c →
    ∀ f ∈ [(Instr.ldb d a k o, 1, fun v : Nat => (BitVec.ofNat 8 v).signExtend 64), (.ldbn d a k o, 1, BitVec.ofNat 64),
           (.ldh d a k o, 2, fun v => (BitVec.ofNat 16 v).signExtend 64), (.ldhn d a k o, 2, BitVec.ofNat 64),
           (.ldw d a k o, 4, fun v => (BitVec.ofNat 32 v).signExtend 64), (.ldwn d a k o, 4, BitVec.ofNat 64),
           (.ldd d a k o, 8, BitVec.ofNat 64)],
      s.grants p c (s.g p c a + (BitVec.ofNat 11 o).signExtend 64 * BitVec.ofNat 64 f.2.1) f.2.1 .read key → s.l1dHas p key f.2.1 x →
      ∃ t, exec f.1 s = .next t ∧ (s.ctx p c).completed (t.ctx p c)
        ∧ (∀ n, t.g p c n = if n = d ∧ d ≠ 0 then f.2.2 (vecBytes x.data (key % 128) f.2.1) else s.g p c n)
        ∧ t.mem = s.mem ∧ ∀ q lanes b, t.cached q lanes b = s.cached q lanes b

/-- R58, R310: a store to a line that the L1D has writes the low bytes of its register there and changes no register, no byte at a home and
no other byte of any L1; from g0 it stores zeros. -/
def Claims.StoresOnHit : Prop :=
  ∀ (s : State) p c r a k o key x, s.cur.agent = .control p c → c ≤ 5 → s.noWake p c →
    ∀ f ∈ [(Instr.stb r a k o, 1), (.sth r a k o, 2), (.stw r a k o, 4), (.std r a k o, 8)],
      s.grants p c (s.g p c a + (BitVec.ofNat 11 o).signExtend 64 * BitVec.ofNat 64 f.2) f.2 .write key →
      key % 128 + f.2 ≤ 128 → s.l1dOnly p key x →
      ∃ t, exec f.1 s = .next t ∧ (s.ctx p c).completed (t.ctx p c) ∧ (∀ n, t.g p c n = s.g p c n) ∧ t.mem = s.mem
        ∧ ∀ q lanes b, t.cached q lanes b =
            if q = p ∧ lanes = false ∧ key ≤ b ∧ b < key + f.2 then some (BitVec.ofNat 8 ((s.g p c r).toNat / 2 ^ (8 * (b - key))))
            else s.cached q lanes b

/-- R59, R60, R328: an LDA whose checks pass: at P it reads through the L1s; at K and D it reads the word and its RRT entry at the home,
invalidates the plaza's clean lines unless the plaza itself released the word, and waits for the releaser's publish where the entry names
another plaza in its scope. -/
def Claims.AcquireLoad : Prop :=
  ∀ (s : State) p c d a k sc z o key priv t, s.cur.agent = .control p c → c ≤ 5 → (s.ctx p c).acq = none →
    let n := if z = 1 then 4 else 8
    let ea := s.g p c a + (BitVec.ofNat 8 o).signExtend 64 * BitVec.ofNat 64 n
    let i : Instr := .lda d a k sc z o
    s.checkVa p (s.ctxPasid p c) ea n .read = .ok (key, priv) t →
    (sc = 0 → ∀ v u, t.readData p c ea n = .ok v u → exec i s = .next (u.retireReg p c d (BitVec.ofNat 64 v)))
    ∧ (sc ≠ 0 → t.viewPage key = false → ∀ v e u, t.readHome (.ctx p c) p key n = .ok (v, e) u →
        (e = none → exec i s = .next ((u.selfInvalidate p).retireReg p c d (BitVec.ofNat 64 v)))
        ∧ ∀ pl sq, e = some (pl, sq) →
          (pl = u.plazaId p → exec i s = .next (u.retireReg p c d (BitVec.ofNat 64 v)))
          ∧ (pl ≠ u.plazaId p → sc = 1 → pl / 256 ≠ u.dev.modNum →
              exec i s = .next ((u.selfInvalidate p).retireReg p c d (BitVec.ofNat 64 v)))
          ∧ (pl ≠ u.plazaId p → (sc = 2 ∨ pl / 256 = u.dev.modNum) → exec i s = .next
              (((u.modCtx p c fun x => { x with acq := some ⟨BitVec.ofNat 64 v, pl, sq, false, false, false⟩ }).sendPublish pl sq (.ctx p c)).block p c i)))

/-- R328: a waiting acquire completes when its publish is acknowledged: the plaza invalidates its clean lines and the value read goes to the
register; a failed publish raises LINKDOWN. For LDA, WAITM and an AMO. -/
def Claims.AcquireEnds : Prop :=
  ∀ (s : State) p c d a b k sc z o od op cond v pl sq dn, s.cur.agent = .control p c → c ≤ 5 → (s.ctx p c).sleep = none →
    ∀ i ∈ [Instr.lda d a k sc z o, .waitm d a b z sc cond, .amo d a b z sc od op],
      ((s.ctx p c).acq = some ⟨v, pl, sq, false, true, false⟩ →
        exec i s = .next (((s.selfInvalidate p).modCtx p c fun x => { x with acq := none }).retireReg p c d v))
      ∧ ((s.ctx p c).acq = some ⟨v, pl, sq, false, false, false⟩ → exec i s = .next (s.block p c i))
      ∧ ((s.ctx p c).acq = some ⟨v, pl, sq, false, dn, true⟩ →
        ∃ fa, exec i s = .next ((s.modCtx p c fun x => { x with acq := none }).trapAccess p c .linkdown fa 0))

/-- R317, R328: what a self-invalidation does: clean lines of pages without private leave both L1s of that plaza, a dirty line keeps its dirty
bytes and loses the others, and nothing else of the module changes but the fills it cancels. -/
def Claims.SelfInvalidation : Prop :=
  ∀ (s : State) p q lanes b, let t := s.selfInvalidate p
    t = { s with plazas := t.plazas, remotes := t.remotes } ∧ (q ≠ p → t.plaza q = s.plaza q)
    ∧ t.plaza p = { s.plaza p with l1d := (t.plaza p).l1d, l1v := (t.plaza p).l1v, fills := (t.plaza p).fills }
    ∧ t.remotes.map (fun r => { r with cancelled := false }) = s.remotes.map (fun r => { r with cancelled := false })
    ∧ (t.plaza p).fills.map (fun f => { f with cancelled := false }) = (s.plaza p).fills.map (fun f => { f with cancelled := false })
    ∧ ∀ x, lineIn ((s.plaza p).l1 lanes) (b / 128) = some x → (∀ y ∈ (s.plaza p).l1 lanes, y.key = b / 128 → y.upd = false → y = x) →
        t.cached p lanes b = if x.priv then s.cached p lanes b
          else if x.dirty.getLsbD (b % 128) then some (x.data.extractLsb' (8 * (b % 128)) 8) else none

/-- R59, R60, R326: a STREL whose checks pass, to a home of this module with room in its RRT, writes its word through to the home, records
its plaza, scope and sequence number there, and completes with no register written; a wait for room there is over. -/
def Claims.ReleaseStore : Prop :=
  ∀ (s : State) p c r a k sc z o key priv t, s.cur.agent = .control p c → c ≤ 5 →
    let n := if z = 1 then 4 else 8
    let ea := s.g p c a + (BitVec.ofNat 8 o).signExtend 64 * BitVec.ofNat 64 n
    s.checkVa p (s.ctxPasid p c) ea n .write = .ok (key, priv) t → key < 2 ^ 45 → t.pathDown key = false →
    (t.plaza p).hasUpdate (key / 128) = false →
    ((tabGet [] t.rrt (t.homeSlice key)).length < rrtSize ∨ (t.rrtOf key).isSome) →
    exec (.strel r a k sc z o) s =
      .next (((((t.endHold (.ctx p c)).modPlaza p fun q => q.writeThrough key n ((s.g p c r).toNat % 2 ^ (8 * n))).writeWord p key n
        ((s.g p c r).toNat % 2 ^ (8 * n))).rrtRecord p key sc).retire p c id)

/-- R326, R327: a release's entry: the word's entry names the releasing plaza, its scope and the publishes that plaza had begun; the entries
of other words of the slice stay. -/
def Claims.ReleaseEntry : Prop :=
  ∀ (s : State) p key sc, key < 2 ^ 45 →
    (∃ age, (s.rrtRecord p key sc).rrtOf key = some ⟨key / 8, s.plazaId p, sc, (s.plaza p).pubBegun, age, false⟩)
    ∧ (∀ k, k / 8 ≠ key / 8 → (s.rrtRecord p key sc).rrtOf k = s.rrtOf k)
    ∧ (s.rrtRecord p key sc).mem = s.mem ∧ (s.rrtRecord p key sc).plazas = s.plazas

/-- R310, R340: a word written at its home changes exactly its bytes. -/
def Claims.HomeWrite : Prop :=
  ∀ (s : State) p key n v b, 0 < n → key % 128 + n ≤ 128 →
    memByte (s.writeWord p key n v).mem b =
      if key ≤ b ∧ b < key + n then BitVec.ofNat 8 (v / 2 ^ (8 * (b - key))) else memByte s.mem b

/-- R63, R64, R66: an AMO or CAS whose checks pass and whose access at the home answers old completes with g[rd] := SignExt(old), where its
order names no acquire; AMO stores the operation's value, CAS stores g[rb] only where old equals g[rc]. -/
def Claims.Atomics : Prop :=
  ∀ (s : State) p c d a b e z sc od op key priv t, s.cur.agent = .control p c → c ≤ 5 → (s.ctx p c).acq = none →
    let n := if z = 1 then 4 else 8
    let y := (s.g p c b).toNat % 2 ^ (8 * n)
    let x := (s.g p c e).toNat % 2 ^ (8 * n)
    s.checkVa p (s.ctxPasid p c) (s.g p c a) n .atomic = .ok (key, priv) t →
    (∀ old f u, t.atomicAt (.ctx p c) p key n op od sc (leBytes n y) (fun o => some (amoValue op n o y)) = .ok (old, f) u → od % 2 = 0 →
      exec (.amo d a b z sc od op) s = .next (u.retireReg p c d ((BitVec.ofNat (8 * n) old).signExtend 64)))
    ∧ (∀ old f u, t.atomicAt (.ctx p c) p key n 11 od sc (leBytes n y ++ leBytes n x) (fun o => if o = x then some y else none) = .ok (old, f) u →
      od % 2 = 0 → exec (.cas d a b z sc od e) s = .next (u.retireReg p c d ((BitVec.ofNat (8 * n) old).signExtend 64)))

/-- R59, R60, R63, R64, R66, R326, R328: STREL, AMO and CAS complete where the word lies in this module at its home, the plaza holds nothing of
it, no release of it is recorded and its RRT has room: AMO and CAS with its old value sign-extended in g[rd]; the home has the word stored, and
every other byte as before. -/
def Claims.AtomicsComplete : Prop :=
  ∀ (s : State) p c d a b e z sc od op key (o : Nat) (cl : Nat), s.cur.agent = .control p c → c ≤ 5 → s.noWake p c → s.atStart p c → op ≤ 8 →
    s.homeOnly p key (if z = 1 then 4 else 8) → s.rrtOf key = none → (tabGet [] s.rrt (s.homeSlice key)).length < rrtSize →
    let n := if z = 1 then 4 else 8
    let y := (s.g p c b).toNat % 2 ^ (8 * n)
    let x := (s.g p c e).toNat % 2 ^ (8 * n)
    let old := memRead s.mem key n
    let leaves (v : Nat) (t : State) : Prop := memRead t.mem key n = v ∧ ∀ k, k < key ∨ key + n ≤ k → memByte t.mem k = memByte s.mem k
    (s.grants p c (s.g p c a) n .atomic key →
      completesWith (.amo d a b z sc od op) s p c d ((BitVec.ofNat (8 * n) old).signExtend 64) (leaves (amoValue op n old y))
      ∧ completesWith (.cas d a b z sc od e) s p c d ((BitVec.ofNat (8 * n) old).signExtend 64) (leaves (if old = x then y else old)))
    ∧ (s.grants p c (s.g p c a + (BitVec.ofNat 8 o).signExtend 64 * BitVec.ofNat 64 n) n .write key →
      completesWith (.strel b a cl sc z o) s p c 0 0 (leaves y))

/-- R64: the values an AMO stores, at width w = 8n. -/
def Claims.AtomicValues : Prop :=
  ∀ n, n = 4 ∨ n = 8 → ∀ old b : BitVec (8 * n),
    let f (op : Nat) : BitVec (8 * n) := BitVec.ofNat (8 * n) (amoValue op n old.toNat b.toNat)
    f 0 = b ∧ f 1 = old + b ∧ f 2 = old &&& b ∧ f 3 = old ||| b ∧ f 4 = old ^^^ b
    ∧ f 5 = (if b.toInt < old.toInt then b else old) ∧ f 6 = (if old.toInt < b.toInt then b else old)
    ∧ f 7 = (if b.toNat < old.toNat then b else old) ∧ f 8 = (if old.toNat < b.toNat then b else old) ∧ f 9 = old + b
    ∧ ∀ x y : W32, amoValue 10 4 x.toNat y.toNat = (fadd32 x y).toNat

/-- R60, R313, R326: an atomic at a home of this module, with no update line of any plaza for it, its bytes not poisoned nor written by another plaza as private to it: it answers the
old value and the word's entry, stores what it is given, and with a release order records an entry. -/
def Claims.AtomicAtHome : Prop :=
  ∀ (s : State) who p key n od sc (f : Nat → Option Nat), s.recall (key / 128) = s → key < 2 ^ 45 → 0 < n → key % 128 + n ≤ 128 →
    touchesPoison (s.homePoison (key / 128)) (key % 128) n = false → s.privOther p (key / 128) (byteMask (key % 128) n) = false →
    (od < 2 ∨ (tabGet [] s.rrt (s.homeSlice key)).length < rrtSize ∨ (s.rrtOf key).isSome) →
    let old := memRead s.mem key n
    let e := (s.rrtOf key).map fun x => (x.plaza, x.seq)
    s.atomicHere who p key n od sc f = .ok (old, e) (match f old with
      | none => s
      | some v => if 2 ≤ od then ((s.endHold who).writeWord p key n v).rrtRecord p key sc else s.writeWord p key n v)

/-- R64, R65: addc and faddc to near memory or the second tier join the plaza's update line and complete with no register written; faddc is
ILLEGAL for a job whose feature is off (R253). -/
def Claims.CommutativeAdds : Prop :=
  ∀ (s : State) p c a b z key priv t, s.cur.agent = .control p c → c ≤ 5 → key < 2 ^ 45 →
    (let n := if z = 1 then 4 else 8
     s.checkVa p (s.ctxPasid p c) (s.g p c a) n .atomic = .ok (key, priv) t →
      exec (.amoAddc a b z) s = .next
        ((t.addUpdate p false (key / 128) ⟨key % 128, n == 8, false, BitVec.ofNat 64 ((s.g p c b).toNat % 2 ^ (8 * n))⟩).retire p c id))
    ∧ (s.checkVa p (s.ctxPasid p c) (s.g p c a) 4 .atomic = .ok (key, priv) t → (c = 5 ∨ s.hasFeature p 6 = true) →
      exec (.amoFaddc a b) s = .next
        ((t.addUpdate p false (key / 128) ⟨key % 128, false, true, BitVec.ofNat 64 ((s.g p c b).toNat % 2 ^ 32)⟩).retire p c id))
    ∧ (c ≠ 5 → s.hasFeature p 6 = false → exec (.amoFaddc a b) s = .next (s.illegal p c))

/-- R61: a WAITM at P whose load satisfies its condition ends with the value in its register; one whose load does not waits, asleep on the
line unless it is a view's, and runs no further until its own plaza writes the line. -/
def Claims.WaitmLoads : Prop :=
  ∀ (s : State) p c d a b z cond key priv t v u, s.cur.agent = .control p c → c ≤ 5 → cond < 7 →
    let n := if z = 1 then 4 else 8
    let y := (s.g p c b).toNat % 2 ^ (8 * n)
    let i : Instr := .waitm d a b z 0 cond
    ((s.ctx p c).wait = some i → (s.ctx p c).sleep.isSome = true → exec i s = .next s)
    ∧ ((s.ctx p c).acq = none → (s.ctx p c).sleep = none →
      s.checkVa p (s.ctxPasid p c) (s.g p c a) n .read = .ok (key, priv) t → t.readData p c (s.g p c a) n = .ok v u → v < 2 ^ (8 * n) →
      (conditionHolds cond n v y → exec i s = .next (u.retireReg p c d (BitVec.ofNat 64 v)))
      ∧ (¬conditionHolds cond n v y →
        exec i s = .next ((if u.viewPage key then u else u.modCtx p c fun x => { x with sleep := some (key / 128) }).block p c i)))

/-- R58, R59, R60, R61, R328: LDA and WAITM complete with the word in their register: at P where the L1D has it, at K and D where it lies in
this module at a home, no release of it is recorded and the plaza holds nothing of it; a WAITM whose condition the word meets. No byte at a
home changes. -/
def Claims.AcquiresComplete : Prop :=
  ∀ (s : State) p c d a b k sc z o cond key, s.cur.agent = .control p c → c ≤ 5 → s.noWake p c → s.atStart p c → cond < 7 →
    let n := if z = 1 then 4 else 8
    let y := (s.g p c b).toNat % 2 ^ (8 * n)
    ∀ f ∈ [(Instr.lda d a k sc z o, s.g p c a + (BitVec.ofNat 8 o).signExtend 64 * BitVec.ofNat 64 n, fun _ : Nat => True),
           (.waitm d a b z sc cond, s.g p c a, fun v => conditionHolds cond n v y)],
      s.grants p c f.2.1 n .read key →
      (∀ x, sc = 0 → s.l1dHas p key n x → f.2.2 (vecBytes x.data (key % 128) n) →
        completesWith f.1 s p c d (BitVec.ofNat 64 (vecBytes x.data (key % 128) n)) fun t => t.mem = s.mem)
      ∧ (sc ≠ 0 → s.homeOnly p key n → s.rrtOf key = none → f.2.2 (memRead s.mem key n) →
        completesWith f.1 s p c d (BitVec.ofNat 64 (memRead s.mem key n)) fun t => t.mem = s.mem)

/-- R68, R69: CSRR, CSRW, CSRS and CSRC read the CSR into g[rd] and write it, set bits of it or clear bits of it in one action; a CSR of
0x20 and above is PRIVILEGED outside context 5. -/
def Claims.CsrInstructions : Prop :=
  ∀ (s : State) p c d a n, s.cur.agent = .control p c → c ≤ 5 →
    let old := s.csr p c n
    let v := s.g p c a
    (c = 5 ∨ n < 0x20 →
      exec (.csrr d n) s = .next (s.retireReg p c d old)
      ∧ exec (.csrw d a n) s = .next ((s.setCsr p c n v).retireReg p c d old)
      ∧ exec (.csrs d a n) s = .next ((s.setCsr p c n (old ||| v)).retireReg p c d old)
      ∧ exec (.csrc d a n) s = .next ((s.setCsr p c n (old &&& ~~~v)).retireReg p c d old))
    ∧ (c ≠ 5 → 0x20 ≤ n → ∀ i ∈ [Instr.csrr d n, .csrw d a n, .csrs d a n, .csrc d a n], exec i s = .next (s.privileged p c))

/-- R69: what the CSRs hold: a writable one reads back the bits it keeps, the read-only ones read what they stand for, and a write changes no
byte of memory and no general register. -/
def Claims.CsrStorage : Prop :=
  ∀ (s : State) p c v, s.hasPlace p = true → c ≤ 5 →
    (∀ x ∈ [(3, BitVec.allOnes 64), (4, BitVec.allOnes 64), (5, BitVec.allOnes 64), (0x10, 1), (0x11, BitVec.allOnes 64), (0x20, 1),
            (0x21, 0xFFFFF), (0x22, ~~~3), (0x23, ~~~127), (0x24, ~~~3), (0x25, BitVec.allOnes 64)],
      (s.setCsr p c x.1 v).csr p c x.1 = v &&& x.2)
    ∧ (∀ n k, (s.setCsr p c n v).mem = s.mem ∧ (s.setCsr p c n v).g p c k = s.g p c k)
    ∧ s.csr p c 0 = BitVec.ofNat 64 (s.dev.modNum * 2 ^ 16 + p * 2 ^ 8 + c) ∧ s.csr p c 1 = BitVec.ofNat 64 s.dev.cycle
    ∧ s.csr p c 2 = BitVec.ofNat 64 s.dev.ns ∧ s.csr p c 3 = (s.ctx p c).insret
    ∧ s.csr p c 8 = BitVec.ofNat 64 ((s.place p).scrsize / 8192) ∧ s.csr p c 9 = (s.place p).ckptwa
    ∧ s.csr p c 6 = BitVec.ofNat 64 (s.place p).job ∧ s.csr p c 7 = BitVec.ofNat 64 (s.place p).index

/-- R72: a prefetch never traps: with no mapping that has its permission it only completes, leaving no TLB entry; while the page migrates it
waits; with a usable mapping it starts a fill of the line, unless the line or a fill of it is there, a fetch of it by a context among them. -/
def Claims.Prefetches : Prop :=
  ∀ (s : State) p c a, s.cur.agent = .control p c → c ≤ 5 →
    let ea := s.g p c a
    let tr := s.translate p (s.ctxPasid p c) ea
    let fi : IFill → Bool := fun f => f.pasid == s.ctxPasid p c && f.line == ea.toNat / 64
    (canonical ea = false → exec (.icpf a) s = .next (s.retire p c id) ∧ exec (.dcpf a) s = .next (s.retire p c id))
    ∧ (canonical ea = true → (∀ t, tr = .ok none t → ∀ i ∈ [Instr.icpf a, .dcpf a], exec i s = .next ((t.oldTlb s p).retire p c id))
      ∧ (∀ t, tr = .wait t → ∀ i ∈ [Instr.icpf a, .dcpf a], exec i s = .next (t.block p c i))
      ∧ (∀ e f g t, tr = .fail e f g t → ∀ i ∈ [Instr.icpf a, .dcpf a], exec i s = .next ((t.oldTlb s p).retire p c id))
      ∧ ∀ x t, tr = .ok (some x) t →
        (x.exec = false ∨ t.transAbsent x ea = true → exec (.icpf a) s = .next ((t.oldTlb s p).retire p c id))
        ∧ (x.read = false ∨ t.transAbsent x ea = true → exec (.dcpf a) s = .next ((t.oldTlb s p).retire p c id))
        ∧ (x.exec = true → t.transAbsent x ea = false →
          ((t.iline p (s.ctxPasid p c) (ea.toNat / 64)).isSome ∨ (t.plaza p).ifills.any fi = true ∨ t.missing p (s.ctxPasid p c, ea.toNat / 64) = true →
            exec (.icpf a) s = .next ((t.oldTlb s p).retire p c id))
          ∧ (t.remoteOff p (t.ctxPasid p c) (t.transKey x ea) = false → t.iline p (s.ctxPasid p c) (ea.toNat / 64) = none →
            (t.plaza p).ifills.any fi = false → t.missing p (s.ctxPasid p c, ea.toNat / 64) = false →
            exec (.icpf a) s = .next ((t.modPlaza p fun q => { q with ifills := q.ifills ++
              [⟨s.ctxPasid p c, ea.toNat / 64, t.transKey x ea / 64 * 64, t.dev.cycle, false⟩] }).retire p c id)))
        ∧ (x.read = true → t.transAbsent x ea = false → (t.plaza p).hasUpdate (t.transKey x ea / 128) = false →
          let there : Prop := (lineIn (t.plaza p).l1d (t.transKey x ea / 128)).isSome ∨
            (t.plaza p).fills.any (fun f => f.key == t.transKey x ea / 128) = true ∨ t.viewPage (t.transKey x ea) = true
          (there → exec (.dcpf a) s = .next ((t.oldTlb s p).retire p c id))
          ∧ (¬there → t.remoteOff p (t.ctxPasid p c) (t.transKey x ea) = false → exec (.dcpf a) s = .next
            ((t.modPlaza p fun q => { q with fills := q.fills ++ [⟨t.transKey x ea / 128, x.priv, false⟩] }).retire p c id))))

/-- R73: ICINV of a line, or of every line of the address space: no instruction cache of the module holds it afterwards, other lines stay, and
the fills in flight of it are cancelled, hints and fetches alike. -/
def Claims.IcacheInvalidates : Prop :=
  ∀ (s : State) p c a, s.cur.agent = .control p c → c ≤ 5 →
    (∀ key priv t, s.checkVa p (s.ctxPasid p c) (s.g p c a) 0 .read = .ok (key, priv) t →
      exec (.icinv a) s = .next ((t.dropILines fun pasid line => pasid == s.ctxPasid p c && line == (s.g p c a).toNat / 64).retire p c id))
    ∧ exec .icinvAll s = .next ((s.dropILines fun pasid _ => pasid == s.ctxPasid p c).retire p c id)
    ∧ ∀ f q, (∀ y, (y ∈ ((s.dropILines f).plaza q).icache ↔ y ∈ (s.plaza q).icache ∧ f y.pasid y.line = false))
      ∧ (∀ z ∈ ((s.dropILines f).plaza q).ifills, f z.pasid z.line = true → z.cancelled = true)
      ∧ ∀ r ∈ (s.dropILines f).remotes, ∀ k, r.who = .fetch q k → k < 6 → r.kind = 1 → r.size = 128 →
          f (s.fetching q k).1 (s.fetching q k).2 = true → r.cancelled = true

/-- R74: DCWB writes the line's dirty bytes and update line home and completes when that is acknowledged; DCINV does so, drops the line from
both L1s after the lanes' accesses to it, for a load of which in flight it waits, and cancels its fills. -/
def Claims.DcacheMaintenance : Prop :=
  ∀ (s : State) p c a key priv t, s.cur.agent = .control p c → c ≤ 5 →
    s.checkVa p (s.ctxPasid p c) (s.g p c a) 0 .read = .ok (key, priv) t →
    (t.remotes.any fun r => r.who == .ctx p c && r.kind == 3 && r.failed) = false →
    let line := key / 128
    let u := (t.writeBack p line).mergeOwn p line
    let v := ((t.performTouching p line).flushLine p line).cancelReads fun r => loadsFor r.who p && r.addr == line * 128
    let quiet (x : State) : Prop := (x.plaza p).dirtyLine line = false ∧ x.noticesFrom p = false
    let done (x : State) : State := { x with remotes := x.remotes.filter fun r => !(r.who == .ctx p c && r.kind == 3) }
    let waits (i : Instr) (x : State) : Prop := (x.plaza p).dirtyLine line = false → x.noticesFrom p = true →
      ∃ y, exec i s = .next y ∧ (y.ctx p c).state = .waiting ∧ (y.ctx p c).wait = some i
    (quiet u → exec (.dcwb a) s = .next ((done u).retire p c id)) ∧ waits (.dcwb a) u
    ∧ (t.lanesLoading p line = false → (quiet v → exec (.dcinv a) s = .next ((done v).retire p c id)) ∧ waits (.dcinv a) v)
    ∧ (t.lanesLoading p line = true → exec (.dcinv a) s = .next (t.block p c (.dcinv a)))
    ∧ (v.plaza p).fills.all (fun f => f.key != line || f.cancelled) = true ∧ (quiet v → ∀ lanes, lineIn ((v.plaza p).l1 lanes) line = none)

/-- R71, R72, R73, R74: the cache instructions complete: a prefetch where its address is not canonical, has no mapping or may be read;
ICINV where its page may be read, and of every line always; DCWB and DCINV of a line of this module that the L1D has, no view watching it:
its dirty bytes, and no others, are at the home, and the L1D has it clean, or after a DCINV not at all. -/
def Claims.CacheInstructionsComplete : Prop :=
  ∀ (s : State) p c a key x, s.cur.agent = .control p c → c ≤ 5 → s.noWake p c → s.atStart p c →
    let ea := s.g p c a
    let line := key / 128
    ((canonical ea = false ∨ s.translate p (s.ctxPasid p c) ea = .ok none s
        ∨ (s.grants p c ea 1 .read key ∧ (s.plaza p).hasUpdate line = false)) →
      ∀ i ∈ [Instr.icpf a, .dcpf a], completesWith i s p c 0 0 fun t => t.mem = s.mem)
    ∧ completesWith .icinvAll s p c 0 0 (fun t => t.mem = s.mem ∧ ∀ q, ∀ y ∈ (t.plaza q).icache, y.pasid ≠ s.ctxPasid p c)
    ∧ (s.grants p c ea 1 .read key → completesWith (.icinv a) s p c 0 0 fun t => t.mem = s.mem
        ∧ ∀ q, ∀ y ∈ (t.plaza q).icache, ¬(y.pasid = s.ctxPasid p c ∧ y.line = ea.toNat / 64))
    ∧ (s.grants p c ea 1 .read key → key < 2 ^ 45 → s.pathDown (line * 128) = false → s.l1dOnly p key x → (∀ y ∈ (s.plaza p).l1d, y.key = line → y = x) →
        (∀ m ∈ s.masters, m.blocksOf (line * 128) = []) → s.noticesFrom p = false →
        let home (t : State) : Prop := ∀ b, memByte t.mem b =
          if b / 128 = line ∧ x.dirty.getLsbD (b % 128) = true then x.data.extractLsb' (8 * (b % 128)) 8 else memByte s.mem b
        completesWith (.dcwb a) s p c 0 0 (fun t => home t ∧ lineIn (t.plaza p).l1d line = some { x with dirty := 0 })
        ∧ ((∀ l, (s.lane p l).stores = []) → s.lanesLoading p line = false → completesWith (.dcinv a) s p c 0 0 fun t => home t ∧ ∀ lanes, lineIn ((t.plaza p).l1 lanes) line = none))

/-- R107, R109: XLT with a TLB hit makes its handle VALID with the page's value, source address and permissions and completes; on a miss the
handle is PENDING and the context waits for its walk; the walk's end makes it VALID and retires the XLT. -/
def Claims.XltInstruction : Prop :=
  ∀ (s : State) p c n a perms x, s.cur.agent = .control p c → c < 5 → n < 64 → canonical (s.g p c a) = true →
    s.transAbsent x (s.g p c a) = false → x.grantsPerms perms = true →
    let va := s.g p c a
    let valid (t : State) : Prop := t.handle p n = ⟨.valid, handleValue x perms, va, perms, x.priv, c, none, none⟩
      ∧ (∀ m, m ≠ n → t.handle p m = s.handle p m) ∧ (t.ctx p c).insret = (s.ctx p c).insret + 1 ∧ (t.ctx p c).g = (s.ctx p c).g ∧ t.mem = s.mem
    (s.tlbHit p (s.place p).pasid va = some x → ∃ t, exec (.xlt n a perms) s = .next t ∧ valid t)
    ∧ (s.tlbHit p (s.place p).pasid va = none → ∃ t, exec (.xlt n a perms) s = .next t ∧ (t.handle p n).st = .pending
        ∧ (t.ctx p c).state = .waiting ∧ (t.ctx p c).wait = some (.xlt n a perms) ∧ (t.ctx p c).g = (s.ctx p c).g)
    ∧ ((s.ctx p c).wait = some (.xlt n a perms) → (∀ k, k < 5 → k ≠ c → (s.ctx p k).wait = none) →
        s.handle p n = ⟨.pending, 0, va, perms, false, c, none, none⟩ → s.translate p (s.place p).pasid va = .ok (some x) s →
        ∃ t, exec (.translationWalkEnd p n) s = .next t ∧ valid t)

/-- R110, R111: HINV empties a handle or every handle; HGET reads a handle's value and HGETVA its source address, 0 for an EMPTY one. -/
def Claims.HandleInstructions : Prop :=
  ∀ (s : State) p c n d, s.cur.agent = .control p c →
    (c < 5 → (∃ t, exec (.hinv n) s = .next t ∧ t.handle p n = Handle.off ∧ (∀ m, m ≠ n → t.handle p m = s.handle p m) ∧ t.mem = s.mem
          ∧ (t.ctx p c).g = (s.ctx p c).g)
        ∧ ∃ t, exec .hinvAll s = .next t ∧ (∀ m, t.handle p m = Handle.off) ∧ t.mem = s.mem ∧ (t.ctx p c).g = (s.ctx p c).g)
    ∧ (c ≤ 5 → s.noWake p c →
        writesG (.hget d n) s p c d (if (s.handle p n).st = .empty then 0 else if (s.handle p n).st = .pending ∨ (s.handle p n).st = .faulted then
          BitVec.ofNat 64 (2 ^ 62) else (s.handle p n).value)
        ∧ writesG (.hgetva d n) s p c d (if (s.handle p n).st = .empty then 0 else (s.handle p n).va))

/-- R114: a walk that refreshes a STALE handle for a lane group's access makes it VALID again, with the permissions it was requested with. -/
def Claims.HandleRefreshes : Prop :=
  ∀ (s : State) p n u x, (s.handle p n).st = .stale → (s.handle p n).user = some u → (s.handle p n).fail = none →
    canonical (s.handle p n).va = true →
    s.translate p (s.place p).pasid (s.handle p n).va = .ok (some x) s → s.transAbsent x (s.handle p n).va = false →
    x.grantsPerms (s.handle p n).perms = true →
    ∃ t, exec (.handleRefresh p n) s = .next t ∧ (t.handle p n).st = .valid ∧ (t.handle p n).value = handleValue x (s.handle p n).perms
      ∧ (t.handle p n).user = none ∧ (t.handle p n).va = (s.handle p n).va ∧ t.mem = s.mem ∧ ∀ m, m ≠ n → t.handle p m = s.handle p m

/-- R6, R119, R121, R122: SHSET writes one field of a shape register and leaves its other bits and every other shape register; SHGET reads a
field with its reserved bits as zero, signed from field 8 on; SHLD and SHST move all 64 bytes, and complete where the L1D has them. -/
def Claims.ShapeInstructions : Prop :=
  ∀ (s : State) p c n a d k, s.cur.agent = .control p c → c < 5 → s.noWake p c →
    (∀ f, f < 14 → completesWith (.shget d n f) s p c d (shapeField (shapeRead (s.shape p n)) f) (fun t => t.mem = s.mem ∧ ∀ m, t.shape p m = s.shape p m)
      ∧ completesWith (.shset n a f) s p c 0 0 fun t => t.mem = s.mem
        ∧ (shapeField (t.shape p n) f = if f = 1 ∨ f = 3 then BitVec.ofNat 64 ((s.g p c a).toNat % 2 ^ 48)
            else if 8 ≤ f then ((s.g p c a).setWidth 32).signExtend 64 else BitVec.ofNat 64 ((s.g p c a).toNat % 2 ^ 32))
        ∧ (∀ e, e < 14 → e ≠ f → shapeField (t.shape p n) e = shapeField (s.shape p n) e)
        ∧ ∀ m, m ≠ n → t.shape p m = s.shape p m)
    ∧ (∀ v : BitVec 512, ∀ j, j < 512 → (shapeRead v).getLsbD j = (v.getLsbD j
        && !(decide (25 ≤ j ∧ j ≤ 31) || decide (21 ≤ j ∧ j ≤ 23) || decide (80 ≤ j ∧ j ≤ 95) || decide (120 ≤ j ∧ j ≤ 127) || decide (176 ≤ j ∧ j ≤ 191)
          || decide (4 ≤ j ∧ j ≤ 8 ∧ shapeWord v 0 % 16 ≠ 0) || decide (100 ≤ j ∧ j ≤ 104 ∧ shapeWord v 3 % 16 ≠ 0))))
    ∧ (∀ key x, s.grants p c (s.g p c a) 64 .read key → s.l1dHas p key 64 x → completesWith (.shld n a k) s p c 0 0 fun t => t.mem = s.mem
        ∧ t.shape p n = BitVec.ofNat 512 (vecBytes x.data (key % 128) 64) ∧ ∀ m, m ≠ n → t.shape p m = s.shape p m)
    ∧ (∀ key x, s.grants p c (s.g p c a) 64 .write key → key % 128 + 64 ≤ 128 → s.l1dOnly p key x →
        completesWith (.shst n a k) s p c 0 0 fun t => t.mem = s.mem ∧ (∀ m, t.shape p m = s.shape p m)
          ∧ ∀ q lanes b, t.cached q lanes b = if q = p ∧ lanes = false ∧ key ≤ b ∧ b < key + 64
              then some ((shapeRead (s.shape p n)).extractLsb' (8 * (b - key)) 8 ) else s.cached q lanes b)
    ∧ (∀ v t, s.readData p c (s.g p c a) 64 = .ok v t → exec (.shld n a k) s = .next ((t.setShape p n (BitVec.ofNat 512 v)).retire p c id))
    ∧ ∀ t, s.writeData p c (s.g p c a) 64 (shapeRead (s.shape p n)).toNat = .ok () t → exec (.shst n a k) s = .next (t.retire p c id)

/-- R127: TWAIT and TWAITM wait while a named token is OUTSTANDING, then raise TOKENFAILED if one is FAILED, and else complete; TTEST reads a
token's state, or the mask of the tokens in a state. -/
def Claims.TokenTests : Prop :=
  ∀ (s : State) p c n a d, s.cur.agent = .control p c → c < 5 → n < 64 →
    let some_ (m : Nat) (x : TokState) : Prop := ∃ k, k < 64 ∧ m / 2 ^ k % 2 = 1 ∧ (s.token p k).st = x
    let waits (i : Instr) (m : Nat) : Prop :=
      (some_ m .outstanding → exec i s = .next (s.block p c i))
      ∧ (¬some_ m .outstanding → some_ m .failed → exec i s = .next (s.trap p c .tokenfailed 0))
      ∧ (¬some_ m .outstanding → ¬some_ m .failed → exec i s = .next (s.retire p c id))
    waits (.twait n) (2 ^ n) ∧ waits (.twaitm a) (s.g p c a).toNat
    ∧ exec (.ttest d n) s = .next (s.retireReg p c d (match (s.token p n).st with
        | .free => 0
        | .outstanding => 1
        | .done => 2
        | .failed => 3))
    ∧ ∃ o f : Word, exec (.ttestOut d) s = .next (s.retireReg p c d o) ∧ exec (.ttestFailed d) s = .next (s.retireReg p c d f)
        ∧ ∀ k, k < 64 → (o.getLsbD k = true ↔ (s.token p k).st = .outstanding) ∧ (f.getLsbD k = true ↔ (s.token p k).st = .failed)

/-- R123, R127: TFREE and TFREEM free the named tokens that are not OUTSTANDING, wait for those that are, and leave the others. -/
def Claims.TokenFrees : Prop :=
  ∀ (s : State) p c n a, s.cur.agent = .control p c → c < 5 → n < 64 →
    let frees (i : Instr) (m : Nat) : Prop := ∃ t, exec i s = .next t ∧ t.mem = s.mem ∧ (t.ctx p c).g = (s.ctx p c).g
      ∧ (∀ k, k < 64 → (t.token p k).st = if m / 2 ^ k % 2 = 1 ∧ (s.token p k).st ≠ .outstanding then .free else (s.token p k).st)
      ∧ ((t.ctx p c).wait = some i ↔ ∃ k, k < 64 ∧ m / 2 ^ k % 2 = 1 ∧ (s.token p k).st = .outstanding)
    frees (.tfree n) (2 ^ n) ∧ frees (.tfreem a) (s.g p c a).toNat

/-- R136: EMIT appends a QUEUED block with its descriptor's fields and operands at avtail, which it returns and advances; with 256 blocks
unretired it waits; an empty mask emits nothing and returns all ones. -/
def Claims.EmitInstruction : Prop :=
  ∀ (s : State) p c d a b e o t, s.cur.agent = .control p c → c < 3 → b % 2 = 0 → e < (s.place p).table.length → (s.place p).w16 = false →
    let desc := s.g p c a
    let mask : W32 := (desc >>> 32).setWidth 32
    bits desc.toNat 15 14 = 0 →
    (mask = 0 → exec (.emit d a b e o t) s = .next (s.retireReg p c d (BitVec.allOnes 64)))
    ∧ (mask ≠ 0 → 256 ≤ (s.place p).unretired.length → exec (.emit d a b e o t) s = .next (s.block p c (.emit d a b e o t)))
    ∧ (mask ≠ 0 → (s.place p).unretired.length < 256 → ∃ u, exec (.emit d a b e o t) s = .next u ∧ u.mem = s.mem
        ∧ (∀ n, u.g p c n = if n = d ∧ d ≠ 0 then BitVec.ofNat 64 (s.place p).avtail else s.g p c n)
        ∧ (u.place p).avtail = ((s.place p).avtail + 1) % 2 ^ 32
        ∧ ∃ x, (u.place p).blocks = (s.place p).blocks ++ [x] ∧ x.seq = (s.place p).avtail ∧ x.entry = e ∧ x.mask = mask
          ∧ x.trip = bits desc.toNat 31 16 ∧ x.window = bits desc.toNat 13 0 ∧ x.st = .queued ∧ x.emitter = c
          ∧ x.op0 = (if b = 0 then (0 : W32) else (s.g p c b).setWidth 32) ∧ x.op1 = (if b = 0 then (0 : W32) else (s.g p c b >>> 32).setWidth 32)
          ∧ x.op2 = (if b = 0 then (0 : W32) else (s.g p c (b + 1)).setWidth 32) ∧ x.op3 = (if b = 0 then (0 : W32) else (s.g p c (b + 1) >>> 32).setWidth 32)
          ∧ x.wait = s.waitFor p t ∧ x.readyAt = s.dev.cycle + 1)

/-- R137: SPLIT emits a block for the lanes of its mask whose predicate bit is set and one for the others, the fuller first, an empty one not
at all, and returns how many. -/
def Claims.SplitInstruction : Prop :=
  ∀ (s : State) p c d a b r e o t f, s.cur.agent = .control p c → c < 3 → b % 2 = 0 → e < (s.place p).table.length → f < (s.place p).table.length →
    (s.place p).w16 = false → bits (s.g p c a).toNat 15 14 = 0 → (s.place p).unretired.length ≤ 254 →
    let mask : W32 := (s.g p c a >>> 32).setWidth 32
    let pred : W32 := (s.g p c r).setWidth 32
    let yes := pred &&& mask
    let no := ~~~pred &&& mask
    ∃ u bs, exec (.split d a b r e o t f) s = .next u ∧ u.mem = s.mem ∧ (u.place p).blocks = (s.place p).blocks ++ bs
      ∧ (∀ n, u.g p c n = if n = d ∧ d ≠ 0 then BitVec.ofNat 64 bs.length else s.g p c n)
      ∧ bs.map (fun x => (x.mask, x.entry)) =
          (if popCount no.toNat 32 < popCount yes.toNat 32 ∨ (popCount no.toNat 32 = popCount yes.toNat 32 ∧
              (e = f ∨ ((s.place p).table.getD e ⟨0, false, false⟩).entry.toNat ≤ ((s.place p).table.getD f ⟨0, false, false⟩).entry.toNat))
            then [(yes, e), (no, f)] else [(no, f), (yes, e)]).filter (fun x => x.1 != 0)

/-- R139: POPP and POPPN take the alley's oldest entry when it is poppable: its scalar and mask to g[rd], its block's sequence to g[rb]; else
POPP waits and POPPN writes 0 and all ones. -/
def Claims.PopInstructions : Prop :=
  ∀ (s : State) p c d b, s.cur.agent = .control p c → c < 3 → d ≠ b →
    (∀ e rest, (s.place p).alley = e :: rest → e.poppable = true →
      ∀ i ∈ [Instr.popp d b, .poppn d b], ∃ t, exec i s = .next t ∧ (t.place p).alley = rest ∧ t.mem = s.mem
        ∧ (t.place p).alhead = ((s.place p).alhead + 1) % 2 ^ 32
        ∧ ∀ n, t.g p c n = if n = b ∧ b ≠ 0 then BitVec.ofNat 64 e.seq
            else if n = d ∧ d ≠ 0 then BitVec.ofNat 64 (e.scalar.toNat * 2 ^ 32 + e.mask.toNat) else s.g p c n)
    ∧ ((∀ e rest, (s.place p).alley = e :: rest → e.poppable = false) →
      exec (.popp d b) s = .next (s.block p c (.popp d b))
      ∧ exec (.poppn d b) s = .next (s.retire p c fun x => (x.setReg d 0).setReg b (BitVec.allOnes 64)))

/-- R138, R140, R141: BCANCEL cancels the blocks at or above its sequence, removes their entries from the alley and returns how many were
still queued, after what retires and is dispatched in its cycle; BSEQ reads avtail, avhead or the number of poppable entries; BWAIT waits for
the blocks below its sequence. -/
def Claims.AvenueControl : Prop :=
  ∀ (s : State) p c d a, s.cur.agent = .control p c → c < 3 → s.noWake p c →
    let q := s.place p
    let n := (s.g p c a).toNat % 2 ^ 32
    let u := s.settleBlocks p
    let r := u.place p
    ((∀ k, u.g p c k = s.g p c k) ∧ ((s.place p).blocks = [] → (s.place p).lanes = [] → u = s))
    ∧ (∃ t, exec (.bcancel d a) s = .next t ∧ t.mem = u.mem
      ∧ (t.place p).blocks = r.blocks.map (fun b => if r.above n b.seq then b.cancel else b)
      ∧ (t.place p).alley = r.alley.filter (fun e => !r.above n e.seq)
      ∧ ∀ k, t.g p c k = if k = d ∧ d ≠ 0 then BitVec.ofNat 64 (r.blocks.filter fun b => r.above n b.seq && b.st == .queued).length else s.g p c k)
    ∧ writesG (.bseq d 0) s p c d (BitVec.ofNat 64 q.avtail) ∧ writesG (.bseq d 1) s p c d (BitVec.ofNat 64 q.avhead)
    ∧ writesG (.bseq d 2) s p c d (BitVec.ofNat 64 (q.alley.filter fun e => e.poppable).length)
    ∧ ((∀ b ∈ q.unretired, q.above n b.seq = true) → exec (.bwait a) s = .next (s.retire p c id))
    ∧ ((∃ b ∈ q.unretired, q.above n b.seq = false) → exec (.bwait a) s = .next (s.block p c (.bwait a)))

/-- R75, R76, R98: EXIT ends its context with the low 32 bits of g[ra]; HRET makes a handler dormant, or starts it on the oldest queued arrival
with its location, length and sender; WAKE starts a dormant handler, after the arrivals of its cycle, and tells whether it did. That the low
two bits of a PUTH's handler address are ignored is the model's choice (log 27). -/
def Claims.ContextEnds : Prop :=
  ∀ (s : State) p c a b d, s.cur.agent = .control p c →
    (c < 3 → ∃ t, exec (.exit a) s = .next t ∧ (t.ctx p c).state = .ended ∧ (t.ctx p c).exitStatus = some ((s.g p c a).setWidth 32)
        ∧ (t.ctx p c).g = (s.ctx p c).g ∧ (t.ctx p c).insret = (s.ctx p c).insret + 1 ∧ t.mem = s.mem)
    ∧ ((c = 3 ∨ c = 4) →
        ((s.place p).arrivals = [] → ∃ t, exec .hret s = .next t ∧ (t.ctx p c).state = .dormant ∧ (t.ctx p c).g = (s.ctx p c).g ∧ t.mem = s.mem)
        ∧ ∀ x rest, (s.place p).arrivals = x :: rest → ∃ t, exec .hret s = .next t ∧ (t.place p).arrivals = rest ∧ t.mem = s.mem
            ∧ (t.ctx p c).state = .running ∧ (t.ctx p c).pc = x.handler &&& ~~~3 ∧ t.g p c 1 = x.loc ∧ t.g p c 2 = BitVec.ofNat 64 x.len
            ∧ t.g p c 3 = BitVec.ofNat 64 x.sender)
    ∧ (c ≤ 5 → ∀ h, h = (s.g p c a).toNat % 8 → (h = 3 ∨ h = 4) → h ≠ c → (s.g p c b).toNat % 4 = 0 →
        let u := s.arrivalsFirst p
        (u.hasPlace p = true → (u.ctx p h).state = .dormant → ∃ t, exec (.wake d a b) s = .next t ∧ (t.ctx p h).state = .running
            ∧ (t.ctx p h).pc = s.g p c b ∧ t.g p h 1 = BitVec.ofNat 64 c ∧ t.mem = u.mem ∧ ∀ k, t.g p c k = if k = d ∧ d ≠ 0 then 0 else u.g p c k)
        ∧ (u.hasPlace p = false ∨ (u.ctx p h).state ≠ .dormant → exec (.wake d a b) s = .next (u.retireReg p c d 1))
        ∧ ((∀ q, (s.place q).copyQ = []) → u = s))

/-- R76, R92: TRAP and TBR complete and then raise TRAPINSN with the code and BREAK: the record's pc is the next instruction, pc2 the trap. -/
def Claims.SoftwareTraps : Prop :=
  ∀ (s : State) p c code, s.cur.agent = .control p c → c < 5 →
    let t := s.retire p c id
    let pc := (s.ctx p c).pc
    exec (.trap code) s = .next (t.takeTrap p c { t.record p c .trapinsn (BitVec.ofNat 64 code) with pc := pc + 4, pc2 := pc })
    ∧ exec .tbr s = .next (t.takeTrap p c { t.record p c .breakpoint 0 with pc := pc + 4, pc2 := pc })

/-- R83, R87, R89: taking a trap in contexts 0 to 4 with no delivery open: the context stops as TRAPPED at the record's pc with its registers,
the record is delivered, and context 5 starts at TRAPVEC with its former PC, or 0 if it was dormant, in SVEPC; with a delivery open the
record waits its turn, but where both trapped in this cycle that of the lower context comes first, and its record takes the slot. -/
def Claims.TrapTaking : Prop :=
  ∀ (s : State) p c r, c < 5 → (s.place p).halted = false → (s.ctx p c).ending = none →
    let t := s.takeTrap p c r
    let w := s.modCtx p c fun x => { x with state := .trapped, pc := r.pc, wait := none, acq := none, delays := [], sync := [] }
    ((s.plaza p).open_ = none → (s.plaza p).pending = [] → w.slotStalls p (s.plaza p).trapslot = false →
      (∀ i, (s.ctx p 5).wait = some i → blocking i = true) →
      (t.ctx p c).state = .trapped ∧ (t.ctx p c).pc = r.pc ∧ (t.ctx p c).g = (s.ctx p c).g ∧ (t.plaza p).open_ = some r
      ∧ (t.ctx p 5).state = .running ∧ (t.ctx p 5).pc = (s.plaza p).trapvec
      ∧ (t.plaza p).svepc = if (s.ctx p 5).state = .dormant then 0 else (s.ctx p 5).pc)
    ∧ ∀ x, (s.plaza p).open_ = some x →
      (x.cycle ≠ r.cycle → (∀ y ∈ (s.plaza p).pending, y.cycle ≠ r.cycle) →
        (t.ctx p c).state = .trapped ∧ (t.ctx p c).pc = r.pc ∧ (t.plaza p).open_ = some x ∧ (t.plaza p).pending = (s.plaza p).pending ++ [r]
        ∧ t.mem = s.mem ∧ (t.ctx p 5) = (s.ctx p 5))
      ∧ (x.cycle = s.dev.cycle → r.cycle = s.dev.cycle → r.ctx < x.ctx → (s.plaza p).pending = [] →
        (t.ctx p c).state = .trapped ∧ (t.ctx p c).pc = r.pc ∧ (t.plaza p).open_ = some r ∧ (t.plaza p).pending = [x])

/-- R76, R89: SRET of a TRAPPED context whose delivery is open resumes it at the given PC and writes 0; with nothing pending the delivery ends
and context 5 goes on at SVEPC, or is dormant where that is 0; SRET is PRIVILEGED outside context 5. -/
def Claims.TrapReturn : Prop :=
  ∀ (s : State) p c d a b n r, s.cur.agent = .control p c → c ≤ 5 →
    (c ≠ 5 → exec (.sret d a b) s = .next (s.privileged p c))
    ∧ (c = 5 → (s.g p 5 a).toNat % 16 = n → n < 5 → (s.g p 5 b).toNat % 4 = 0 → (s.plaza p).open_ = some r → s.ours p r = true → r.ctx = n →
      (s.ctx p n).state = .trapped → (s.place p).freeze = none → (s.plaza p).pending = [] → (s.plaza p).wakeDue = false →
      ∃ t, exec (.sret d a b) s = .next t ∧ (t.ctx p n).state = .running ∧ (t.ctx p n).pc = s.g p 5 b ∧ (t.ctx p n).g = (s.ctx p n).g
        ∧ (t.plaza p).open_ = none ∧ t.mem = s.mem
        ∧ (∀ k, t.g p 5 k = if k = d ∧ d ≠ 0 then 0 else s.g p 5 k)
        ∧ ((s.plaza p).svepc = 0 → (t.ctx p 5).state = .dormant)
        ∧ ((s.plaza p).svepc ≠ 0 → (t.ctx p 5).state = .running ∧ (t.ctx p 5).pc = (s.plaza p).svepc))

/-- R95: an SRET with bit 3 of g[ra] halts the placement whose delivery is open and writes 0: every context that has not exited ends with the
exit status 0xFFFFFF00 + cause, at its next boundary if its instruction is in progress, a dormant handler staying dormant; blocks not started are
cancelled and running ones SPENT, commands not started are discarded with their tokens FAILED, and its pending records are dropped. -/
def Claims.HaltingReturn : Prop :=
  ∀ (s : State) p d a b n r, s.cur.agent = .control p 5 → (s.g p 5 a).toNat % 16 = 8 + n → n < 5 → (s.g p 5 b).toNat % 4 = 0 →
    (s.plaza p).open_ = some r → s.ours p r = true →
    let u := s.haltPlace p n r
    let v : W32 := BitVec.ofNat 32 (0xFFFFFF00 + r.cause.code)
    exec (.sret d a b) s = .next (((u.closeDelivery p).retireReg p 5 d 0).afterSret p)
    ∧ (u.place p).halted = true ∧ (u.plaza p).pending = (s.plaza p).pending.filter (fun y => !(y.job == r.job && y.index == r.index))
    ∧ ((s.place p).freeze = none → u.mem = s.mem ∧ (u.place p).blocks = (s.place p).blocks.map Block.halt
      ∧ (u.place p).copyQ = (s.place p).copyQ.filter (fun x => x.started) ∧ (u.place p).linkQ = (s.place p).linkQ.filter (fun x => x.started)
      ∧ (∀ x ∈ (s.place p).copyQ ++ (s.place p).linkQ, x.started = false → s.token p x.tok = ⟨.outstanding, x.id⟩ → (u.token p x.tok).st = .failed)
      ∧ ∀ k, k < 5 → let x := s.ctx p k
          (x.exitStatus.isSome = true → u.ctx p k = x)
          ∧ (x.exitStatus = none → x.state = .dormant → (u.ctx p k).state = .dormant ∧ (u.ctx p k).exitStatus = some v)
          ∧ (x.exitStatus = none → x.state ≠ .dormant → s.busy p k = false → (u.ctx p k).state = .ended ∧ (u.ctx p k).exitStatus = some v)
          ∧ (x.exitStatus = none → x.state ≠ .dormant → s.busy p k = true → (u.ctx p k).state = x.state ∧ (u.ctx p k).ending = some v))
    ∧ ∀ b : Block, b.halt.st = (match b.st with
        | .queued => .cancelled
        | .running => .spentRunning
        | .complete => .spentComplete
        | .faulted => .cancelled
        | x => x)

/-- R90: a synchronous fault of context 5 stops its plaza: the record stands at TRAPSLOT + 128, no context of the plaza runs, context 5 and the
delivery are as they were, and every host port is signalled; an ILLEGAL of context 5 is such a fault. -/
def Claims.SupervisorFaults : Prop :=
  ∀ (s : State) p r, let t := s.takeTrap p 5 r
    let va := (s.plaza p).trapslot + 128
    (t.plaza p).stopped = true ∧ (∀ c, t.runs p c = false) ∧ t.ctx p 5 = s.ctx p 5 ∧ (t.plaza p).open_ = (s.plaza p).open_
    ∧ (t.plaza p).pending = (s.plaza p).pending ∧ t.dev.host = ((s.signal 0).dev.host)
    ∧ (∀ tr, (∀ w ∈ s.writes, w.pasid ≠ s.runtime) → canonical va = true → s.translate p s.runtime va = .ok (some tr) s → s.transAbsent tr va = false →
        let key := s.transKey tr va
        key < 2 ^ 45 → key % 128 = 0 → s.pathDown key = false → ∀ i, i < 128 → memByte t.mem (key + i) = r.bytes.getD i 0)
    ∧ (s.cur.agent = .control p 5 → ∀ code, exec (.trap code) s = .next (s.takeTrap p 5 (s.record p 5 .illegal (s.ctx p 5).words)))

/-- R76: CKPT is ILLEGAL without a checkpoint word; else it is a release of g[ra] at K to that word, and the address after it becomes the
restart point. -/
def Claims.Checkpoint : Prop :=
  ∀ (s : State) p c a, s.cur.agent = .control p c → c < 3 →
    ((s.place p).ckptwa = 0 → exec (.ckpt a) s = .next (s.illegal p c))
    ∧ (∀ key, (s.place p).ckptwa ≠ 0 → s.grants p c (s.place p).ckptwa 8 .write key → key < 2 ^ 45 → s.pathDown key = false →
        (s.plaza p).hasUpdate (key / 128) = false → ((tabGet [] s.rrt (s.homeSlice key)).length < rrtSize ∨ (s.rrtOf key).isSome) →
        let v := (s.g p c a).toNat
        exec (.ckpt a) s = .next (((((s.endHold (.ctx p c)).modPlaza p fun q => q.writeThrough key 8 v).writeWord p key 8 v).rrtRecord p key 1).retire p c
          fun x => { x with restart := some (x.pc + 4) }))
    ∧ ∀ key priv t u, (s.place p).ckptwa ≠ 0 → s.checkVa p (s.ctxPasid p c) (s.place p).ckptwa 8 .write = .ok (key, priv) t →
        t.releaseStore (.ctx p c) p 1 key 8 (s.g p c a).toNat = .ok () u →
        exec (.ckpt a) s = .next (u.retire p c fun x => { x with restart := some (x.pc + 4) })

/-- R75, R118: an instruction raises ILLEGAL in a context that may not run it: the avenue and placement instructions outside contexts 0 to 2,
LAUNCH and JWAIT in the handlers, JBAR in these and in context 5, the work instructions in context 5, HRET outside the handlers, TRAP and TBR
in context 5. -/
def Claims.ContextLegality : Prop :=
  ∀ (s : State) p c a b d e t u v w, s.cur.agent = .control p c →
    (c = 3 ∨ c = 4 ∨ c = 5 → ∀ i ∈ [Instr.exit a, .ckpt a, .emit d a b e 0 127, .split d a b e 0 0 127 0, .popp d b, .poppn d b, .bcancel d a,
      .bseq d e, .bwait a], exec i s = .next (s.illegal p c))
    ∧ (c = 5 → ∀ i ∈ [Instr.trap a, .tbr, .xlt d a b, .hinv a, .hinvAll, .shld d a b, .shst d a b, .shset d a b, .shget d a b, .twait a,
      .twaitm a, .ttest d a, .ttestOut d, .ttestFailed d, .tfree a, .tfreem a], exec i s = .next (s.illegal p c))
    ∧ (c = 5 → ∀ i ∈ [Instr.cpy a b d t u v w, .cpyg a b d t u v w, .puth a b d t u v w, .bfset d a t u v w, .cbld d a b t u v w, .mgo t u v w,
      .mnsetLvl d a b, .mnsetBase a b d, .mnsetCtl a b, .rset d a, .rwait d a b, .rmark d a, .mstat d b a], exec i s = .next (s.illegal p c))
    ∧ (c = 3 ∨ c = 4 → exec (.launch d a) s = .next (s.illegal p c) ∧ exec (.jwait d a b) s = .next (s.illegal p c))
    ∧ (c = 3 ∨ c = 4 ∨ c = 5 → exec (.jbar d a) s = .next (s.illegal p c))
    ∧ (c ≠ 3 → c ≠ 4 → exec .hret s = .next (s.illegal p c))

/-- R123, R124, R128-R130: CPY, CPYG and PUTH put a command with their shape and operands in the copy queue; with their token OUTSTANDING or
the queue full they wait; a shape that R130 refuses is ILLEGAL, and one whose ring is not set up or is of another buffer raises RINGSTATE. -/
def Claims.CopyIssue : Prop :=
  ∀ (s : State) p c a b n t u v w, s.cur.agent = .control p c → c < 5 →
    ∀ f ∈ [(Instr.cpy a b n t u v w, majCpy, false), (.cpyg a b n t u v w, majCpyg, false), (.puth a b n t u v w, majPuth, true)],
      ((s.token p t).st ≠ .outstanding → (s.place p).copyQ.length < queueSize → s.shapeOk p f.2.2 (s.shape p n) = true →
        let r := s.ring p (dstOf (s.shape p n)).ring
        let fits : Prop := (dstOf (s.shape p n)).ring = 15 ∨ (r.desc ≠ 0 ∧ ringWb r.desc = decide ((dstOf (s.shape p n)).space = 3))
        (¬fits → exec f.1 s = .next (s.trap p c .ringstate 0))
        ∧ (fits → issuesCmd f.1 s p c false t u v w fun x => x.major = f.2.1 ∧ x.shape = s.shape p n ∧ x.opa = s.g p c a ∧ x.opb = s.g p c b))
      ∧ ((s.token p t).st ≠ .outstanding → (s.place p).copyQ.length < queueSize → s.shapeOk p f.2.2 (s.shape p n) = false →
        exec f.1 s = .next (s.illegal p c))
      ∧ ((s.token p t).st = .outstanding ∨ queueSize ≤ (s.place p).copyQ.length → exec f.1 s = .next (s.block p c f.1))

/-- R288, R289, R304, R306: BFSET and CBLD join the copy queue, LSCHED and LGO the link queue; a BFSET value that R267 refuses, and a form
whose feature is off, are ILLEGAL. -/
def Claims.OtherCommands : Prop :=
  ∀ (s : State) p c a b n h t u v w, s.cur.agent = .control p c → c < 5 → (s.token p t).st ≠ .outstanding →
    ((s.place p).copyQ.length < queueSize →
      (bankFmtOk (s.g p c a).toNat = true → s.fmtOn p ((s.g p c a).toNat % 256) = true →
        issuesCmd (.bfset n a t u v w) s p c false t u v w fun x => x.major = majBfset ∧ x.opa = s.g p c a ∧ x.arg = n)
      ∧ (bankFmtOk (s.g p c a).toNat = false → exec (.bfset n a t u v w) s = .next (s.illegal p c))
      ∧ (s.hasFeature p 1 = true → issuesCmd (.cbld n a h t u v w) s p c false t u v w fun x => x.major = majCbld ∧ x.opa = s.g p c a ∧ x.arg = n + 4 * h)
      ∧ (s.hasFeature p 1 = false → exec (.cbld n a h t u v w) s = .next (s.illegal p c)))
    ∧ ((s.place p).linkQ.length < queueSize → s.hasFeature p 4 = true →
      issuesCmd (.lsched n a b t u v w) s p c true t u v w (fun x => x.major = majLsched ∧ x.opa = s.g p c a ∧ x.opb = s.g p c b ∧ x.arg = n)
      ∧ issuesCmd (.lgo n a t u v w) s p c true t u v w fun x => x.major = majLgo ∧ x.opa = s.g p c a ∧ x.arg = n)
    ∧ (s.hasFeature p 4 = false → exec (.lsched n a b t u v w) s = .next (s.illegal p c) ∧ exec (.lgo n a t u v w) s = .next (s.illegal p c))

/-- R126, R129, R273: the next command of the copy queue starts once its waits are over, or is cancelled for a failed one; the head of the
queue with all its units moved and none of its writes still on its way to another module leaves it, and its token is DONE. -/
def Claims.CopyEvents : Prop :=
  ∀ (s : State) p x rest, (s.place p).copyQ = x :: rest → (∀ y ∈ rest, y.id ≠ x.id) → (∀ y ∈ (s.place p).linkQ, y.id ≠ x.id) →
    s.snapFull p (x :: rest) = false →
    (s.serves p = true → x.started = false → x.ready = true → x.cancelled = false → x.major = majCpy → (dstOf x.shape).ring = 15 →
      ∃ t, exec (.copyStart p) s = .next t ∧ t.mem = s.mem ∧ (t.place p).copyQ =
        x.names.foldl (fun y n => y.readHandle n (s.handle p n)) { x with started := true, stage := none, fail := x.early } :: rest)
    ∧ (s.serves p = true → x.started = false → x.ready = true → x.cancelled = true → exec (.copyStart p) s = .next (s.endCmd p x false))
    ∧ (x.started = true → x.fail = none → x.total ≤ x.next → x.stage = none → x.pinned = [] →
      x.major = majCpy → (∀ r ∈ s.remotes, r.who ≠ .cmd p x.id) → s.token p x.tok = ⟨.outstanding, x.id⟩ →
      ∃ t, exec (.copyComplete p) s = .next t ∧ t.mem = s.mem ∧ (t.place p).copyQ.length = rest.length ∧ t.token p x.tok = ⟨.done, x.id⟩
        ∧ ∀ m, m ≠ x.tok → t.token p m = s.token p m)

/-- R93, R133: the head of the queue that failed ends with its token FAILED, its 128-byte record goes to the next free snapshot entry, and ENGINE
is raised against its context with the failure in its record; a halted placement's trap is dropped. -/
def Claims.CopyFails : Prop :=
  ∀ (s : State) p x rest f i, (s.place p).copyQ = x :: rest → x.fail = some f →
    let q := (s.unpin p x).forgetRemotes (.cmd p x.id)
    ((q.place p).halted = true → exec (.copyFailure p) s = .next (q.endCmd p x false))
    ∧ ((q.place p).halted = false → (q.plaza p).snapFree = some i → x.major = majCpy →
      let at_ : Word := (q.plaza p).trapslot + BitVec.ofNat 64 (256 + 128 * i)
      let u := ((q.endCmd p x false).writeRuntime p at_ (x.record 0)).modPlaza p fun y =>
        { y with snaps := y.snaps ++ [(i, at_)], snapNext := (i + 1) % 16 }
      exec (.copyFailure p) s = .next (u.raiseAsync p x.ctx
        { u.record p x.ctx .engine f.faddr with
          async := true, pc2 := x.pc, token := x.tok, hvalid := f.hvalid, hnum := f.hnum, handle := f.handle, va := f.va, snap := at_
          detail := f.cause.code, engine := 1, paddr := f.paddr }))
    ∧ ∀ (u : State) y, u.token p y.tok = ⟨.outstanding, y.id⟩ →
        (u.endCmd p y false).token p y.tok = ⟨.failed, y.id⟩ ∧ (u.endCmd p y false).mem = u.mem

/-- R288, R289: BFSET at the head of the queue writes its bank-format register and completes; CBLD completes when its 256 shapes are read. -/
def Claims.FormatCommands : Prop :=
  ∀ (s : State) p x rest, (s.place p).copyQ = x :: rest → (s.token p x.tok) = ⟨.outstanding, x.id⟩ →
    (x.major = majBfset → x.ready = true → x.cancelled = false → s.serves p = true → s.snapFull p (x :: rest) = false →
      ∃ t, exec (.bankFormatWrite p) s = .next t ∧ t.mem = s.mem ∧ t.token p x.tok = ⟨.done, x.id⟩
        ∧ ∀ wb k, k < 8 → t.bankReg p wb k = if x.arg % 8 = k ∧ (wb = decide (8 ≤ x.arg)) then x.opa.setWidth 32 else s.bankReg p wb k)
    ∧ (x.major = majCbld → x.started = true → x.fail = none → x.flying = false → x.next = 256 → exec (.codebookWrite p) s = .next ((s.unpin p x).endCmd p x true))
    ∧ (x.major = majCbld → x.started = true → let t := (List.range 256).foldl (fun u i => u.copyUnit p x.id i) s
      ∀ y, (t.place p).cmd x.id = some y → y.fail = none → y.next = 256 → exec (.codebookWrite p) s = .next ((t.unpin p y).endCmd p y true))

/-- R98, R135: an arrival that a PUTH of this module offers starts a dormant handler of its plaza, context 3 before 4, at its address with
its location, length and sender; with both busy it joins the plaza's queue of 16. -/
def Claims.PuthArrives : Prop :=
  ∀ (s : State) p x r y, x.sender / 256 = s.dev.modNum → s.offerer p x = some (r, y) → s.hasJob p x.job = true →
    (s.place p).halted = false → (s.plaza p).wakeAt ≠ s.dev.cycle + 1 →
    (∀ h, (h = 3 ∨ h = 4 ∧ (s.ctx p 3).state ≠ .dormant) → (s.ctx p h).state = .dormant →
      ∃ t, exec (.puthArrival p x) s = .next t ∧ (t.ctx p h).state = .running ∧ (t.ctx p h).pc = x.handler &&& ~~~3 ∧ t.g p h 1 = x.loc
        ∧ t.g p h 2 = BitVec.ofNat 64 x.len ∧ t.g p h 3 = BitVec.ofNat 64 x.sender ∧ t.mem = s.mem)
    ∧ ((s.ctx p 3).state ≠ .dormant → (s.ctx p 4).state ≠ .dormant → (s.place p).arrivals.length < 16 →
      ∃ t, exec (.puthArrival p x) s = .next t ∧ (t.place p).arrivals = (s.place p).arrivals ++ [x] ∧ t.mem = s.mem)

/-- R283: MNSET writes the level, bases or control part of the shadow nest and nothing else of it; reserved bits are ILLEGAL. -/
def Claims.ShadowNest : Prop :=
  ∀ (s : State) p c n a b f r q, s.cur.agent = .control p c → c < 5 → n < (s.place p).shadow.levels.length →
    let x := (s.g p c a).toNat
    let y := (s.g p c b).toNat
    let old := (s.place p).shadow
    let kept (t : State) : Prop := t.mem = s.mem ∧ (t.ctx p c).g = (s.ctx p c).g ∧ (t.ctx p c).insret = (s.ctx p c).insret + 1
    (∃ t, exec (.mnsetLvl n a f) s = .next t ∧ kept t ∧ (t.place p).shadow = { old with levels := listMod old.levels n fun _ =>
        ⟨x % 2 ^ 16, sgn 16 (x / 2 ^ 16), sgn 16 (x / 2 ^ 32), sgn 16 (x / 2 ^ 48), bit f 0, bit f 1, bit f 2, bit f 3⟩ })
    ∧ (bits x 15 14 = 0 ∧ bits x 31 30 = 0 ∧ bits x 63 46 = 0 → ∃ t, exec (.mnsetBase a r q) s = .next t ∧ kept t ∧ (t.place p).shadow =
        { old with abase := bits x 13 0, bbase := bits x 29 16, cbase := bits x 45 32, ringa := r, ringb := q })
    ∧ (bits x 63 5 = 0 ∧ bits x 3 2 ≠ 3 ∧ bits y 63 48 = 0 → ∃ t, exec (.mnsetCtl a b) s = .next t ∧ kept t ∧ (t.place p).shadow =
        { old with mode := x % 4, out := bits x 3 2, add := bit x 4, sa := sgn 16 y, sb := sgn 16 (y / 2 ^ 16), sc := sgn 16 (y / 2 ^ 32) })
    ∧ (bits x 63 46 ≠ 0 → exec (.mnsetBase a r q) s = .next (s.illegal p c))
    ∧ (bits x 3 2 = 3 → exec (.mnsetCtl a b) s = .next (s.illegal p c))

/-- R280, R284: MGO moves the shadow nest, checked, to the pending slot with its token OUTSTANDING; a nest that R277 refuses raises
NESTINVALID, one whose banks conflict BANKCONFLICT; with the slot taken or the token OUTSTANDING it waits. -/
def Claims.NestGo : Prop :=
  ∀ (s : State) p c t u v w, s.cur.agent = .control p c → c < 5 →
    ((s.token p t).st = .outstanding ∨ (s.place p).pendingN.isSome = true → exec (.mgo t u v w) s = .next (s.block p c (.mgo t u v w)))
    ∧ ((s.token p t).st ≠ .outstanding → (s.place p).pendingN = none →
      (s.checkNest p (s.place p).shadow = .invalid → exec (.mgo t u v w) s = .next (s.trap p c .nestinvalid 0))
      ∧ (s.checkNest p (s.place p).shadow = .conflict → exec (.mgo t u v w) s = .next (s.trap p c .bankconflict 0))
      ∧ ∀ ka kb, s.checkNest p (s.place p).shadow = .ok ka kb → ∃ y z, exec (.mgo t u v w) s = .next y
          ∧ (y.place p).pendingN = some ((s.place p).shadow, z) ∧ z.tok = t ∧ z.waits = [s.waitFor p u, s.waitFor p v, s.waitFor p w]
          ∧ y.token p t = ⟨.outstanding, z.id⟩ ∧ y.mem = s.mem ∧ (y.ctx p c).g = (s.ctx p c).g)

/-- R272, R285-R287, R290: RSET gives a ring its descriptor with every stage EMPTY and both cursors 0; RWAIT waits for the stage it names and
returns its cursor, 0 for idle; RMARK sets both cursors and gives each stage k the state coded by bits [2k+1:2k]; a ring not set up, one in use
at RSET and a stage in use at RMARK raise RINGSTATE. -/
def Claims.RingInstructions : Prop :=
  ∀ (s : State) p c n a d, s.cur.agent = .control p c → c < 5 →
    let x := s.ring p n
    let v := (s.g p c a).toNat
    let kept (t : State) : Prop := t.mem = s.mem ∧ (t.ctx p c).g = (s.ctx p c).g ∧ (t.ctx p c).insret = (s.ctx p c).insret + 1
      ∧ ∀ m, m ≠ n → t.ring p m = s.ring p m
    let used : Prop := (∃ st ∈ x.stages, st = .filling ∨ st = .draining) ∨ (s.place p).ringBusy n = true
    (ringDescOk (s.g p c a) = true → ¬used → ∃ t, exec (.rset n a) s = .next t ∧ kept t
        ∧ t.ring p n = ⟨s.g p c a, 0, 0, List.replicate (ringStages (s.g p c a)) .empty⟩)
    ∧ (ringDescOk (s.g p c a) = true → used → exec (.rset n a) s = .next (s.trap p c .ringstate 0))
    ∧ (ringDescOk (s.g p c a) = false → exec (.rset n a) s = .next (s.illegal p c))
    ∧ (x.desc = 0 → (∀ k, exec (.rwait d n k) s = .next (s.trap p c .ringstate 0)) ∧ exec (.rmark n a) s = .next (s.trap p c .ringstate 0))
    ∧ (x.desc ≠ 0 →
      (x.stage x.pc = .empty → exec (.rwait d n 0) s = .next (s.retireReg p c d (BitVec.ofNat 64 x.pc)))
      ∧ (x.stage x.pc ≠ .empty → exec (.rwait d n 0) s = .next (s.block p c (.rwait d n 0)))
      ∧ (x.stage x.cc = .full → exec (.rwait d n 1) s = .next (s.retireReg p c d (BitVec.ofNat 64 x.cc)))
      ∧ (x.stage x.cc ≠ .full → exec (.rwait d n 1) s = .next (s.block p c (.rwait d n 1)))
      ∧ ((∀ st ∈ x.stages, st = .empty) → exec (.rwait d n 2) s = .next (s.retireReg p c d 0))
      ∧ ((∃ st ∈ x.stages, st ≠ .empty) → exec (.rwait d n 2) s = .next (s.block p c (.rwait d n 2)))
      ∧ (imageOk (ringStages x.desc) v = false → exec (.rmark n a) s = .next (s.illegal p c))
      ∧ (imageOk (ringStages x.desc) v = true → (∃ st, st < ringStages x.desc ∧ (s.place p).stageUsed n st = true) →
        exec (.rmark n a) s = .next (s.trap p c .ringstate 0))
      ∧ (imageOk (ringStages x.desc) v = true → (∀ st, st < ringStages x.desc → (s.place p).stageUsed n st = false) →
        ∃ t, exec (.rmark n a) s = .next t ∧ kept t ∧ (t.ring p n).desc = x.desc ∧ (t.ring p n).cc = bits v 22 20
          ∧ (t.ring p n).pc = bits v 18 16 ∧ (t.ring p n).stages.length = ringStages x.desc
          ∧ ∀ k, k < ringStages x.desc → (t.ring p n).stage k =
              if bits v (2 * k + 1) (2 * k) = 0 then .empty else if bits v (2 * k + 1) (2 * k) = 1 then .filling
              else if bits v (2 * k + 1) (2 * k) = 2 then .full else .draining))
    ∧ ∀ e : Word, ringDescOk e = true ↔ e = 0 ∨ (bits e.toNat 63 32 = 0 ∧ bit e.toNat 15 = false ∧ 2 ≤ bits e.toNat 31 28 ∧ bits e.toNat 31 28 ≤ 8
        ∧ 1 ≤ bits e.toNat 27 16 ∧ bits e.toNat 27 16 ≤ 2048 ∧ bits e.toNat 13 0 + bits e.toNat 31 28 * bits e.toNat 27 16 ≤ 16384)

/-- R290: MSTAT reads the engine's state, the active nest's indices, a ring or a bank-format register, and is ILLEGAL for a ring or bank
number out of range. -/
def Claims.MatrixStatus : Prop :=
  ∀ (s : State) p c d a, s.cur.agent = .control p c → c < 5 → s.noWake p c →
    let v := (s.g p c a).toNat
    (∀ x, (s.place p).active = some x → writesG (.mstat d 0 a) s p c d (BitVec.ofNat 64 (x.drains % 2 ^ 32 * 2 ^ 32
        + (if (s.place p).shadow.levels.any fun l => l.present then 8 else 0) + (if x.drain.isSome then 4 else 0)
        + (if (s.place p).pendingN.isSome then 2 else 0) + 1))
      ∧ writesG (.mstat d 1 a) s p c d (BitVec.ofNat 64 (x.idx.getD 0 0 + x.idx.getD 1 0 * 2 ^ 16 + x.idx.getD 2 0 * 2 ^ 32 + x.idx.getD 3 0 * 2 ^ 48))
      ∧ writesG (.mstat d 2 a) s p c d (BitVec.ofNat 64 (x.idx.getD 4 0 + x.idx.getD 5 0 * 2 ^ 16)))
    ∧ ((s.place p).active = none →
      writesG (.mstat d 0 a) s p c d (BitVec.ofNat 64 ((if (s.place p).pendingN.isSome then 2 else 0)
        + if (s.place p).shadow.levels.any fun l => l.present then 8 else 0))
      ∧ writesG (.mstat d 1 a) s p c d 0 ∧ writesG (.mstat d 2 a) s p c d 0)
    ∧ (v < 8 → writesG (.mstat d 4 a) s p c d (s.ring p v).desc
      ∧ writesG (.mstat d 3 a) s p c d (BitVec.ofNat 64 (s.ring p v).image)
      ∧ ((s.ring p v).stages.length ≤ 8 → (s.ring p v).pc < 8 → bits (s.ring p v).image 22 20 = (s.ring p v).cc % 8 ∧ bits (s.ring p v).image 18 16 = (s.ring p v).pc
        ∧ ∀ k, k < (s.ring p v).stages.length → bits (s.ring p v).image (2 * k + 1) (2 * k) = match (s.ring p v).stage k with
            | .empty => 0
            | .filling => 1
            | .full => 2
            | .draining => 3))
    ∧ (8 ≤ v → exec (.mstat d 3 a) s = .next (s.illegal p c) ∧ exec (.mstat d 4 a) s = .next (s.illegal p c))
    ∧ (v < 16 → writesG (.mstat d 5 a) s p c d ((s.bankReg p (decide (8 ≤ v)) (v % 8)).setWidth 64))
    ∧ (16 ≤ v → exec (.mstat d 5 a) s = .next (s.illegal p c))

/-- R143, R235: a LAUNCH that its checks refuse writes minus its status and completes; one that passes becomes a request and waits;
LAUNCH_ACCEPT gives the first request a job id, which its LAUNCH writes, and the job is QUEUED. -/
def Claims.LaunchInstruction : Prop :=
  (∀ (s : State) p c d a, s.cur.agent = .control p c → (c < 3 ∨ c = 5) → s.launchAt p c = none →
    let t := s.dropRequest p c
    (∀ n u, t.readLaunch p c (s.g p c a) = .ok (.status n) u → exec (.launch d a) s = .next (u.retireReg p c d (-(BitVec.ofNat 64 n))))
    ∧ ∀ l k u, t.readLaunch p c (s.g p c a) = .ok (.launch l k) u → ∃ y, exec (.launch d a) s = .next y
        ∧ y.placer.requests = u.placer.requests ++ [⟨p, c, s.dev.cycle, l, k⟩] ∧ (y.ctx p c).wait = some (.launch d a) ∧ (y.ctx p c).state = .waiting
        ∧ y.mem = u.mem)
  ∧ ∀ (s : State) r d, s.placer.requests = [r] → r.at_ < s.dev.cycle → s.awaits r = some d → s.placer.room r.launch.prio = true →
      r.launch.features = BitVec.ofNat 32 (s.enabledFeatures r.launch.pasid) → r.launch.code = none → 0 < r.total →
      (∀ j ∈ s.placer.jobs, j.id ≠ s.placer.nextId) → (∀ k ∈ s.placer.completed, k.job ≠ s.placer.nextId) →
      s.placer.nextId < 0x7FFFFFFF →
      ∃ t j, exec .launchAccept s = .next t ∧ t.placer.jobs = s.placer.jobs ++ [j] ∧ t.placer.requests = [] ∧ t.mem = s.mem
        ∧ t.placer.nextId = s.placer.nextId + 1
        ∧ j.id = s.placer.nextId ∧ j.launch = r.launch ∧ j.st = .queued ∧ j.total = r.total
        ∧ ∀ n, t.g r.plaza r.ctx n = if n = d ∧ d ≠ 0 then BitVec.ofNat 64 s.placer.nextId else s.g r.plaza r.ctx n

/-- R145: JWAIT waits while its job runs, returns all ones for an id neither running nor kept, and the completion value of a job that ended on
its own plaza; that of one whose placements ended elsewhere it acquires at K first; its timeout writes 0. -/
def Claims.JwaitInstruction : Prop :=
  ∀ (s : State) p c d a i, (c < 3 ∨ c = 5) → (s.ctx p c).acq = none →
    let id := (s.g p c a).toNat % 2 ^ 32
    (s.cur.agent = .control p c →
      ((∃ j ∈ s.placer.jobs, j.id = id) → exec (.jwait d a i) s = .next (s.block p c (.jwait d a i)))
      ∧ ((∀ j ∈ s.placer.jobs, j.id ≠ id) →
        ((∀ k ∈ s.placer.completed, k.job ≠ id) → exec (.jwait d a i) s = .next (s.retireReg p c d (BitVec.allOnes 64)))
        ∧ (∀ x, s.placer.completed.find? (fun k => k.job == id) = some x → (∀ e ∈ x.ends, e = p) →
            exec (.jwait d a i) s = .next (s.retireReg p c d x.value))
        ∧ ∀ x, s.placer.completed.find? (fun k => k.job == id) = some x → (∃ e ∈ x.ends, e ≠ p) →
            (x.plaza = p → exec (.jwait d a i) s = .next ((s.selfInvalidate p).retireReg p c d x.value))
            ∧ (x.plaza ≠ p → s.plazaId x.plaza ≠ s.plazaId p → s.plazaId x.plaza / 256 = s.dev.modNum → exec (.jwait d a i) s = .next
              (((s.modCtx p c fun y => { y with acq := some ⟨x.value, s.plazaId x.plaza, x.seq, false, false, false⟩ }).sendPublish
                (s.plazaId x.plaza) x.seq (.ctx p c)).block p c (.jwait d a i)))))
    ∧ ((s.ctx p c).wait = some (.jwait d a i) → s.runs p c = true → (s.ctx p c).state = .waiting → i ≠ 0 → s.busy p c = false →
        (s.ctx p c).since + i * 1024 ≤ s.dev.cycle → (∃ j ∈ s.placer.jobs, j.id = id) →
        exec (.jwaitTimeout p c) s = .next (s.retireReg p c d 0))

/-- R302, R303: a JBAR is ILLEGAL outside a GANG job and in a context its mask does not name; where every arrival of its episode was made on its
own plaza it completes at once with the number of the episode; while a context of the mask has not arrived, or a placement of the job is saved,
it waits. -/
def Claims.JobBarrier : Prop :=
  ∀ (s : State) p c d m, s.cur.agent = .control p c → c < 3 → (s.ctx p c).acq = none → (s.ctx p c).arrived = false →
    ((s.place p).gang = false ∨ bit m c = false → exec (.jbar d m) s = .next (s.illegal p c))
    ∧ ((s.place p).gang = true → bit m c = true →
      let n := (s.ctx p c).arrivals
      let t := s.modCtx p c fun x => { x with arrivals := x.arrivals + 1, arrived := true, arrLog := x.arrLog ++ [⟨s.plazaId p, (s.plaza p).pubBegun, m⟩] }
      let all := t.barrier (s.place p).job m
      let done := t.retire p c fun x => { x.setReg d (BitVec.ofNat 64 (n % 2 ^ 32)) with arrived := false }
      (t.unstarted (s.place p).job = false → t.away (s.place p).job = false →
        (∀ x ∈ all, x.2.2.state = .ended ∨ n < x.2.2.arrivals) → (∀ x ∈ all, ∀ e, x.2.2.arrLog[n]? = some e → e.plaza = s.plazaId p) →
        (∀ x ∈ t.barrier (s.place p).job 7, ∀ e, x.2.2.arrLog[n]? = some e → e.mask = m) → exec (.jbar d m) s = .next done)
      ∧ ((s.plaza p).res = .resident → (∀ x ∈ s.plazas, x.2.place.job = (s.place p).job → x.1 = p) →
        (∀ j ∈ s.placer.jobs, j.id = (s.place p).job → j.total = 1 ∧ j.first = 1 ∧ j.saves = []) → (s.place p).index = 0 →
        (∀ k, k < 3 → k ≠ c → bit m k = false ∧ (s.ctx p k).arrLog = []) → (s.ctx p c).arrLog.length = n → exec (.jbar d m) s = .next done)
      ∧ ((t.unstarted (s.place p).job = true ∨ t.away (s.place p).job = true ∨ ∃ x ∈ all, x.2.2.state ≠ .ended ∧ x.2.2.arrivals ≤ n) →
        exec (.jbar d m) s = .next (t.block p c (.jbar d m))))

/-- R302, R303, R307, R328: a JBAR whose episode n every context of its mask has reached asks the plaza of an arrival that was made elsewhere to
publish above it, and completes, after its plaza's self-invalidation, once every such arrival is published; a publish that fails raises LINKDOWN. -/
def Claims.BarrierPublishes : Prop :=
  ∀ (s : State) p c d m, s.cur.agent = .control p c → c < 3 → (s.place p).gang = true → bit m c = true → (s.ctx p c).arrived = true →
    let i : Instr := .jbar d m
    let n := (s.ctx p c).arrivals - 1
    let t := if (s.ctx p c).acq.isSome then s.modCtx p c fun x => { x with acq := none } else s
    let all := t.barrier (s.place p).job m
    let away (e : Arrived) : Prop := e.plaza ≠ s.plazaId p ∧ ∃ x ∈ all, x.2.2.arrLog[n]? = some e
    (∀ v pl sq f dn, (s.ctx p c).acq = some ⟨v, pl, sq, f, dn, true⟩ → exec i s = .next (t.trapAccess p c .linkdown 0 0))
    ∧ (∀ v pl sq f, (s.ctx p c).acq = some ⟨v, pl, sq, f, false, false⟩ → exec i s = .next (s.block p c i))
    ∧ ((s.ctx p c).acq = none ∨ (∃ v pl sq f, (s.ctx p c).acq = some ⟨v, pl, sq, f, true, false⟩) →
      t.unstarted (s.place p).job = false → t.away (s.place p).job = false → (∀ x ∈ all, x.2.2.state = .ended ∨ n < x.2.2.arrivals) →
      (∀ e, away e → (∀ f, away f → f = e) → t.published e.plaza e.seq = false → exec i s = .next
          (((t.block p c i).modCtx p c fun y => { y with acq := some ⟨0, e.plaza, e.seq, false, false, false⟩ }).sendPublish e.plaza e.seq (.ctx p c)))
      ∧ ((∃ e, away e) → (∀ e, away e → t.published e.plaza e.seq = true) →
        (∀ x ∈ t.barrier (s.place p).job 7, ∀ e, x.2.2.arrLog[n]? = some e → e.mask = m) →
        exec i s = .next ((t.selfInvalidate p).retire p c fun x => { x.setReg d (BitVec.ofNat 64 (n % 2 ^ 32)) with arrived := false })))

/-- R297-R300: VIEWREG returns the id of the view it registers, or minus the status of the first check that fails; VIEWDROP, VIEWPOL and
VIEWTAG answer 1 or all ones for a view or block that is not there; VIEWDROP of a view that is not being derived drops it, VIEWPOL sets its
policy and returns the old one, VIEWTAG reads a block's generation. -/
def Claims.ViewInstructions : Prop :=
  ∀ (s : State) p c d a n, s.cur.agent = .control p c → c < 5 → s.hasFeature p 2 = true →
    let id := (s.g p c a).toNat
    (∀ v m t u, s.readData p c (s.g p c a) 64 = .ok v t → bits (dword v 3) 29 24 = 0 → t.readData p c (BitVec.ofNat 64 (dword v 0)) 32 = .ok m u →
      u.walked (u.ctxPasid p c) (u.regRanges (u.ctxPasid p c) id v m [dword v 1]) = u →
      (bits (dword v 3) 7 0 = 0x13 → u.hasFeature p 1 = true) → (0x10 ≤ bits (dword v 3) 7 0 → bits (dword v 3) 7 0 ≤ 0x12 → u.hasFeature p 3 = true) →
      (u.viewChecks (u.jobOn p) (u.ctxPasid p c) id v m [dword v 1] = none → exec (.viewreg d a) s = .next (u.block p c (.viewreg d a)))
      ∧ (∀ st, u.viewChecks (u.jobOn p) (u.ctxPasid p c) id v m [dword v 1] = some (.inl st) → exec (.viewreg d a) s = .next (u.retireReg p c d (0 - BitVec.ofNat 64 st)))
      ∧ ∀ x y, u.viewChecks (u.jobOn p) (u.ctxPasid p c) id v m [dword v 1] = some (.inr (x, y)) → u.regRemote p (u.ctxPasid p c) x y = false →
          exec (.viewreg d a) s = .next ((u.addView p x y).2.retireReg p c d (BitVec.ofNat 64 (u.addView p x y).1)))
    ∧ (4096 ≤ id → exec (.viewdrop d a) s = .next (s.freeDouble.2.retireReg p c d s.freeDouble.1))
    ∧ (id < 4096 → s.findView p c id = none →
        exec (.viewdrop d a) s = .next (s.retireReg p c d 1) ∧ exec (.viewpol d a n) s = .next (s.retireReg p c d (BitVec.allOnes 64)))
    ∧ (∀ v, id < 4096 → s.findView p c id = some v →
        (s.deriving_ v = false → exec (.viewdrop d a) s = .next (((s.dropView v).putStatus p v.pasid v.status v.id).retireReg p c d 0))
        ∧ (s.deriving_ v = true → exec (.viewdrop d a) s = .next (s.block p c (.viewdrop d a)))
        ∧ ∃ t, exec (.viewpol d a n) s = .next t ∧ t.mem = s.mem
          ∧ (∀ x, x ∈ t.views ↔ ∃ y ∈ s.views, x = if y.id = id then { y with policy := n } else y)
          ∧ ∀ k, t.g p c k = if k = d ∧ d ≠ 0 then BitVec.ofNat 64 v.policy else s.g p c k)
    ∧ ∀ key priv t, s.checkVa p (s.ctxPasid p c) (s.g p c a) 0 .read = .ok (key, priv) t →
        (∀ m b, t.masterAt (t.ctxPasid p c) id = some (m, b) → exec (.viewtag d a 0) s = .next (t.retireReg p c d (BitVec.ofNat 64 (tabGet 0 m.gens b))))
        ∧ (t.masterAt (t.ctxPasid p c) id = none → exec (.viewtag d a 0) s = .next (t.retireReg p c d (BitVec.allOnes 64)))
        ∧ (t.viewBlocks key 1 = [] → exec (.viewtag d a 1) s = .next (t.retireReg p c d (BitVec.allOnes 64))
          ∧ exec (.viewtag d a 2) s = .next (t.retireReg p c d (BitVec.allOnes 64)))
        ∧ ∀ v m b rest, t.viewBlocks key 1 = (v, m, b) :: rest → let x := tabGet ViewBlock.off v.blocks b
          exec (.viewtag d a 1) s = .next (t.retireReg p c d (BitVec.ofNat 64 x.kg))
          ∧ (x.never = false ∨ x.poison = true → exec (.viewtag d a 2) s = .next (t.retireReg p c d
              (BitVec.ofNat 64 (x.tag % 2 ^ 32 + (if x.never then 2 ^ 62 else 0) + if x.poison then 2 ^ 63 else 0))))
          ∧ (x.never = true → x.poison = false → ∃ g : W32, exec (.viewtag d a 2) s = .next (t.freeWord.2.retireReg p c d
              (BitVec.ofNat 64 (g.toNat + 2 ^ 62))))

/-- R301: VIEWSYNC asks its plaza to publish, then waits until every block of every live view of the master has caught up with the
generations it recorded, acquires, and returns how many blocks are poisoned: 0 where the last view has been dropped meanwhile; all ones where no master with live views
holds the address from the start. -/
def Claims.ViewSyncInstruction : Prop :=
  ∀ (s : State) p c d a, s.cur.agent = .control p c → c < 5 → s.hasFeature p 2 = true →
    let i : Instr := .viewsync d a
    (s.masterAt (s.ctxPasid p c) (s.g p c a).toNat = none →
      ((s.ctx p c).acq = none → (s.ctx p c).sync = [] → exec i s = .next (s.retireReg p c d (BitVec.allOnes 64)))
      ∧ ((s.ctx p c).acq = none → (s.ctx p c).sync ≠ [] → exec i s = .next ((s.selfInvalidate p).retireReg p c d 0)))
    ∧ ∀ m b, s.masterAt (s.ctxPasid p c) (s.g p c a).toNat = some (m, b) →
      let seq := (s.plaza p).pubBegun
      ((s.ctx p c).acq = none → (s.ctx p c).sync = [] → exec i s = .next
        (((s.block p c i).modCtx p c fun x => { x with acq := some ⟨0, s.plazaId p, seq, true, false, false⟩ }).sendPublish (s.plazaId p) seq (.ctx p c)))
      ∧ ((s.ctx p c).acq = none → (s.ctx p c).sync ≠ [] → s.synced m (s.ctx p c).sync = true →
        exec i s = .next ((s.selfInvalidate p).retireReg p c d (BitVec.ofNat 64 (s.poisoned m))))

/-- R146-R149: the elementwise lane instructions of two operands, each with its bound: FP32 arithmetic rounded once, integer arithmetic modulo
2^32, minima and maxima in their type's order, bitwise operations and shifts by y[4:0]. -/
def Claims.LaneElementwise : Prop :=
  lanes2 .vfadd 4 (fun x y => toF32 ((f32 x).add (f32 y))) ∧ lanes2 .vfsub 4 (fun x y => toF32 ((f32 x).sub (f32 y)))
  ∧ lanes2 .vfmul 5 (fun x y => toF32 ((f32 x).mul (f32 y))) ∧ lanes2 .vfmin 4 (fpick32 false) ∧ lanes2 .vfmax 4 (fpick32 true)
  ∧ lanes2 .viadd 2 (fun x y => x + y) ∧ lanes2 .visub 2 (fun x y => x - y) ∧ lanes2 .vimul 5 (fun x y => x * y)
  ∧ lanes2 .vimin 2 (fun x y => if x.toInt < y.toInt then x else y) ∧ lanes2 .vimax 2 (fun x y => if x.toInt < y.toInt then y else x)
  ∧ lanes2 .vnmin 2 (fun x y => if x.toNat < y.toNat then x else y) ∧ lanes2 .vnmax 2 (fun x y => if x.toNat < y.toNat then y else x)
  ∧ lanes2 .vand 2 (fun x y => x &&& y) ∧ lanes2 .vor 2 (fun x y => x ||| y) ∧ lanes2 .vxor 2 (fun x y => x ^^^ y)
  ∧ lanes2 .vshl 2 (fun x y => x <<< (y.toNat % 32)) ∧ lanes2 .vshr 2 (fun x y => x >>> (y.toNat % 32))
  ∧ lanes2 .vsra 2 (fun x y => x.sshiftRight (y.toNat % 32))

/-- R149: the FP32 minimum and maximum: of two numbers the one in order, -0 below +0; a number where the other is a NaN; of two NaNs the
canonical NaN. -/
def Claims.FloatPick : Prop :=
  (∀ x y : W32, let nan (z : W32) : Bool := (f32 z).isNan
    (nan x = true → nan y = true → fpick32 false x y = 0x7FC00000 ∧ fpick32 true x y = 0x7FC00000)
    ∧ (nan x = true → nan y = false → fpick32 false x y = y ∧ fpick32 true x y = y)
    ∧ (nan x = false → nan y = true → fpick32 false x y = x ∧ fpick32 true x y = x)
    ∧ (nan x = false → nan y = false → (f32 x).lt (f32 y) = true → fpick32 false x y = x ∧ fpick32 true x y = y)
    ∧ (nan x = false → nan y = false → (f32 x).lt (f32 y) = false → (f32 x).isZero = false → fpick32 false x y = y ∧ fpick32 true x y = x))
  ∧ fpick32 false 0x80000000 0 = 0x80000000 ∧ fpick32 false 0 0x80000000 = 0x80000000
  ∧ fpick32 true 0x80000000 0 = 0 ∧ fpick32 true 0 0x80000000 = 0

/-- R150, R151, R159, R220, R221: the moves: VMOV of an operand and of a scalar, VLID, VBCAST, VSEL, and VGETL, which writes nothing under an
empty mask. -/
def Claims.LaneMoves : Prop :=
  ∀ (s : State) p l d a b g i t q v w k em, s.cur.agent = .lane p l → s.laneMaskIs p l q v em →
    let sh := s.shift p l
    let wd := typeWidth t
    let per := 32 / wd
    (∀ x, v = 0 → s.laneOperand p l 32 a = some x → issuesV (.vmov d a q w k) s p l 2 d (rowOf fun j => rowWord x j) em 4 w k)
    ∧ (v = 0 → s.scalarReady p l a → issuesV (.vmovScalar d a q w k) s p l 2 d (broadcast ((s.lane p l).scalar a)) em 4 w k)
    ∧ (v = 0 → s.scalarReady p l (128 + a) → issuesV (.vmovScalarHigh d a q w k) s p l 2 d (broadcast ((s.lane p l).scalar (128 + a))) em 4 w k)
    ∧ (∀ y, v = 0 → s.laneOperand p l 32 b = some y →
        issuesV (.vlid d b q w k) s p l 2 d (rowOf fun j => BitVec.ofNat 32 (j - sh) + rowWord y j) em 4 w k)
    ∧ (∀ x y, s.laneOperand p l 32 a = some x → s.laneOperand p l 32 b = some y → s.predReady p l g →
        let m := (s.lane p l).pred g
        issuesV (.vsel d a b g i q v w k) s p l 2 d (rowMix (if i = 1 then ~~~m else m) x y) em 8 w k)
    ∧ (∀ x, s.laneOperand p l wd a = some x →
        issuesV (.vbcast d a b 0 i t q v w k) s p l 2 d
          (rowOf fun _ => packElems wd fun _ => rowElem wd x (sh * per + (BitVec.ofNat 32 i).toNat % (s.width p * per))) em 8 w k
        ∧ (s.scalarReady p l (b - 72) → issuesV (.vbcast d a b 1 i t q v w k) s p l 2 d
          (rowOf fun _ => packElems wd fun _ => rowElem wd x (sh * per + ((s.lane p l).scalar (b - 72)).toNat % (s.width p * per))) em 8 w k))
    ∧ ∀ x, s.laneOperand p l 32 a = some x →
        (em = 0 → exec (.vgetl d a 0 i q v w k) s = .next (s.laneRetire p l 8 w k))
        ∧ (em ≠ 0 → exec (.vgetl d a 0 i q v w k) s =
            .next ((s.issueScalar p l 2 d (rowWord x (sh + (BitVec.ofNat 32 i).toNat % s.width p))).laneRetire p l 8 w k))
        ∧ (em ≠ 0 → b ≠ 0 → s.scalarReady p l (b - 72) → exec (.vgetl d a b i q v w k) s =
            .next ((s.issueScalar p l 2 d (rowWord x (sh + ((s.lane p l).scalar (b - 72)).toNat % s.width p))).laneRetire p l 8 w k))

/-- R157, R158, R162: the predicate operations with bound 1; PBAL, PPOPC and PFIRST of pA AND pB AND p0; PSET; PUSHP, whose ninth push is a
lane fault; VCMP writes 0 outside its mask. -/
def Claims.LanePredicates : Prop :=
  ∀ (s : State) p l d a b n w k, s.cur.agent = .lane p l → s.predReady p l a → s.predReady p l b →
    let x := (s.lane p l).pred a
    let y := (s.lane p l).pred b
    let m := (x &&& y &&& (s.lane p l).pred 0) >>> s.shift p l
    issuesP (.pand d a b w k) s p l 1 d (x &&& y) 4 w k ∧ issuesP (.por d a b w k) s p l 1 d (x ||| y) 4 w k
    ∧ issuesP (.pxor d a b w k) s p l 1 d (x ^^^ y) 4 w k ∧ issuesP (.pandn d a b w k) s p l 1 d (x &&& ~~~y) 4 w k
    ∧ exec (.pbal d a b w k) s = .next ((s.issueScalar p l 1 d m).laneRetire p l 4 w k)
    ∧ exec (.ppopc d a b w k) s = .next ((s.issueScalar p l 1 d (BitVec.ofNat 32 (popCount m.toNat 32))).laneRetire p l 4 w k)
    ∧ (∃ i : Nat, exec (.pfirst d a b w k) s = .next ((s.issueScalar p l 1 d (BitVec.ofNat 32 i)).laneRetire p l 4 w k)
        ∧ (∀ j, j < i → m.getLsbD j = false) ∧ (i < s.width p ∧ m.getLsbD i = true ∨ i = s.width p))
    ∧ (s.scalarReady p l n →
        issuesP (.pset d b n w k) s p l 1 d (((s.lane p l).scalar n <<< s.shift p l) &&& y) 4 w k
        ∧ ((s.lane p l).pushes.length < 8 → exec (.pushp a b n w k) s = .next
            ((s.modLane p l fun z => { z with pushes := z.pushes ++ [⟨m, (s.lane p l).scalar n⟩] }).laneRetire p l 4 w k))
        ∧ (8 ≤ (s.lane p l).pushes.length → exec (.pushp a b n w k) s = .next (s.laneIllegalHere p l)))
    ∧ ∀ c t q v u r em, s.laneOperand p l 32 a = some u → s.laneOperand p l 32 b = some r → s.laneMaskIs p l q v em →
        ∃ e : W32, issuesP (.vcmp d a b c t q v w k) s p l 3 d e 8 w k
          ∧ ∀ i, i < 32 → e.getLsbD i = (em.getLsbD i && compareCond c (typedCmp t (rowWord u i) (rowWord r i)))

/-- R203-R206, R212-R215, R222, R223: the typed lane instructions compute each element of a lane word from the same elements of their operands,
with their bounds. -/
def Claims.LaneTyped : Prop :=
  ∀ (s : State) p l d a b c t q v w k em x y z, s.cur.agent = .lane p l → s.laneMaskIs p l q v em →
    let wd := typeWidth t
    s.laneOperand p l wd a = some x → s.laneOperand p l wd b = some y → s.laneOperand p l wd c = some z →
    (∀ o, issuesV (.valu d a b o t q v w k) s p l 5 d
        (rowOf fun i => packElems wd fun j => valuElem t o (elemOf wd (rowWord x i) j) (elemOf wd (rowWord y i) j)) em 8 w k)
    ∧ (∀ n f, typeFmt t = some f → issuesV (.vfma d a b c n t q v w k) s p l 5 d
        (rowOf fun i => packElems wd fun j => fmaElem f n (elemOf wd (rowWord x i) j) (elemOf wd (rowWord y i) j) (elemOf wd (rowWord z i) j)) em 8 w k)
    ∧ (∀ g r st f, wd ≤ typeWidth g → issuesV (.vcvt d a c t g r st f q v w k) s p l 5 d
        (rowOf fun i => vcvtWord t g r st f (rowWord x i) (rowWord (0 : Row) i)) em 8 w k)
    ∧ (∀ g r st f u, typeWidth g < wd → s.laneOperand p l (typeWidth g) c = some u → issuesV (.vcvt d a c t g r st f q v w k) s p l 5 d
        (rowOf fun i => vcvtWord t g r st f (rowWord x i) (rowWord u i)) em 8 w k)
    ∧ (t = 0 → ∀ f, issuesV (.vsfn d a f q v w k) s p l 12 d (rowOf fun i => sfn f (rowWord x i)) em 8 w k)
    ∧ (∀ g u, s.laneOperand p l 32 c = some u → issuesV (.vdot d a b c t g q v w k) s p l 5 d
        (rowOf fun i => dotWord t g (rowWord x i) (rowWord y i) (rowWord u i)) em 8 w k)
    ∧ (t = 0 → ∀ o, 5 ≤ o → issuesV (.vbit d a b c o q v w k) s p l 3 d
        (rowOf fun i => bitWord o (rowWord x i) (rowWord y i) (rowWord z i)) em 8 w k)
    ∧ (t = 0 → ∀ o, o = 3 ∨ o = 4 → issuesV (.vbit d a b c o q v w k) s p l 3 d
        (rowOf fun i => bitWord o (rowWord x i) (rowWord y i) (rowWord (0 : Row) i)) em 8 w k)
    ∧ (t = 0 → ∀ o, o < 3 → issuesV (.vbit d a b c o q v w k) s p l 3 d
        (rowOf fun i => bitWord o (rowWord x i) (rowWord (0 : Row) i) (rowWord (0 : Row) i)) em 8 w k)

/-- R160, R204, R216-R219, R224: the cross-lane instructions: VRED and VSCAN over segments, VSHFL from lane to lane, VPERM from tables of one
or two rows, VROTM a span of two rows; VMXQ is a lane fault where MX is off, else quantises the enabled lanes into element f of their words and
the scale, 0 where no lane is enabled. -/
def Claims.LaneCross : Prop :=
  ∀ (s : State) p l d a b c t g q v w k em x y, s.cur.agent = .lane p l → s.laneMaskIs p l q v em →
    let wd := typeWidth t
    let n := segWidth g (s.width p)
    s.laneOperand p l wd a = some x →
    (∀ o, issuesV (.vred d a o g t q v w k) s p l 8 d
      (rowOf fun i => ((List.range (32 / n)).map fun j => (treeReduce t o 7 (segElems t (j * n) n em x)).getD 0).getD (i / n) 0) em 8 w k)
    ∧ (∀ o e, issuesV (.vscan d a o e g t q v w k) s p l 8 d
      (rowOf fun i => packElems wd fun j => narrow t
        (((List.range (32 / n)).flatMap fun m => scanList t o e none (segElems t (m * n) n em x)).getD (i * (32 / wd) + j) 0)) em 8 w k)
    ∧ (s.laneOperand p l wd b = some y → ∀ u, s.laneOperand p l wd c = some u →
        let e := s.width p * (32 / wd)
        issuesV (.vperm d a b c 1 t q v w k) s p l 4 d (rowOf fun i => packElems wd fun j =>
            permElem wd e (s.shift p l * (32 / wd)) 1 (elemOf wd (rowWord y i) j) (s.place p).w16 x u) em 8 w k
        ∧ issuesV (.vperm d a b c 0 t q v w k) s p l 4 d (rowOf fun i => packElems wd fun j =>
            permElem wd e (s.shift p l * (32 / wd)) 0 (elemOf wd (rowWord y i) j) (s.place p).w16 x 0) em 8 w k)
    ∧ (t = 0 → s.laneOperand p l 32 b = some y →
        (∀ m o, issuesV (.vshfl d a b m g o q v w k) s p l 4 d
          (rowOf fun i => rowWord x ((shuffleFrom m o n i (rowWord y i)).getD i)) em 8 w k)
        ∧ (∀ o, issuesV (.vrotm d a b c 0 o q v w k) s p l 4 d
          (BitVec.ofNat 1024 ((x.toNat + y.toNat * 2 ^ 1024) / 2 ^ (8 * o))) em 8 w k)
        ∧ (∀ o, s.scalarReady p l (c - 72) → issuesV (.vrotm d a b c 1 o q v w k) s p l 4 d
          (BitVec.ofNat 1024 ((x.toNat + y.toNat * 2 ^ 1024) / 2 ^ (8 * (((s.lane p l).scalar (c - 72)).toNat % 128)))) em 8 w k))
    ∧ (t = 0 → ∀ r f m z, s.laneOperand p l (if m = 2 then 4 else 8) c = some z →
        (s.hasFeature p 3 = false → exec (.vmxq d a c r f m q v w k) s = .next (s.laneIllegalHere p l))
        ∧ (s.hasFeature p 3 = true →
            let wide := if m = 2 then 4 else 8
            let mx := quantMx (0x10 + m) ((lanesOf em).map fun i => f32 (rowWord x i))
            ∃ row, exec (.vmxq d a c r f m q v w k) s = .next
              (((s.issueRow p l 8 d row em).issueScalar p l 8 r (BitVec.ofNat 32 (if em = 0 then 0 else mx.1))).laneRetire p l 8 w k)
            ∧ ∀ i n, (lanesOf em)[n]? = some i → rowWord row i = packElems wide fun j => if j = f then mx.2.getD n 0 else elemOf wide (rowWord z i) j))

/-- R160, R258: the lane a VSHFL reads: never outside the reader's own segment. -/
def Claims.ShuffleStaysInSegment : Prop :=
  ∀ m delta w i (b : W32) j, 0 < w → shuffleFrom m delta w i b = some j → j / w = i / w

/-- R152, R154-R156, R181: VWIN and VWINADD move the window base for the packets two cycles on; VWAIT sets the delay and the counter limits of
the next packet; VBEND ends the block's issue; VRGN holds it for its region marker, which records the state once the group is quiet. -/
def Claims.LaneControl : Prop :=
  ∀ (s : State) p l a w k, s.cur.agent = .lane p l →
    let x := s.lane p l
    (s.scalarReady p l (a - 72) → let v := x.scalar (a - 72)
      let moved (n : Nat) : Out := .next (({ s with fresh := s.fresh + 1 }.modLane p l fun y =>
        { y with oldWindow := y.window, window := n, windowAt := s.dev.cycle, windowPick := s.fresh + 1 }).laneRetire p l 4 w k)
      exec (.vwin a w k) s = moved (v.toNat % 16384)
      ∧ exec (.vwinadd a w k) s = moved (((x.window : Int) + v.toInt) % 16384).toNat)
    ∧ (∀ c ll st, (∀ j, j < 4 → (levelOf x.levels j).active = false) → ∃ t, exec (.vwait c ll st) s = .next t ∧ s.sameButLane t p l
        ∧ (t.lane p l).nextAt = s.dev.cycle + 1 + c ∧ (t.lane p l).loadLimit = ll ∧ (t.lane p l).storeLimit = st ∧ (t.lane p l).pc = x.pc + 4)
    ∧ (∃ t, exec .vbend s = .next t ∧ s.sameButLane t p l ∧ (t.lane p l).ended = true ∧ (t.lane p l).levels = [])
    ∧ (∃ t, exec .vrgn s = .next t ∧ s.sameButLane t p l ∧ (t.lane p l).marking = true)
    ∧ (x.busy = true → x.marking = true → x.stopped = false → x.quiet = true → ∃ t, exec (.regionMarker p l) s = .next t ∧ s.sameButLane t p l
        ∧ (t.lane p l).marking = false ∧ (t.lane p l).marker = ⟨x.pc, x.s, x.p, x.window, x.levels, x.pushes, 0⟩)

/-- R28-R32, R146: what issuing a row result does: it goes on its way with its bound, mask and destination fixed, the ring takes a position,
the pc and the earliest next issue advance; scalars, predicates and CB rows are as before, and nothing outside the lane group changes. -/
def Claims.IssueEffect : Prop :=
  ∀ (s : State) p l bound d data em len w, (s.lane p l).noLoopEnd →
    let x := s.lane p l
    let t := (s.issueRow p l bound d data em).laneRetire p l len w 0
    let y := t.lane p l
    s.sameButLane t p l ∧ y.pc = x.pc + BitVec.ofNat 64 len ∧ y.nextAt = s.dev.cycle + 1 + Nat.max x.packetWait w
    ∧ y.s = x.s ∧ y.p = x.p ∧ y.window = x.window ∧ y.levels = x.levels ∧ y.stores = x.stores ∧ y.marker = x.marker
    ∧ ∃ n, y.ring = (⟨n, 0, false⟩ :: x.ring).take 8 ∧ ∃ rs r, y.results = rs ++ [r] ∧ rs.length = x.results.length
      ∧ r.id = n ∧ r.at_ = s.dev.cycle ∧ r.bound = bound ∧ r.counted = false ∧ r.data = data ∧ r.mask = em ∧ r.landed = false ∧ r.ring = n
      ∧ r.dest = if d = 0 then .none else .row ((x.base + d) % 16384)

/-- R29, R31: LANE_RESULT_LANDS writes the masked words of a row result to its row, a scalar or predicate result to its register, with nothing
else of those changed; in memory nothing changes. It does so in a cycle after its issue. -/
def Claims.ResultLands : Prop :=
  ∀ (s : State) p l i r, (s.lane p l).results[i]? = some r → r.landed = false → r.clash = 0 → r.at_ < s.dev.cycle →
    (s.lane p l).draining = false →
    ∃ t, exec (.laneResultLands p l i) s = .next t ∧ t.mem = s.mem
      ∧ (∀ n, r.dest = .row n → t.cbRow p n = rowMix r.mask r.data (s.cbRow p n) ∧ ∀ m, m ≠ n → t.cbRow p m = s.cbRow p m)
      ∧ ((∀ n, r.dest ≠ .row n) → ∀ m, t.cbRow p m = s.cbRow p m)
      ∧ (∀ m, (t.lane p l).scalar m = if r.dest = .scalar m ∧ m ≠ 0 then rowWord r.data 0 else (s.lane p l).scalar m)
      ∧ ∀ m, (t.lane p l).pred m = if r.dest = .pred m then rowWord r.data 0 &&& s.halfMask p l else (s.lane p l).pred m

/-- R29, R30: once time has come to a result's bound it has landed, so a source issued then reads it: no uncounted result whose bound has passed
is left in flight. -/
def Claims.ResultsByBound : Prop :=
  ∀ (s : State) p l, (s.lane p l).draining = false →
    ∀ r ∈ ((s.landDue p l).lane p l).results, r.counted = false → s.dev.cycle < r.at_ + r.bound

/-- R161-R167: VLDU and VLDG whose enabled lanes all pass their checks take a counted result on its way: each lane's bytes as its load found
them, extended by the type; a PENDING or FAULTED handle holds the packet, whatever its mask. -/
def Claims.LaneLoads : Prop :=
  ∀ (s : State) p l d a b h i t c q v w k em (key : Nat → Nat) (priv : Nat → Bool), s.cur.agent = .lane p l → s.laneMaskIs p l q v em →
    (s.lane p l).stores = [] → (s.lane p l).delays = [] → (∀ j, em.getLsbD j = true → s.viewPage (key j) = false) →
    let loads (f : Instr) (n : Nat) (byAddress : Bool) (off : Nat → Nat) (ext : Nat → W32) : Prop :=
      ((s.handle p h).st = .valid → (∀ j, j < 32 → em.getLsbD j = true → s.laneUse p (s.handle p h) n .read byAddress (off j) = .ok (key j) (priv j)) →
        ∀ vs u, s.loadLanes p l n ((enabled em).map fun j => (⟨j, off j, key j, priv j⟩, .plain)) = .ok (vs, []) u →
          exec f s = .next (((u.issue p l 0 true ((u.lane p l).vdest d) true (rowFrom vs ext) em).modLane p l fun x =>
            { x with delays := [] }).laneRetire p l 8 w k))
      ∧ ((s.handle p h).st = .pending ∨ (s.handle p h).st = .faulted → (s.place p).halted = false → exec f s = .next s)
    (s.scalarReady p l (a - 72) →
      loads (.vldu d a h i c q v w k) 4 false (fun j => ((s.lane p l).scalar (a - 72)).toNat + 4 * i + 4 * (j - s.shift p l)) (BitVec.ofNat 32))
    ∧ ∀ x y, s.laneOperand p l 32 a = some x → s.laneOperand p l 32 b = some y →
      loads (.vldg d a b h t c q v w k) (typeWidth t / 8) true (fun j => (rowWord x j).toNat + (rowWord y j).toNat)
        (fun n => if t = 7 then (BitVec.ofNat 8 n).signExtend 32 else if t = 9 then (BitVec.ofNat 16 n).signExtend 32 else BitVec.ofNat 32 n)

/-- R161-R165, R230, R322: VLDU and VLDG complete where every enabled lane passes its checks and the lanes' L1 holds its bytes: the counted
result holds each lane's bytes, extended by the type, 0 in the other lanes; no byte of memory or of any L1 changes. -/
def Claims.LaneLoadsComplete : Prop :=
  ∀ (s : State) p l d a b h i t c q v w k em (key : Nat → Nat) (priv : Nat → Bool) (line : Nat → Line), s.cur.agent = .lane p l →
    s.laneMaskIs p l q v em → (s.lane p l).stores = [] → (s.lane p l).delays = [] → (s.handle p h).st = .valid →
    let loads (f : Instr) (n : Nat) (byAddress : Bool) (off : Nat → Nat) (ext : Nat → W32) : Prop :=
      (∀ j, j < 32 → em.getLsbD j = true → s.laneUse p (s.handle p h) n .read byAddress (off j) = .ok (key j) (priv j)
        ∧ s.viewPage (key j) = false ∧ s.l1vHas p (key j) n (line (key j / 128))) →
      ∃ u : State, exec f s = .next (((u.issue p l 0 true ((u.lane p l).vdest d) true
          (rowOf fun j => if em.getLsbD j then ext (vecBytes (line (key j / 128)).data (key j % 128) n) else 0) em).modLane p l fun x =>
            { x with delays := [] }).laneRetire p l 8 w k)
        ∧ u = { s with plazas := u.plazas, remotes := u.remotes } ∧ (∀ r, u.plaza r = { s.plaza r with l1v := (u.plaza r).l1v })
        ∧ ∀ r lanes y, u.cached r lanes y = s.cached r lanes y
    (s.scalarReady p l (a - 72) →
      loads (.vldu d a h i c q v w k) 4 false (fun j => ((s.lane p l).scalar (a - 72)).toNat + 4 * i + 4 * (j - s.shift p l)) (BitVec.ofNat 32))
    ∧ ∀ x y, s.laneOperand p l 32 a = some x → s.laneOperand p l 32 b = some y → typeWidth t / 8 ∈ [1, 2, 4] →
      loads (.vldg d a b h t c q v w k) (typeWidth t / 8) true (fun j => (rowWord x j).toNat + (rowWord y j).toNat)
        (fun n => if t = 7 then (BitVec.ofNat 8 n).signExtend 32 else if t = 9 then (BitVec.ofNat 16 n).signExtend 32 else BitVec.ofNat 32 n)

/-- R230, R322: lanes whose bytes the lanes' L1 holds load those bytes, and no byte of memory or of any L1 changes. -/
def Claims.LaneLoadsHit : Prop :=
  ∀ (s : State) p l n (xs : List Access) (line : Nat → Line),
    (∀ a ∈ xs, s.l1vHas p a.key n (line (a.key / 128))) →
    ∃ u, s.loadLanes p l n (xs.map fun a => (a, .plain)) =
        .ok (xs.map (fun a => (a.lane, vecBytes (line (a.key / 128)).data (a.key % 128) n)), []) u
      ∧ u.mem = s.mem ∧ ∀ r lanes b, u.cached r lanes b = s.cached r lanes b

/-- R161-R167: VSTU and VSTG whose enabled lanes all pass their checks put one store on its way: for each enabled lane, rising, the low bytes of
its word at its own home location, and nothing else. -/
def Claims.LaneStores : Prop :=
  ∀ (s : State) p l a b y h i t c q v w k em (key : Nat → Nat) (priv : Nat → Bool), s.cur.agent = .lane p l → s.laneMaskIs p l q v em →
    (s.handle p h).st = .valid →
    let stores (f : Instr) (n : Nat) (byAddress : Bool) (off : Nat → Nat) (data : Row) : Prop :=
      (∀ j, j < 32 → em.getLsbD j = true → s.laneUse p (s.handle p h) n .write byAddress (off j) = .ok (key j) (priv j)) →
        exec f s = .next ((s.issueStore p l c .mem ((enabled em).map fun j => (key j, n, (rowWord data j).toNat % 2 ^ (8 * n)))
          (((enabled em).head?.map priv).getD false)).laneRetire p l 8 w k)
    (∀ z, s.scalarReady p l (a - 72) → s.laneOperand p l 32 b = some z →
      stores (.vstu a b h i c q v w k) 4 false (fun j => ((s.lane p l).scalar (a - 72)).toNat + 4 * i + 4 * (j - s.shift p l)) z)
    ∧ ∀ x z u, s.laneOperand p l 32 a = some x → s.laneOperand p l 32 b = some z → s.laneOperand p l 32 y = some u →
      stores (.vstg a b y h t c q v w k) (typeWidth t / 8) true (fun j => (rowWord x j).toNat + (rowWord z j).toNat) u

/-- R161-R166, R227, R263: VLDS and VSTS of a scratchpad row within the scratchpad, VLDB of AB, WB and CB, VSTB to AB and to CB; a scratchpad row
beyond the scratchpad with an enabled lane is HBOUNDS. -/
def Claims.LaneBuffers : Prop :=
  ∀ (s : State) p l d a b g z i c q v w k em, s.cur.agent = .lane p l → s.laneMaskIs p l q v em → s.scalarReady p l (a - 72) →
    (s.lane p l).stores = [] →
    let sc := (s.lane p l).scalar (a - 72)
    let o : Int := ((sc.toNat : Int) + 128 * sgn 8 i) / 128 * 128
    let inside : Prop := em = 0 ∨ (0 ≤ o ∧ o < (s.place p).scrsize)
    let row := wrapInt 14 (((sc.toNat % 16384 : Nat) : Int) + sgn 8 i)
    (inside → issuesV (.vlds d a i c q v w k) s p l 10 d (tabGet 0 (s.plaza p).scratch (o.toNat / 128)) em 8 w k)
    ∧ (¬inside → exec (.vlds d a i c q v w k) s = .next ((s.skipRing p l).scratchFault p l o em))
    ∧ (g = 0 → issuesV (.vldb d a g z i c q v w k) s p l 8 d ((tabGet 0 (s.plaza p).ab row).extractLsb' (1024 * z) 1024) em 8 w k)
    ∧ (g = 1 → issuesV (.vldb d a g z i c q v w k) s p l 8 d ((tabGet 0 (s.plaza p).wb row).extractLsb' (1024 * z) 1024) em 8 w k)
    ∧ (g = 2 → (s.lane p l).undefRow s.dev.cycle row = 0 → issuesV (.vldb d a g z i c q v w k) s p l 8 d (s.cbRow p row) em 8 w k)
    ∧ ∀ x, s.laneOperand p l 32 b = some x →
      (inside → exec (.vsts a b i c q v w k) s = .next
        ((s.issueStore p l c .scratch ((enabled em).map fun j => (o.toNat + 4 * j, 4, (rowWord x j).toNat)) false).laneRetire p l 8 w k))
      ∧ (¬inside → exec (.vsts a b i c q v w k) s = .next (s.scratchFault p l o em))
      ∧ (g = 0 → exec (.vstb a b g z i c q v w k) s = .next
        ((s.issueStore p l c .ab ((enabled em).map fun j => (row * 256 + 128 * z + 4 * j, 4, (rowWord x j).toNat)) false).laneRetire p l 8 w k))
      ∧ (g = 2 → ∃ t, exec (.vstb a b g z i c q v w k) s = .next t ∧ t.mem = s.mem ∧ t.cbRow p row = rowMix em x (s.cbRow p row)
          ∧ ∀ m, m ≠ row → t.cbRow p m = s.cbRow p m)

/-- R153, R166, R167: LANE_STORE_PERFORMS stores what the lane store holds and takes it out of the counter: a scratchpad word in its row, a word
in memory in the lanes' L1, and no other scratchpad row, byte of an L1 or of memory, scalar or predicate changes; a store behind an older one
of its class or place waits. -/
def Claims.StorePerforms : Prop :=
  ∀ (s : State) p l n st key m v, (s.lane p l).stores[n]? = some st → st.parts = [(key, m, v)] → key % 128 + m ≤ 128 → 0 < m →
    let older := ((s.lane p l).stores.take n).any fun o => o.before st.cls st.space [(key, m)]
    let left (t : State) : Prop := t.mem = s.mem ∧ (t.lane p l).stores = (s.lane p l).stores.filter (fun y => y.id != st.id)
      ∧ (t.lane p l).s = (s.lane p l).s ∧ (t.lane p l).p = (s.lane p l).p
    (older = true → exec (.laneStorePerforms p l n) s = .next s)
    ∧ (older = false → st.space = .scratch → ∃ t, exec (.laneStorePerforms p l n) s = .next t ∧ left t
        ∧ tabGet 0 (t.plaza p).scratch (key / 128) = vecPut (tabGet 0 (s.plaza p).scratch (key / 128)) (key % 128) m v
        ∧ ∀ r, r ≠ key / 128 → tabGet 0 (t.plaza p).scratch r = tabGet 0 (s.plaza p).scratch r)
    ∧ ∀ x, older = false → st.space = .mem → v < 2 ^ (8 * m) → (s.plaza p).hasUpdate (key / 128) = false → lineIn (s.plaza p).l1v (key / 128) = some x →
        lineIn (s.plaza p).l1d (key / 128) = none → ∃ t, exec (.laneStorePerforms p l n) s = .next t ∧ left t
        ∧ ∀ q lanes b, t.cached q lanes b =
            if q = p ∧ lanes = true ∧ key ≤ b ∧ b < key + m then some (BitVec.ofNat 8 (v / 2 ^ (8 * (b - key)))) else s.cached q lanes b

/-- R108, R225, R226: a VAMO whose lanes pass their checks holds what these gave, performs them at their homes and, with no publish to wait for, ends: its old values are a
counted result and issue is held for its marker; without its feature the FP32 form is a lane fault. -/
def Claims.VamoInstruction : Prop :=
  ∀ (s : State) p l d a b y h sc r o t c q v w k em (key : Nat → Nat) (priv : Nat → Bool) x z u, s.cur.agent = .lane p l →
    (t = 0 → s.hasFeature p 6 = false → exec (.vamo d a b y h sc r o t c q v w k) s = .next (s.laneIllegalHere p l))
    ∧ ((t ≠ 0 ∨ s.hasFeature p 6 = true) → s.laneMaskIs p l q v em → s.laneOperand p l 32 a = some x → s.laneOperand p l 32 b = some z →
      s.laneOperand p l 32 y = some u → (s.lane p l).stores = [] → (s.lane p l).amo = 0 → (s.lane p l).vamo.held = none → (s.handle p h).st = .valid →
      let off (j : Nat) : Nat := (rowWord x j).toNat + (rowWord z j).toNat
      (∀ j, j < 32 → em.getLsbD j = true → s.laneUse p (s.handle p h) 4 .atomic true (off j) = .ok (key j) (priv j)) →
      let as : List Access := (enabled em).map fun j => ⟨j, off j, key j, priv j⟩
      ∀ f, (s.modLane p l fun z => z.amoHeld as).amoLanes p l d o r sc u as = .inr (f, none) → (f.lane p l).acq = none →
        (f.lane p l).vamo.pubs = [] →
        exec (.vamo d a b y h sc r o t c q v w k) s = .next (f.endAmo p l o d w k) ∧ ((f.endAmo p l o d w k).lane p l).marking = true)

/-- R225, R226: a relaxed VAMO completes where every enabled lane passes its checks and its word lies in this module, at a home that can be
reached: issue is held for its marker, and where one lane is enabled its word has the operation's value and the counted result the old one. -/
def Claims.VamoCompletes : Prop :=
  ∀ (s : State) p l d a b y h sc o t c q v w k em (key : Nat → Nat) (priv : Nat → Bool) x z u, s.cur.agent = .lane p l →
    (t ≠ 0 ∨ s.hasFeature p 6 = true) → s.laneMaskIs p l q v em → s.laneOperand p l 32 a = some x → s.laneOperand p l 32 b = some z →
    s.laneOperand p l 32 y = some u → (s.lane p l).stores = [] → (s.lane p l).amo = 0 → (s.lane p l).acq = none →
    (s.lane p l).vamo = ⟨0, 0, [], false, none⟩ → (s.handle p h).st = .valid →
    (∀ j, j < 32 → em.getLsbD j = true →
      s.laneUse p (s.handle p h) 4 .atomic true ((rowWord x j).toNat + (rowWord z j).toNat) = .ok (key j) (priv j)
      ∧ key j < 2 ^ 45 ∧ (o < 9 → s.homeOnly p (key j) 4)) →
    ∃ f, exec (.vamo d a b y h sc 0 o t c q v w k) s = .next f ∧ (f.lane p l).marking = true
      ∧ ∀ i, i < 32 → em = 1 <<< i → o < 9 →
        let old := memRead s.mem (key i) 4
        memRead f.mem (key i) 4 = amoValue o 4 old (rowWord u i).toNat
        ∧ (∀ b, b < key i ∨ key i + 4 ≤ b → memByte f.mem b = memByte s.mem b)
        ∧ ∃ rs r, (f.lane p l).results = rs ++ [r] ∧ r.counted = true ∧ r.mask = em ∧ rowWord r.data i = BitVec.ofNat 32 old
          ∧ r.dest = (s.lane p l).vdest d

/-- R139, R168, R170, R172, R174-R178: BLOCK_DISPATCH puts the next block on the lowest free lane group with its registers, BLOCK_COMPLETE ends
it in the cycle after its VBEND at the earliest, BLOCK_RETIRE takes the oldest completed one out with its pushes in the alley, ALLEY_ENTRY_POPPABLE makes them poppable four cycles on. -/
def Claims.BlockLife : Prop :=
  ∀ (s : State) p l b rest,
    (s.dispatchable p = some b → (s.place p).freeSeat s.dev.cycle = some l → b.wait ≠ .failed →
      ∃ t, exec (.blockDispatch p) s = .next t ∧ t.mem = s.mem ∧ (t.lane p l).busy = true ∧ (t.lane p l).seq = b.seq
        ∧ (t.lane p l).pc = ((s.place p).table.getD b.entry ⟨0, false, false⟩).entry ∧ (t.lane p l).window = b.window
        ∧ (t.lane p l).pred 0 = b.mask <<< s.shift p l ∧ (∀ n, 1 ≤ n → n < 32 → (t.lane p l).pred n = 0)
        ∧ (t.lane p l).scalar 1 = BitVec.ofNat 32 b.entry ∧ (t.lane p l).scalar 2 = BitVec.ofNat 32 b.trip
        ∧ (t.lane p l).scalar 3 = BitVec.ofNat 32 b.seq ∧ (t.lane p l).scalar 4 = b.op0 ∧ (t.lane p l).scalar 5 = b.op1
        ∧ (t.lane p l).scalar 6 = b.op2 ∧ (t.lane p l).scalar 7 = b.op3 ∧ (t.lane p l).scalar 8 = BitVec.ofNat 32 (l / 2)
        ∧ (t.lane p l).scalar 9 = BitVec.ofNat 32 (s.dev.modNum * 256 + p) ∧ (∀ n, 10 ≤ n → (t.lane p l).scalar n = 0)
        ∧ (t.place p).blocks = (s.place p).blocks.map (fun y => if y.seq = b.seq then { y with st := .running, lane := some l } else y))
    ∧ ((s.lane p l).busy = true → (s.lane p l).ended = true → (s.lane p l).stopped = false → (s.lane p l).quiet = true →
      (s.lane p l).nextAt ≤ s.dev.cycle → ∃ t, exec (.blockComplete p l) s = .next t ∧ t.mem = s.mem ∧ (t.place p).blocks = (s.place p).blocks.map fun y =>
        if y.lane = some l ∧ y.st = .running then { y with st := .complete, pushes := (s.lane p l).pushes }
        else if y.lane = some l ∧ y.st = .spentRunning then { y with st := .spentComplete } else y)
    ∧ ((s.place p).blocks = b :: rest → b.st = .complete → (s.place p).alley.length + b.pushes.length ≤ 64 →
      ∃ t, exec (.blockRetire p) s = .next t ∧ t.mem = s.mem ∧ (t.place p).blocks = rest
        ∧ (t.place p).alley = (s.place p).alley ++ b.pushes.map (fun x => ⟨x.mask, x.scalar, b.seq, s.dev.cycle, false⟩)
        ∧ (t.place p).altail = ((s.place p).altail + b.pushes.length) % 2 ^ 32
        ∧ ∀ j, b.lane = some j → t.lane p j = { Lane.off with freeAt := s.dev.cycle + 1 })
    ∧ ((s.place p).blocks = b :: rest → b.st = .complete → 64 < (s.place p).alley.length + b.pushes.length → exec (.blockRetire p) s = .next s)
    ∧ ∃ t, exec (.alleyEntryPoppable p) s = .next t ∧ t.mem = s.mem ∧ (t.place p).alley = (s.place p).alley.map fun e =>
        if e.committed + 4 ≤ s.dev.cycle then { e with poppable := true } else e

/-- R175, R178: a lane group is free to the dispatcher in the order of its number: the seat taken is free and every lower one is not. -/
def Claims.LowestFreeSeat : Prop :=
  ∀ (q : Place) now l, q.freeSeat now = some l →
    let free (j : Nat) : Prop := (tabGet Lane.off q.lanes j).busy = false ∧ (tabGet Lane.off q.lanes j).draining = false ∧ (tabGet Lane.off q.lanes j).freeAt ≤ now
    free l ∧ l < 2 * q.groups ∧ ∀ j, j < l → (q.w16 = true ∨ j % 2 = 0) → ¬free j

/-- R94, R182, R183: a lane fault freezes the avenue at its block, which is FAULTED with its group stopped; the blocks above it go back to
QUEUED where they had started, are CANCELLED where SPENT, and else stay, as those below do; FREEZE_SETTLE, once no live block is left below,
raises the record against the emitter. -/
def Claims.FreezeEvents : Prop :=
  ∀ (s : State) p l r b pre post, (s.place p).blockOn l = some b → b.st = .running → (s.place p).blocks = pre ++ b :: post →
    ((s.place p).blocks.map fun y => y.seq).Nodup → (∀ y ∈ post, ∀ j, y.lane = some j → j ≠ l ∧ (s.lane p j).stores = []) →
    let t := s.laneFault p l r
    let back (y : Block) : Block :=
      if y.st = .running ∨ y.st = .complete ∨ y.st = .faulted then { y with st := .queued, lane := none, pushes := [] }
      else if y.st = .spentRunning ∨ y.st = .spentComplete then { y with st := .cancelled, lane := none, pushes := [] } else y
    ((t.place p).blocks = pre ++ { b with st := .faulted } :: post.map back ∧ (t.place p).freeze = some ⟨b.seq, r, false⟩
      ∧ (t.lane p l).stopped = true ∧ t.mem = s.mem)
    ∧ ∀ f (u : State), (u.place p).freeze = some f → f.settled = false → u.lanesRun p = true →
        (∀ y ∈ (u.place p).blocks.takeWhile (fun x => x.seq != f.seq), y.st = .cancelled) →
        ∀ y, (u.place p).blocks.find? (fun x => x.seq == f.seq) = some y →
          exec (.freezeSettle p) u = .next ((u.modPlace p fun x => { x with freeze := some { f with settled := true } }).raiseAsync p y.emitter f.record)

/-- R186: a queue deadlock past 65,536 cycles traps the lowest stuck context with QDEADLOCK; below that nothing happens. -/
def Claims.QueueDeadlock : Prop :=
  ∀ (s : State) p,
    ((s.place p).qdead ≤ 65536 → exec (.qdeadlock p) s = .next s)
    ∧ ∀ c, 65536 < (s.place p).qdead → c < 3 → (s.ctx p c).stuck = true → (∀ k, k < c → (s.ctx p k).stuck = false) →
        exec (.qdeadlock p) s = .next ((s.modPlace p fun x => { x with qdead := 0 }).raiseAsync p c { s.record p c .qdeadlock 0 with async := true })

/-- R61, R62, R74, R83, R93, R348: what ends a wait. A waiting context runs its blocking instruction again from its start: a TWAIT whose token has
come completes, one whose token has not waits on; a WAITM at P that its plaza's write has woken, and a load whose view read was delayed, complete
where the L1D has their bytes; a DCWB completes once the plaza's line is clean and its writes are acknowledged; a watched WAITM past its cycles traps. -/
def Claims.WaitsEnd : Prop :=
  ∀ (s : State) p c n d a b z cond key l, (s.ctx p c).state = .waiting → s.runs p c = true → c < 5 → s.noWake p c →
    let x := s.ctx p c
    let s' : State := { s with cur := ⟨.control p c, x.pc, x.w0, x.w1, x.len⟩ }
    let n4 := if z = 1 then 4 else 8
    (x.wait = some (.twait n) → n < 64 → (s.token p n).st ≠ .outstanding → (s.token p n).st ≠ .failed →
      ∃ t, exec (.conditionMet p c) s = .next t ∧ (t.ctx p c).state = .running ∧ (t.ctx p c).wait = none ∧ (t.ctx p c).insret = x.insret + 1
        ∧ (t.ctx p c).g = x.g ∧ t.mem = s.mem)
    ∧ (x.wait = some (.twait n) → n < 64 → (s.token p n).st = .outstanding →
        ∃ t, exec (.conditionMet p c) s = .next t ∧ (t.ctx p c).state = .waiting ∧ (t.ctx p c).insret = x.insret ∧ t.mem = s.mem)
    ∧ (x.wait = some (.waitm d a b z 0 cond) → cond < 7 → s.atStart p c → s'.grants p c (s.g p c a) n4 .read key → s.l1dHas p key n4 l →
        conditionHolds cond n4 (vecBytes l.data (key % 128) n4) ((s.g p c b).toNat % 2 ^ (8 * n4)) →
        completesWith (.waitmWake p c) s p c d (BitVec.ofNat 64 (vecBytes l.data (key % 128) n4)) fun t => t.mem = s.mem)
    ∧ (∀ o, x.wait = some (.ldd d a 0 o) → s.atStart p c →
        s'.grants p c (s.g p c a + (BitVec.ofNat 11 o).signExtend 64 * 8) 8 .read key → s.l1dHas p key 8 l →
        completesWith (.delayedReadRecheck p (.ctx c)) s p c d (BitVec.ofNat 64 (vecBytes l.data (key % 128) 8)) fun t => t.mem = s.mem)
    ∧ (∀ v (u : State), x.wait = some (.waitm d a b z 0 cond) → exec (.waitm d a b z 0 cond) s' = .next (u.retireReg p c d v) →
        exec (.waitmWake p c) s = .next (u.retireReg p c d v))
    ∧ (∀ i v (u : State), x.wait = some (.lda d a b 0 z i) → exec (.lda d a b 0 z i) s' = .next (u.retireReg p c d v) →
        exec (.delayedReadRecheck p (.ctx c)) s = .next (u.retireReg p c d v))
    ∧ (∀ u : State, s.moves = [] → x.wait = some (.dcwb a) → exec (.dcwb a) s' = .next (u.retire p c id) →
        exec (.writebackAcknowledgement p c) s = .next (u.retire p c id))
    ∧ (s.moves = [] → x.wait = some (.dcwb a) → s.atStart p c → s'.grants p c (s.g p c a) 1 .read key →
        (s.plaza p).dirtyLine (key / 128) = false → s.noticesFrom p = false →
        completesWith (.writebackAcknowledgement p c) s p c 0 0 fun t => t.mem = s.mem)
    ∧ (∀ sc, x.wait = some (.waitm d a b z sc cond) → s.busy p c = false →
        (x.acq = none → x.wdog ≠ 0 → x.since + x.wdog.toNat ≤ s.dev.cycle → exec (.watchdog p c) s = .next (s.trap p c .watchdog (s.g p c a)))
        ∧ (x.wdog = 0 ∨ s.dev.cycle < x.since + x.wdog.toNat → exec (.watchdog p c) s = .next s))

/-- R348: a delayed packet of a lane group may issue again at once; the copy engine tries its next unit again. -/
def Claims.DelayedReads : Prop :=
  ∀ (s : State) p l, ((s.lane p l).delays ≠ [] → ∃ t, exec (.delayedReadRecheck p (.lane l)) s = .next t ∧ s.sameButLane t p l
      ∧ (t.lane p l).nextAt ≤ s.dev.cycle ∧ (t.lane p l).pc = (s.lane p l).pc)
    ∧ exec (.delayedReadRecheck p .copy) s = .next (s.copyNext p)

/-- R93, R94: ENGINE_TRAP takes the trap kept for a context that no halt ends, at its boundary: the context stops as TRAPPED where it stands with its registers,
and, where nothing else is delivered or waits, the delivered record holds the context and the cause it was raised with. -/
def Claims.EngineTrap : Prop :=
  ∀ (s : State) p c r, c < 5 → s.runs p c = true → s.asyncOf p c = some r → s.busy p c = false → (s.ctx p c).state = .running → (s.ctx p c).ending = none →
    (s.place p).halted = false → (s.plaza p).open_ = none → (s.plaza p).pending = [] → s.writes = [] →
    (s.tlbHit p s.runtime (s.plaza p).trapslot).isSome = true →
    ∃ t x, exec (.engineTrap p c) s = .next t ∧ (t.ctx p c).state = .trapped ∧ (t.ctx p c).pc = (s.ctx p c).pc ∧ (t.ctx p c).g = (s.ctx p c).g
      ∧ (t.plaza p).open_ = some x ∧ x.cause = r.cause ∧ x.faddr = r.faddr ∧ x.ctx = c ∧ x.async = true ∧ x.job = (s.place p).job
      ∧ (r.cause = .engine → x.pc = (s.ctx p c).pc ∧ x.pc2 = r.pc2) ∧ (t.place p).async = (s.place p).async.erase r

/-- R72, R73, R78, R230, R316: a fill that was cancelled, or whose line has come by itself, ends and installs nothing; another of a line of this
module installs it as read at its home: an instruction line, or a data line, whole and clean, over the bytes that the lanes' L1 holds. -/
def Claims.FillsReturn : Prop :=
  ∀ (s : State) p i,
    (∀ f, (s.plaza p).ifills[i]? = some f →
      let u : State := { s with remotes := s.remotes.filter fun r => !(r.who == Requester.fetch p 6 && r.addr == f.key / 128 * 128) }.modPlaza p fun q =>
        { q with ifills := q.ifills.filter fun x => !(x.pasid == f.pasid && x.line == f.line) }
      (f.cancelled = true ∨ (s.iline p f.pasid f.line).isSome = true → exec (.icacheFill p i) s = .next u)
      ∧ (f.cancelled = false → s.iline p f.pasid f.line = none → f.key < 2 ^ 45 → s.pathDown (f.key / 128 * 128) = false →
          (∀ q, (s.plaza q).hasUpdate (f.key / 128) = false) →
          ∃ v, exec (.icacheFill p i) s = .next v ∧ v.mem = s.mem ∧ (v.plaza p).ifills = (u.plaza p).ifills ∧ ∃ y, v.iline p f.pasid f.line = some y
            ∧ y.data = (s.homeRow (f.key / 128)).extractLsb' (8 * (f.key % 128)) 512
            ∧ y.bad = (s.homePoison (f.key / 128)).getLsbD (f.key % 128 / 64) ∧ y.home = f.key))
    ∧ ∀ f, (s.plaza p).fills[i]? = some f →
      let gone : State := { s with remotes := s.remotes.filter fun r => !(r.who == Requester.ctx p 6 && r.addr == f.key * 128) }.modPlaza p fun q =>
        { q with fills := q.fills.filter fun y => y.key != f.key }
      (f.cancelled = true ∨ (lineIn (s.plaza p).l1d f.key).isSome = true → exec (.l1FillReturn p i) s = .next gone)
      ∧ (f.cancelled = false → lineIn (s.plaza p).l1d f.key = none → f.key * 128 < 2 ^ 45 → s.pathDown (f.key * 128) = false →
          (∀ q, (s.plaza q).hasUpdate f.key = false) →
          exec (.l1FillReturn p i) s = .next (gone.install p false
            { emptyLine f.key f.priv with
              held := BitVec.allOnes 128
              data := match lineIn (s.plaza p).l1v f.key with
                | some y => lineMix y.held y.data (s.homeRow f.key)
                | none => s.homeRow f.key
              poison := match lineIn (s.plaza p).l1v f.key with
                | some y => y.poison ||| (s.homePoison f.key &&& ~~~ wholeUnits y.held)
                | none => s.homePoison f.key }))

/-- R310, R311: a line of an L1 whose age has reached SWEEPAGE is written back: at its home exactly its dirty bytes change, and what every L1
holds is as before; a younger or clean one is left. -/
def Claims.SweeperWrites : Prop :=
  ∀ (s : State) p n x (lanes : Bool), lineIn ((s.plaza p).l1 lanes) n = some x →
    let k := if lanes then 1 else 0
    (s.sweepDue p x = false → exec (.sweeperWriteback p k n) s = .next s)
    ∧ (s.sweepDue p x = true → n * 128 < 2 ^ 45 → s.pathDown (n * 128) = false →
        (∀ y ∈ (s.plaza p).l1 lanes, y.key = n → y.upd = false → y = x) → (∀ y ∈ (s.plaza p).l1 (!lanes), y.key ≠ n) →
        ∃ t, exec (.sweeperWriteback p k n) s = .next t
          ∧ (∀ b, memByte t.mem b = if b / 128 = n ∧ x.dirty.getLsbD (b % 128) = true then x.data.extractLsb' (8 * (b % 128)) 8 else memByte s.mem b)
          ∧ lineIn ((t.plaza p).l1 lanes) n = some { x with dirty := 0 }
          ∧ ∀ q lanes b, t.cached q lanes b = s.cached q lanes b)

/-- R315: an uncorrectable error poisons its 64-byte unit, at its home or in an L1, and changes no byte. -/
def Claims.PoisonedUnit : Prop :=
  ∀ (s : State) u, u < 2 ^ 50 →
    (∃ t, exec (.uncorrectableError u) s = .next t ∧ t.mem = s.mem ∧ t.plazas = s.plazas ∧ ∀ v, v ∈ t.poison ↔ v = u ∨ v ∈ s.poison)
    ∧ ∀ p (lanes : Bool), ∃ t, exec (.uncorrectableError ((2 * p + (if lanes then 2 else 1)) * 2 ^ 50 + u)) s = .next t ∧ t.mem = s.mem ∧ t.poison = s.poison
        ∧ (t.plaza p).l1 (!lanes) = (s.plaza p).l1 (!lanes) ∧ (t.plaza p).l1 lanes = ((s.plaza p).l1 lanes).map fun x =>
          if x.key = u / 2 ∧ x.upd = false then { x with poison := x.poison ||| BitVec.ofNat 2 (2 ^ (u % 2)) } else x

/-- R107, R113, R331, R360: an invalidation takes every translation of its range from every TLB and handle of the module; its completion waits
for accesses on their way to other modules, then removes it, and for an entry of the invalidation queue marks the entry, if it can be reached;
writing INVQTAIL begins the entry posted, and nothing with the queue off, nor where the host's port is down or it is the standby. -/
def Claims.Invalidations : Prop :=
  ∀ (s : State) n v l h,
    let gone (t : State) (pasid base len : Nat) : Prop :=
      (∀ q e, e ∈ (t.plaza q).tlb → let va := e.va / e.trans.size * e.trans.size
        ¬(e.pasid = pasid ∧ va < base + len ∧ base < va + e.trans.size))
      ∧ ∀ q h, (t.place q).pasid = pasid → (t.handle q h).overlaps base len = false
    (∃ t, exec (.atsInvalidation n v l) s = .next t ∧ t.mem = s.mem ∧ t.invals = s.invals ++ [⟨n, v, l, none⟩] ∧ gone t n v l)
    ∧ (∀ i x, s.invals[i]? = some x → (s.oldAccesses x.pasid = true → exec (.invalidationComplete i) s = .next s)
      ∧ (s.oldAccesses x.pasid = false → s.performPasid x.pasid = s →
        (x.entry = none → ∃ t, exec (.invalidationComplete i) s = .next t ∧ t.mem = s.mem ∧ t.invals = s.invals.eraseIdx i ∧ gone t x.pasid x.base x.len)
        ∧ ∀ a, x.entry = some a → ∃ t, exec (.invalidationComplete i) s = .next t ∧ t.invals = s.invals.eraseIdx i
          ∧ (∀ b, memByte t.mem b =
              if a + 0x18 ≤ b ∧ b < a + 0x20 ∧ s.absent (a + 0x18) = false ∧ s.pathDown (a + 0x18) = false then (if b = a + 0x18 then 1 else 0)
              else memByte s.mem b)
          ∧ gone t x.pasid x.base x.len ∧ t.dev.host.invqhead = (s.dev.host.invqhead + 1) % 2 ^ 64))
    ∧ (s.bar0 h = false → exec (.invqtailWrite ⟨h, v⟩) s = .next s)
    ∧ (s.bar0 h = true → s.dev.host.invqsize = 0 → exec (.invqtailWrite ⟨h, v⟩) s = .next (s.modHost fun y => { y with invqtail := v % 2 ^ 64 }))
    ∧ (s.bar0 h = true → s.dev.host.invqsize ≠ 0 → s.dev.host.invqbase ≠ 0 → v < 2 ^ 64 → s.dev.host.invqtail + 1 = v →
        let t := s.modHost fun y => { y with invqtail := v }
        let a := s.dev.host.invqbase + 32 * (s.dev.host.invqtail % s.dev.host.invqsize)
        s.absent a = false → s.pathDown a = false → (∀ q, (s.plaza q).hasUpdate (a / 128) = false) → exec (.invqtailWrite ⟨h, v⟩) s =
          .next (t.invalidate (memRead s.mem a 8 % 2 ^ 20) (memRead s.mem (a + 8) 8) (memRead s.mem (a + 16) 8) (some a)))

/-- R117: a page publish begins: its move is noted, in the place of the mark of its page, and where no L1 holds a line of the page dirty or for update only, nothing else changes. -/
def Claims.PagePublish : Prop :=
  ∀ (s : State) o n l, (∃ t, exec (.pagePublish o n l) s = .next t ∧ t.moves = (s.moves.filter fun m => m.old != o || m.moved) ++ [⟨o, n, l, true, false⟩])
    ∧ ((∀ x ∈ s.plazas, ∀ y ∈ (s.plaza x.1).l1d ++ (s.plaza x.1).l1v, o ≤ y.key * 128 → y.key * 128 < o + l → y.dirty = 0 ∧ y.upd = false) →
      (∀ x ∈ s.plazas, s.plaza x.1 = x.2) → exec (.pagePublish o n l) s =
        .next { s with moves := (s.moves.filter fun m => m.old != o || m.moved) ++ [⟨o, n, l, true, false⟩] })

/-- R329, R334: a publish request is answered at once where a publish has covered it, else begins a publish, whose success leaves no line of the
plaza dirty or for update only but such as lie on a page that moves (R334), or joins the queue of the one that runs. -/
def Claims.Publishes : Prop :=
  ∀ (s : State) p n q c, let x : Requester := .ctx q c
    s.requests.contains (p, n, x) = true →
    (genBelow n (s.plaza p).pubDone = true →
      exec (.publishRequest p n x) s = .next { s with requests := s.requests.erase (p, n, x), acks := s.acks ++ [(s.plazaId p, (s.plaza p).pubDone, 0, x)] })
    ∧ (genBelow n (s.plaza p).pubDone = false → (s.plaza p).publish = none →
      ∃ t w, exec (.publishRequest p n x) s = .next t ∧ (t.plaza p).publish = some w ∧ w.number = ((s.plaza p).pubBegun + 1) % 2 ^ 32
        ∧ (t.plaza p).pubBegun = w.number ∧ w.waiting = [(n, x)]
        ∧ (w.failed = false → ∀ y ∈ (t.plaza p).l1d ++ (t.plaza p).l1v, (s.lineMoves y.key = true ∧ w.held = true) ∨ (y.dirty = 0 ∧ y.upd = false)))
    ∧ (genBelow n (s.plaza p).pubDone = false → (s.plaza p).publish.isSome = true → ∃ t, exec (.publishRequest p n x) s = .next t
        ∧ (t.plaza p).pubQueue = (s.plaza p).pubQueue ++ [(n, x)] ∧ t.mem = s.mem)

/-- R329, R334, R341: a publish ends when its writebacks and notices are acknowledged and no page it met is moving, and once what lay on such a page has been
written to the new frame: its number is the plaza's last unless it failed, and each local requester is answered. -/
def Claims.PublishCompletes : Prop :=
  ∀ (s : State) p w, (s.plaza p).publish = some w →
    (s.noticesFrom p = true ∨ s.moves ≠ [] → exec (.publishComplete p) s = .next s)
    ∧ (s.noticesFrom p = false → s.moves = [] → w.held = true → ∃ t f, exec (.publishComplete p) s = .next t
        ∧ (t.plaza p).publish = some { w with failed := f, held := false } ∧ (w.failed = true → f = true)
        ∧ (f = false → ∀ y ∈ (t.plaza p).l1d ++ (t.plaza p).l1v, y.dirty = 0 ∧ y.upd = false))
    ∧ (s.noticesFrom p = false → s.moves = [] → w.held = false → (s.plaza p).pubQueue = [] → (∀ x ∈ w.waiting, ∀ m tag, x.2 ≠ .remote m tag) →
      ∃ t, exec (.publishComplete p) s = .next t ∧ t.mem = s.mem ∧ (t.plaza p).publish = none
        ∧ (t.plaza p).pubDone = (if w.failed then (s.plaza p).pubDone else w.number)
        ∧ t.acks = s.acks ++ w.waiting.map fun x => (s.plazaId p, w.number, b2n w.failed, x.2))

/-- R328, R329: an acknowledgement tells the context that waits for it whether its acquire may end or has failed, and no memory changes. -/
def Claims.PublishAnswers : Prop :=
  ∀ (s : State) g n f p c a, c < 6 → s.acks.contains (g, n, f, .ctx p c) = true → (s.ctx p c).acq = some a → a.plaza = g → a.done = false →
    a.failed = false →
    ∃ t, exec (.publishAcknowledgement g n f (.ctx p c)) s = .next t ∧ t.mem = s.mem ∧ t.acks = s.acks.erase (g, n, f, .ctx p c)
      ∧ (f ≠ 0 → (t.ctx p c).acq = some { a with failed := true })
      ∧ (f = 0 → (t.ctx p c).acq = some (if genBelow a.seq n then { a with done := true } else a))

/-- R336, R341: a KG notice here raises its view block's KG to its generation, in the order of R336, and is gone; one on its way to another
module waits for that module's acknowledgement, and one from another module, for a view of its own, ends here. -/
def Claims.KgNotices : Prop :=
  ∀ (s : State) i x, s.notices[i]? = some x →
    (x.tag.isSome = true → exec (.kgNotice i) s = .next s)
    ∧ (x.tag = none → x.view = noView → ∃ t, exec (.kgNotice i) s = .next t ∧ t.notices = s.notices.eraseIdx i ∧ t.views = s.views ∧ t.mem = s.mem)
    ∧ (x.tag = none → x.view ≠ noView → ∃ t, exec (.kgNotice i) s = .next t ∧ t.mem = s.mem ∧ t.notices = s.notices.eraseIdx i
      ∧ t.views = s.views.map fun y => if y.id = x.view then
          (let old := tabGet ViewBlock.off y.blocks x.block
           { y with blocks := tabSet y.blocks x.block { old with kg := if genBelow old.kg x.gen then x.gen else old.kg } }) else y)

/-- R343, R344, R349: an idle view engine takes the oldest block of its queue with generation and elements in one snapshot, as they lie in this
module at their homes, for every live view, lowest id first; a master page that is gone or whose port is down, or a poisoned byte, fails the derivation of
every view, with its detail. -/
def Claims.Snapshots : Prop :=
  ∀ (s : State) e pasid mva b rest m, tabGet ViewEngine.off s.engines e = ⟨(pasid, mva, b) :: rest, none⟩ →
    s.masters.find? (fun y => y.pasid == pasid && y.mva == mva) = some m → s.walked pasid (m.blockRows b) = s →
    let ids := (List.range 4096).filter fun i => (s.viewsOf m).any fun v => v.id = i
    let job := (s.viewsOf m).findSome? fun v => v.job
    let took (es : List W32) (bad : Option (Nat × Nat)) : Prop := exec (.viewDerivation e) s =
      .next { s with engines := tabSet s.engines e ⟨rest, some ⟨pasid, mva, b, tabGet 0 m.gens b, es, bad, ids⟩⟩ }
    (s.span job pasid (fun y => y.read) (m.blockRows b) = .bad → took [] (some (0x04, 0)))
    ∧ (s.span job pasid (fun y => y.read) (m.blockRows b) = .migrating → exec (.viewDerivation e) s = .next s)
    ∧ ∀ ps, s.span job pasid (fun y => y.read) (m.blockRows b) = .ok ps →
      let pieces := (m.blockRows b).flatMap fun y => keyPieces ps y.1 y.2
      let elems := blockElems m.fmt (pieces.flatMap fun x => leBytes x.2 (memRead s.mem x.1 x.2))
      ((∀ x ∈ pieces, s.pieceHome x) → took elems none)
      ∧ ((∃ x ∈ pieces, x.1 < 2 ^ 45 ∧ s.pathDown x.1 = true) → took [] (some (0x14, 0)))
      ∧ ∀ pre x post, pieces = pre ++ x :: post → (∀ y ∈ pre, s.pieceHome y) → touchesPoison (s.homePoison (x.1 / 128)) (x.1 % 128) x.2 = true →
        (∀ y ∈ x :: post, y.1 < 2 ^ 45 ∧ y.1 % 128 + y.2 ≤ 128 ∧ s.pathDown y.1 = false ∧ ∀ q, (s.plaza q).hasUpdate (y.1 / 128) = false) →
        took elems (some (0x0F, x.1 / 128 * 128 + if s.poison.contains (x.1 / 128 * 2) ∧ x.1 % 128 < 64 then 0 else 64))

/-- R345, R346, R348, R349: a view engine writes its views one after another, each while no pin holds it. A block written carries the snapshot's
tag, or the block's own where that is later, and is not poisoned; where the snapshot, the codebook, a page or a home here failed, the block is poisoned at
the snapshot's generation. -/
def Claims.ViewBlockWrites : Prop :=
  ∀ (s : State) e w id rest v m, (tabGet ViewEngine.off s.engines e).work = some w → w.views = id :: rest → s.views.find? (fun y => y.id == id) = some v →
    s.masters.find? (fun y => y.pasid == w.pasid && y.mva == w.mva) = some m →
    let va := v.blockVa m.across w.block
    let old := tabGet ViewBlock.off v.blocks w.block
    let on_ (t : State) : Prop := (tabGet ViewEngine.off t.engines e).work = if rest = [] then none else some { w with views := rest }
    let block (t : State) (f : ViewBlock → ViewBlock) : Prop :=
      t.views = s.views.map fun y => if y.id = v.id then { y with blocks := tabSet y.blocks w.block (f (tabGet ViewBlock.off y.blocks w.block)) } else y
    let failed : Prop := ∃ t, exec (.viewBlockWrite e) s = .next t ∧ block t (fun z => { z with poison := true, tag := w.gen }) ∧ on_ t
    (old.pins ≠ 0 ∨ s.readPinned v m w.block = true → exec (.viewBlockWrite e) s = .next s)
    ∧ (old.pins = 0 → s.readPinned v m w.block = false → (∀ y ∈ s.views, s.hasPasid y.pasid = true) →
      (w.bad.isSome = true → failed)
      ∧ (w.bad = none → ∀ x, s.viewBook e v = .ok (.inl x) s → failed)
      ∧ (w.bad = none → ∀ book, s.viewBook e v = .ok (.inr book) s → s.walked v.pasid [(va, viewStride v.tfmt)] = s →
        let pieces (ps : List (Nat × Nat × Nat)) := keyPieces ps va (viewStride v.tfmt)
        let tag := if old.never || genBelow old.tag w.gen then w.gen else old.tag
        (s.span v.job v.pasid (fun y => y.read) [(va, viewStride v.tfmt)] = .bad → failed)
        ∧ ∀ ps, s.span v.job v.pasid (fun y => y.read) [(va, viewStride v.tfmt)] = .ok ps →
          ((∀ x ∈ pieces ps, x.1 < 2 ^ 45 ∧ s.pathDown (x.1 / 128 * 128) = false) → ∃ t u, exec (.viewBlockWrite e) s = .next t
            ∧ s.putHome none (pieces ps) (deriveBytes v m.fmt book w.elems ++ leBytes 4 tag ++ List.replicate 124 0) = some u ∧ t.mem = u.mem
            ∧ block t (fun z => { z with tag := tag, never := false, poison := false }) ∧ on_ t)
          ∧ ((∃ x ∈ pieces ps, x.1 < 2 ^ 45 ∧ 0 < x.2 ∧ s.pathDown (x.1 / 128 * 128) = true) → failed)))

/-- R345, R349: a derivation of a VQ2 view reads the codebook at its cbva, 256 entries of 8 bytes, as it lies in this module at its home; a page that
is gone and a port that is down fail it with their detail. A view of another target reads none. -/
def Claims.ViewCodebooks : Prop :=
  ∀ (s : State) e v,
    (v.tfmt ≠ 0x13 → ∃ book, s.viewBook e v = .ok (.inr book) s)
    ∧ (v.tfmt = 0x13 → s.walked v.pasid [(v.cbva, 2048)] = s →
      (s.span v.job v.pasid (fun y => y.read) [(v.cbva, 2048)] = .bad → s.viewBook e v = .ok (.inl (0x04, 0)) s)
      ∧ ∀ ps, s.span v.job v.pasid (fun y => y.read) [(v.cbva, 2048)] = .ok ps →
        let pieces := keyPieces ps v.cbva 2048
        ((∀ x ∈ pieces, s.pieceHome x) → s.viewBook e v = .ok (.inr fun i => BitVec.ofNat 64
            (leNat (((pieces.flatMap fun x => leBytes x.2 (memRead s.mem x.1 x.2)).drop (8 * i)).take 8))) s)
        ∧ ((∃ x ∈ pieces, x.1 < 2 ^ 45 ∧ s.pathDown x.1 = true) → s.viewBook e v = .ok (.inl (0x14, 0)) s))

/-- R350: the containment record of a poisoned view block, in the layout of R91: VIEWPOISON by the view engine, the block's home, the view's id and the
block's number, the addresses of the view block and of the master block, the detail, the error's address for 0x0F, and the time. -/
def Claims.ContainmentRecords : Prop :=
  ∀ (s : State) v m b d pa k, pageKey m.pages (m.blockVa b) = some k →
    (s.containment v m b d pa).words = [0x0D + 2 ^ 15 + s.homeSlice k * 2 ^ 16 + s.dev.modNum * 2 ^ 24, b + v.id * 2 ^ 32, 0,
      v.blockVa m.across b % 2 ^ 64, 0, 0, 0, 0, 0, m.blockVa b % 2 ^ 64, 0, 4 + d * 2 ^ 8, if d = 0x0F then pa else 0, s.dev.ns, 0, 0]

/-- R195, R199, R202, R294, R296, R345: the data part of a view block. BF16: every element of the master block rounded, in the layout's order. MXFP8 and
MXFP4 in ROWS: the codes row by row and one scale byte a group in the order of the group grid, each group 32 elements of a row (axis 0) or of a column
(axis 1) quantised together. A KPACK layout: its rows of column and slot order, k in kpr steps a row, quantised as a copy into a bank of that format. -/
def Claims.ViewBlockData : Prop :=
  ∀ (v : View) fmt book (es : List W32),
    let val (r c : Nat) : Val := elemVal fmt (es.getD (128 * r + c) 0).toNat
    let bf (x : Val) : List Byte := leBytes 2 (convVal 1 0 false false x)
    let bytes := deriveBytes v fmt book es
    let kpr := kprOf v.tfmt
    let slot (j e : Nat) : Val := if v.layout = 1 then val (j * kpr + e % kpr) (e / kpr) else val (e / kpr) (j * kpr + e % kpr)
    (v.tfmt = 1 → v.layout = 0 → bytes = (List.range 16384).flatMap fun k => bf (val (k / 128) (k % 128)))
    ∧ (v.tfmt = 1 → v.layout ≠ 0 → bytes = (List.range (128 / kpr)).flatMap fun j => (List.range (128 * kpr)).flatMap fun e => bf (slot j e))
    ∧ (v.layout = 0 → (v.tfmt = 0x10 ∨ v.tfmt = 0x11) → ∀ r c, r < 128 → c < 128 →
        let g := if v.axis = 0 then 4 * r + c / 32 else r / 32 * 128 + c
        let q := if v.axis = 0 then quantMx v.tfmt ((List.range 32).map fun i => val r (c / 32 * 32 + i))
          else quantMx v.tfmt ((List.range 32).map fun i => val (r / 32 * 32 + i) c)
        (bytes.getD (128 * r + c) 0).toNat = (q.2.getD (if v.axis = 0 then c % 32 else r % 32) 0) % 256
        ∧ (bytes.getD (16384 + g) 0).toNat = q.1 % 256)
    ∧ (v.layout = 0 → v.tfmt = 0x12 → ∀ r c, r < 128 → c < 128 →
        let g := if v.axis = 0 then 4 * r + c / 32 else r / 32 * 128 + c
        let q := if v.axis = 0 then quantMx v.tfmt ((List.range 32).map fun i => val r (c / 32 * 32 + i))
          else quantMx v.tfmt ((List.range 32).map fun i => val (r / 32 * 32 + i) c)
        (bytes.getD (64 * r + c / 2) 0).toNat / 16 ^ (c % 2) % 16 = (q.2.getD (if v.axis = 0 then c % 32 else r % 32) 0) % 16
        ∧ (bytes.getD (8192 + g) 0).toNat = q.1 % 256)
    ∧ (v.layout ≠ 0 → v.tfmt ≠ 1 → let n := if v.axis = 0 then 1 else runRows v.tfmt
        bytes = (List.range (128 / kpr / n)).flatMap fun i =>
          let q := quantRows v.tfmt (v.axis != 0) book ((List.range n).map fun j => (List.range (128 * kpr)).map (slot (i * n + j)))
          q.1.flatten ++ q.2)

/-- R238, R240-R242, R245: JOB_PLACE places what the head job can place, else pre-empts for it, and a GANG head that can do neither holds every
later job back: the last placement that a job owes takes it out of its FIFO; a placement goes to the lowest free plaza of its diemask on a preferred die, else to the lowest free one; a plaza it is put on
is starting, and the cycle from which the next one put on its die may begin step 1 of R231 is 16 cycles or more after it was put there. -/
def Claims.JobPlacing : Prop :=
  (∀ (s : State) head rest, let u := s.settleQueue; u.queue = head :: rest →
    (∀ t, u.tryPlace head = some t → exec .jobPlace s = .next t)
    ∧ (∀ t, u.tryPlace head = none → u.tryPreempt head = some t → exec .jobPlace s = .next t)
    ∧ (u.tryPlace head = none → u.tryPreempt head = none → head.launch.gang = true → exec .jobPlace s = .next u)
    ∧ ∀ q, head.launch.gang = false → head.saves = [] → head.restarts = [] → u.saving head.id = [] → head.first + 1 = head.total →
      0 < u.freeSlots → u.placer.saveslots ≠ 0 → u.pickPlaza head.launch head.first = some q →
      ∃ t, exec .jobPlace s = .next t ∧ t.mem = s.mem ∧ (t.plaza q).res = .starting ∧ (t.place q).job = head.id ∧ (t.place q).index = head.first
        ∧ head.id ∉ t.placer.fifo)
  ∧ (∀ (s : State), (∀ j ∈ s.placer.jobs, j.id ∈ s.placer.fifo → s.owed j ≠ 0 ∨ s.saving j.id ≠ []) → s.settleQueue = s)
  ∧ (∀ (s : State) l idx q, s.pickPlaza l idx = some q →
    let fits (r : Nat) : Prop := s.plazaFree r = true ∧ bit l.diemask (dieOf r) = true ∧ r < 192
    fits q ∧ (dieOf q ∈ l.preferred idx → ∀ r, r < q → fits r → dieOf r ∉ l.preferred idx)
    ∧ (dieOf q ∉ l.preferred idx → ∀ r, fits r → dieOf r ∉ l.preferred idx ∧ q ≤ r))
  ∧ ∀ (s : State) j q idx, let t := s.assign j q idx false
    (t.plaza q).res = .starting ∧ (t.place q).job = j.id ∧ (t.place q).index = idx ∧ (t.place q).pasid = j.launch.pasid
    ∧ s.dev.cycle + 16 ≤ (t.plaza q).startAt ∧ t.mem = s.mem ∧ (∀ r, r ≠ q → t.plaza r = s.plaza r)
    ∧ t.placer.jobs = s.placer.jobs.map fun y => if y.id = j.id then
        { y with prio := if (s.onPlazas j.id).isEmpty then y.level else y.prio, slots := y.slots + 1
                 first := if j.restarts.any (fun r => r.index == idx) then y.first else y.first + 1
                 restarts := y.restarts.filter fun r => r.index != idx } else y

/-- R231, R242: step 1 of R231 begins in PLACEMENT_START only where every placement put on its die before it has begun, each of those 16 cycles ago or
more: the plaza notes the cycle 16 cycles on, before which no other placement of its die begins; a placement whose turn has not come waits. -/
def Claims.StartSpacing : Prop :=
  ∀ (s : State) p j, s.job (s.place p).job = some j → (s.plaza p).res = .starting → (s.plaza p).begun = none → s.live p = true →
    let others (f : Plaza → Prop) : Prop := ∀ x ∈ s.plazas, x.1 ≠ p → dieOf x.1 = dieOf p → f x.2
    let waits (q : Plaza) : Prop := q.begun = none ∧ (q.res = .starting ∨ q.res = .resuming)
    let turn : Prop := (s.plaza p).startAt ≤ s.dev.cycle + 16 ∧ others (fun q => waits q → (s.plaza p).startAt < q.startAt)
      ∧ others (fun q => q.begun.isSome = true → q.startAt ≤ s.dev.cycle)
    (¬turn → exec (.placementStart p) s = .next s)
    ∧ (turn → ∀ t, exec (.placementStart p) s = .next t → (t.plaza p).begun.isSome = true ∧ (t.plaza p).startAt = s.dev.cycle + 16)

/-- R237: AGING moves each queued launch below level 3 that has waited AGESTEP microseconds at its level one level up, where its wait begins
again, and no other; with AGESTEP 0 nothing ages. -/
def Claims.AgingMoves : Prop :=
  ∀ (s : State), (s.placer.agestep = 0 → exec .aging s = .next s)
    ∧ (s.placer.agestep ≠ 0 → (s.placer.jobs.map fun j => j.id).Nodup → ∃ t, exec .aging s = .next t ∧ t.mem = s.mem ∧ t.plazas = s.plazas
      ∧ (∀ id, id ∈ t.placer.fifo ↔ id ∈ s.placer.fifo)
      ∧ t.placer.jobs = s.placer.jobs.map fun j =>
          if j.id ∈ s.placer.fifo ∧ j.level < 3 ∧ j.since + s.placer.agestep * 1000 ≤ s.dev.ns then { j with level := j.level + 1, since := s.dev.ns } else j)

/-- R187, R246, R338: SAVE_COMPLETE, once everything begun has ended and no trap is kept for a context, puts the placement with its buffers in its job's save slot and frees the
plaza; before that it does nothing. -/
def Claims.SaveCompletes : Prop :=
  ∀ (s : State) p, (s.saveReady p = false → exec (.saveComplete p) s = .next s)
    ∧ (s.saveReady p = true → (s.place p).lanes = [] → (s.place p).async = [] → ∃ t v, exec (.saveComplete p) s = .next t ∧ t.mem = s.mem
      ∧ (t.plaza p).res = .free ∧ t.place p = Place.off ∧ (t.plaza p).preempt = false ∧ (∀ r, r ≠ p → t.plaza r = s.plaza r)
      ∧ t.placer.jobs = s.placer.jobs.map (fun j => if j.id = (s.place p).job then
          { j with saves := j.saves.filter (fun w => w.place.index != (s.place p).index) ++ [v] } else j)
      ∧ v.wb = (s.plaza p).wb ∧ v.ab = (s.plaza p).ab ∧ v.cb = (s.plaza p).cb ∧ v.scratch = (s.plaza p).scratch ∧ v.plaza = p
      ∧ v.seq = (s.plaza p).pubBegun ∧ v.place.job = (s.place p).job ∧ v.place.index = (s.place p).index ∧ v.place.tokens = (s.place p).tokens
      ∧ v.place.shapes = (s.place p).shapes ∧ v.place.alley = (s.place p).alley ∧ v.place.rings = (s.place p).rings
      ∧ v.place.ctx = (s.place p).ctx.map fun x => (x.1, x.2.saved))

/-- R231, R243, R260: a placement is put on its plaza with its contexts at their entries, coordinates and arguments in their registers, one that
restarts at the word after its checkpoint site with the checkpoint word in g10, a saved one with its contexts; PLACEMENT_START and
PLACEMENT_RESUME, once the plaza is prepared and what came before is acquired, make it resident, with all else that its save slot holds. -/
def Claims.PlacementStarts : Prop :=
  (∀ (s : State) p j, s.job (s.place p).job = some j →
    let ready (size pl : Nat) (key : Nat × Nat) : Prop := s.live p = true ∧ (∀ k, (s.plaza p).tenant = some k → k = key)
      ∧ (∃ n, (s.plaza p).begun = some n ∧ n + 16 * size ≤ s.dev.cycle) ∧ (∀ y ∈ (s.plaza p).l1v, y.way < size → y.way < (s.plaza p).segments)
      ∧ s.noticesFrom p = false ∧ pl = p
    ((s.plaza p).res = .starting → ready (j.launch.scratch / 8192) j.launch.plaza (s.keyOf j.launch.pasid) →
      ∃ t, exec (.placementStart p) s = .next t ∧ t.mem = s.mem ∧ (t.plaza p).res = .resident ∧ t.place p = s.place p
        ∧ (t.plaza p).segments = j.launch.scratch / 8192 ∧ (t.plaza p).scratch = [])
    ∧ (∀ s1 s2, (s.plaza p).res = .starting → s.prepare p (j.launch.scratch / 8192) (s.keyOf j.launch.pasid) = (true, s1) →
      s1.acquirePlaza p j.launch.plaza j.launch.seq = (true, s2) → ∃ t, exec (.placementStart p) s = .next t ∧ t.mem = s2.mem
        ∧ (t.plaza p).res = .resident ∧ t.place p = s2.place p)
    ∧ (∀ s1, (s.plaza p).res = .starting → s.prepare p (j.launch.scratch / 8192) (s.keyOf j.launch.pasid) = (false, s1) →
      exec (.placementStart p) s = .next s1)
    ∧ ∀ v, (s.plaza p).res = .resuming → j.saves.find? (fun w => w.place.index == (s.place p).index) = some v →
      ready (v.place.scrsize / 8192) v.plaza (s.keyOf v.place.pasid) →
      v.place.blocks = [] → v.place.records = [] → v.place.refused = [] → (s.plaza p).pending = [] → ∃ t, exec (.placementResume p) s = .next t ∧ t.mem = s.mem
        ∧ (t.plaza p).res = .resident ∧ (t.plaza p).wb = v.wb ∧ (t.plaza p).ab = v.ab ∧ (t.plaza p).cb = v.cb ∧ (t.plaza p).scratch = v.scratch
        ∧ (t.place p).ctx = (s.place p).ctx ∧ (t.place p).arrivals = (s.place p).arrivals
        ∧ (t.place p).tokens = v.place.tokens ∧ (t.place p).shapes = v.place.shapes
        ∧ (t.place p).alley = v.place.alley ∧ (t.place p).rings = v.place.rings ∧ (t.place p).job = v.place.job ∧ (t.place p).index = v.place.index
        ∧ (t.place p).handles = v.place.handles.map fun x => (x.1, x.2.resume))
  ∧ (∀ (s : State) j q idx,
      ((∀ r ∈ j.restarts, r.index ≠ idx) → (s.assign j q idx false).place q = j.launch.place j.id idx)
      ∧ ∀ v, j.saves.find? (fun w => w.place.index == idx) = some v →
        ((s.assign j q idx true).place q).ctx = v.place.ctx ∧ ((s.assign j q idx true).place q).arrivals = v.place.arrivals)
  ∧ (∀ (l : Launch) job r c i site, c < 3 → r.sites.getD c none = some i → l.sites[i]? = some site →
      let q := l.restartPlace job r
      let x := tabGet (Ctx.off .ended) q.ctx c
      x.pc = site + 4 ∧ x.reg 10 = r.word ∧ q.avtail = r.avtail ∧ q.altail = r.altail ∧ q.alhead = r.alhead ∧ q.blocks = [] ∧ q.alley = [])
  ∧ ∀ (l : Launch) job idx c, let x := tabGet (Ctx.off .ended) (l.place job idx).ctx c
    (∀ e, c < 3 → l.roles.getD c none = some e → x.state = .running ∧ x.pc = e ∧ x.levels = [] ∧ x.insret = 0
      ∧ (∀ i, i < 6 → x.reg (i + 1) = BitVec.ofNat 64 ((l.coords idx).getD i 0)) ∧ x.reg 7 = l.argva ∧ x.reg 8 = BitVec.ofNat 64 idx
      ∧ x.reg 9 = BitVec.ofNat 64 job ∧ ∀ n, 10 ≤ n → x.reg n = 0)
    ∧ (c < 3 → l.roles.getD c none = none → x.state = .ended) ∧ (c = 3 ∨ c = 4 → x.state = .dormant)

/-- R145, R232, R248: PLACEMENT_END of the last placement writes the completion word, ends the job and frees the plaza; before another counts its
plaza publishes; a placement that is not over stays, and so does one whose completion word cannot be written yet. The completion value has bit 63, and after a halt bit 62 with the first halt's status. -/
def Claims.PlacementEnds : Prop :=
  (∀ (s : State) p j, s.job (s.place p).job = some j → (s.place p).lanes = [] →
    ((s.place p).over = false → exec (.placementEnd p) s = .next s)
    ∧ ((s.plaza p).res = .resident → (s.place p).over = true →
      let j1 := { j with left := j.left ++ (s.place p).left, ended := j.ended + 1, ends := j.ends ++ [p], halt := firstHalt j.halt (s.place p).haltMark }
      (∀ t, j.ended + 1 = j.total → s.writeCompletion p 9 j.launch.pasid j.launch.donewa (completionValue j1.halt) = .wait t →
        exec (.placementEnd p) s = .next t)
      ∧ (∀ written t, j.ended + 1 = j.total → s.writeCompletion p 9 j.launch.pasid j.launch.donewa (completionValue j1.halt) = .ok written t →
        ∃ u, exec (.placementEnd p) s = .next u ∧ u.mem = t.mem ∧ (u.plaza p).res = .free ∧ u.place p = Place.off
          ∧ u.placer.jobs = t.placer.jobs.filter fun x => x.id != j.id)
      ∧ (j.ended + 1 = j.total → j.launch.donewa = 0 → ∃ u, exec (.placementEnd p) s = .next u ∧ u.mem = s.mem ∧ (u.plaza p).res = .free
          ∧ u.place p = Place.off ∧ u.placer.jobs = s.placer.jobs.filter fun x => x.id != j.id)
      ∧ (j.ended + 1 ≠ j.total → (s.plaza p).await = none →
        exec (.placementEnd p) s = .next ((s.modPlaza p fun x =>
          { x with await := some ⟨0, s.plazaId p, (s.plaza p).pubBegun, true, false, false⟩ }).sendPublish (s.plazaId p) (s.plaza p).pubBegun (.ctx p 9)))
      ∧ ∀ a, j.ended + 1 ≠ j.total → (s.plaza p).await = some a → a.done = true →
        ∃ t, exec (.placementEnd p) s = .next t ∧ t.mem = s.mem ∧ (t.plaza p).res = .free ∧ t.place p = Place.off))
  ∧ completionValue none = 0x8000000000000000
  ∧ ∀ a b (st : W32), (completionValue (some (a, b, st))).toNat = 0xC000000000000000 + st.toNat

/-- R276, R279-R281: NEST_ACTIVATE starts the pending nest once its waits are over, its accumulators 0; NEST_STAGE_TAKE takes the FULL stage its
step needs and waits for one that is not, where a halt has it discarded; NEST_DRAIN writes the sub-arrays that remain of the drain in flight, the
last one as a tile; NEST_COMPLETE ends the finished nest with its token DONE once its drain is over. -/
def Claims.NestEvents : Prop :=
  ∀ (s : State) p,
    (∀ n c, (s.place p).active = none → (s.place p).pendingN = some (n, c) → c.ready = true → s.serves p = true →
      (c.cancelled = false → ∃ t a, exec (.nestActivate p) s = .next t ∧ t.mem = s.mem ∧ (t.place p).pendingN = none ∧ (t.place p).active = some a
        ∧ a.nest = n ∧ a.cmd = c ∧ a.idx = [0, 0, 0, 0, 0, 0] ∧ a.phase = .take ∧ a.stageA = none ∧ a.stageB = none ∧ a.drain = none
        ∧ ∀ j m k, ((a.acc.getD j []).getD m []).getD k 0 = 0)
      ∧ (c.cancelled = true → exec (.nestActivate p) s = .next ((s.modPlace p fun q => { q with pendingN := none }).endCmd p c false)))
    ∧ ∀ a, (s.place p).active = some a →
      (a.phase = .take → s.serves p = true → a.nest.ringa ≠ 15 → a.nest.advA = some 0 → a.nest.advB = none → a.idx = [0, 0, 0, 0, 0, 0] →
        a.stageA = none →
        let x := s.ring p a.nest.ringa
        (x.stage x.cc ≠ .full → (s.place p).halted = false → exec (.nestStageTake p) s = .next s)
        ∧ (x.stage x.cc ≠ .full → (s.place p).halted = true → exec (.nestStageTake p) s = .next (s.dropNest p a))
        ∧ (x.stage x.cc = .full → ∃ t, exec (.nestStageTake p) s = .next t ∧ t.mem = s.mem
            ∧ (t.place p).active = some { a with stageA := some x.cc, phase := .step, todo := a.reads, got := [] }
            ∧ t.ring p a.nest.ringa = { x with stages := listMod x.stages x.cc (fun _ => .draining), cc := (x.cc + 1) % Nat.max 1 (ringStages x.desc) }))
      ∧ (a.drain = none → exec (.nestDrain p) s = .next s)
      ∧ (∀ d, a.drain = some d → d.sub ≤ 3 → a.phase ≠ .discarded → ∃ t, exec (.nestDrain p) s = .next t ∧ t.mem = s.mem
          ∧ (t.place p).active = some { a with drain := none, drains := a.drains + 1 })
      ∧ (∀ d, a.drain = some d → d.sub = 3 → d.rows = List.range a.nest.tileRows → a.phase ≠ .discarded → exec (.nestDrain p) s = .next
          ((s.drainTile p a.nest d 3).modPlace p fun q => { q with active := some { a with drain := none, drains := a.drains + 1 } }))
      ∧ (a.phase = .finished → a.drain = none → s.token p a.cmd.tok = ⟨.outstanding, a.cmd.id⟩ → ∃ t, exec (.nestComplete p) s = .next t ∧ t.mem = s.mem
          ∧ (t.place p).active = none ∧ t.token p a.cmd.tok = ⟨.done, a.cmd.id⟩ ∧ ∀ m, m ≠ a.cmd.tok → t.token p m = s.token p m)
      ∧ (a.phase ≠ .finished ∨ a.drain ≠ none → exec (.nestComplete p) s = .next s)

/-- R274, R276-R278: what MGO finds of a nest. NESTINVALID where it has not exactly one drain level, a level below that lacks K, or a ring rule is
broken; where the rows that its steps read lie in banks of differing formats or in a raw one, mix integer and float or do not suit the output, lie outside
their ring's rows, or in two banks in one step. Then BANKCONFLICT where two distinct streams read one bank in one cycle; else the nest is taken. The row of
a stream is the base plus each index times its step plus the mode's offset. -/
def Claims.NestChecks : Prop :=
  ∀ (s : State) p (n : Nest),
    let has (l : Nat) : Prop := l < 6 ∧ (n.level l).count ≠ 0
    let rings (ring : Nat) (wb : Bool) (adv : NestLevel → Bool) : Prop :=
      (∀ l m, has l → has m → adv (n.level l) = true → adv (n.level m) = true → l = m)
      ∧ ((∃ l, has l ∧ adv (n.level l) = true) ↔ ring ≠ 15)
      ∧ (ring ≠ 15 → (s.ring p ring).desc ≠ 0 ∧ ringWb (s.ring p ring).desc = wb)
    let shape : Prop := (∃ d, has d ∧ (n.level d).drain = true ∧ (∀ l, has l → (n.level l).drain = true → l = d)
        ∧ ∀ l, has l → d < l → (n.level l).k = true)
      ∧ rings n.ringa false (fun v => v.adva) ∧ rings n.ringb true (fun v => v.advb) ∧ (n.ringa ≠ 15 → n.ringa ≠ n.ringb)
    let cc (ring : Nat) : Nat := if ring = 15 then 0 else s.startCursor p ring
    let a (t j : Nat) : Nat := s.plannedRow p n n.ringa n.advA (cc n.ringa) (n.tuple t) (n.offA (n.tuple t) j)
    let b (t j : Nat) : Nat := s.plannedRow p n n.ringb n.advB (cc n.ringb) (n.tuple t) (n.offB (n.tuple t) j)
    let all (wb : Bool) (r : Nat → Nat → Nat) (f : Nat) : Prop := ∀ t j, t < n.total → j < 4 → s.rowReg p wb (r t j) % 256 = f
    let outside (ring m : Nat) (off : List Nat → Nat → Int) (t j : Nat) : Prop :=
      ring ≠ 15 ∧ ¬(0 ≤ off (n.tuple t) j + m - 1 ∧ off (n.tuple t) j + m ≤ (ringRows (s.ring p ring).desc : Nat))
    let clash (stream : Nat → Nat) (m : Nat) (r : Nat → Nat → Nat) : Prop := ∃ t c i j, t < n.total ∧ c < m ∧ i < 4 ∧ j < 4 ∧ stream i ≠ stream j
      ∧ (r t i + c) % 16384 / 2048 = (r t j + c) % 16384 / 2048
    (¬shape → s.checkNest p n = .invalid)
    ∧ (shape → (¬(∃ f, f ≠ 0 ∧ all false a f) ∨ ¬(∃ f, f ≠ 0 ∧ all true b f)) → s.checkNest p n = .invalid)
    ∧ (shape → ∀ fa fb, fa ≠ 0 → fb ≠ 0 → all false a fa → all true b fb →
      let kstep := Nat.max (kprOf fa) (kprOf fb)
      let na := kstep / kprOf fa
      let nb := kstep / kprOf fb
      let misfit : Prop := intFmt fa ≠ intFmt fb ∨ decide (n.out = 2) ≠ intFmt fa
        ∨ ∃ t j, t < n.total ∧ j < 4 ∧ (outside n.ringa na n.offA t j ∨ outside n.ringb nb n.offB t j ∨ 2048 < a t j % 2048 + na ∨ 2048 < b t j % 2048 + nb)
      (misfit → s.checkNest p n = .invalid)
      ∧ (¬misfit → clash (streamA n.mode) na a ∨ clash (streamB n.mode) nb b → s.checkNest p n = .conflict)
      ∧ (¬misfit → ¬(clash (streamA n.mode) na a ∨ clash (streamB n.mode) nb b) → s.checkNest p n = .ok (kprOf fa) (kprOf fb)))
    ∧ (n.ringa = 15 → ∀ t j, a t j = wrapInt 14 (n.offA (n.tuple t) j)) ∧ (n.ringb = 15 → ∀ t j, b t j = wrapInt 14 (n.offB (n.tuple t) j))
    ∧ (∀ idx j, let sum (f : NestLevel → Int) : Int := (([0, 1, 2, 3, 4, 5].map fun l =>
          if (n.level l).count = 0 then 0 else (idx.getD l 0 : Int) * f (n.level l))).foldl (fun x y => x + y) 0
        n.offA idx j = n.abase + sum (fun v => v.sa) + (if n.mode = 0 then 0 else if n.mode = 1 then j / 2 else j : Nat) * n.sa
        ∧ n.offB idx j = n.bbase + sum (fun v => v.sb) + (if n.mode = 2 then 0 else if n.mode = 1 then j % 2 else j : Nat) * n.sb)

/-- R207, R208, R276: a step whose rows are all read adds them to the accumulators: output (m, n) of sub-array j goes on from its sum, or from +0 at the
first step of an iteration of the drain level, with the products of its column m of A and n of B, group by group; one that a read did not fit is spoiled and
stays so until the next reset. After the drain level's last step the sums go to the drain, and after the last step of an iteration of an advance level
its stage is EMPTY. A float group's products are summed exactly and added with one rounding; integers add modulo 2^32. -/
def Claims.NestAccumulates : Prop :=
  (∀ (s : State) p k a, (s.place p).active = some a → a.phase = .step → a.todo = [] →
    (∀ j, j < 4 → (a.acc.getD j []).length = 128 ∧ ∀ r ∈ a.acc.getD j [], r.length = 128) →
    let fresh := a.nest.firstOf a.idx a.nest.drainLevel
    let kstep := Nat.max a.kprA a.kprB
    let g := Nat.min (kpcOfKpr a.kprA) (kpcOfKpr a.kprB)
    let t := s.nestStep p k
    ∃ b, (t.place p).active = some b ∧ t.mem = s.mem ∧ (t.plaza p).cb = (s.plaza p).cb ∧ b.nest = a.nest
      ∧ (a.nest.lastOf a.idx a.nest.drainLevel = true → a.drain = none → b.drain = some ⟨a.idx, b.acc, b.spoiled, 0, List.range a.nest.tileRows⟩)
      ∧ (∀ l st, a.nest.advA = some l → a.nest.lastOf a.idx l = true → a.stageA = some st → st < (s.ring p a.nest.ringa).stages.length →
          (t.ring p a.nest.ringa).stage st = .empty)
      ∧ ∀ j, j < 4 →
        let x := s.operandOf p a false (streamA a.nest.mode j) (kstep / a.kprA) a.kprA
        let y := s.operandOf p a true (streamB a.nest.mode j) (kstep / a.kprB) a.kprB
        (b.spoiled.getD j false = true ↔ x.2 = false ∨ y.2 = false ∨ (fresh = false ∧ a.spoiled.getD j false = true))
        ∧ (b.spoiled.getD j false = false → ∀ m n, m < 128 → n < 128 →
            ((b.acc.getD j []).getD m []).getD n 0 = accStep (a.nest.out == 2) g (x.1.getD m []) (y.1.getD n []) (kstep / g)
              (if fresh then 0 else ((a.acc.getD j []).getD m []).getD n 0)))
  ∧ (∀ (s : State) p a wb stream kpr (r : RowGot), a.got.find? (fun g => g.read == ⟨wb, stream, 0, false⟩) = some r → 0 < kpr → kpr ≤ 4 →
      let f := r.reg % 256
      let fits : Bool := f != 0 && kprOf f == kpr && intFmt f == (a.nest.out == 2)
      (s.operandOf p a wb stream 1 kpr).2 = fits
      ∧ (fits = true → scaled f = false → ∀ c i, c < 128 → i < kpr → (((s.operandOf p a wb stream 1 kpr).1.getD c [])[i]?)
          = some (elemVal f (leNat r.bytes / 2 ^ (16 / kpr * (c * kpr + i)) % 2 ^ (16 / kpr)))))
  ∧ (∀ x g a b acc, accStep x g a b 0 acc = acc)
  ∧ (∀ g a b k acc, accStep false g a b (k + 1) acc
      = accStep false g (a.drop g) (b.drop g) k (toF32 ((f32 acc).add (groupSum (a.take g) (b.take g)))))
  ∧ (∀ x y a b, groupSum (x :: a) (y :: b) = (a.zip b).foldl (fun z v => z.add (v.1.mul v.2)) (x.mul y))
  ∧ ∀ g (a b : List Val) k acc, 0 < g → a.length = g * k → b.length = g * k →
      accStep true g a b k acc = acc + BitVec.ofInt 32 ((a.zip b).foldl (fun z v => z + v.1.toZ * v.2.toZ) 0)

/-- R209, R276: an element of a tile is drained as its sum, or its sum added to the word that stands there, in the output's format; a spoiled one is
written as NaN, or 0 for I32, and nothing is added. -/
def Claims.DrainedElements : Prop :=
  ∀ (old : W32) (acc : W32) (half : Nat),
    drained 0 false false old.toNat acc = acc.toNat
    ∧ drained 0 true false old.toNat acc = (fadd32 old acc).toNat
    ∧ drained 2 false false old.toNat acc = acc.toNat ∧ drained 2 true false old.toNat acc = (acc + old).toNat
    ∧ drained 1 false false half acc = roundNE bf16 (f32 acc)
    ∧ drained 1 true false half acc = roundNE bf16 (f32 (toF32 ((decodeF bf16 half).add (f32 acc))))
    ∧ ∀ plus, drained 0 plus true old.toNat acc = 0x7FC00000 ∧ drained 1 plus true half acc = 0x7FC0 ∧ drained 2 plus true old.toNat acc = 0

/-- R209, R279: a drain of an FP32 tile that does not add writes output (m, 32q + e) of its sub-array to word e of CB row c + 4m + q, and no row
outside the tile. -/
def Claims.DrainWritesTile : Prop :=
  ∀ (s : State) p (n : Nest) (d : Drain) j, n.out = 0 → n.plus d.idx = false → d.spoiled.getD j false = false → (d.acc.getD j []).length = 128 →
    (∀ r ∈ d.acc.getD j [], r.length = 128) →
    let row (m q : Nat) : Nat := wrapInt 14 (n.drainRow d.idx j + (4 * m + q : Nat))
    (∀ m q e, m < 128 → q < 4 → e < 32 →
      rowWord ((s.drainTile p n d j).cbRow p (row m q)) e = ((d.acc.getD j []).getD m []).getD (32 * q + e) 0)
    ∧ ∀ r, (∀ m q, m < 128 → q < 4 → r ≠ row m q) → (s.drainTile p n d j).cbRow p r = s.cbRow p r

/-- R129, R304, R306: LSCHED at the head of its queue loads a slot with steps free of defects in ascending time and completes; LGO starts the
slot's schedule at its time on the placement that loaded it; a command whose wait failed is cancelled. -/
def Claims.ScheduleCommands : Prop :=
  ∀ (s : State) p c, s.serves p = true → (s.place p).linkHead = some c → c.ready = true →
    let sl := s.slot (dieOf p) c.arg
    (c.cancelled = true → c.major = majLsched → exec (.scheduleLoad p) s = .next (s.endCmd p c false))
    ∧ (c.cancelled = true → c.major = majLgo → exec (.scheduleStart p) s = .next (s.endCmd p c false))
    ∧ (c.cancelled = false → c.major = majLsched → sl.running = false → sl.job = none ∨ sl.job = some c.job →
      let n := bits c.opb.toNat 15 0
      1 ≤ n → n ≤ 4096 → bits c.opb.toNat 47 32 ≠ 0 → c.opa.toNat % 32 = 0 → ∀ bs t, s.engineVa p (linePieces c.opa.toNat (32 * n)) = .ok bs t →
        let vs := (List.range n).map fun i => leNat ((bs.drop (32 * i)).take 32)
        vs.all stepOk = true → stepsRise (vs.map stepOf) = true → (∀ x ∈ vs.map stepOf, ∀ f ∈ [x.sfmt, x.wfmt, x.dfmt], t.fmtOn p f = true) →
        exec (.scheduleLoad p) s = .next ((t.modSlot (dieOf p) c.arg fun x =>
          { x with job := some c.job, index := c.index, plaza := p, steps := vs.map stepOf, period := bits c.opb.toNat 47 32, next := 0 }).endCmd p c true))
    ∧ (∀ key priv, c.cancelled = false → c.major = majLsched → sl.running = false → sl.job = none ∨ sl.job = some c.job → bits c.opb.toNat 15 0 = 1 →
      bits c.opb.toNat 47 32 ≠ 0 → c.opa.toNat % 32 = 0 → s.checkVa p (s.place p).pasid c.opa 0 .read = .ok (key, priv) s → s.homeOnly p key 32 →
      let x := stepOf (memRead s.mem key 32)
      stepOk (memRead s.mem key 32) = true → (∀ f ∈ [x.sfmt, x.wfmt, x.dfmt], s.fmtOn p f = true) →
      exec (.scheduleLoad p) s = .next ((s.modSlot (dieOf p) c.arg fun y =>
        { y with job := some c.job, index := c.index, plaza := p, steps := [x], period := bits c.opb.toNat 47 32, next := 0 }).endCmd p c true))
    ∧ ∀ y, c.cancelled = false → c.major = majLgo → sl.running = false → sl.job = some c.job → s.dev.locked = true → s.dev.ns ≤ c.opa.toNat →
      s.findPlace c.job sl.index = some (some p, y) → ∃ t, exec (.scheduleStart p) s = .next t ∧ t.mem = s.mem
        ∧ t.slot (dieOf p) c.arg = { sl with running := true, start := c.opa.toNat, next := 0, plaza := p, cmd := some (p, c.id), result := none, fail := none }

/-- R305, R306: a schedule's step runs when its time has come and it is ready, a token's step once its token is free or done, and its slot goes on
to the next; one that is not due stays; a
pause moves the steps from its time on by one period; the last step's end completes the command, once no write of it is on its
way to another module, and frees the slot's run. -/
def Claims.ScheduleRuns : Prop :=
  ∀ (s : State) d n, let x := s.slot d n
    (s.stepDue x = false → exec (.scheduleStep d n) s = .next s)
    ∧ (∀ t, s.stepDue x = true → s.slotFailure x = none → s.stepReady x = true → s.stepEffect d n = .ok () t → ∃ u, exec (.scheduleStep d n) s = .next u
        ∧ (u.slot d n).next = (t.slot d n).next + 1 ∧ (u.slot d n).result = none ∧ u.mem = t.mem)
    ∧ (let y := x.steps.getD x.next noStep
       y.op = 4 → s.stepDue x = true → s.slotFailure x = none → (s.token x.plaza y.tok).st = .free ∨ (s.token x.plaza y.tok).st = .done →
       ∃ u, exec (.scheduleStep d n) s = .next u ∧ (u.slot d n).next = x.next + 1 ∧ (u.slot d n).result = none ∧ u.mem = s.mem)
    ∧ (∀ i, x.pauses = [] → x.time i = x.start + (x.steps.getD i noStep).tslot)
    ∧ (∀ tm, s.stepDue x = true → s.stepReady x = false → s.slotFailure x = none → x.time x.next = tm → x.ports = [] → ∃ u, exec (.pause d n tm 0) s = .next u ∧ u.mem = s.mem
        ∧ (u.slot d n).pauses = (tm, some x.next) :: x.pauses.filter (fun q => q.1 != tm))
    ∧ (∀ tm, (∀ q ∈ x.pauses, q.1 ≠ tm) → x.ports = [] → ∃ u, exec (.pause d n tm 1) s = .next u ∧ u.mem = s.mem
        ∧ (u.slot d n).pauses = (tm, none) :: x.pauses
        ∧ ∀ i, (u.slot d n).time i = x.time i + if tm < x.start + (x.steps.getD i noStep).tslot then x.period else 0)
    ∧ (∀ i bs, ∃ u, exec (.scheduleData d n i bs) s = .next u ∧ u.mem = s.mem ∧ tabGet [] (u.slot d n).data i = bs ∧ (u.slot d n).steps = x.steps
        ∧ ∀ j, j ≠ i → tabGet [] (u.slot d n).data j = tabGet [] x.data j)
    ∧ ∀ p id c, x.cmd = some (p, id) → x.running = true → x.fail = none → x.steps.length ≤ x.next → (s.place p).cmd id = some c → x.plaza = p →
        s.writesOut p id = false →
        s.token p c.tok = ⟨.outstanding, c.id⟩ →
        ∃ u, exec (.scheduleComplete d n) s = .next u ∧ u.mem = s.mem ∧ (u.slot d n).running = false ∧ (u.slot d n).steps = x.steps
          ∧ (u.slot d n).job = x.job ∧ u.token p c.tok = ⟨.done, c.id⟩

/-- R353, R354: a flit whose tag fails has no effect but its link's count, and the sixteenth in a row takes the link down; one of a reserved kind
is counted and dropped; one for another module, or on a link that is down, is ignored. -/
def Claims.FlitChecks : Prop :=
  ∀ (s : State) f, let x := tabGet Link.off s.dev.links f.link
    ∀ i ∈ [Instr.readRequest f, .readData f, .remoteWrite f, .remoteAtomic f, .atomicResponse f, .copyData f],
      (x.up = false ∨ f.dmod ≠ s.dev.modNum → exec i s = .next s)
      ∧ (x.up = true → f.dmod = s.dev.modNum →
        (f.ok = false → ∃ t, exec i s = .next t ∧ t.mem = s.mem ∧ t.plazas = s.plazas
          ∧ (tabGet Link.off t.dev.links f.link).failed = x.failed + 1
          ∧ ((tabGet Link.off t.dev.links f.link).up = false ↔ 16 ≤ x.failed + 1))
        ∧ (f.ok = true → (f.kind = 0 ∨ 14 < f.kind) → ∃ t, exec i s = .next t ∧ t.mem = s.mem ∧ t.plazas = s.plazas
          ∧ (tabGet Link.off t.dev.links f.link).failed = 0 ∧ (tabGet Link.off t.dev.links f.link).dropped = Nat.min (x.dropped + 1) (2 ^ 32 - 1)))

/-- R348, R353: what an accepted flit does here: a read request is answered with the line, or waits at a view block; data or an atomic's response
reaches the request with its tag, a request that nothing waits for is over when its answer has no data, and the KG notice with that tag is
acknowledged and has raised its block's KG; a write, atomic or copy changes exactly its bytes at its home. -/
def Claims.FlitEffects : Prop :=
  ∀ (s : State) f, (tabGet Link.off s.dev.links f.link).up = true → f.dmod = s.dev.modNum → f.ok = true → f.addr < 2 ^ 45 →
    s.absent f.addr = false → s.pathDown f.addr = false →
    let t := s.modLink f.link fun y => { y with failed := 0 }
    (f.kind = 1 → t.readStatus f.addr f.size = none → exec (.readRequest f) s = .next t)
    ∧ (f.kind = 1 → f.op = 0 → t.readStatus f.addr f.size = some 0 → t.recall (f.addr / 128) = t → exec (.readRequest f) s =
        .next (t.answer 2 f (leBytes 128 (t.homeRow (f.addr / 128)).toNat ++ [BitVec.ofNat 8 (t.homePoison (f.addr / 128)).toNat])))
    ∧ (f.kind = 2 → exec (.readData f) s = .next (t.replied f)) ∧ (f.kind = 5 → exec (.atomicResponse f) s = .next (t.replied f))
    ∧ (∀ x ∈ s.remotes, ¬(x.tag = f.tag ∧ x.reply = none ∧ x.posted = true ∧ f.data = []) →
        (if x.tag = f.tag ∧ x.reply = none then { x with reply := some f.data } else x) ∈ (t.replied f).remotes)
    ∧ (∀ r ∈ (t.replied f).remotes, (r.kind = 0x0D ∧ r.who = .host ∧ r.reply = none)
        ∨ ∃ x ∈ s.remotes, ¬(x.tag = f.tag ∧ x.reply = none ∧ x.posted = true ∧ f.data = [])
          ∧ r = if x.tag = f.tag ∧ x.reply = none then { x with reply := some f.data } else x)
    ∧ (t.replied f).mem = s.mem ∧ (∀ n ∈ (t.replied f).notices, n.tag ≠ some f.tag) ∧ (∀ n ∈ s.notices, n.tag ≠ some f.tag → n ∈ (t.replied f).notices)
    ∧ (∀ n, (∀ x ∈ s.remotes, x.tag = f.tag → x.kind = 0x0D) → (s.notices.filter fun y => y.tag == some f.tag) = [n] →
        (t.replied f).views = s.views.map fun v => if v.id = n.view then { v with blocks := tabSet v.blocks n.block (
          let x := tabGet ViewBlock.off v.blocks n.block
          { x with kg := if genBelow x.kg n.gen then n.gen else x.kg }) } else v)
    ∧ (f.kind = 3 → f.op = 0 → ∃ u, exec (.remoteWrite f) s = .next u ∧ ∀ b, memByte u.mem b =
        if b / 128 = f.addr / 128 ∧ (leNat (f.data.take 16)).testBit (b % 128) = true then
          BitVec.ofNat 8 (leNat ((f.data.drop 16).take 128) / 2 ^ (8 * (b % 128))) else memByte s.mem b)
    ∧ (f.kind = 4 → f.op = 1 → f.size = 8 → f.data.length = 8 → f.addr % 128 + 8 ≤ 128 → t.recall (f.addr / 128) = t →
        touchesPoison (t.homePoison (f.addr / 128)) (f.addr % 128) 8 = false →
        ∃ u, exec (.remoteAtomic f) s = .next u ∧ ∀ b, memByte u.mem b = if f.addr ≤ b ∧ b < f.addr + 8 then
          BitVec.ofNat 8 ((vecBytes (t.homeRow (f.addr / 128)) (f.addr % 128) 8 + leNat f.data) % 2 ^ 64 / 2 ^ (8 * (b - f.addr)))
          else memByte s.mem b)
    ∧ (f.kind = 8 → f.op % 8 < 5 → ∃ u, exec (.copyData f) s = .next u ∧ ∀ b, memByte u.mem b =
        if f.addr ≤ b ∧ b < f.addr + f.data.length then f.data.getD (b - f.addr) 0 else memByte s.mem b)

/-- R329, R341, R349, R353-R356, R366: credits come back, a link goes down and is reported, is rekeyed with its counter at 0; a request without a
path for 1 ms fails: an access as its instruction's or command's, a publish request as a failed publish, a write of a plaza with its bytes dirty
again, a derivation's write or a KG notice with its block poisoned; a second-tier port goes down; a module that is not the master takes the
master's time, which never goes back and slews by at most 100 ppm once locked. -/
def Claims.LinkEvents : Prop :=
  ∀ (s : State) l v n t, let x := tabGet Link.off s.dev.links l
    (v < 4 → x.up = true → exec (.credit l v n) s = .next (s.modLink l fun y => { y with credit := y.credit + n }))
    ∧ (x.up = true → exec (.linkDown l) s = .next ((s.modLink l fun y => { y with up := false }).signal 0))
    ∧ (x.up = false → exec (.linkDown l) s = .next s)
    ∧ exec (.linkRekey l) s = .next (s.modLink l fun y => { y with counter := 0, failed := 0, keygen := y.keygen + 1 })
    ∧ (∀ i r, s.remotes[i]? = some r → r.reply.isSome = true ∨ s.noPath r = false → exec (.pathTimeout i) s = .next s)
    ∧ (∀ i r, s.remotes[i]? = some r → r.reply = none → s.noPath r = true → let gone : State := s.giveUp fun y => y.tag == r.tag
        (r.kind ≠ 0 → r.kind ≠ 6 → r.kind ≠ 0x0D → (∀ p, r.who ≠ .plaza p) → r.who ≠ .host → exec (.pathTimeout i) s =
            .next { gone with remotes := s.remotes.map fun y => if y.tag = r.tag then { y with failed := true } else y })
        ∧ (r.kind = 6 → exec (.pathTimeout i) s = .next (gone.answered r.addr r.size true r.who))
        ∧ (r.kind = 3 → r.who = .host → exec (.pathTimeout i) s = .next (gone.deviceWriteLost r.addr))
        ∧ (∀ p lanes y, r.kind = 3 → r.who = .plaza p → lineIn ((s.plaza p).l1 lanes) (r.addr / 128) = some y →
            lanes = ((s.plaza p).begun.isSome && ((s.plaza p).res == .starting || (s.plaza p).res == .resuming)
              || (lineIn (s.plaza p).l1v (r.addr / 128)).isSome) → ∃ u, exec (.pathTimeout i) s = .next u ∧ u.mem = s.mem
              ∧ (lineIn ((u.plaza p).l1 lanes) (r.addr / 128)).map (fun z => { z with used := 0 }) = some { y.redirty s.dev.cycle r.data with used := 0 }
              ∧ (u.plaza p).publish = (s.plaza p).publish.map (fun w => { w with failed := true })
              ∧ ∀ z ∈ u.remotes, z.kind = 3 → z.addr = r.addr → z.data = [] → z.failed = true)
        ∧ (r.kind = 0x0D → ∃ u, exec (.pathTimeout i) s = .next u ∧ (∀ n ∈ u.notices, n.tag ≠ some r.tag)
            ∧ ∀ v ∈ u.views, ∀ n ∈ s.notices, n.tag = some r.tag → n.view = v.id → (tabGet ViewBlock.off v.blocks n.block).poison = true))
    ∧ (∃ u, exec (.secondTierPortDown n) s = .next u ∧ u.mem = s.mem ∧ tabGet false u.dev.tierUp n = false
        ∧ ∀ m, m ≠ n → tabGet false u.dev.tierUp m = tabGet false s.dev.tierUp m)
    ∧ (s.dev.host.tbmaster = s.dev.modNum → exec (.timebaseExchange t) s = .next s)
    ∧ (s.dev.host.tbmaster ≠ s.dev.modNum → ∃ u, exec (.timebaseExchange t) s = .next u ∧ u.mem = s.mem ∧ u.plazas = s.plazas
        ∧ s.dev.ns ≤ u.dev.ns ∧ (s.dev.locked = false → s.dev.ns ≤ t → u.dev.ns = t ∧ u.dev.locked = true)
        ∧ (s.dev.locked = true → u.dev.ns ≤ s.dev.ns + 1 ∧ (u.dev.ns ≠ s.dev.ns → s.dev.slewed + 10000 ≤ s.dev.ns ∧ u.dev.slewed = u.dev.ns)
          ∧ (u.dev.locked = true ↔ t ≤ u.dev.ns + 4 ∧ u.dev.ns ≤ t + 4)))

/-- R315, R330, R340, R348, R359-R361: a host's read within its reach, of bytes no release, view or update line concerns, is answered with the
bytes and their poisoned units; one of a poisoned view block is aborted, one of a delayed block waits; a write changes exactly its bytes, and one to
a view page is aborted; an access it may not make is an Unsupported Request. For BAR2, within its size, and for CXL. -/
def Claims.HostAccesses : Prop :=
  ∀ (s : State) h o n xs,
    let pa := s.dev.host.bar2org + o
    let reaches (m : Nat) : Bool := s.hostReaches h pa && s.hostReaches h (pa + m - 1)
    let reads (y : Out) : Prop := (s.inBar2 h o n = true → exec (.bar2Read h o n) s = y) ∧ exec (.cxlHostAccess h pa n []) s = y
    let writes (y : Out) : Prop := (s.inBar2 h o xs.length = true → exec (.bar2Write h o xs) s = y) ∧ exec (.cxlHostAccess h pa n xs) s = y
    let refused : Out := .next (s.answerHost h pa .unsupported)
    let blocks := (s.viewBlocks pa n).map fun x => tabGet ViewBlock.off x.1.blocks x.2.2
    (s.inBar2 h o n = false → exec (.bar2Read h o n) s = .next s) ∧ (s.inBar2 h o xs.length = false → exec (.bar2Write h o xs) s = .next s)
    ∧ (0 < n → reaches n = false → reads refused)
    ∧ (0 < n → reaches n = true → (∀ l, s.recall l = s) →
        (blocks = [] → s.hostNeeds pa n = [] → reads (.next (s.answerHost h pa (.data (memBytes s.mem pa n) (s.badUnits pa n)))))
        ∧ ((∃ x ∈ blocks, x.poison = true) → reads (.next (s.answerHost h pa .abort)))
        ∧ ((∀ x ∈ blocks, x.poison = false) → (∃ x ∈ blocks, x.never = true ∨ genBelow x.tag x.kg = true) →
          ∃ t, reads (.next t) ∧ t.mem = s.mem ∧ t.dev.host.answers = s.dev.host.answers ∧ ∃ r, t.dev.host.reading = s.dev.host.reading ++ [r]
            ∧ r.host = h ∧ r.addr = pa ∧ r.size = n ∧ r.delays ≠ []))
    ∧ (xs ≠ [] → reaches xs.length = false → writes refused)
    ∧ (xs ≠ [] → reaches xs.length = true → (∃ x ∈ linePieces pa xs.length, s.viewPage x.1 = true) → writes (.next (s.answerHost h pa .abort)))
    ∧ (xs ≠ [] → reaches xs.length = true → (∀ k, s.viewPage k = false) → ∃ t, writes (.next t)
        ∧ ∀ b, memByte t.mem b = if pa ≤ b ∧ b < pa + xs.length then xs.getD (b - pa) 0 else memByte s.mem b)

/-- R236, R356, R360, R363, R364: a register write of 8 aligned bytes keeps the bits its register has, is ignored from the standby, at a port that
is down and for the other half's DISPAREA; any other is an Unsupported Request; PARTMODE is ignored while a job runs; a takeover needs the primary's
link down for 10 ms; a port's link goes down once, and is reported. -/
def Claims.HostRegisters : Prop :=
  ∀ (s : State) h v o, let x := s.dev.host
    let bs := leBytes 8 v
    let up := x.portUp.getD h false
    (up = false → ∀ ys, exec (.registerWrite h o ys) s = .next s)
    ∧ (up = true → ∀ ys, o % 8 ≠ 0 ∨ ys.length ≠ 8 ∨ 0x10000 ≤ o → exec (.registerWrite h o ys) s = .next (s.answerHost h o .unsupported))
    ∧ (x.standby h = true → o % 8 = 0 → o < 0x10000 → exec (.registerWrite h o bs) s = .next s)
    ∧ (s.bar0 h = false → exec (.partmodeWrite h v) s = .next s)
    ∧ (∀ d, x.partmode = 1 → d < 8 → x.owns h d = false → exec (.registerWrite h (0x2040 + 8 * d) bs) s = .next s)
    ∧ (s.bar0 h = true → ∃ t, exec (.registerWrite h 0x2000 bs) s = .next t ∧ t.mem = s.mem ∧ t.placer.agestep = v % 2 ^ 32
        ∧ t.placer.jobs = s.placer.jobs ∧ t.dev.host = x)
    ∧ (s.bar0 h = true → ∃ t, exec (.registerWrite h 0x0108 bs) s = .next t ∧ t.mem = s.mem ∧ t.dev.host.invqsize = v % 2 ^ 16 ∧ t.placer = s.placer)
    ∧ (s.bar0 h = true → ∃ t, exec (.registerWrite h 0x0200 bs) s = .next t ∧ t.mem = s.mem ∧ t.dev.host.bar2org = v / 2 ^ 30 % 2 ^ 15 * 2 ^ 30)
    ∧ (s.bar0 h = true → ∃ t, exec (.registerWrite h 0x3008 bs) s = .next t ∧ t.mem = s.mem ∧ t.dev.host.tbmaster = v % 2 ^ 8
        ∧ (v % 2 ^ 8 = x.tbmaster → t.dev.locked = s.dev.locked) ∧ (v % 2 ^ 8 ≠ x.tbmaster → (t.dev.locked = true ↔ v % 2 ^ 8 = s.dev.modNum)))
    ∧ ((∃ j ∈ s.placer.jobs, j.st = .running) → exec (.partmodeWrite h v) s = .next s)
    ∧ ((∀ j ∈ s.placer.jobs, j.st ≠ .running) → (∀ q ∈ s.plazas, q.2.res = .free) → s.bar0 h = true → v % 4 ≠ 3 →
        exec (.partmodeWrite h v) s = .next ((s.modHost fun y => { y with partmode := v % 4, bPrimary := bit v 2 }).signal 0))
    ∧ (up = true → x.standby h = true → x.portUp.getD (b2n x.bPrimary) true = false → x.downAt.getD (b2n x.bPrimary) 0 + 10000000 ≤ s.dev.ns →
        exec (.takeover h 1) s = .next ((s.modHost fun y => { y with bPrimary := !y.bPrimary }).signal 0))
    ∧ (x.standby h = false ∨ x.portUp.getD (b2n x.bPrimary) true = true → exec (.takeover h v) s = .next s)
    ∧ (up = true → exec (.hostPortLinkDown h) s = .next ((s.modHost fun y =>
        { y with portUp := listMod y.portUp h (fun _ => false), downAt := listMod y.downAt h fun _ => s.dev.ns }).signal 0))
    ∧ (up = false → exec (.hostPortLinkDown h) s = .next s)

/-- R82, R363, R368: DIEPWR, written by a host that may: a die with a placement keeps its power; one that holds releases, live views or is the last
stays out of OFF; a die that goes OFF loses its near memory and plazas and no other byte; it comes back ON when its power-on completes, IDLE at once,
with its dispatcher started. -/
def Claims.DiePower : Prop :=
  ∀ (s : State) d h v, d < 8 → (s.die d).enabled = true → let w : HostWrite := ⟨h, v⟩
    let power := (s.die d).power
    let starts (t : State) : Prop := (t.ctx (d * 24) 5).state = .running ∧ (t.ctx (d * 24) 5).pc = Config.dispatcherEntry d &&& ~~~ 3
      ∧ (t.ctx (d * 24) 5).g = [] ∧ (t.die d).returning = false ∧ t.mem = s.mem
    (s.bar0 h = false ∨ s.dev.host.owns h d = false → exec (.diepwrWrite d w) s = .next s)
    ∧ (s.bar0 h = true → s.dev.host.owns h d = true →
      (s.dieUsed d = true → v % 4 ≠ 0 → exec (.diepwrWrite d w) s = .next s)
      ∧ (v % 4 = power ∨ v % 4 = 3 → exec (.diepwrWrite d w) s = .next s)
      ∧ (s.dieReleases d = true ∨ s.dieGenerations d = true ∨ s.lastDie d = true → v % 4 = 2 → exec (.diepwrWrite d w) s = .next s)
      ∧ (power = 0 → v % 4 = 1 → s.dieUsed d = false → ∃ t, exec (.diepwrWrite d w) s = .next t ∧ t.mem = s.mem ∧ t.plazas = s.plazas
          ∧ (t.die d).power = 1 ∧ ∀ e, e ≠ d → t.die e = s.die e)
      ∧ (power = 1 → v % 4 = 0 → ∃ t, exec (.diepwrWrite d w) s = .next t ∧ t.mem = s.mem ∧ t.plazas = s.plazas ∧ (t.die d).power = 0)
      ∧ (power ≠ 2 → v % 4 = 2 → s.dieUsed d = false → s.dieReleases d = false → s.dieGenerations d = false → s.lastDie d = false →
          ∃ t, exec (.diepwrWrite d w) s = .next t ∧ (t.die d).power = 2 ∧ (∀ e, e ≠ d → t.die e = s.die e)
            ∧ (∀ b, memByte t.mem b = if d * 0x2400000000 ≤ b ∧ b < (d + 1) * 0x2400000000 then 0 else memByte s.mem b)
            ∧ ∀ p, t.plaza p = if p / 24 = d then Plaza.off else s.plaza p)
      ∧ (power = 2 → v % 4 = 0 → ∃ t, exec (.diepwrWrite d w) s = .next t ∧ (t.die d).returning = true ∧ (t.die d).power = 2 ∧ t.mem = s.mem)
      ∧ (power = 2 → v % 4 = 1 → s.dieUsed d = false → ∃ t, exec (.diepwrWrite d w) s = .next t ∧ (t.die d).power = 1 ∧ starts t))
    ∧ ((s.die d).returning = true → ∃ t, exec (.diePowerOnComplete d) s = .next t ∧ (t.die d).power = 0 ∧ starts t)

/-- R363, R367, R372-R375: PASIDBIND binds or unbinds a PASID of the host's own, KEY_LOAD over a host port that is up advances the slot's generation,
but neither erases nor reloads a slot that a job uses nor loads while an alarm is due, JOURNALCLR makes the journal's entries absent, ALARMACK
acknowledges an alarm, POWER_HOLD holds issue; none changes memory. -/
def Claims.ProtectionEvents : Prop :=
  ∀ (s : State) h v n m,
    let may := s.dev.host.partmode ≠ 1 ∨ tabGet 0 s.dev.host.owner (v % 2 ^ 20) = h
    let x := tabGet KeySlot.off s.dev.keys n
    let up := s.dev.host.portUp.contains true
    (s.bar0 h = true → may → ∃ t, exec (.pasidbind ⟨h, v⟩) s = .next t ∧ t.mem = s.mem ∧ t.plazas = s.plazas
      ∧ ∀ q, tabGet 0 t.dev.pasidKey q = if q = v % 2 ^ 20 then (if v / 2 ^ 63 % 2 = 1 then v / 2 ^ 20 % 64 + 1 else 0) else tabGet 0 s.dev.pasidKey q)
    ∧ (s.bar0 h = false ∨ ¬may → exec (.pasidbind ⟨h, v⟩) s = .next s)
    ∧ (up = false → ∀ f, exec (.keyLoad n f m) s = .next s)
    ∧ (n < 64 → s.slotUsed n = true → exec (.keyLoad n 0 m) s = .next s ∧ (x.loaded = true → exec (.keyLoad n 1 m) s = .next s))
    ∧ (n < 64 → s.dev.alarmDue = true → exec (.keyLoad n 1 m) s = .next s)
    ∧ (n < 64 → up = true → s.slotUsed n = false ∨ x.loaded = false → s.dev.alarmDue = false → ∃ t, exec (.keyLoad n 1 m) s = .next t ∧ t.mem = s.mem
        ∧ tabGet KeySlot.off t.dev.keys n = ⟨(x.gen + 1) % 2 ^ 32, true, m % 2 ^ 9⟩
        ∧ ∀ k, k ≠ n → tabGet KeySlot.off t.dev.keys k = tabGet KeySlot.off s.dev.keys k)
    ∧ (s.bar0 h = true → exec (.journalclr ⟨h, 1⟩) s = .next (s.modDev fun d => { d with journal := d.journal.map fun e => { e with absent := true } })
      ∧ exec (.alarmack ⟨h, 1⟩) s = .next (s.modDev fun d => { d with alarmDue := false }))
    ∧ (s.bar0 h = false → exec (.journalclr ⟨h, v⟩) s = .next s ∧ exec (.alarmack ⟨h, v⟩) s = .next s)
    ∧ exec (.powerHold n) s = .next (s.modDev fun d => { d with hold := n != 0 })
    ∧ exec (.plazaRestart n) s = .next (s.modPlaza n fun q => { q with stopped := false })

/-- R369, R375, R376: power removal leaves the module without power, its memory, poison, plazas and jobs lost, the hosts' memory, its journal and its
alarm record kept; a security alarm, in any phase with power, halts it with every link and port down and its record in a free entry. -/
def Claims.PowerAndAlarm : Prop :=
  ∀ (s : State) n,
    (∃ t, exec .powerRemoval s = .next t ∧ t.dev.phase = .unpowered ∧ t.mem = s.mem.filter (fun c => 2 ^ 45 ≤ c.1) ∧ t.poison = [] ∧ t.plazas = []
      ∧ t.placer = Placer.off ∧ t.dev.keys = [] ∧ t.dev.journal = s.dev.journal ∧ t.dev.alarms = s.dev.alarms ∧ t.dev.alarmDue = s.dev.alarmDue)
    ∧ (s.dev.phase = .unpowered → exec (.securityAlarm n) s = .next s)
    ∧ (s.dev.phase ≠ .unpowered → ∃ t, exec (.securityAlarm n) s = .next t ∧ t.dev.phase = .halted ∧ t.dev.alarmDue = true ∧ t.mem = s.mem
      ∧ (∀ l, (tabGet Link.off t.dev.links l).up = false) ∧ (∀ h, t.dev.host.portUp.getD h false = false)
      ∧ (∀ k, (tabGet KeySlot.off t.dev.keys k).loaded = false) ∧ t.dev.journal = s.dev.journal
      ∧ (s.dev.alarms.length < 16 → t.dev.alarms = s.dev.alarms ++ [(s.dev.ns / 1000 % 2 ^ 48, n % 16)])
      ∧ (16 ≤ s.dev.alarms.length → t.dev.alarms = s.dev.alarms))

/-- R82, R369-R372: START_UP of a module without power or at reset, with an empty journal: if the units of steps 1, 2 and 7 succeed and the dies do,
with their plazas 0, the module is up, those dies enabled and the dispatcher running on each; where a unit of those steps fails, or every die,
start-up stops; cut short before its last unit, it is still starting. -/
def Claims.StartUpSteps : Prop :=
  ∀ (s : State) x, s.dev.phase = .reset ∨ s.dev.phase = .unpowered → s.dev.journal = [] →
    (x.upTo = none → x.ctlFails = true ∨ x.baseFails = true → ∃ t, exec (.startUp x) s = .next t ∧ t.dev.phase = .startStopped ∧ t.plazas = [])
    ∧ (x.upTo = none → (∀ d, d < 8 → x.deadDies.contains d = true) → ∃ t, exec (.startUp x) s = .next t ∧ t.dev.phase = .startStopped)
    ∧ (x.upTo = none → x.ctlFails = false → x.baseFails = false → x.deadDies = [] → x.deadPlazas = [] →
      ((∃ d, d < 8 ∧ x.deadDispatchers.contains d = true) → ∃ t, exec (.startUp x) s = .next t ∧ t.dev.phase = .startStopped)
      ∧ (x.deadDispatchers = [] →
        ∃ t, exec (.startUp x) s = .next t ∧ t.dev.phase = .up ∧ t.mem = s.mem.filter (fun c => 2 ^ 45 ≤ c.1) ∧ t.dev.starts = s.dev.starts + 1
          ∧ t.dev.host.portUp = [true, true]
          ∧ ∀ d, d < 8 → (t.die d).enabled = true ∧ (t.die d).power = 0 ∧ (t.ctx (d * 24) 5).state = .running
            ∧ (t.ctx (d * 24) 5).pc = Config.dispatcherEntry d &&& ~~~ 3))
    ∧ (∀ k, x.upTo = some k → k < 250 → ∃ t, exec (.startUp x) s = .next t ∧ t.plazas = []
        ∧ (t.dev.phase = .startStopped ∨ (t.dev.phase = .starting ∧ t.dev.startPos = k)))

/-- R369, R370, R375: with nothing on the agenda, a module without power, one whose start-up stopped and one that an alarm halted make no step; an
event that the phase does not take has no effect; a stopped module only loses its power or is halted, and one without power only starts. -/
def Claims.StoppedModule : Prop :=
  ∀ (s : State),
    (s.agenda = [] → (s.dev.phase = .unpowered → step s = .fault .unpowered) ∧ (s.dev.phase = .startStopped → step s = .fault .startUpStopped)
      ∧ (s.dev.phase = .halted → step s = .fault .alarmHalted))
    ∧ (∀ c rest, s.agenda = c :: rest → takes s.dev.phase c = false → step s = .next { s with agenda := rest })
    ∧ ∀ t, step s = .next t → (s.dev.phase = .startStopped → t.dev.phase = .startStopped ∨ t.dev.phase = .halted ∨ t.dev.phase = .unpowered)
        ∧ (s.dev.phase = .halted → t.dev.phase = .halted ∨ t.dev.phase = .unpowered)
        ∧ (s.dev.phase = .unpowered → t.dev.phase = .unpowered ∨ t.dev.phase = .up ∨ t.dev.phase = .starting ∨ t.dev.phase = .startStopped)

/-- R4, R310: memory: a written byte reads back and no other changes; a little-endian access reads what was written; every operation that
writes memory keeps its canonical form. -/
def Claims.MemoryLaws : Prop :=
  ∀ (m : List Host.Cell),
    (∀ a b c, memByte (memPut m a b) c = if c = a then b else memByte m c)
    ∧ (∀ a n v, memRead (memWrite m a n v) a n = v % 2 ^ (8 * n))
    ∧ (∀ a n v c, memByte (memWrite m a n v) c = if a ≤ c ∧ c < a + n then BitVec.ofNat 8 (v / 2 ^ (8 * (c - a))) else memByte m c)
    ∧ (∀ line mask data c, memByte (memPutRow m line mask data) c =
        if c / 128 = line ∧ mask.getLsbD (c % 128) = true then data.extractLsb' (8 * (c % 128)) 8 else memByte m c)
    ∧ (memWf m = true → ∀ a b n v xs line mask data, memWf (memPut m a b) = true ∧ memWf (memWrite m a n v) = true
        ∧ memWf (memPutBytes m a xs) = true ∧ memWf (memPutRow m line mask data) = true)
    ∧ ∀ m', memWf m = true → memWf m' = true → (∀ a, memByte m a = memByte m' a) → m = m'

/-- R229, R236, R369, R370, R373: the state before start-up: the module is not up, its memory is canonical and lists nothing, nothing is
poisoned, no job, view, release or key exists, AGESTEP is 2,000 and every die is off. -/
def Claims.ResetState : Prop :=
  let s := State.reset
  s.memOk ∧ s.mem = [] ∧ s.poison = [] ∧ s.dev.phase = .reset ∧ s.placer.jobs = [] ∧ s.placer.agestep = 2000 ∧ s.placer.nextId = 1
    ∧ s.placer.saveslots = 0 ∧ s.views = [] ∧ s.masters = [] ∧ (∀ k, tabGet [] s.rrt k = []) ∧ s.dev.journal = [] ∧ s.dev.alarms = []
    ∧ (∀ d, (s.die d).enabled = false) ∧ (∀ k, (tabGet KeySlot.off s.dev.keys k).loaded = false)
    ∧ (∀ p, (s.plaza p).sweepage = 4096 ∧ (s.plaza p).trapvec = 0 ∧ (s.plaza p).trapslot = 0 ∧ (s.plaza p).segments = 0 ∧ (s.plaza p).l1d = []
        ∧ (s.plaza p).l1v = [] ∧ (s.plaza p).icache = [] ∧ (s.plaza p).tlb = [] ∧ (s.plaza p).res = .free ∧ (s.ctx p 5).state = .dormant)
    ∧ (∀ p c n, s.g p c n = 0) ∧ s.dev.host.partmode = 0 ∧ s.dev.host.portUp = [false, false]

/-- R13, R28, R46: one step whose turn is a context's, or a lane group's, runs the instruction that the words at its pc decode to, with the meaning
`exec` gives it; words that decode to none are ILLEGAL. -/
def Claims.StepRunsDecoded : Prop :=
  (∀ (s : State) p c rest i t, s.dev.phase = .up → s.agenda = .control p c :: rest →
    let u : State := { s with agenda := rest }
    u.runs p c = true → u.issueHeld = false → u.takeKept p c = none → (u.ctx p c).state = .running →
    (u.fetch p c = .inl (i, t) → step s = exec i { t with cur := ⟨.control p c, (t.ctx p c).pc, (t.ctx p c).w0, (t.ctx p c).w1, (t.ctx p c).len⟩ })
    ∧ ∀ x : ILine, let pc := (u.ctx p c).pc
        canonical pc = true → u.iline p (u.ctxPasid p c) (pc.toNat / 64) = some x → x.bad = false →
        let w0 := vecBytes x.data (pc.toNat % 64) 4
        (isDouble w0 = false →
          (decodeControl w0 0 = some i → ∃ v, u.fetch p c = .inl (i, v) ∧ v.mem = s.mem ∧ (v.ctx p c).pc = pc ∧ (v.ctx p c).g = (s.ctx p c).g
            ∧ (v.ctx p c).w0 = w0)
          ∧ (decodeControl w0 0 = none → (u.ctx p c).ending = none → ∃ v, u.fetch p c = .inr v ∧ (c = 5 ∨ (v.ctx p c).state = .trapped)))
        ∧ (isDouble w0 = true → pc.toNat % 64 ≤ 56 →
          let w1 := vecBytes x.data (pc.toNat % 64 + 4) 4
          decodeControl w0 w1 = some i → ∃ v, u.fetch p c = .inl (i, v) ∧ v.mem = s.mem ∧ (v.ctx p c).pc = pc ∧ (v.ctx p c).g = (s.ctx p c).g
            ∧ (v.ctx p c).w0 = w0 ∧ (v.ctx p c).w1 = w1))
  ∧ ∀ (s : State) p l rest a i s1, s.dev.phase = .up → s.agenda = .lane p l :: rest →
    let u : State := { s with agenda := rest }
    u.powered p = true → u.lanesRun p = true → u.issueHeld = false → (u.place p).mayIssue u.dev.cycle l = true →
    (∀ j ∈ (u.place p).rivals u.dev.cycle l, canIssue exec p j u = false) →
    u.laneInstr p l (u.lane p l).pc = .ok (.inr a) s1 → a.i = some i → paired a.w0 = false →
    let v := s1.beginPacket p l
    ((v.lane p l).full i = true → step s = .next (v.holdLane u p l))
    ∧ ((v.lane p l).full i = false → ∀ t, exec i (v.runAs p l a) = .next t →
        ((t.lane p l).held a.pc v.dev.cycle = false → step s = .next t) ∧ ((t.lane p l).held a.pc v.dev.cycle = true → step s = .next (t.holdLane u p l)))

/-- R11, R12, R20, R25-R27: words written out bit by bit from their encodings, and the spec's own example words, each with the instruction
it stands for; the same word means one thing to the control core and another to a lane group where the slices differ. -/
def Claims.DecodeWords : Prop :=
  (decodeControl 0b0000001_00000011_00000100_00000101_1 0 = some (.add 3 4 5 1)
    ∧ decodeControl 0b0011110_00011111_00000000_111111111 0 = some (.addi 31 0 511)
    ∧ decodeControl 0b0101111_0000000000000000000001001 0 = some (.j 9)
    ∧ decodeControl 0b1000110_00111_00010_0011_00000001000 0 = some (.ldd 7 2 3 8)
    ∧ decodeControl 0b1100000_00101_000000000000000_00000 0b10000000000000000000000000000001 = some (.lix 5 0x80000001)
    ∧ decodeControl 0b1011111_000000000000000_000000_0011 0 = some .hret ∧ decodeControl 0 0 = none
    ∧ decodeLane 0b0000001_10000000_00000100_00000101_0 0 = some (.add 128 4 5 0) ∧ decodeLane 0b0000001_10000000_00000100_00000101_1 0 = none
    ∧ decodeControl 0b0000001_10000000_00000100_00000101_0 0 = none
    ∧ decodeLane 0b1000000_000011_0001000_1001000_01_10_0 0 = some (.vfadd 3 8 72 1 2 0)
    ∧ decodeLane 0b1011000_00000_010_001_011_00000000_11_0 0 = some (.pand 2 1 3 3 0)
    ∧ decodeLane 0b1010110_0000000000000000000000000 0 = some .vbend
    ∧ decodeLane 0b1100001_000001_0000010_0000011_00_00_0 0b0000100_010_1_0001_000000000000001_11 = none
    ∧ decodeLane 0b1100001_000001_0000010_0000011_00_00_0 0b0000100_010_1_0001_000000000000000_11 = some (.vfma 1 2 3 4 3 1 2 1 0 0))
  ∧ (decodeControl 0x1A06080B 0 = some (.divs 3 4 5 1) ∧ decodeControl 0x540201FD 0 = some (.bne 1 0 509)
    ∧ decodeControl 0x62003E00 0 = some (.jalr 0 31 0) ∧ decodeControl 0x68000006 0 = some (.fence 6)
    ∧ decodeControl 0x96330200 0 = some (.lda 3 6 0 1 0 0) ∧ decodeControl 0x9C42980A 0 = some (.waitm 4 5 6 0 1 2)
    ∧ decodeControl 0x9A229851 0 = some (.amo 2 5 6 0 1 1 1) ∧ decodeControl 0xC2229800 0xE7 = some (.cas 2 5 6 0 1 3 7)
    ∧ decodeControl 0x9E038310 0 = some (.csrc 0 7 0x10) ∧ decodeControl 0xBE321402 0 = some (.sret 3 4 5)
    ∧ decodeControl 0xA2328003 0 = some (.xlt 3 5 3) ∧ decodeControl 0xC8042400 0x31C17FFE = some (.cpy 8 9 3 7 2 127 127)
    ∧ decodeControl 0xC4429800 0x023F8000 = some (.emit 4 5 6 2 0 127) ∧ decodeControl 0xDC248000 0 = some (.launch 2 9)
    ∧ decodeControl 0xEE060000 0x0284FFFE = some (.lgo 0 12 10 9 127 127))
  ∧ (decodeLane 0x8A285980 0 = some (.viadd 5 5 76 0 0 0) ∧ decodeLane 0xAB47FFE0 0 = some (.vwait 40 127 127)
    ∧ decodeLane 0xD0305000 0x1001 = some (.vshfl 6 5 0 2 0 1 0 0 0 0) ∧ decodeLane 0xC4305000 0x0C000081 = some (.vcvt 6 5 6 0 1 0 0 1 0 0 0 0)
    ∧ decodeLane 0xEC002900 0xA8160409 = some (.vamo 0 2 72 84 4 0 0 9 11 0 0 0 0 0)
    ∧ decodeLane 0xEE4DC000 0x403 = some (.vldb 9 92 0 1 3 0 0 0 0 0))
/-- R12, R14, R18-R27: encode and decode agree on every instruction of the control core: each well-formed term decodes from its own words, with every
field at every value; the decoder answers well-formed terms only; and the words it reads an instruction from are that instruction's words, so
every bit of a word is read or checked. -/
def Claims.EncodingControl : Prop :=
  (∀ i, i.wfControl = true → ∃ w e : Nat, w < 2 ^ 32 ∧ e < 2 ^ 32 ∧ encode i = (if isDouble w then [w, e] else [w])
      ∧ (isDouble w = false → e = 0) ∧ decodeControl w e = some i)
  ∧ ∀ w e i, w < 2 ^ 32 → e < 2 ^ 32 → decodeControl w e = some i → i.wfControl = true ∧ encode i = (if isDouble w then [w, e] else [w])
/-- R12, R14, R18-R27: the same of every instruction of a lane group. -/
def Claims.EncodingLanes : Prop :=
  (∀ i, i.wfLane = true → ∃ w e : Nat, w < 2 ^ 32 ∧ e < 2 ^ 32 ∧ encode i = (if isDouble w then [w, e] else [w])
      ∧ (isDouble w = false → e = 0) ∧ decodeLane w e = some i)
  ∧ ∀ w e i, w < 2 ^ 32 → e < 2 ^ 32 → decodeLane w e = some i → i.wfLane = true ∧ encode i = (if isDouble w then [w, e] else [w])

/-- R17, R48, R49, R53: LOOPI or LOOP of n iterations on a lane group, in each of the four modes, whose body's words can be read and end well: a stage
level beside another active one is ILLEGAL; n = 0 skips the body; else level l starts over the b words after it, with S - 1 more iterations in the
stage modes, whose first stage predicate is p0 and the others 0. -/
def Claims.LaneLoops : Prop :=
  ∀ (s : State) p g n a b l m prm ws t, s.cur.agent = .lane p g → s.scalarReady p g a → 1 ≤ b → b < 512 → l < 4 → m < 4 → prm < 16 →
    (m = 1 → prm ≠ 0) → (m = 2 → 1 ≤ prm ∧ prm ≤ 4) →
    let x := s.lane p g
    let clash := 2 ≤ m ∧ ∃ j, j < 4 ∧ j ≠ l ∧ (levelOf x.levels j).active = true ∧ 2 ≤ (levelOf x.levels j).mode
    let stages := if m = 2 then prm else if m = 3 then prm / 4 + 1 else 0
    (clash → exec (.loopi n b l m prm) s = .next (s.laneIllegalHere p g) ∧ exec (.loop a b l m prm) s = .next (s.laneIllegalHere p g))
    ∧ (¬clash → readWords (fun va u => u.laneWord p g va) b (x.pc + 4) s = .ok (.inr ws) t → t.lane p g = x →
      (badBody true ws = true → exec (.loopi n b l m prm) s = .next (t.laneIllegalHere p g) ∧ exec (.loop a b l m prm) s = .next (t.laneIllegalHere p g))
      ∧ (badBody true ws = false → (∀ j, j < 4 → j ≠ l → (levelOf x.levels j).active = true → (levelOf x.levels j).last ≠ x.pc) →
        let starts (i : Instr) (n : Nat) : Prop := ∃ u, exec i s = .next u ∧ u = t.modLane p g (fun _ => u.lane p g)
          ∧ (u.lane p g).s = x.s ∧ (u.lane p g).window = x.window
          ∧ if n = 0 then (u.lane p g).pc = x.pc + 4 + 4 * BitVec.ofNat 64 b ∧ (u.lane p g).levels = x.levels ∧ (u.lane p g).p = x.p
            else (u.lane p g).pc = x.pc + 4
              ∧ (∀ j, levelOf (u.lane p g).levels j = if j = l then ⟨true, x.pc + 4, x.pc + 4 * BitVec.ofNat 64 b,
                  if 2 ≤ m then n + stages - 1 else n, m, prm, 0⟩ else levelOf x.levels j)
              ∧ ∀ k, (u.lane p g).pred k = if 4 ≤ k ∧ k < 4 + stages then (if k = 4 then x.pred 0 else 0) else x.pred k
        starts (.loopi n b l m prm) n ∧ starts (.loop a b l m prm) (x.scalar a).toNat))

/-- R50, R52, R53: at the last instruction of a level's body on a lane group the window base advances by the level's step; with more than one
iteration left the group goes back to the first word and the stage predicates are those of the next iteration; with one left the level ends, its
stage predicates are cleared, and it falls through, or goes on with the next lower level that ends there. -/
def Claims.LaneLoopEnds : Prop :=
  ∀ (s : State) p g l v, s.cur.agent = .lane p g → l < 4 →
    let x := s.lane p g
    let ends (j : Nat) : Prop := (levelOf x.levels j).active = true ∧ (levelOf x.levels j).last = x.pc
    levelOf x.levels l = v → ends l → (∀ j, l < j → j < 4 → ¬ends j) →
    let step (v : Level) := if v.mode = 1 then v.param else if v.mode = 3 then v.param % 4 + 1 else 0
    let stages (v : Level) := if v.mode = 2 then v.param else if v.mode = 3 then v.param / 4 + 1 else 0
    let trip := v.remaining + v.iteration + 1 - stages v
    ∃ t, exec .nop s = .next t ∧ t = s.modLane p g (fun _ => t.lane p g) ∧ (t.lane p g).s = x.s
      ∧ (1 < v.remaining → (t.lane p g).pc = v.first ∧ (t.lane p g).window = (x.window + step v) % 16384
        ∧ (∀ j, levelOf (t.lane p g).levels j = if j = l then { v with remaining := v.remaining - 1, iteration := v.iteration + 1 } else levelOf x.levels j)
        ∧ ∀ k, (t.lane p g).pred k = if 4 ≤ k ∧ k < 4 + stages v then
            (if k - 4 ≤ v.iteration + 1 ∧ v.iteration + 1 < trip + (k - 4) then x.pred 0 else 0) else x.pred k)
      ∧ (v.remaining ≤ 1 → (∀ j, j < l → ¬ends j) → (t.lane p g).pc = x.pc + 4 ∧ (t.lane p g).window = (x.window + step v) % 16384
        ∧ (levelOf (t.lane p g).levels l).active = false ∧ (∀ j, j ≠ l → levelOf (t.lane p g).levels j = levelOf x.levels j)
        ∧ ∀ k, (t.lane p g).pred k = if 4 ≤ k ∧ k < 4 + stages v then 0 else x.pred k)
      ∧ ∀ o w, v.remaining ≤ 1 → o < l → levelOf x.levels o = w → ends o → (∀ j, o < j → j < l → ¬ends j) → 1 < w.remaining →
          (t.lane p g).pc = w.first ∧ (t.lane p g).window = ((x.window + step v) % 16384 + step w) % 16384
          ∧ (levelOf (t.lane p g).levels l).active = false
          ∧ levelOf (t.lane p g).levels o = { w with remaining := w.remaining - 1, iteration := w.iteration + 1 }

/-- R54: a lane group with a FENCE's mask in force makes no move while a store of a masked class is still to perform; stores of other classes do not
hold it. -/
def Claims.FenceHolds : Prop :=
  (∀ (s : State) p l rest, s.dev.phase = .up → s.agenda = .lane p l :: rest →
    (∃ st ∈ (s.lane p l).stores, (s.lane p l).fence.testBit st.cls = true) → step s = .next { s with agenda := rest })
  ∧ ∀ (x : Lane) now, (∀ st ∈ x.stores, x.fence.testBit st.cls = false) → x.ready now = Lane.ready { x with fence := 0 } now

/-- R236, R356, R360, R368, R371, R373, R375: what host h reads in the management window: 8 aligned bytes only, each register at its offset, the
journal's last 256 entries with their check, and 0 at every other offset. -/
def Claims.HostReads : Prop :=
  ∀ (s : State) h, let x := s.dev.host
    let d := s.dev
    (∀ o n, o % 8 ≠ 0 ∨ n ≠ 8 ∨ 0x10000 ≤ o → s.readRegister h o n = none)
    ∧ (x.portUp.getD h false = false → ∀ o n, o ≠ 0 → s.readRegister h o n = none)
    ∧ (x.portUp.getD h false = true → let reads (o v : Nat) : Prop := s.readRegister h o 8 = some v
      reads 0 (if d.phase = .up then 0x094000A0 * 2 ^ 32 + d.modNum else 0) ∧ reads 8 (x.partmode + 4 * b2n x.bPrimary)
      ∧ reads 0x100 x.invqbase ∧ reads 0x108 x.invqsize ∧ reads 0x110 x.invqtail ∧ reads 0x118 x.invqhead ∧ reads 0x200 x.bar2org
      ∧ (∀ m, m < 256 → reads (0x800 + 8 * m) (tabGet 0 x.routes m))
      ∧ reads 0x2000 s.placer.agestep ∧ reads 0x2008 s.placer.savebase ∧ reads 0x2010 s.placer.saveslots ∧ reads 0x2018 s.placer.spillbase
      ∧ reads 0x2020 s.placer.spillcap ∧ (∀ k, k < 8 → reads (0x2040 + 8 * k) (tabGet 0 s.placer.disparea k))
      ∧ (let depth (l : Nat) := Nat.min (s.placer.depth l) 0xFFFF
        reads 0x2080 (depth 0 + depth 1 * 2 ^ 16 + depth 2 * 2 ^ 32 + depth 3 * 2 ^ 48))
      ∧ reads 0x3000 d.ns ∧ reads 0x3008 x.tbmaster ∧ reads 0x3010 (b2n d.locked) ∧ reads 0x3018 x.pauseprop
      ∧ (∀ k, k < 16 → reads (0x4000 + 16 * k) (tabGet 0 d.tierCap k) ∧ reads (0x4008 + 16 * k) (if tabGet false d.tierUp k then 3 else 0))
      ∧ (∀ k, k < 8 → let y := tabGet Die.off d.dies k; reads (0x5000 + 8 * k) (y.power * 256 + if y.returning then 0 else y.power))
      ∧ (∀ k, k < 64 → let y := tabGet KeySlot.off d.keys k; reads (0x5100 + 8 * k) (y.gen * 2 ^ 32 + b2n y.loaded * 512 + y.masked))
      ∧ (∀ k, k < 16 → reads (0x5800 + 8 * k) (match d.alarms[k]? with | some a => a.1 * 2 ^ 16 + a.2 | none => 0))
      ∧ (∀ k, k < 256 → match d.journal.reverse[255 - k]? with
        | none => reads (0x6000 + 16 * k) 0 ∧ reads (0x6008 + 16 * k) 0
        | some e => reads (0x6000 + 16 * k) e.head ∧ reads (0x6008 + 16 * k) e.tail)
      ∧ (∀ k, k < 128 → reads (0x8000 + 8 * k) (tabGet 0 x.msix (128 * h + k)).toNat)
      ∧ (∀ k, k < 24 → let y := tabGet Link.off d.links k; reads (0xF000 + 8 * k) (y.dropped * 2 ^ 32 + b2n y.up))
      ∧ ∀ o, o % 8 = 0 → o < 0x10000 → o ∉ [0, 8, 0x100, 0x108, 0x110, 0x118, 0x200, 0x2000, 0x2008, 0x2010, 0x2018, 0x2020, 0x2080, 0x3000, 0x3008,
          0x3010, 0x3018, 0x9000] → (∀ r ∈ [(0x800, 0x1000), (0x2040, 0x2080), (0x4000, 0x4100), (0x5000, 0x5040), (0x5100, 0x5300), (0x5800, 0x5880),
          (0x6000, 0x7000), (0x8000, 0x8400), (0xF000, 0xF0C0)], o < r.1 ∨ r.2 ≤ o) → reads o 0)
    ∧ ∀ e : JournalEntry, bits e.head 63 48 = e.start % 2 ^ 16 ∧ bits e.head 47 40 = e.step % 256 ∧ bits e.head 39 32 = e.unit % 256
      ∧ bits e.head 31 24 = e.plaza % 256 ∧ bits e.head 23 16 = e.outcome % 256 ∧ e.tail % 2 ^ 32 = e.ms % 2 ^ 32
      ∧ (e.tail / 2 ^ 32 = crc32 (leBytes 8 e.head) ↔ e.absent = false)

/-- R4, R310: every step of the module keeps its memory in canonical form: addresses rising, and no listed byte equal to an unlisted one. -/
def Claims.StepKeepsMemory : Prop := ∀ (s t : State), s.memOk → step s = .next t → t.memOk

/-- R190, R194, R195: in each of the six float formats a code stands for the sign, exponent and mantissa of the table, or for infinity or NaN; an
exact value rounds once, in each mode, between the two codes about it, and beyond the largest finite one goes by the overflow table. -/
def Claims.FloatFormats : Prop :=
  ∀ f ∈ floatTable, let u : Int := 1 - f.bias - f.mb
    let sign (neg : Bool) (c : Nat) := if neg then c + 2 ^ (f.eb + f.mb) else c
    (∀ code, code < 2 ^ (1 + f.eb + f.mb) → let k := code % 2 ^ (f.eb + f.mb)
      let neg := decide (2 ^ (f.eb + f.mb) ≤ code)
      (k ≤ f.top → ∃ m e, decodeF f.fmt code = .fin neg m e ∧ u ≤ e ∧ m * 2 ^ (e - u).toNat = codeMag f.mb k)
      ∧ (f.inf = some k → decodeF f.fmt code = .inf neg) ∧ (f.top < k → f.inf ≠ some k → decodeF f.fmt code = .nan))
    ∧ ∀ rnd sat neg, rnd < 4 → roundTo f.fmt rnd sat .nan = f.nan
      ∧ roundTo f.fmt rnd sat (.inf neg) = sign neg (if sat then f.top else f.beyond)
      ∧ (∀ e, roundTo f.fmt rnd sat (.fin neg 0 e) = sign neg 0)
      ∧ ∀ m e, m ≠ 0 → let num := m * 2 ^ (e - u).toNat
        let den := 2 ^ (u - e).toNat
        ∃ k, codeMag f.mb k * den ≤ num ∧ num < codeMag f.mb (k + 1) * den
          ∧ let c := roundsTo rnd neg (num = codeMag f.mb k * den) (compare (2 * num) ((codeMag f.mb k + codeMag f.mb (k + 1)) * den)) k
            let zero := rnd = 1 ∨ (rnd = 2 ∧ neg = false) ∨ (rnd = 3 ∧ neg = true)
            roundTo f.fmt rnd sat (.fin neg m e) = sign neg (if c ≤ f.top then c else if sat = true ∨ zero then f.top else f.beyond)

/-- R203: sums and products are exact: of finite values the integers over a common power of two; a zero sum is +0 but for two terms of -0; NaN,
infinity less infinity and zero times infinity are NaN. -/
def Claims.ExactArithmetic : Prop :=
  (∀ x m e y n d, (∃ z k c, (Val.fin x m e).add (.fin y n d) = .fin z k c
      ∧ (∀ lo, lo ≤ e → lo ≤ d → lo ≤ c → scaledInt z k c lo = scaledInt x m e lo + scaledInt y n d lo)
      ∧ (k = 0 → (z = true ↔ x = true ∧ y = true ∧ m = 0 ∧ n = 0)))
    ∧ (Val.fin x m e).mul (.fin y n d) = .fin (x != y) (m * n) (e + d)
    ∧ (Val.inf x).mul (.fin y n d) = (if n = 0 then .nan else .inf (x != y)) ∧ (Val.fin x m e).mul (.inf y) = (if m = 0 then .nan else .inf (x != y))
    ∧ (Val.inf x).add (.fin y n d) = .inf x ∧ (Val.fin x m e).add (.inf y) = .inf y)
  ∧ (∀ x y, (Val.inf x).add (.inf y) = (if x = y then .inf x else .nan) ∧ (Val.inf x).mul (.inf y) = .inf (x != y))
  ∧ (∀ v, Val.nan.add v = .nan ∧ v.add .nan = .nan ∧ Val.nan.mul v = .nan ∧ v.mul .nan = .nan)
  ∧ ∀ x m e, (Val.fin x m e).flip = .fin (!x) m e ∧ (Val.inf x).flip = .inf (!x) ∧ Val.nan.flip = .nan

/-- R192, R193, R196, R197: the values of E8M0 and integer elements; conversion into an integer type rounds by the mode and clamps, of an integer
source only with sat, else its low bits; NaN gives 0; conversion into E8M0 takes the exponent of the rounding among powers of two. -/
def Claims.Conversions : Prop :=
  (∀ c, elemVal 6 c = if c = 255 then .nan else .fin false 1 ((c : Int) - 127))
  ∧ (∀ g t rnd sat code, convElem g t rnd sat code = convVal t rnd sat (decide (7 ≤ g)) (elemVal g code))
  ∧ (∀ t f rnd sat fi v, typeFmt t = some f → convVal t rnd sat fi v = roundTo f rnd sat v)
  ∧ (∀ r ∈ intTypes, ∀ rnd sat neg m e code, let (t, w, low, high) := r
      let put (z : Int) : Nat := (z % 2 ^ w).toNat
      let clamp (z : Int) : Int := max low (min high z)
      (code < 2 ^ w → elemInt t code = (if low < 0 ∧ 2 ^ (w - 1) ≤ code then (code : Int) - 2 ^ w else code) ∧ elemVal t code = .ofInt (elemInt t code))
      ∧ (∀ fi, convVal t rnd sat fi .nan = 0 ∧ convVal t rnd sat fi (.inf neg) = put (if neg then low else high))
      ∧ (∀ z, convVal t rnd sat true (.ofInt z) = put (if sat then clamp z else z))
      ∧ (rnd < 4 → let num := m * 2 ^ e.toNat
        let den := 2 ^ (-e).toNat
        let q : Int := roundsTo rnd neg (num % den = 0) (compare (2 * (num % den)) den) (num / den)
        convVal t rnd sat false (.fin neg m e) = put (clamp (if neg then -q else q))))
  ∧ ∀ rnd sat fi neg (m : Nat) (e : Int) (l : Nat), rnd < 4 → convVal 6 rnd sat fi .nan = 255 ∧ convVal 6 rnd sat fi (.inf neg) = 255
    ∧ (m = 0 ∨ neg = true → convVal 6 rnd sat fi (.fin neg m e) = 0)
    ∧ (2 ^ l ≤ m → m < 2 ^ (l + 1) → let low : Int := l + e
      let ex : Int := if m = 2 ^ l ∨ rnd = 1 ∨ rnd = 2 then low else if rnd = 3 ∨ 3 * 2 ^ l < 2 * m ∨ (2 * m = 3 * 2 ^ l ∧ (low + 127) % 2 ≠ 0) then low + 1 else low
      convVal 6 rnd sat fi (.fin false m e) = if ex < -127 then 0 else if 127 < ex then (if sat then 254 else 255) else (ex + 127).toNat)

/-- R203, R212, R213, R223: VALU's operations on float elements, rounded once, with the rules of minimum, maximum, ABS and NEG, and on integer
elements; VFMA's one rounding with its signs; VDOT's exact sum added with one rounding, or modulo 2^32. -/
def Claims.TypedElements : Prop :=
  (∀ r ∈ [(0, fp32, 32), (1, bf16, 16), (2, fp16, 16)], ∀ x y z, let (t, f, w) := r
    let nan := nanOf f
    let a := decodeF f x
    let b := decodeF f y
    x < 2 ^ w → y < 2 ^ w →
    valuElem t 0 x y = roundTo f 0 false (a.add b) ∧ valuElem t 1 x y = roundTo f 0 false (a.add b.flip) ∧ valuElem t 2 x y = roundTo f 0 false (a.mul b)
    ∧ (a.isNan = true → valuElem t 3 x y = (if b.isNan then nan else y) ∧ valuElem t 4 x y = (if b.isNan then nan else y)
      ∧ valuElem t 5 x y = nan ∧ valuElem t 6 x y = nan)
    ∧ (a.isNan = false → valuElem t 5 x y = x % 2 ^ (w - 1) ∧ valuElem t 6 x y = (if x < 2 ^ (w - 1) then x + 2 ^ (w - 1) else x - 2 ^ (w - 1)))
    ∧ (a.isNan = false → b.isNan = true → valuElem t 3 x y = x ∧ valuElem t 4 x y = x)
    ∧ (a.isNan = false → b.isNan = false → (a.lt b = true → valuElem t 3 x y = x ∧ valuElem t 4 x y = y)
      ∧ (b.lt a = true → valuElem t 3 x y = y ∧ valuElem t 4 x y = x)
      ∧ (a.isZero = true → b.isZero = true → valuElem t 3 x y = (if 2 ^ (w - 1) ≤ x then x else y) ∧ valuElem t 4 x y = (if 2 ^ (w - 1) ≤ x then y else x)))
    ∧ (let p := a.mul b
      let c := decodeF f z
      fmaElem f 0 x y z = roundTo f 0 false (p.add c) ∧ fmaElem f 1 x y z = roundTo f 0 false (p.add c.flip)
      ∧ fmaElem f 2 x y z = roundTo f 0 false (p.flip.add c) ∧ fmaElem f 3 x y z = roundTo f 0 false (p.flip.add c.flip)))
  ∧ (∀ r ∈ intTypes, ∀ x y, let (t, w, low, high) := r
    let a := elemInt t x
    let b := elemInt t y
    let put (z : Int) : Nat := (z % 2 ^ w).toNat
    let clamp (z : Int) : Int := max low (min high z)
    x < 2 ^ w → y < 2 ^ w →
    valuElem t 0 x y = put (a + b) ∧ valuElem t 1 x y = put (a - b) ∧ valuElem t 2 x y = put (a * b) ∧ valuElem t 3 x y = (if a < b then x else y)
    ∧ valuElem t 4 x y = (if a < b then y else x) ∧ valuElem t 5 x y = put a.natAbs ∧ valuElem t 6 x y = put (-a)
    ∧ valuElem t 7 x y = put (clamp (a + b)) ∧ valuElem t 8 x y = put (clamp (a - b)) ∧ valuElem t 9 x y = put (a * b / 2 ^ w)
    ∧ valuElem t 10 x y = x * 2 ^ (y % w) % 2 ^ w ∧ valuElem t 11 x y = put (a / 2 ^ (y % w)))
  ∧ (∀ t g (x y z : W32), let at16 (u : W32) (j : Nat) := u.toNat / 2 ^ (16 * j) % 2 ^ 16
      let at8 (u : W32) (j : Nat) := u.toNat / 2 ^ (8 * j) % 2 ^ 8
      let p16 (j : Nat) := (elemVal t (at16 x j)).mul (elemVal g (at16 y j))
      let p8 (j : Nat) := (elemVal t (at8 x j)).mul (elemVal g (at8 y j))
      (t = 1 ∨ t = 2 → dotWord t g x y z = toF32 ((f32 z).add ((p16 0).add (p16 1))))
      ∧ (t = 3 ∨ t = 4 → dotWord t g x y z = toF32 ((f32 z).add ((p8 0).add ((p8 1).add ((p8 2).add (p8 3))))))
      ∧ (t = 7 ∨ t = 8 → let q (j : Nat) := elemInt t (at8 x j) * elemInt g (at8 y j)
        dotWord t g x y z = BitVec.ofInt 32 (z.toInt + q 0 + q 1 + q 2 + q 3)))
  ∧ ∀ x : W32, f32 x = decodeF fp32 x.toNat ∧ ∀ v, toF32 v = BitVec.ofNat 32 (roundTo fp32 0 false v)

/-- R22, R214: which source element each destination element of a VCVT word comes from, when the widths are equal, widening and narrowing; a
conversion into the source's own type is the identity. -/
def Claims.ConvertedWords : Prop :=
  ∀ t g rnd sat part (x z : W32) j, t < 13 → g < 13 → rnd < 4 → let ws := typeWidth t
    let wd := typeWidth g
    let element (w : Nat) (u : W32) (i : Nat) := u.toNat / 2 ^ (w * i) % 2 ^ w
    let conv (c : Nat) := if t = g then c else convElem t g rnd (sat == 1) c
    j < 32 / wd → let r := element wd (vcvtWord t g rnd sat part x z) j
    (ws ≤ wd → (part + 1) * ws ≤ wd → r = conv (element ws x (part * (32 / wd) + j)))
    ∧ (wd < ws → (part + 1) * wd ≤ ws → r = if part * (32 / ws) ≤ j ∧ j < (part + 1) * (32 / ws) then conv (element ws x (j - part * (32 / ws)))
        else element wd z j)

/-- R205, R206: the special values of each special function; RCP and SQRT rounded correctly, and EXP2 of a whole number exact. The bound of 2 ulp on the
others is not stated. -/
def Claims.SpecialFunctions : Prop :=
  ∀ x : W32, (∀ fn, fn < 8 → f32 x = .nan → sfn fn x = 0x7FC00000)
    ∧ sfn 0 0 = 0x7F800000 ∧ sfn 0 0x80000000 = 0xFF800000 ∧ sfn 0 0x7F800000 = 0 ∧ sfn 0 0xFF800000 = 0x80000000
    ∧ sfn 1 0 = 0 ∧ sfn 1 0x80000000 = 0x80000000 ∧ sfn 1 0x7F800000 = 0x7F800000
    ∧ sfn 2 0 = 0x7F800000 ∧ sfn 2 0x80000000 = 0xFF800000 ∧ sfn 2 0x7F800000 = 0
    ∧ sfn 3 0xFF800000 = 0 ∧ sfn 3 0x7F800000 = 0x7F800000
    ∧ sfn 4 0 = 0xFF800000 ∧ sfn 4 0x80000000 = 0xFF800000 ∧ sfn 4 0x3F800000 = 0 ∧ sfn 4 0x7F800000 = 0x7F800000
    ∧ sfn 5 0 = 0 ∧ sfn 5 0x80000000 = 0x80000000 ∧ sfn 5 0x7F800000 = 0x7FC00000 ∧ sfn 5 0xFF800000 = 0x7FC00000
    ∧ sfn 6 0x7F800000 = 0x7FC00000 ∧ sfn 6 0xFF800000 = 0x7FC00000
    ∧ sfn 7 0 = 0 ∧ sfn 7 0x80000000 = 0x80000000 ∧ sfn 7 0x7F800000 = 0x3F800000 ∧ sfn 7 0xFF800000 = 0xBF800000
    ∧ ((f32 x).isNan = false → x.getLsbD 31 = true → (f32 x).isZero = false → sfn 1 x = 0x7FC00000 ∧ sfn 2 x = 0x7FC00000 ∧ sfn 4 x = 0x7FC00000)
    ∧ ∀ n m e, f32 x = .fin n m e → let num := m * 2 ^ e.toNat
      let den := 2 ^ (-e).toNat
      (n = false → 128 * den ≤ num → sfn 3 x = 0x7F800000)
      ∧ (m ≠ 0 → num % den = 0 → sfn 5 x = if n then 0x80000000 else 0)
      ∧ (num % den = 0 → sfn 6 x = if num / den % 2 = 0 then 0x3F800000 else 0xBF800000)
      ∧ (num % den ≠ 0 → 2 * num % den = 0 → sfn 6 x = 0)
      ∧ (m ≠ 0 → ∃ c, nearest32 (2 ^ (149 - e).toNat) m c ∧ sfn 0 x = BitVec.ofNat 32 (c + if n then 2 ^ 31 else 0))
      ∧ (m ≠ 0 → n = false → ∃ k, let sq := m * 2 ^ (e + 298).toNat
        let low := codeMag 23 k
        let next := codeMag 23 (k + 1)
        low * low ≤ sq ∧ sq < next * next
        ∧ sfn 1 x = BitVec.ofNat 32 (roundsTo 0 false (low * low = sq) (compare (4 * sq) ((low + next) * (low + next))) k))
      ∧ (num % den = 0 → let z : Int := if n then -(num / den : Nat) else (num / den : Nat)
        0 ≤ z + 149 → z < 128 → (sfn 3 x).toNat ≤ 0x7F7FFFFF ∧ codeMag 23 (sfn 3 x).toNat = 2 ^ (z + 149).toNat)

/-- R222: each bit of VBIT's result, and POPC and CLZ by the bits of A. -/
def Claims.BitOperations : Prop :=
  ∀ (a b c : W32) k, k < 32 → let pos := b.toNat % 32
    let len := Nat.min (b.toNat / 32 % 64) 32
    (bitWord 0 a b c).toNat = ((List.range 32).filter fun i => a.getLsbD i).length
    ∧ (a = 0 → bitWord 1 a b c = 32)
    ∧ (a ≠ 0 → (bitWord 1 a b c).toNat < 32 ∧ a.getLsbD (31 - (bitWord 1 a b c).toNat) = true ∧ ∀ i, 31 - (bitWord 1 a b c).toNat < i → a.getLsbD i = false)
    ∧ (bitWord 2 a b c).getLsbD k = a.getLsbD (31 - k)
    ∧ (bitWord 3 a b c).getLsbD k = (decide (k < len) && a.getLsbD (pos + k))
    ∧ (bitWord 4 a b c).getLsbD k = (decide (len ≠ 0) && a.getLsbD (pos + if k < len then k else len - 1))
    ∧ (bitWord 5 a b c).getLsbD k = (if pos ≤ k ∧ k < pos + len then c.getLsbD (k - pos) else a.getLsbD k)
    ∧ (bitWord 6 a b c).getLsbD k = (if c.getLsbD k then a.getLsbD k else b.getLsbD k)

/-- R204, R216, R217: the working values and one combination; a reduction is the binary tree over positions, a side without enabled position passing
the other; a scan gives each enabled position the combination, in order, of those before it, itself included or the identity. -/
def Claims.TreesAndScans : Prop :=
  ∀ t o, arithType t = true → o < 6 →
    (∀ c, widen t c = if t = 0 then BitVec.ofNat 32 c else if t < 7 then toF32 (elemVal t c) else BitVec.ofInt 32 (elemInt t c))
    ∧ (∀ x y : W32, (t < 7 → combine t 0 x y = toF32 ((f32 x).add (f32 y)) ∧ combine t 1 x y = fpick32 false x y ∧ combine t 2 x y = fpick32 true x y)
      ∧ (7 ≤ t → let less := if t = 7 ∨ t = 9 ∨ t = 11 then x.toInt < y.toInt else x.toNat < y.toNat
        combine t 0 x y = x + y ∧ (less → combine t 1 x y = x ∧ combine t 2 x y = y) ∧ (¬less → combine t 1 x y = y ∧ combine t 2 x y = x)
        ∧ combine t 3 x y = x &&& y ∧ combine t 4 x y = x ||| y ∧ combine t 5 x y = x ^^^ y))
    ∧ (∀ x, combineOpt t o none x = x ∧ combineOpt t o x none = x) ∧ (∀ x y, combineOpt t o (some x) (some y) = some (combine t o x y))
    ∧ (∀ x, treeReduce t o 0 [x] = x)
    ∧ (∀ k l, l.length = 2 ^ (k + 1) → treeReduce t o (k + 1) l = combineOpt t o (treeReduce t o k (l.take (2 ^ k))) (treeReduce t o k (l.drop (2 ^ k))))
    ∧ (∀ n k l, l.length = 2 ^ k → k ≤ n → treeReduce t o n l = treeReduce t o k l)
    ∧ (∀ b n em r i, (segElems t b n em r)[i]? = let per := 32 / typeWidth t
        if i < n * per then some (if em.getLsbD (b + i / per) then some (widen t (rowElem (typeWidth t) r (b * per + i))) else none) else none)
    ∧ (∀ e l i, let run (m : List (Option W32)) := m.foldl (combineOpt t o) none
        (scanList t o e none l)[i]? = (l[i]?).map fun (x : Option W32) => match x with
          | none => 0
          | some _ => if e = 1 then (run (l.take i)).getD (scanIdentity t o) else (run (l.take (i + 1))).getD 0)
    ∧ (scanIdentity t 0 = 0 ∧ scanIdentity t 3 = 0xFFFFFFFF ∧ scanIdentity t 4 = 0 ∧ scanIdentity t 5 = 0
      ∧ (t < 7 → scanIdentity t 1 = 0x7F800000 ∧ scanIdentity t 2 = 0xFF800000)
      ∧ ∀ r ∈ intTypes, r.1 = t → scanIdentity t 1 = BitVec.ofInt 32 r.2.2.2 ∧ scanIdentity t 2 = BitVec.ofInt 32 r.2.2.1)
    ∧ ∀ (x : W32) f, (t = 0 → narrow t x = x.toNat) ∧ (typeFmt t = some f → t ≠ 0 → narrow t x = roundTo f 0 false (f32 x))
      ∧ (7 ≤ t → narrow t x = x.toNat % 2 ^ typeWidth t)

/-- R218, R258: VPERM's element for an index: of the first table, of the second in the two-table form, or 0; in a W16 kernel the index is taken modulo
the tables' length. -/
def Claims.PermutedElements : Prop :=
  ∀ wd n b0 x (ta tc : Row), 0 < n →
    (x < n → permElem wd n b0 0 x false ta tc = rowElem wd ta (b0 + x) ∧ permElem wd n b0 1 x false ta tc = rowElem wd ta (b0 + x))
    ∧ (n ≤ x → permElem wd n b0 0 x false ta tc = 0)
    ∧ (n ≤ x → x < 2 * n → permElem wd n b0 1 x false ta tc = rowElem wd tc (b0 + (x - n)))
    ∧ (2 * n ≤ x → permElem wd n b0 1 x false ta tc = 0)
    ∧ permElem wd n b0 0 x true ta tc = permElem wd n b0 0 (x % n) false ta tc
    ∧ permElem wd n b0 1 x true ta tc = permElem wd n b0 1 (x % (2 * n)) false ta tc

/-- R198, R199: quantising a group into an MX format: NaN or infinity gives scale 0xFF, all zeros scale 0; else the scale is the exponent of the largest
magnitude less the format's, and each element is rounded once, saturating; where that scale has no code it is a free value (log 6). -/
def Claims.MxGroups : Prop :=
  ∀ r ∈ [(0x10, e4m3, (8 : Int)), (0x11, e5m2, 15), (0x12, e2m1, 2)], ∀ xs, let (f, fmt, emax) := r
    let special (v : Val) : Prop := v = .nan ∨ ∃ n, v = .inf n
    ((∃ v ∈ xs, special v) → quantMx f xs = (255, xs.map fun _ => 0))
    ∧ ((∀ v ∈ xs, ∃ n e, v = .fin n 0 e) → quantMx f xs = (0, xs.map fun v => roundTo fmt 0 true v))
    ∧ (∀ a : Int, (∀ v ∈ xs, ¬special v) → (∃ n m e, Val.fin n m e ∈ xs ∧ m ≠ 0 ∧ (Nat.log2 m : Int) + e = a) →
        (∀ n m e, Val.fin n m e ∈ xs → m ≠ 0 → (Nat.log2 m : Int) + e ≤ a) → let x : Int := max (a - emax) (-127)
        (x ≤ 127 → (quantMx f xs).1 = (x + 127).toNat)
        ∧ (quantMx f xs).2 = xs.map fun v => roundTo fmt 0 true (match v with | .fin n m e => .fin n m (e - x) | w => w))
    ∧ ∀ scale code, decodeMx f scale code = if scale = 255 then .nan else match decodeF fmt code with
      | .fin n m e => .fin n m (e + ((scale : Int) - 127))
      | w => w

/-- The register-register operations of both slices compute the results of their table, and change nothing else (R38). -/
def Obligations.SharedArithmetic : Prop :=
  Claims.LogicAndAdd ∧ Claims.Shifts ∧ Claims.Products ∧ Claims.Comparisons ∧ Claims.BitCounts
/-- Quotients and remainders are defined for every operand pair, on the control core only (R39). -/
def Obligations.Division : Prop :=
  Claims.Division
/-- The immediate forms and the constants LI, LIH, LIX, LIXH (R41, R67). -/
def Obligations.Immediates : Prop :=
  Claims.Immediates
/-- Branches, J, CALL and JALR go where their rules say on the control core, and are ILLEGAL on the lanes (R42, R44, R47). -/
def Obligations.TransfersOfControl : Prop :=
  Claims.Branches ∧ Claims.Jumps ∧ Claims.TransfersOnLanes
/-- A loop starts its level over its body, and the end of the body goes back or falls through (R17, R48, R49, R50, R52, R53). A body that ends in the
E word of a double-word is taken as ending in that instruction, and a skip that stays in its line counts no line access, by the model's choice (log
16, log 27). Left out: a loop end at another instruction than NOP, where the fall-through is that of RetireEffect. -/
def Obligations.Loops : Prop :=
  Claims.LoopStarts ∧ Claims.LoopEnds ∧ Claims.LaneLoops ∧ Claims.LaneLoopEnds
/-- What retiring an instruction does, and FENCE, NOP and FQRY on both slices (R37, R46, R50, R54, R55, R56, R70). -/
def Obligations.RetiringAndQueries : Prop :=
  Claims.RetireEffect ∧ Claims.FenceNopFqry ∧ Claims.FenceHolds
/-- The checks of an access, their order, and the trap of each, for every load and store (R57). -/
def Obligations.AccessChecks : Prop :=
  Claims.AccessChecks ∧ Claims.AccessFails
/-- Loads and stores of bytes the L1D holds: the register or the bytes written, and nothing else (R58, R310). -/
def Obligations.LoadsAndStores : Prop :=
  Claims.LoadsOnHit ∧ Claims.StoresOnHit
/-- LDA and WAITM acquire: what they read, when they wait, what the plaza drops, and how they end (R59, R60, R61, R317, R328). The publish number that
the acknowledgement step names is the model's (log 1). -/
def Obligations.Acquires : Prop :=
  Claims.AcquiresComplete ∧ Claims.AcquireLoad ∧ Claims.AcquireEnds ∧ Claims.SelfInvalidation ∧ Claims.WaitmLoads
/-- STREL and CKPT write through to the home and leave their entry in the release record table (R59, R60, R76, R326, R327). -/
def Obligations.Releases : Prop :=
  Claims.ReleaseStore ∧ Claims.ReleaseEntry ∧ Claims.Checkpoint
/-- AMO and CAS at the home of a word, and the commutative adds that join the update line (R60, R63, R64, R65, R66, R253, R310, R313, R326, R340). -/
def Obligations.AtomicAccesses : Prop :=
  Claims.AtomicsComplete ∧ Claims.HomeWrite ∧ Claims.Atomics ∧ Claims.AtomicValues ∧ Claims.AtomicAtHome ∧ Claims.CommutativeAdds
/-- The CSR instructions, and what each CSR holds and keeps (R68, R69). That a CSRW, CSRS or CSRC of INSRET counts itself after its write is the
model's choice, and that SVEPC reads bits 1 and 0 as zero its reading (log 27). -/
def Obligations.ControlRegisters : Prop :=
  Claims.CsrInstructions ∧ Claims.CsrStorage
/-- Prefetches never trap; ICINV, DCWB and DCINV leave the caches as they say (R72, R73, R74). -/
def Obligations.CacheMaintenance : Prop :=
  Claims.CacheInstructionsComplete ∧ Claims.Prefetches ∧ Claims.IcacheInvalidates ∧ Claims.DcacheMaintenance
/-- Handles: translation into one, emptying, reading and refreshing it (R107, R109, R110, R111, R114). -/
def Obligations.Handles : Prop :=
  Claims.XltInstruction ∧ Claims.HandleInstructions ∧ Claims.HandleRefreshes
/-- Shape registers keep their fields; tokens are waited for, tested and freed (R6, R122, R123, R127). That TFREEM frees at once what it may free
while it waits is the model's choice (log 27); that reserved bits of a shape register are kept in it and read as zero is its reading (log 18). -/
def Obligations.ShapesAndTokens : Prop :=
  Claims.ShapeInstructions ∧ Claims.TokenTests ∧ Claims.TokenFrees
/-- EMIT and SPLIT append blocks to the avenue with their descriptors, or wait (R136, R137). -/
def Obligations.Emission : Prop :=
  Claims.EmitInstruction ∧ Claims.SplitInstruction
/-- POPP and POPPN take poppable entries; BCANCEL, BSEQ and BWAIT act on the avenue (R138, R139, R140, R141). -/
def Obligations.AvenueAndAlley : Prop :=
  Claims.PopInstructions ∧ Claims.AvenueControl
/-- EXIT, HRET and WAKE; and which instructions are ILLEGAL in which contexts (R75, R76, R98, R118). -/
def Obligations.ContextEndsAndLegality : Prop :=
  Claims.ContextEnds ∧ Claims.ContextLegality
/-- TRAP and TBR complete and then raise; what taking a trap saves, and where context 5 goes (R76, R83, R87, R89, R90, R92). -/
def Obligations.TakingTraps : Prop :=
  Claims.SoftwareTraps ∧ Claims.TrapTaking ∧ Claims.SupervisorFaults
/-- SRET resumes a trapped context and ends its delivery; a kept trap is taken at its boundary (R76, R89, R93, R94, R95). -/
def Obligations.TrapReturns : Prop :=
  Claims.TrapReturn ∧ Claims.HaltingReturn ∧ Claims.EngineTrap
/-- CPY, CPYG, PUTH, BFSET, CBLD, LSCHED and LGO put their command in its queue, wait, or are ILLEGAL (R123, R124, R128, R129, R130, R267, R288, R289,
R304, R306). -/
def Obligations.EngineCommands : Prop :=
  Claims.CopyIssue ∧ Claims.OtherCommands
/-- Commands start, are cancelled, complete and fail at the head of the copy queue (R93, R126, R129, R133, R273, R288, R289). The trap of a halted
placement's failed command is dropped by the model's reading (log 18). -/
def Obligations.CopyQueue : Prop :=
  Claims.CopyEvents ∧ Claims.CopyFails ∧ Claims.FormatCommands
/-- A PUTH that arrives starts a dormant handler, context 3 before 4, or joins the plaza's queue (R98, R135). That the low two bits of the handler's
address are not used is the model's choice (log 27). -/
def Obligations.PuthArrives : Prop :=
  Claims.PuthArrives
/-- MNSET writes one part of the shadow nest; MGO checks it and moves it to the pending slot (R274, R276, R277, R278, R280, R283, R284). That streams
with the same offset read one row once, and which row of a ring operand is bounded, are the model's readings (log 19). -/
def Obligations.NestIssue : Prop :=
  Claims.ShadowNest ∧ Claims.NestGo ∧ Claims.NestChecks
/-- A nest activates, takes its stages, drains its tiles to CB rows and completes (R207, R208, R209, R276, R279, R280, R281). That a nest which comes
to wait for a stage after its placement was halted is discarded, and that any stage that is not FULL holds the engine, are the model's readings (log
19). -/
def Obligations.NestRuns : Prop :=
  Claims.NestEvents ∧ Claims.DrainWritesTile ∧ Claims.NestAccumulates ∧ Claims.DrainedElements
/-- RSET, RWAIT, RMARK and MSTAT read and set the rings and the engine's registers (R272, R285, R286, R287, R290). -/
def Obligations.RingsAndStatus : Prop :=
  Claims.RingInstructions ∧ Claims.MatrixStatus
/-- LAUNCH is refused with its status or becomes a job; JWAIT returns the job's completion value (R143, R145, R235). What a LAUNCH reads of its record
line by line, and that JWAIT asks for the publish of the plaza that released last, are the model's readings (log 23). -/
def Obligations.Launches : Prop :=
  Claims.LaunchInstruction ∧ Claims.JwaitInstruction
/-- JBAR of a GANG job waits for the contexts of its mask and returns the episode (R302, R303, R307, R328). That contexts which have ended are counted
without a publish is the model's reading (log 16). -/
def Obligations.JobBarrier : Prop :=
  Claims.JobBarrier ∧ Claims.BarrierPublishes
/-- VIEWREG, VIEWDROP, VIEWPOL, VIEWTAG and VIEWSYNC answer as their rules say (R297, R298, R299, R300, R301). The page checks of VIEWREG, the
generation a new master starts with and VIEWSYNC's 0 where the last view was dropped while it waited are the model's (log 20); VIEWDROP of an operand
with high bits set and VIEWTAG of a block never derived give free values (log 6). Left out: a view in shards (ns > 1). -/
def Obligations.ViewInstructions : Prop :=
  Claims.ViewInstructions ∧ Claims.ViewSyncInstruction
/-- The single-word elementwise lane instructions compute every enabled lane; the number formats, roundings and conversions (R146, R147, R148, R149,
R190, R192, R193, R194, R195, R196, R197, R203). -/
def Obligations.LaneElementwise : Prop :=
  Claims.LaneElementwise ∧ Claims.FloatPick ∧ Claims.FloatFormats ∧ Claims.ExactArithmetic ∧ Claims.Conversions
/-- Moves, broadcasts, selects, predicate operations, comparisons and pushes of the lanes (R150, R151, R157, R158, R159, R162, R220, R221). -/
def Obligations.LaneMovesAndPredicates : Prop :=
  Claims.LaneMoves ∧ Claims.LanePredicates
/-- The typed double-word lane instructions compute each element in its type (R203, R204, R205, R206, R212, R213, R214, R215, R222, R223). The slip of
a special function is a free value within the spec's tolerance (log 12). -/
def Obligations.LaneTyped : Prop :=
  Claims.LaneTyped ∧ Claims.TypedElements ∧ Claims.ConvertedWords ∧ Claims.SpecialFunctions ∧ Claims.BitOperations
/-- Reductions, scans, shuffles, permutes, rotations and MX quantising across lanes (R160, R198, R199, R204, R216, R217, R218, R219, R224, R258). -/
def Obligations.LaneCross : Prop :=
  Claims.LaneCross ∧ Claims.ShuffleStaysInSegment ∧ Claims.TreesAndScans ∧ Claims.PermutedElements ∧ Claims.MxGroups
/-- VWIN, VWINADD, VWAIT, VBEND and VRGN control the issue of their lane group (R152, R154, R155, R156, R181). -/
def Obligations.LaneControl : Prop :=
  Claims.LaneControl
/-- A result issued is on its way with its bound, lands in its destination only, and is read from its bound on (R28, R29, R30, R31, R32, R146). -/
def Obligations.LaneIssue : Prop :=
  Claims.IssueEffect ∧ Claims.ResultLands ∧ Claims.ResultsByBound
/-- VLDU and VLDG load each enabled lane's bytes as a counted result (R161, R162, R163, R164, R165, R166, R167, R230, R322). That a PENDING or FAULTED
handle holds the packet whatever its mask is the model's reading (log 17). -/
def Obligations.LaneLoads : Prop :=
  Claims.LaneLoadsComplete ∧ Claims.LaneLoads ∧ Claims.LaneLoadsHit
/-- VSTU and VSTG put one store on its way; it performs with nothing else changed, in its order (R153, R161, R162, R163, R164, R165, R166, R167). -/
def Obligations.LaneStores : Prop :=
  Claims.LaneStores ∧ Claims.StorePerforms
/-- VLDS, VSTS, VLDB and VSTB: the scratchpad and the typed buffers from the lanes (R161, R163, R165, R166, R227, R263). That a store to CB performs
at issue is the model's reading (log 17). -/
def Obligations.LaneBuffers : Prop :=
  Claims.LaneBuffers
/-- VAMO performs its lanes' atomics at their homes and takes their old values (R225, R226). -/
def Obligations.VamoInstruction : Prop :=
  Claims.VamoCompletes ∧ Claims.VamoInstruction
/-- A block is dispatched, completes, retires in order and its pushes become poppable (R139, R168, R170, R172, R174, R175, R176, R177, R178). -/
def Obligations.BlockLife : Prop :=
  Claims.BlockLife ∧ Claims.LowestFreeSeat
/-- A lane fault freezes the avenue and is raised when the blocks below are done; a queue deadlock traps (R94, R182, R183, R186). -/
def Obligations.FreezeAndDeadlock : Prop :=
  Claims.FreezeEvents ∧ Claims.QueueDeadlock
/-- What ends a context's wait, and what a delayed view read does next (R61, R62, R74, R83, R93, R348). That a blocking instruction runs again from
its start, and that a delayed read tries again when its step comes, are the model's form (log 1, log 16). -/
def Obligations.WaitsEnd : Prop :=
  Claims.WaitsEnd ∧ Claims.DelayedReads
/-- Fills install their line, the sweeper writes back dirty bytes only, and poison changes no byte (R72, R73, R78, R310, R311, R315, R316). The number
by which UNCORRECTABLE_ERROR names its unit is the model's (log 1). -/
def Obligations.CachesAndPoison : Prop :=
  Claims.FillsReturn ∧ Claims.SweeperWrites ∧ Claims.PoisonedUnit
/-- A translation invalidation reaches every TLB and handle; a page publish begins (R107, R113, R117, R360). -/
def Obligations.Invalidations : Prop :=
  Claims.Invalidations ∧ Claims.PagePublish
/-- Publish requests join, begin and end publishes, and their acknowledgements reach who waits (R328, R329, R341). The publish number that an
acknowledgement names is the model's (log 1). -/
def Obligations.Publishes : Prop :=
  Claims.Publishes ∧ Claims.PublishCompletes ∧ Claims.PublishAnswers
/-- KG notices raise a view block's known generation; an idle engine derives and writes its block (R202, R294, R296, R341, R343, R344, R345, R346,
R348, R349, R350). -/
def Obligations.ViewEngines : Prop :=
  Claims.KgNotices ∧ Claims.Snapshots ∧ Claims.ViewBlockWrites ∧ Claims.ViewCodebooks ∧ Claims.ContainmentRecords ∧ Claims.ViewBlockData
/-- The head job is placed, pre-empts or blocks as its rules say; queued launches age one level at a time (R231, R237, R238, R240, R241, R242, R245).
That a victim is REQUEUED at the choice, the order of ranks that tie and the order of starts on one die are the model's (log 23). -/
def Obligations.JobPlacing : Prop :=
  Claims.JobPlacing ∧ Claims.StartSpacing ∧ Claims.AgingMoves
/-- A placement starts, is saved, is resumed and ends (R145, R187, R231, R232, R243, R246, R248, R338). What a WAITING context is saved as is the
model's reading, and the form of a restart, at the word after the checkpoint site with the checkpoint word in g10 (R260, not R243), its choice (log
23). -/
def Obligations.PlacementLife : Prop :=
  Claims.SaveCompletes ∧ Claims.PlacementStarts ∧ Claims.PlacementEnds
/-- LSCHED loads a slot, LGO starts it, and its steps run in time order (R129, R304, R305, R306). The readings of R304 to R306 are in log 22. -/
def Obligations.Schedules : Prop :=
  Claims.ScheduleCommands ∧ Claims.ScheduleRuns
/-- Flits are checked, counted and acted on; links lose and regain credits, go down and are rekeyed (R353, R354, R355, R356, R366). What a flit's
payload says is the model's layout (log 13); that flits for others or on a link that is down are ignored, that credits are counted for all channels
together and which requests PATH_TIMEOUT may name are its readings (log 25); how a locked timebase gains is its choice within R356's bound (log 9). -/
def Obligations.Flits : Prop :=
  Claims.FlitChecks ∧ Claims.FlitEffects ∧ Claims.LinkEvents
/-- Host accesses reach what they may and abort otherwise; management registers, PARTMODE and takeover (R236, R330, R340, R356, R360, R361, R363,
R364, R368, R371, R373, R375). That an access over CXL.cache is checked as one through BAR2 and when a job runs for PARTMODE are the model's readings
(log 26). -/
def Obligations.HostPort : Prop :=
  Claims.HostAccesses ∧ Claims.HostRegisters ∧ Claims.HostReads
/-- Die power states, PASID binding, tenant keys, journal, alarm acknowledgement and the power hold (R367, R368, R372, R373, R374, R375). That a die
which goes OFF has its bytes read 0 is the model's choice (log 3), and so are its dispatcher's registers at 0 (log 4) and the cycles a power hold
takes (log 9); requests for the reserved state or the state a die has are ignored by its reading (log 24). -/
def Obligations.PowerAndProtection : Prop :=
  Claims.DiePower ∧ Claims.ProtectionEvents
/-- Power removal, a security alarm, start-up and what a stopped module may do (R82, R369, R370, R371, R372, R375, R376). That memory lost with the
power reads 0 is the model's choice (log 3); that a unit is one event of start-up, and what each is found to be, are in the event (log 2, log 24). -/
def Obligations.StartAndAlarm : Prop :=
  Claims.PowerAndAlarm ∧ Claims.StartUpSteps ∧ Claims.StoppedModule
/-- A written byte reads back, others stay, wide accesses are little-endian, and the memory keeps its canonical form (R4, R310). An unlisted byte
reads 0 by the model's choice (log 3); no clause names that value. -/
def Obligations.MemoryLaws : Prop :=
  Claims.MemoryLaws
/-- Every step of the module keeps its memory in canonical form (R4, R310). -/
def Obligations.EveryStepKeepsMemory : Prop :=
  Claims.StepKeepsMemory
/-- The state before start-up (R229, R236, R369, R370, R373). Registers without a reset value are 0, and memory lists nothing, by the model's choice
(log 2, log 3, log 4). -/
def Obligations.ResetState : Prop :=
  Claims.ResetState
/-- A step runs the instruction that the words at the program counter decode to (R13, R28, R46). Whose turn a step is, the head of the agenda says
(log 1). -/
def Obligations.StepRunsDecoded : Prop :=
  Claims.StepRunsDecoded
/-- Some words of each family, bit by bit, decode to the instruction each stands for (R11, R12, R20, R25, R26, R27). -/
def Obligations.DecodeWords : Prop :=
  Claims.DecodeWords
/-- Decode and encode agree on every instruction of the control core, both ways (R12, R14, R16, R17, R18, R19, R25, R26). -/
def Obligations.EncodingControl : Prop :=
  Claims.EncodingControl
/-- Decode and encode agree on every instruction of a lane group, both ways (R12, R14, R16, R17, R20, R21, R22, R23, R25, R27). -/
def Obligations.EncodingLanes : Prop :=
  Claims.EncodingLanes
end

