-- ==== Sys2Proof/Laws/State.lean ====
section
/-! SUPPORT. What reading a table after writing it gives, and one lemma per field of the state for each of its updates. -/
namespace Sys2Proof.Machine

theorem tabGet_tabErase_self {α : Type} (d : α) (t : Tab α) (k : Nat) : tabGet d (tabErase t k) k = d := by
  induction t with
  | nil => rfl
  | cons x t ih =>
    obtain ⟨j, v⟩ := x
    by_cases h : j = k <;> simp [tabErase, tabGet, h, ih]
theorem tabGet_tabErase_ne {α : Type} (d : α) (t : Tab α) {j k : Nat} (h : j ≠ k) : tabGet d (tabErase t k) j = tabGet d t j := by
  induction t with
  | nil => rfl
  | cons x t ih =>
    obtain ⟨i, v⟩ := x
    by_cases hk : i = k
    · subst hk; simp [tabErase, tabGet, ih, Ne.symm h]
    · by_cases hj : i = j
      · subst hj; simp [tabErase, tabGet, hk]
      · simp [tabErase, tabGet, hk, hj, ih]
theorem tabGet_tabInsert_self {α : Type} (d : α) (t : Tab α) (k : Nat) (v : α) (h : ∀ x ∈ t, x.1 ≠ k) : tabGet d (tabInsert t k v) k = v := by
  induction t with
  | nil => simp [tabInsert, tabGet]
  | cons x t ih =>
    obtain ⟨j, w⟩ := x
    have hj : j ≠ k := h (j, w) (by simp)
    have ht := ih fun y hy => h y (by simp [hy])
    unfold tabInsert
    split <;> simp [tabGet, hj, ht]
theorem tabGet_tabInsert_ne {α : Type} (d : α) (t : Tab α) {j k : Nat} (v : α) (h : j ≠ k) : tabGet d (tabInsert t k v) j = tabGet d t j := by
  induction t with
  | nil => simp [tabInsert, tabGet, Ne.symm h]
  | cons x t ih =>
    obtain ⟨i, w⟩ := x
    unfold tabInsert
    split
    · simp [tabGet, Ne.symm h]
    · simp only [tabGet]; rw [ih]
theorem tabErase_no {α : Type} (t : Tab α) (k : Nat) : ∀ x ∈ tabErase t k, x.1 ≠ k := by
  induction t with
  | nil => simp [tabErase]
  | cons x t ih =>
    obtain ⟨j, v⟩ := x
    by_cases h : j = k
    · simpa [tabErase, h] using ih
    · intro y hy
      simp only [tabErase, h, if_false, List.mem_cons] at hy
      rcases hy with rfl | hy
      · exact h
      · exact ih y hy
theorem tabErase_of_no {α : Type} (t : Tab α) (k : Nat) (h : ∀ x ∈ t, x.1 ≠ k) : tabErase t k = t := by
  induction t with
  | nil => rfl
  | cons x t ih =>
    obtain ⟨j, v⟩ := x
    have hj : j ≠ k := h (j, v) (by simp)
    simp [tabErase, hj, ih fun y hy => h y (by simp [hy])]
theorem tabErase_tabInsert {α : Type} (t : Tab α) (k : Nat) (v : α) (h : ∀ x ∈ t, x.1 ≠ k) : tabErase (tabInsert t k v) k = t := by
  induction t with
  | nil => simp [tabInsert, tabErase]
  | cons x t ih =>
    obtain ⟨j, w⟩ := x
    have hj : j ≠ k := h (j, w) (by simp)
    have ht := tabErase_of_no t k fun y hy => h y (by simp [hy])
    unfold tabInsert
    split
    · simp [tabErase, hj, ht]
    · simp [tabErase, hj, ih fun y hy => h y (by simp [hy])]
/-- A table read at the number just written. -/
@[simp] theorem tabGet_tabSet_self {α : Type} (d : α) (t : Tab α) (k : Nat) (v : α) : tabGet d (tabSet t k v) k = v :=
  tabGet_tabInsert_self d _ k v (tabErase_no t k)
/-- A table read at another number. -/
theorem tabGet_tabSet_ne {α : Type} (d : α) (t : Tab α) {j k : Nat} (v : α) (h : j ≠ k) : tabGet d (tabSet t k v) j = tabGet d t j := by
  rw [tabSet, tabGet_tabInsert_ne d _ v h, tabGet_tabErase_ne d t h]
/-- The second of two writes of one number stands. -/
@[simp] theorem tabSet_tabSet {α : Type} (t : Tab α) (k : Nat) (v w : α) : tabSet (tabSet t k v) k w = tabSet t k w := by
  unfold tabSet
  rw [tabErase_tabInsert _ _ _ (tabErase_no t k)]
/-- A canonical table read at the number just written. -/
@[simp] theorem tabGet_tabPut_self {α : Type} [DecidableEq α] (d : α) (t : Tab α) (k : Nat) (v : α) : tabGet d (tabPut d t k v) k = v := by
  unfold tabPut
  split
  · next h => rw [tabGet_tabErase_self, h]
  · simp
/-- A canonical table read at another number. -/
theorem tabGet_tabPut_ne {α : Type} [DecidableEq α] (d : α) (t : Tab α) {j k : Nat} (v : α) (h : j ≠ k) :
    tabGet d (tabPut d t k v) j = tabGet d t j := by
  unfold tabPut
  split
  · exact tabGet_tabErase_ne d t h
  · exact tabGet_tabSet_ne d t v h

/-- g[n] after a write of g[d] (R24, R37). -/
theorem Ctx.reg_setReg (x : Ctx) (d n : Nat) (v : Word) : (x.setReg d v).reg n = if n = d ∧ d ≠ 0 then v else x.reg n := by
  unfold Ctx.reg Ctx.setReg
  by_cases hd : d = 0
  · simp [hd]
  · by_cases hn : n = 0
    · simp [hn, Ne.symm hd]
    · by_cases h : n = d
      · subst h; simp [hn]
      · simp only [hd, hn, h, if_false, false_and]
        exact tabGet_tabPut_ne _ x.g v h
/-- s[n] after a write of s[d] (R24). -/
theorem Lane.scalar_setScalar (x : Lane) (d n : Nat) (v : W32) : (x.setScalar d v).scalar n = if n = d ∧ d ≠ 0 then v else x.scalar n := by
  unfold Lane.scalar Lane.setScalar
  by_cases hd : d = 0
  · simp [hd]
  · by_cases hn : n = 0
    · simp [hn, Ne.symm hd]
    · by_cases h : n = d
      · subst h; simp [hn]
      · simp only [hd, hn, h, if_false, false_and]
        exact tabGet_tabPut_ne _ x.s v h

@[simp] theorem plaza_modPlaza_self (s : State) (p : Nat) (f : Plaza → Plaza) : (s.modPlaza p f).plaza p = f (s.plaza p) := by
  simp [State.plaza, State.modPlaza]
theorem plaza_modPlaza_ne (s : State) {p q : Nat} (f : Plaza → Plaza) (h : q ≠ p) : (s.modPlaza p f).plaza q = s.plaza q := by
  simp [State.plaza, State.modPlaza, tabGet_tabSet_ne _ _ _ h]
@[simp] theorem modPlaza_modPlaza (s : State) (p : Nat) (f g : Plaza → Plaza) :
    (s.modPlaza p f).modPlaza p g = s.modPlaza p fun x => g (f x) := by
  simp [State.modPlaza, State.plaza]
@[simp] theorem place_modPlace_self (s : State) (p : Nat) (f : Place → Place) : (s.modPlace p f).place p = f (s.place p) := by
  simp [State.place, State.modPlace]
@[simp] theorem modPlace_modPlace (s : State) (p : Nat) (f g : Place → Place) :
    (s.modPlace p f).modPlace p g = s.modPlace p fun x => g (f x) := by
  simp [State.modPlace]
@[simp] theorem ctx_modCtx_self (s : State) (p c : Nat) (f : Ctx → Ctx) : (s.modCtx p c f).ctx p c = f (s.ctx p c) := by
  unfold State.modCtx State.ctx
  by_cases h : c = 5 <;> simp [h, State.place, State.modPlace]
@[simp] theorem modCtx_modCtx (s : State) (p c : Nat) (f g : Ctx → Ctx) :
    (s.modCtx p c f).modCtx p c g = s.modCtx p c fun x => g (f x) := by
  unfold State.modCtx
  by_cases h : c = 5 <;> simp [h, State.modPlace]
@[simp] theorem lane_modLane_self (s : State) (p l : Nat) (f : Lane → Lane) : (s.modLane p l f).lane p l = f (s.lane p l) := by
  simp [State.lane, State.modLane]
@[simp] theorem modLane_modLane (s : State) (p l : Nat) (f g : Lane → Lane) :
    (s.modLane p l f).modLane p l g = s.modLane p l fun x => g (f x) := by
  simp [State.modLane]
/-- A change of a context is the write of its changed value. -/
theorem modCtx_const (s : State) (p c : Nat) (f : Ctx → Ctx) : s.modCtx p c f = s.modCtx p c fun _ => f (s.ctx p c) := by
  unfold State.modCtx State.ctx State.modPlace State.modPlaza State.place
  split <;> rfl
/-- A change of a lane group half is the write of its changed value. -/
theorem modLane_const (s : State) (p l : Nat) (f : Lane → Lane) : s.modLane p l f = s.modLane p l fun _ => f (s.lane p l) := rfl
/-- The supervisor's context is no part of the placement. -/
theorem modCtx_wakeDue (s : State) (p c : Nat) (f : Ctx → Ctx) : ((s.modCtx p c f).plaza p).wakeDue = (s.plaza p).wakeDue := by
  unfold State.modCtx
  by_cases h : c = 5 <;> simp [h, State.modPlace]

@[simp] theorem modPlaza_dev (s : State) (p : Nat) (f : Plaza → Plaza) : (s.modPlaza p f).dev = s.dev := rfl
@[simp] theorem modPlaza_mem (s : State) (p : Nat) (f : Plaza → Plaza) : (s.modPlaza p f).mem = s.mem := rfl
@[simp] theorem modPlaza_poison (s : State) (p : Nat) (f : Plaza → Plaza) : (s.modPlaza p f).poison = s.poison := rfl
@[simp] theorem modPlaza_pasids (s : State) (p : Nat) (f : Plaza → Plaza) : (s.modPlaza p f).pasids = s.pasids := rfl
@[simp] theorem modPlaza_runtime (s : State) (p : Nat) (f : Plaza → Plaza) : (s.modPlaza p f).runtime = s.runtime := rfl
@[simp] theorem modPlaza_rrt (s : State) (p : Nat) (f : Plaza → Plaza) : (s.modPlaza p f).rrt = s.rrt := rfl
@[simp] theorem modPlaza_requests (s : State) (p : Nat) (f : Plaza → Plaza) : (s.modPlaza p f).requests = s.requests := rfl
@[simp] theorem modPlaza_acks (s : State) (p : Nat) (f : Plaza → Plaza) : (s.modPlaza p f).acks = s.acks := rfl
@[simp] theorem modPlaza_notices (s : State) (p : Nat) (f : Plaza → Plaza) : (s.modPlaza p f).notices = s.notices := rfl
@[simp] theorem modPlaza_masters (s : State) (p : Nat) (f : Plaza → Plaza) : (s.modPlaza p f).masters = s.masters := rfl
@[simp] theorem modPlaza_views (s : State) (p : Nat) (f : Plaza → Plaza) : (s.modPlaza p f).views = s.views := rfl
@[simp] theorem modPlaza_engines (s : State) (p : Nat) (f : Plaza → Plaza) : (s.modPlaza p f).engines = s.engines := rfl
@[simp] theorem modPlaza_placer (s : State) (p : Nat) (f : Plaza → Plaza) : (s.modPlaza p f).placer = s.placer := rfl
@[simp] theorem modPlaza_remotes (s : State) (p : Nat) (f : Plaza → Plaza) : (s.modPlaza p f).remotes = s.remotes := rfl
@[simp] theorem modPlaza_outbox (s : State) (p : Nat) (f : Plaza → Plaza) : (s.modPlaza p f).outbox = s.outbox := rfl
@[simp] theorem modPlaza_slots (s : State) (p : Nat) (f : Plaza → Plaza) : (s.modPlaza p f).slots = s.slots := rfl
@[simp] theorem modPlaza_invals (s : State) (p : Nat) (f : Plaza → Plaza) : (s.modPlaza p f).invals = s.invals := rfl
@[simp] theorem modPlaza_moves (s : State) (p : Nat) (f : Plaza → Plaza) : (s.modPlaza p f).moves = s.moves := rfl
@[simp] theorem modPlaza_writes (s : State) (p : Nat) (f : Plaza → Plaza) : (s.modPlaza p f).writes = s.writes := rfl
@[simp] theorem modPlaza_agenda (s : State) (p : Nat) (f : Plaza → Plaza) : (s.modPlaza p f).agenda = s.agenda := rfl
@[simp] theorem modPlaza_phaseNo (s : State) (p : Nat) (f : Plaza → Plaza) : (s.modPlaza p f).phaseNo = s.phaseNo := rfl
@[simp] theorem modPlaza_cur (s : State) (p : Nat) (f : Plaza → Plaza) : (s.modPlaza p f).cur = s.cur := rfl
@[simp] theorem modPlaza_fresh (s : State) (p : Nat) (f : Plaza → Plaza) : (s.modPlaza p f).fresh = s.fresh := rfl
@[simp] theorem modPlace_dev (s : State) (p : Nat) (f : Place → Place) : (s.modPlace p f).dev = s.dev := rfl
@[simp] theorem modPlace_mem (s : State) (p : Nat) (f : Place → Place) : (s.modPlace p f).mem = s.mem := rfl
@[simp] theorem modPlace_poison (s : State) (p : Nat) (f : Place → Place) : (s.modPlace p f).poison = s.poison := rfl
@[simp] theorem modPlace_pasids (s : State) (p : Nat) (f : Place → Place) : (s.modPlace p f).pasids = s.pasids := rfl
@[simp] theorem modPlace_runtime (s : State) (p : Nat) (f : Place → Place) : (s.modPlace p f).runtime = s.runtime := rfl
@[simp] theorem modPlace_rrt (s : State) (p : Nat) (f : Place → Place) : (s.modPlace p f).rrt = s.rrt := rfl
@[simp] theorem modPlace_requests (s : State) (p : Nat) (f : Place → Place) : (s.modPlace p f).requests = s.requests := rfl
@[simp] theorem modPlace_acks (s : State) (p : Nat) (f : Place → Place) : (s.modPlace p f).acks = s.acks := rfl
@[simp] theorem modPlace_notices (s : State) (p : Nat) (f : Place → Place) : (s.modPlace p f).notices = s.notices := rfl
@[simp] theorem modPlace_masters (s : State) (p : Nat) (f : Place → Place) : (s.modPlace p f).masters = s.masters := rfl
@[simp] theorem modPlace_views (s : State) (p : Nat) (f : Place → Place) : (s.modPlace p f).views = s.views := rfl
@[simp] theorem modPlace_engines (s : State) (p : Nat) (f : Place → Place) : (s.modPlace p f).engines = s.engines := rfl
@[simp] theorem modPlace_placer (s : State) (p : Nat) (f : Place → Place) : (s.modPlace p f).placer = s.placer := rfl
@[simp] theorem modPlace_remotes (s : State) (p : Nat) (f : Place → Place) : (s.modPlace p f).remotes = s.remotes := rfl
@[simp] theorem modPlace_outbox (s : State) (p : Nat) (f : Place → Place) : (s.modPlace p f).outbox = s.outbox := rfl
@[simp] theorem modPlace_slots (s : State) (p : Nat) (f : Place → Place) : (s.modPlace p f).slots = s.slots := rfl
@[simp] theorem modPlace_invals (s : State) (p : Nat) (f : Place → Place) : (s.modPlace p f).invals = s.invals := rfl
@[simp] theorem modPlace_moves (s : State) (p : Nat) (f : Place → Place) : (s.modPlace p f).moves = s.moves := rfl
@[simp] theorem modPlace_writes (s : State) (p : Nat) (f : Place → Place) : (s.modPlace p f).writes = s.writes := rfl
@[simp] theorem modPlace_agenda (s : State) (p : Nat) (f : Place → Place) : (s.modPlace p f).agenda = s.agenda := rfl
@[simp] theorem modPlace_phaseNo (s : State) (p : Nat) (f : Place → Place) : (s.modPlace p f).phaseNo = s.phaseNo := rfl
@[simp] theorem modPlace_cur (s : State) (p : Nat) (f : Place → Place) : (s.modPlace p f).cur = s.cur := rfl
@[simp] theorem modPlace_fresh (s : State) (p : Nat) (f : Place → Place) : (s.modPlace p f).fresh = s.fresh := rfl
@[simp] theorem modLane_dev (s : State) (p l : Nat) (f : Lane → Lane) : (s.modLane p l f).dev = s.dev := rfl
@[simp] theorem modLane_mem (s : State) (p l : Nat) (f : Lane → Lane) : (s.modLane p l f).mem = s.mem := rfl
@[simp] theorem modLane_poison (s : State) (p l : Nat) (f : Lane → Lane) : (s.modLane p l f).poison = s.poison := rfl
@[simp] theorem modLane_pasids (s : State) (p l : Nat) (f : Lane → Lane) : (s.modLane p l f).pasids = s.pasids := rfl
@[simp] theorem modLane_runtime (s : State) (p l : Nat) (f : Lane → Lane) : (s.modLane p l f).runtime = s.runtime := rfl
@[simp] theorem modLane_rrt (s : State) (p l : Nat) (f : Lane → Lane) : (s.modLane p l f).rrt = s.rrt := rfl
@[simp] theorem modLane_requests (s : State) (p l : Nat) (f : Lane → Lane) : (s.modLane p l f).requests = s.requests := rfl
@[simp] theorem modLane_acks (s : State) (p l : Nat) (f : Lane → Lane) : (s.modLane p l f).acks = s.acks := rfl
@[simp] theorem modLane_notices (s : State) (p l : Nat) (f : Lane → Lane) : (s.modLane p l f).notices = s.notices := rfl
@[simp] theorem modLane_masters (s : State) (p l : Nat) (f : Lane → Lane) : (s.modLane p l f).masters = s.masters := rfl
@[simp] theorem modLane_views (s : State) (p l : Nat) (f : Lane → Lane) : (s.modLane p l f).views = s.views := rfl
@[simp] theorem modLane_engines (s : State) (p l : Nat) (f : Lane → Lane) : (s.modLane p l f).engines = s.engines := rfl
@[simp] theorem modLane_placer (s : State) (p l : Nat) (f : Lane → Lane) : (s.modLane p l f).placer = s.placer := rfl
@[simp] theorem modLane_remotes (s : State) (p l : Nat) (f : Lane → Lane) : (s.modLane p l f).remotes = s.remotes := rfl
@[simp] theorem modLane_outbox (s : State) (p l : Nat) (f : Lane → Lane) : (s.modLane p l f).outbox = s.outbox := rfl
@[simp] theorem modLane_slots (s : State) (p l : Nat) (f : Lane → Lane) : (s.modLane p l f).slots = s.slots := rfl
@[simp] theorem modLane_invals (s : State) (p l : Nat) (f : Lane → Lane) : (s.modLane p l f).invals = s.invals := rfl
@[simp] theorem modLane_moves (s : State) (p l : Nat) (f : Lane → Lane) : (s.modLane p l f).moves = s.moves := rfl
@[simp] theorem modLane_writes (s : State) (p l : Nat) (f : Lane → Lane) : (s.modLane p l f).writes = s.writes := rfl
@[simp] theorem modLane_agenda (s : State) (p l : Nat) (f : Lane → Lane) : (s.modLane p l f).agenda = s.agenda := rfl
@[simp] theorem modLane_phaseNo (s : State) (p l : Nat) (f : Lane → Lane) : (s.modLane p l f).phaseNo = s.phaseNo := rfl
@[simp] theorem modLane_cur (s : State) (p l : Nat) (f : Lane → Lane) : (s.modLane p l f).cur = s.cur := rfl
@[simp] theorem modLane_fresh (s : State) (p l : Nat) (f : Lane → Lane) : (s.modLane p l f).fresh = s.fresh := rfl
@[simp] theorem modDev_mem (s : State) (f : Device → Device) : (s.modDev f).mem = s.mem := rfl
@[simp] theorem modDev_poison (s : State) (f : Device → Device) : (s.modDev f).poison = s.poison := rfl
@[simp] theorem modDev_pasids (s : State) (f : Device → Device) : (s.modDev f).pasids = s.pasids := rfl
@[simp] theorem modDev_runtime (s : State) (f : Device → Device) : (s.modDev f).runtime = s.runtime := rfl
@[simp] theorem modDev_plazas (s : State) (f : Device → Device) : (s.modDev f).plazas = s.plazas := rfl
@[simp] theorem modDev_rrt (s : State) (f : Device → Device) : (s.modDev f).rrt = s.rrt := rfl
@[simp] theorem modDev_requests (s : State) (f : Device → Device) : (s.modDev f).requests = s.requests := rfl
@[simp] theorem modDev_acks (s : State) (f : Device → Device) : (s.modDev f).acks = s.acks := rfl
@[simp] theorem modDev_notices (s : State) (f : Device → Device) : (s.modDev f).notices = s.notices := rfl
@[simp] theorem modDev_masters (s : State) (f : Device → Device) : (s.modDev f).masters = s.masters := rfl
@[simp] theorem modDev_views (s : State) (f : Device → Device) : (s.modDev f).views = s.views := rfl
@[simp] theorem modDev_engines (s : State) (f : Device → Device) : (s.modDev f).engines = s.engines := rfl
@[simp] theorem modDev_placer (s : State) (f : Device → Device) : (s.modDev f).placer = s.placer := rfl
@[simp] theorem modDev_remotes (s : State) (f : Device → Device) : (s.modDev f).remotes = s.remotes := rfl
@[simp] theorem modDev_outbox (s : State) (f : Device → Device) : (s.modDev f).outbox = s.outbox := rfl
@[simp] theorem modDev_slots (s : State) (f : Device → Device) : (s.modDev f).slots = s.slots := rfl
@[simp] theorem modDev_invals (s : State) (f : Device → Device) : (s.modDev f).invals = s.invals := rfl
@[simp] theorem modDev_moves (s : State) (f : Device → Device) : (s.modDev f).moves = s.moves := rfl
@[simp] theorem modDev_writes (s : State) (f : Device → Device) : (s.modDev f).writes = s.writes := rfl
@[simp] theorem modDev_agenda (s : State) (f : Device → Device) : (s.modDev f).agenda = s.agenda := rfl
@[simp] theorem modDev_phaseNo (s : State) (f : Device → Device) : (s.modDev f).phaseNo = s.phaseNo := rfl
@[simp] theorem modDev_cur (s : State) (f : Device → Device) : (s.modDev f).cur = s.cur := rfl
@[simp] theorem modDev_fresh (s : State) (f : Device → Device) : (s.modDev f).fresh = s.fresh := rfl
@[simp] theorem modPlacer_dev (s : State) (f : Placer → Placer) : (s.modPlacer f).dev = s.dev := rfl
@[simp] theorem modPlacer_mem (s : State) (f : Placer → Placer) : (s.modPlacer f).mem = s.mem := rfl
@[simp] theorem modPlacer_poison (s : State) (f : Placer → Placer) : (s.modPlacer f).poison = s.poison := rfl
@[simp] theorem modPlacer_pasids (s : State) (f : Placer → Placer) : (s.modPlacer f).pasids = s.pasids := rfl
@[simp] theorem modPlacer_runtime (s : State) (f : Placer → Placer) : (s.modPlacer f).runtime = s.runtime := rfl
@[simp] theorem modPlacer_plazas (s : State) (f : Placer → Placer) : (s.modPlacer f).plazas = s.plazas := rfl
@[simp] theorem modPlacer_rrt (s : State) (f : Placer → Placer) : (s.modPlacer f).rrt = s.rrt := rfl
@[simp] theorem modPlacer_requests (s : State) (f : Placer → Placer) : (s.modPlacer f).requests = s.requests := rfl
@[simp] theorem modPlacer_acks (s : State) (f : Placer → Placer) : (s.modPlacer f).acks = s.acks := rfl
@[simp] theorem modPlacer_notices (s : State) (f : Placer → Placer) : (s.modPlacer f).notices = s.notices := rfl
@[simp] theorem modPlacer_masters (s : State) (f : Placer → Placer) : (s.modPlacer f).masters = s.masters := rfl
@[simp] theorem modPlacer_views (s : State) (f : Placer → Placer) : (s.modPlacer f).views = s.views := rfl
@[simp] theorem modPlacer_engines (s : State) (f : Placer → Placer) : (s.modPlacer f).engines = s.engines := rfl
@[simp] theorem modPlacer_remotes (s : State) (f : Placer → Placer) : (s.modPlacer f).remotes = s.remotes := rfl
@[simp] theorem modPlacer_outbox (s : State) (f : Placer → Placer) : (s.modPlacer f).outbox = s.outbox := rfl
@[simp] theorem modPlacer_slots (s : State) (f : Placer → Placer) : (s.modPlacer f).slots = s.slots := rfl
@[simp] theorem modPlacer_invals (s : State) (f : Placer → Placer) : (s.modPlacer f).invals = s.invals := rfl
@[simp] theorem modPlacer_moves (s : State) (f : Placer → Placer) : (s.modPlacer f).moves = s.moves := rfl
@[simp] theorem modPlacer_writes (s : State) (f : Placer → Placer) : (s.modPlacer f).writes = s.writes := rfl
@[simp] theorem modPlacer_agenda (s : State) (f : Placer → Placer) : (s.modPlacer f).agenda = s.agenda := rfl
@[simp] theorem modPlacer_phaseNo (s : State) (f : Placer → Placer) : (s.modPlacer f).phaseNo = s.phaseNo := rfl
@[simp] theorem modPlacer_cur (s : State) (f : Placer → Placer) : (s.modPlacer f).cur = s.cur := rfl
@[simp] theorem modPlacer_fresh (s : State) (f : Placer → Placer) : (s.modPlacer f).fresh = s.fresh := rfl
@[simp] theorem modHost_mem (s : State) (f : HostSide → HostSide) : (s.modHost f).mem = s.mem := rfl
@[simp] theorem modHost_poison (s : State) (f : HostSide → HostSide) : (s.modHost f).poison = s.poison := rfl
@[simp] theorem modHost_pasids (s : State) (f : HostSide → HostSide) : (s.modHost f).pasids = s.pasids := rfl
@[simp] theorem modHost_runtime (s : State) (f : HostSide → HostSide) : (s.modHost f).runtime = s.runtime := rfl
@[simp] theorem modHost_plazas (s : State) (f : HostSide → HostSide) : (s.modHost f).plazas = s.plazas := rfl
@[simp] theorem modHost_rrt (s : State) (f : HostSide → HostSide) : (s.modHost f).rrt = s.rrt := rfl
@[simp] theorem modHost_requests (s : State) (f : HostSide → HostSide) : (s.modHost f).requests = s.requests := rfl
@[simp] theorem modHost_acks (s : State) (f : HostSide → HostSide) : (s.modHost f).acks = s.acks := rfl
@[simp] theorem modHost_notices (s : State) (f : HostSide → HostSide) : (s.modHost f).notices = s.notices := rfl
@[simp] theorem modHost_masters (s : State) (f : HostSide → HostSide) : (s.modHost f).masters = s.masters := rfl
@[simp] theorem modHost_views (s : State) (f : HostSide → HostSide) : (s.modHost f).views = s.views := rfl
@[simp] theorem modHost_engines (s : State) (f : HostSide → HostSide) : (s.modHost f).engines = s.engines := rfl
@[simp] theorem modHost_placer (s : State) (f : HostSide → HostSide) : (s.modHost f).placer = s.placer := rfl
@[simp] theorem modHost_remotes (s : State) (f : HostSide → HostSide) : (s.modHost f).remotes = s.remotes := rfl
@[simp] theorem modHost_outbox (s : State) (f : HostSide → HostSide) : (s.modHost f).outbox = s.outbox := rfl
@[simp] theorem modHost_slots (s : State) (f : HostSide → HostSide) : (s.modHost f).slots = s.slots := rfl
@[simp] theorem modHost_invals (s : State) (f : HostSide → HostSide) : (s.modHost f).invals = s.invals := rfl
@[simp] theorem modHost_moves (s : State) (f : HostSide → HostSide) : (s.modHost f).moves = s.moves := rfl
@[simp] theorem modHost_writes (s : State) (f : HostSide → HostSide) : (s.modHost f).writes = s.writes := rfl
@[simp] theorem modHost_agenda (s : State) (f : HostSide → HostSide) : (s.modHost f).agenda = s.agenda := rfl
@[simp] theorem modHost_phaseNo (s : State) (f : HostSide → HostSide) : (s.modHost f).phaseNo = s.phaseNo := rfl
@[simp] theorem modHost_cur (s : State) (f : HostSide → HostSide) : (s.modHost f).cur = s.cur := rfl
@[simp] theorem modHost_fresh (s : State) (f : HostSide → HostSide) : (s.modHost f).fresh = s.fresh := rfl
@[simp] theorem modCtx_dev (s : State) (p c : Nat) (f : Ctx → Ctx) : (s.modCtx p c f).dev = s.dev := by unfold State.modCtx; split <;> rfl
@[simp] theorem modCtx_mem (s : State) (p c : Nat) (f : Ctx → Ctx) : (s.modCtx p c f).mem = s.mem := by unfold State.modCtx; split <;> rfl
@[simp] theorem modCtx_poison (s : State) (p c : Nat) (f : Ctx → Ctx) : (s.modCtx p c f).poison = s.poison := by unfold State.modCtx; split <;> rfl
@[simp] theorem modCtx_pasids (s : State) (p c : Nat) (f : Ctx → Ctx) : (s.modCtx p c f).pasids = s.pasids := by unfold State.modCtx; split <;> rfl
@[simp] theorem modCtx_runtime (s : State) (p c : Nat) (f : Ctx → Ctx) : (s.modCtx p c f).runtime = s.runtime := by unfold State.modCtx; split <;> rfl
@[simp] theorem modCtx_rrt (s : State) (p c : Nat) (f : Ctx → Ctx) : (s.modCtx p c f).rrt = s.rrt := by unfold State.modCtx; split <;> rfl
@[simp] theorem modCtx_requests (s : State) (p c : Nat) (f : Ctx → Ctx) : (s.modCtx p c f).requests = s.requests := by unfold State.modCtx; split <;> rfl
@[simp] theorem modCtx_acks (s : State) (p c : Nat) (f : Ctx → Ctx) : (s.modCtx p c f).acks = s.acks := by unfold State.modCtx; split <;> rfl
@[simp] theorem modCtx_notices (s : State) (p c : Nat) (f : Ctx → Ctx) : (s.modCtx p c f).notices = s.notices := by unfold State.modCtx; split <;> rfl
@[simp] theorem modCtx_masters (s : State) (p c : Nat) (f : Ctx → Ctx) : (s.modCtx p c f).masters = s.masters := by unfold State.modCtx; split <;> rfl
@[simp] theorem modCtx_views (s : State) (p c : Nat) (f : Ctx → Ctx) : (s.modCtx p c f).views = s.views := by unfold State.modCtx; split <;> rfl
@[simp] theorem modCtx_engines (s : State) (p c : Nat) (f : Ctx → Ctx) : (s.modCtx p c f).engines = s.engines := by unfold State.modCtx; split <;> rfl
@[simp] theorem modCtx_placer (s : State) (p c : Nat) (f : Ctx → Ctx) : (s.modCtx p c f).placer = s.placer := by unfold State.modCtx; split <;> rfl
@[simp] theorem modCtx_remotes (s : State) (p c : Nat) (f : Ctx → Ctx) : (s.modCtx p c f).remotes = s.remotes := by unfold State.modCtx; split <;> rfl
@[simp] theorem modCtx_outbox (s : State) (p c : Nat) (f : Ctx → Ctx) : (s.modCtx p c f).outbox = s.outbox := by unfold State.modCtx; split <;> rfl
@[simp] theorem modCtx_slots (s : State) (p c : Nat) (f : Ctx → Ctx) : (s.modCtx p c f).slots = s.slots := by unfold State.modCtx; split <;> rfl
@[simp] theorem modCtx_invals (s : State) (p c : Nat) (f : Ctx → Ctx) : (s.modCtx p c f).invals = s.invals := by unfold State.modCtx; split <;> rfl
@[simp] theorem modCtx_moves (s : State) (p c : Nat) (f : Ctx → Ctx) : (s.modCtx p c f).moves = s.moves := by unfold State.modCtx; split <;> rfl
@[simp] theorem modCtx_writes (s : State) (p c : Nat) (f : Ctx → Ctx) : (s.modCtx p c f).writes = s.writes := by unfold State.modCtx; split <;> rfl
@[simp] theorem modCtx_agenda (s : State) (p c : Nat) (f : Ctx → Ctx) : (s.modCtx p c f).agenda = s.agenda := by unfold State.modCtx; split <;> rfl
@[simp] theorem modCtx_phaseNo (s : State) (p c : Nat) (f : Ctx → Ctx) : (s.modCtx p c f).phaseNo = s.phaseNo := by unfold State.modCtx; split <;> rfl
@[simp] theorem modCtx_cur (s : State) (p c : Nat) (f : Ctx → Ctx) : (s.modCtx p c f).cur = s.cur := by unfold State.modCtx; split <;> rfl
@[simp] theorem modCtx_fresh (s : State) (p c : Nat) (f : Ctx → Ctx) : (s.modCtx p c f).fresh = s.fresh := by unfold State.modCtx; split <;> rfl

end Sys2Proof.Machine
end

