-- ==== Sys2Proof/Laws/Control.lean ====
section
/-! SUPPORT. What the completion of a control context's instruction does, said once: the fall-through, the register write, the taken
transfer, the wait, the trap. -/
namespace Sys2Proof.Machine

/-- With no loop ending at its instruction a context's end detection finds nothing (R50). -/
theorem loopEnd_none (x : Ctx) (h : x.noLoopEnd) : loopEnd x.pc [3, 2, 1, 0] x.levels = (x.levels, none) := by
  have f : ∀ l, l < 4 → ((levelOf x.levels l).active && (levelOf x.levels l).last == x.pc) = false := by
    intro l hl
    have := h l hl
    cases ha : (levelOf x.levels l).active <;> simp_all
  simp [loopEnd, f]
/-- The fall-through completes an instruction that has changed its registers only. -/
theorem completed_fallThrough (x : Ctx) (g : Tab Word) : x.completed { x with g := g }.fallThrough := by
  refine ⟨by simp [Ctx.fallThrough], by simp [Ctx.fallThrough], fun h => ?_⟩
  have := loopEnd_none x h
  simp [Ctx.fallThrough, this, Ctx.len]
theorem completed_setReg (x : Ctx) (d : Nat) (v : Word) : x.completed (x.setReg d v).fallThrough := by
  unfold Ctx.setReg
  split
  · exact completed_fallThrough x x.g
  · exact completed_fallThrough x _
@[simp] theorem reg_fallThrough (x : Ctx) (n : Nat) : x.fallThrough.reg n = x.reg n := by simp [Ctx.reg, Ctx.fallThrough]
@[simp] theorem reg_transfer (x : Ctx) (t : Word) (n : Nat) : (x.transfer t).reg n = x.reg n := by simp [Ctx.reg, Ctx.transfer]
/-- Nothing waits for the instruction's end (R89, R95): nothing more happens at it. -/
theorem settleWake_modCtx (s : State) (p c : Nat) (g : Ctx → Ctx) (hw : s.noWake p c) (hg : (g (s.ctx p c)).ending = none) :
    (s.modCtx p c g).settleWake p c = s.modCtx p c g := by
  unfold State.settleWake
  rw [modCtx_wakeDue, ctx_modCtx_self, hg]
  split
  · next h => simp [State.noWake] at hw; simp_all
  · rfl
/-- Retiring changes the context alone unless a wake of the supervisor (R89) or a halt (R95) waits for it. -/
theorem retire_eq (s : State) (p c : Nat) (f : Ctx → Ctx) (hw : s.noWake p c) (hf : (f (s.ctx p c)).ending = none) :
    s.retire p c f = s.modCtx p c fun x => (f x).fallThrough :=
  settleWake_modCtx s p c _ hw hf
/-- A register write leaves a halt that waits as it is. -/
@[simp] theorem ending_setReg (x : Ctx) (d : Nat) (v : Word) : (x.setReg d v).ending = x.ending := by unfold Ctx.setReg; split <;> rfl
/-- An instruction whose meaning retires with a register write completes and writes nothing else. -/
theorem writesG_retireReg (i : Instr) (s : State) (p c d : Nat) (v : Word) (hw : s.noWake p c)
    (h : exec i s = .next (s.retireReg p c d v)) : writesG i s p c d v := by
  have e : s.retireReg p c d v = s.modCtx p c fun x => (x.setReg d v).fallThrough := retire_eq s p c _ hw (by simp [hw.2])
  refine ⟨_, h, ?_, ?_, ?_⟩ <;> rw [e]
  · rw [State.sameButCtx, ctx_modCtx_self]; exact modCtx_const s p c _
  · rw [ctx_modCtx_self]; exact completed_setReg _ d v
  · intro n
    rw [State.g, ctx_modCtx_self, reg_fallThrough, Ctx.reg_setReg]; rfl
/-- The same with no register written. -/
theorem writesG_retire (i : Instr) (s : State) (p c : Nat) (v : Word) (hw : s.noWake p c)
    (h : exec i s = .next (s.retire p c id)) : writesG i s p c 0 v := by
  apply writesG_retireReg i s p c 0 v hw
  rw [h]; rfl
/-- A taken transfer changes the context alone unless a wake of the supervisor (R89) or a halt (R95) waits for it. -/
theorem jump_eq (s : State) (p c : Nat) (f : Ctx → Ctx) (t : Word) (hw : s.noWake p c) (hf : (f (s.ctx p c)).ending = none) :
    s.jump p c f t = s.modCtx p c fun x => (f x).transfer t :=
  settleWake_modCtx s p c _ hw hf
/-- An instruction whose meaning is a taken transfer, with at most a link written. -/
theorem jumpsTo_jump (i : Instr) (s : State) (p c : Nat) (f : Ctx → Ctx) (t : Word) (d : Nat) (v : Word)
    (hw : s.noWake p c) (h : exec i s = .next (s.jump p c f t))
    (hf : (f (s.ctx p c)).pc = (s.ctx p c).pc ∧ (f (s.ctx p c)).insret = (s.ctx p c).insret ∧ (f (s.ctx p c)).levels = (s.ctx p c).levels
      ∧ (f (s.ctx p c)).ending = (s.ctx p c).ending)
    (hr : ∀ n, (f (s.ctx p c)).reg n = if n = d ∧ d ≠ 0 then v else (s.ctx p c).reg n) : jumpsTo i s p c t d v := by
  refine ⟨_, h, ?_, ?_, ?_, ?_, ?_, ?_, ?_⟩ <;> rw [jump_eq s p c f t hw (hf.2.2.2.trans hw.2)]
  · rw [State.sameButCtx, ctx_modCtx_self]; exact modCtx_const s p c _
  · rw [ctx_modCtx_self]; rfl
  · rw [ctx_modCtx_self]; simp [Ctx.transfer, hf.2.1]
  · rw [ctx_modCtx_self]; simp [Ctx.transfer, hf.1]
  · rw [ctx_modCtx_self]; rfl
  · intro n
    rw [State.g, ctx_modCtx_self, reg_transfer, hr]; rfl
  · rw [ctx_modCtx_self]; simp [Ctx.transfer, hf.2.2.1]

end Sys2Proof.Machine
end

