-- ==== Sys2Proof/Laws/Lanes.lean ====
section
/-! SUPPORT. What a lane instruction's operands and masks are once their results have landed: reading them changes nothing. -/
namespace Sys2Proof.Machine

/-- A row that no other lane group's VSTB writes in this cycle, with no result of the group in flight, reads as it stands (R30, R180). -/
theorem readRow_of (s : State) (p l row : Nat) (h1 : (s.lane p l).undefRow s.dev.cycle row = 0)
    (h2 : ∀ t ∈ (s.plaza p).torn, t.row = row → t.lane = l ∨ t.cycle ≠ s.dev.cycle) : s.readRow p l row = (s.cbRow p row, s) := by
  have h : ((s.plaza p).torn.find? fun t => t.row == row && t.lane != l && t.cycle == s.dev.cycle) = none := by
    simp only [List.find?_eq_none]
    intro t ht e
    simp only [Bool.and_eq_true, beq_iff_eq, bne_iff_ne] at e
    rcases h2 t ht e.1.1 with h | h
    · exact e.1.2 h
    · exact h e.2
  simp [State.readRow, State.tornRow, h, State.readOver, h1]
/-- A landed operand reads as its row, and reading it changes nothing (R22, R31). -/
theorem operandW_of (s : State) (p l wd code : Nat) (x : Row) (h : s.laneOperand p l wd code = some x) :
    s.operandW p l wd code = (x, s) := by
  simp only [State.laneOperand] at h
  unfold State.operandW
  split_ifs at h ⊢ with h1 h2 h3 h4
  · simp only [Option.some.injEq] at h; subst h; exact readRow_of s p l _ h2.1 h2.2
  · simp only [State.readRing]
    have e : code - 63 - 1 = code - 64 := by omega
    simp only [e]
    split at h <;> simp_all
  · simp only [Option.some.injEq] at h; subst h; simp_all [State.readScalar]
/-- A scalar with no result in flight reads as it stands. -/
theorem readScalar_of (s : State) (p l n : Nat) (h : s.scalarReady p l n) : s.readScalar p l n = ((s.lane p l).scalar n, s) := by
  simp_all [State.readScalar, State.scalarReady]
/-- A predicate with no result in flight reads as it stands. -/
theorem readPred_of (s : State) (p l n : Nat) (h : s.predReady p l n) : s.readPred p l n = ((s.lane p l).pred n, s) := by
  simp_all [State.readPred, State.predReady]
/-- The effective mask of an instruction whose predicates have landed (R23). -/
theorem effMask_of (s : State) (p l n i : Nat) (em : W32) (h : s.laneMaskIs p l n i em) : s.effMask p l n i = (em, s) := by
  obtain ⟨h1, h2⟩ := h
  simp_all [State.effMask, State.readPred, State.predReady]

end Sys2Proof.Machine
end

