-- ==== Sys2Proof/Laws/Memory.lean ====
section
/-! SUPPORT. The byte memory: what each operation that writes it leaves at every address, and that each keeps the canonical form (keys
rising, no listed byte equal to an unlisted one). -/
namespace Sys2Proof.Machine

/-- The canonical form as two facts: keys rising, and no listed byte an unlisted one. -/
theorem memWf_iff (m : List Host.Cell) :
    memWf m = true ↔ (m.map Prod.fst).Pairwise (· < ·) ∧ ∀ x ∈ m, x.2 ≠ emptyByte := by
  induction m with
  | nil => simp [memWf]
  | cons x t ih =>
    obtain ⟨a, b⟩ := x
    cases t with
    | nil => simp [memWf]
    | cons y u =>
      obtain ⟨a', b'⟩ := y
      simp only [memWf, Bool.and_eq_true, bne_iff_ne, decide_eq_true_eq, ih]
      simp only [List.map_cons, List.pairwise_cons, List.mem_cons, List.mem_map, forall_eq_or_imp]
      constructor
      · rintro ⟨⟨hb, hl⟩, ⟨h1, h2⟩, h3, h4⟩
        exact ⟨⟨⟨hl, fun k hk => Nat.lt_trans hl (h1 k hk)⟩, h1, h2⟩, hb, h3, h4⟩
      · rintro ⟨⟨⟨hl, _⟩, h1, h2⟩, hb, h3, h4⟩
        exact ⟨⟨hb, hl⟩, ⟨h1, h2⟩, h3, h4⟩
/-- An unlisted byte reads as the default; erasing a key takes it out of the table. -/
theorem tabErase_eq_filter {α : Type} (t : Tab α) (k : Nat) : tabErase t k = t.filter fun x => decide (x.1 ≠ k) := by
  induction t with
  | nil => rfl
  | cons x t ih =>
    obtain ⟨j, v⟩ := x
    by_cases h : j = k <;> simp [tabErase, h, ih]
theorem mem_tabInsert {α : Type} (t : Tab α) (k : Nat) (v : α) (x : Nat × α) : x ∈ tabInsert t k v ↔ x = (k, v) ∨ x ∈ t := by
  induction t with
  | nil => simp [tabInsert]
  | cons y t ih =>
    obtain ⟨j, w⟩ := y
    simp only [tabInsert]
    split
    · simp
    · simp only [List.mem_cons, ih]; tauto
/-- Inserting a key that is not there keeps the keys rising. -/
theorem rising_tabInsert {α : Type} (t : Tab α) (k : Nat) (v : α) (h : (t.map Prod.fst).Pairwise (· < ·)) (hk : ∀ x ∈ t, x.1 ≠ k) :
    ((tabInsert t k v).map Prod.fst).Pairwise (· < ·) := by
  induction t with
  | nil => simp [tabInsert]
  | cons y t ih =>
    obtain ⟨j, w⟩ := y
    simp only [List.map_cons, List.pairwise_cons, List.mem_map] at h
    obtain ⟨h1, h2⟩ := h
    have hj : j ≠ k := hk (j, w) (by simp)
    simp only [tabInsert]
    split
    · next hl =>
      simp only [List.map_cons, List.pairwise_cons, List.mem_map, List.mem_cons]
      exact ⟨by rintro a (rfl | ⟨x, hx, rfl⟩); exacts [hl, Nat.lt_trans hl (h1 _ ⟨x, hx, rfl⟩)], h1, h2⟩
    · next hl =>
      simp only [List.map_cons, List.pairwise_cons, List.mem_map]
      refine ⟨?_, ih h2 fun x hx => hk x (by simp [hx])⟩
      rintro a ⟨x, hx, rfl⟩
      rcases (mem_tabInsert t k v x).1 hx with rfl | hx
      · omega
      · exact h1 _ ⟨x, hx, rfl⟩
/-- Writing a byte keeps the canonical form. -/
theorem memWf_memPut (m : List Host.Cell) (a : Nat) (b : Byte) (h : memWf m = true) : memWf (memPut m a b) = true := by
  rw [memWf_iff] at h ⊢
  obtain ⟨h1, h2⟩ := h
  have e1 : ((tabErase m a).map Prod.fst).Pairwise (· < ·) := by
    rw [tabErase_eq_filter]
    exact h1.sublist ((List.filter_sublist).map _)
  have e2 : ∀ x ∈ tabErase m a, x ∈ m ∧ x.1 ≠ a := by
    intro x hx; rw [tabErase_eq_filter] at hx; simpa using hx
  unfold memPut tabPut
  split
  · exact ⟨e1, fun x hx => h2 x (e2 x hx).1⟩
  · next hb =>
    refine ⟨rising_tabInsert _ _ _ e1 fun x hx => (e2 x hx).2, fun x hx => ?_⟩
    rcases (mem_tabInsert _ _ _ _).1 hx with rfl | hx
    · exact hb
    · exact h2 x (e2 x hx).1
/-- Writing n little-endian bytes keeps the canonical form. -/
theorem memWf_memWrite (n : Nat) (m : List Host.Cell) (a v : Nat) (h : memWf m = true) : memWf (memWrite m a n v) = true := by
  induction n generalizing m a v with
  | zero => exact h
  | succ n ih => exact ih _ _ _ (memWf_memPut m a _ h)
/-- Writing a list of bytes keeps the canonical form. -/
theorem memWf_memPutBytes (xs : List Byte) (m : List Host.Cell) (a : Nat) (h : memWf m = true) : memWf (memPutBytes m a xs) = true := by
  induction xs generalizing m a with
  | nil => exact h
  | cons b t ih => exact ih _ _ (memWf_memPut m a b h)
/-- Writing the masked bytes of a line keeps the canonical form. -/
theorem memWf_memPutRow (m : List Host.Cell) (line : Nat) (mask : BitVec 128) (data : Row) (h : memWf m = true) :
    memWf (memPutRow m line mask data) = true := by
  unfold memPutRow
  generalize List.range 128 = is
  induction is generalizing m with
  | nil => exact h
  | cons i t ih =>
    simp only [List.foldl_cons]
    apply ih
    split
    · exact memWf_memPut m _ _ h
    · exact h
/-- An addition of an update-only line keeps the canonical form (R65). -/
theorem memWf_applyUpdate (m : List Host.Cell) (line : Nat) (u : Update) (h : memWf m = true) : memWf (applyUpdate m line u) = true :=
  memWf_memWrite _ _ _ _ h
/-- Losing the bytes of a die keeps the canonical form (R368). -/
theorem memWf_filter (m : List Host.Cell) (f : Host.Cell → Bool) (h : memWf m = true) : memWf (m.filter f) = true := by
  rw [memWf_iff] at h ⊢
  exact ⟨h.1.sublist ((List.filter_sublist).map _), fun x hx => h.2 x (List.mem_of_mem_filter hx)⟩
/-- What a byte write leaves at every key. -/
theorem memByte_memPut (m : List Host.Cell) (a : Nat) (b : Byte) (c : Nat) :
    memByte (memPut m a b) c = if c = a then b else memByte m c := by
  unfold memByte memPut
  split
  · next h => subst h; exact tabGet_tabPut_self ..
  · next h => exact tabGet_tabPut_ne _ _ _ h

end Sys2Proof.Machine
end

