-- ==== Sys2Proof/Tests/Slice0.lean ====
section
/-! SUPPORT. The author's own tests: words that the spec writes out, each decoding to the instruction it stands for; ill-formed terms that
the check refuses; single steps on small states, with results taken from the spec; and for each statement with hypotheses a state and
operands that meet them. -/
namespace Sys2Proof.Tests
open Sys2Proof Sys2Proof.Machine

-- One theorem after another: their kernel checks would otherwise each hold a thread.
set_option Elab.async false

/-- The value of an access, if it answers. -/
def val {α : Type} : Res α → Option α
  | .ok a _ => some a
  | _ => none
/-- The state an access leaves. -/
def left {α : Type} : Res α → State
  | .ok _ s => s
  | .wait s => s
  | .fail _ _ _ s => s
/-- Whether an access waits. -/
def waits {α : Type} : Res α → Bool
  | .wait _ => true
  | _ => false
/-- The cause an access fails with. -/
def failure {α : Type} : Res α → Option Cause
  | .fail c _ _ _ => some c
  | _ => none
/-- The state a move leaves. -/
def after : Out → State
  | .next t => t
  | _ => State.reset
/-- What holds of a plaza that is not in use and of every plaza listed holds of every plaza. -/
theorem every_plaza (s : State) (f : Plaza → Bool) (h0 : f Plaza.off = true) (h : (s.plazas.all fun x => f x.2) = true) (q : Nat) :
    f (s.plaza q) = true := by
  unfold State.plaza
  generalize s.plazas = ps at h
  induction ps with
  | nil => exact h0
  | cons x t ih =>
    obtain ⟨j, v⟩ := x
    simp only [List.all_cons, Bool.and_eq_true] at h
    by_cases e : j = q
    · simp [tabGet, e, h.1]
    · simp [tabGet, e, ih h.2]
/-- No plaza holds an addition to a line, if none that is listed does. -/
theorem no_updates (s : State) (n : Nat) (h : (s.plazas.all fun x => !x.2.hasUpdate n) = true) (q : Nat) : (s.plaza q).hasUpdate n = false := by
  simpa using every_plaza s (fun x => !x.hasUpdate n) rfl h q
/-- Whether a move goes on. -/
def goes : Out → Bool
  | .next _ => true
  | _ => false
/-- The page of the tests: 4 KiB of this module's near memory at address 0, with every permission. -/
def page : Trans := ⟨Config.thisModule, 0, 4096, true, true, true, true, false, false⟩
/-- A line of the L1D at address 0x200: bytes 1, 2, 3, ... 8 first, every byte held, clean. -/
def line : Line := ⟨4, 0, BitVec.allOnes 128, 0, 0x0807060504030201, 0, false, 0, 1, false, []⟩
/-- A module that is up, with one placement resident on plaza 0 whose page 0 its TLB holds. -/
def lab : State :=
  (State.reset.modDev fun d => { d with phase := .up, cycle := 100, dies := [(0, ⟨true, 0, false⟩)] }).modPlaza 0 fun q =>
    { q with res := .resident, tlb := [⟨0, 0, page⟩], l1d := [line]
             place := { q.place with features := 0xFF, ctx := (List.range 5).map fun c => (c, Ctx.off .dormant) } }
/-- Context c of plaza 0 about to run an instruction at 0x100, with g1 = 0x200, g2 = 7, g3 = -2. -/
def ctl (c : Nat) : State :=
  { lab with cur := ⟨.control 0 c, 0x100, 0, 0, 4⟩ }.modCtx 0 c fun x =>
    { x with state := .running, pc := 0x100, g := [(1, 0x200), (2, 7), (3, 0xFFFFFFFFFFFFFFFE)] }
/-- Lane group 0 of plaza 0 about to run an instruction, with s1 = 7, s2 = -2, every lane in p0, p1 in the even lanes, and v1 holding
its lane's number plus 1 in lanes 0 to 3. -/
def lan : State :=
  { lab with cur := ⟨.lane 0 0, 0x100, 0, 0, 4⟩ }.modPlaza 0 fun q =>
    { q with cb := [(1, 0x00000004000000030000000200000001)]
             place := { q.place with
               blocks := [⟨0, 0, 0, 0xFFFFFFFF, 0, 0, 0, 0, 0, .met, false, false, 0, .running, some 0, [], 0⟩], avtail := 1
               lanes := [(0, { Lane.off with busy := true, pc := 0x100, s := [(1, 7), (2, 0xFFFFFFFE)],
                                             p := [(0, 0xFFFFFFFF), (1, 0x55555555)] })] } }

/-! The statements' witnesses. -/
/-- For SharedArithmetic, Division, Immediates, TransfersOfControl, RetiringAndQueries, ControlRegisters and every other clause that asks only
which context runs and that no wake is due. -/
theorem wit_control : (ctl 0).cur.agent = .control 0 0 ∧ (ctl 0).noWake 0 0 ∧ ((ctl 0).ctx 0 0).noLoopEnd := by
  unfold State.noWake Ctx.noLoopEnd; decide +kernel
/-- For the lanes' clauses that ask only which half runs and that its operands are ready: the shared forms, LaneElementwise, LaneMoves,
LanePredicates. -/
theorem wit_lane : lan.cur.agent = .lane 0 0 ∧ lan.scalarReady 0 0 1 ∧ lan.scalarReady 0 0 2 ∧ lan.predReady 0 0 1
    ∧ lan.laneMaskIs 0 0 1 0 0x55555555 ∧ (lan.laneOperand 0 0 32 1).isSome ∧ (lan.laneOperand 0 0 32 73).isSome := by
  unfold State.laneMaskIs State.scalarReady State.predReady; decide +kernel
/-- A loop body of b words that context 0 can read, with nothing changed. -/
def bodyReads (b : Nat) : Bool :=
  match readWords (fun va u => if !canonical va then .ok none u else u.peekWord (.ctx 0 0) 0 ((ctl 0).ctxPasid 0 0) va) b 0x104 (ctl 0) with
  | .ok (.inr ws) t => !badBody false ws && t.ctx 0 0 == (ctl 0).ctx 0 0 && !(t.plaza 0).wakeDue
  | _ => false
/-- A loop of one word at 0x100 with n iterations left. -/
def inLoop (n : Nat) : State := (ctl 0).modCtx 0 0 fun x => { x with levels := [(2, ⟨true, 0x100, 0x100, n, 0, 0, 0⟩)] }
theorem wit_LoopStarts : ((ctl 0).ctx 0 0).len = 4 ∧ bodyReads 1 = true ∧ bodyReads 16 = true
    ∧ ∀ j, j < 4 → (levelOf ((ctl 0).ctx 0 0).levels j).active = true → j ≠ 3 → (levelOf ((ctl 0).ctx 0 0).levels j).last ≠ 0x100 := by
  decide +kernel
theorem wit_LoopEnds : ∀ n ∈ [1, 2], let s := inLoop n
    s.cur.agent = .control 0 0 ∧ s.noWake 0 0 ∧ (levelOf (s.ctx 0 0).levels 2).active = true ∧ (levelOf (s.ctx 0 0).levels 2).last = (s.ctx 0 0).pc
    ∧ ∀ j, j < 4 → j ≠ 2 → (levelOf (s.ctx 0 0).levels j).active = true → (levelOf (s.ctx 0 0).levels j).last ≠ (s.ctx 0 0).pc := by
  unfold State.noWake; decide +kernel
/-- A page without write permission, and one without atomic. -/
def tight : State := (ctl 0).modPlaza 0 fun q => { q with tlb := [⟨0, 0, { page with write := false, atomic := false }⟩] }
theorem wit_AccessChecks : (canonical 0x200 = true ∧ canonical 0x0100000000000000 = false)
    ∧ failure ((ctl 0).checkVa 0 0 0x201 8 .read) = some .misaligned ∧ failure ((ctl 0).checkVa 0 0 0x0100000000000000 8 .read) = some .page
    ∧ (val ((ctl 0).translate 0 0 0x5000)) = some none ∧ failure ((ctl 0).checkVa 0 0 0x5000 8 .read) = some .page
    ∧ failure (tight.checkVa 0 0 0x200 8 .write) = some .protect ∧ val ((ctl 0).checkVa 0 0 0x200 8 .write) = some (0x200, false) := by
  decide +kernel
theorem wit_AccessFails : ∀ n ∈ [2, 4, 8], failure ((ctl 0).checkVa 0 ((ctl 0).ctxPasid 0 0) (0x200 + 1) n .read) = some .misaligned := by
  decide +kernel
theorem wit_LoadsOnHit : (∀ n ∈ [1, 2, 4, 8], (ctl 0).grants 0 0 0x200 n .read 0x200 ∧ (ctl 0).grants 0 0 0x200 n .write 0x200)
    ∧ (ctl 0).l1dHas 0 0x200 8 line := by
  refine ⟨fun n hn => ⟨?_, ?_⟩, ?_⟩
  · exact ⟨by revert n; decide, by decide, page, rfl, by revert n; decide +kernel⟩
  · exact ⟨by revert n; decide, by decide, page, rfl, by revert n; decide +kernel⟩
  · unfold State.l1dHas State.l1dOnly onlyLine; decide +kernel
/-- A release of word 0x200 by plaza n stands in the release record table. -/
def released (n : Nat) : State := { ctl 0 with rrt := [((ctl 0).homeSlice 0x200, [⟨0x40, n, 1, 3, 0, false⟩])] }
theorem wit_AcquireLoad : val ((ctl 0).checkVa 0 ((ctl 0).ctxPasid 0 0) 0x200 8 .read) = some (0x200, false)
    ∧ val ((ctl 0).readData 0 0 0x200 8) = some 0x0807060504030201 ∧ (ctl 0).viewPage 0x200 = false
    ∧ val ((ctl 0).readHome (.ctx 0 0) 0 0x200 8) = some (0, none)
    ∧ (∀ n ∈ [0, 1, 256], val ((released n).readHome (.ctx 0 0) 0 0x200 8) = some (0, some (n, 3)))
    ∧ (released 0).plazaId 0 = 0 ∧ ((released 0).ctx 0 0).acq = none ∧ (released 0).dev.modNum = 0 := by
  decide +kernel
theorem wit_AcquireEnds : ∀ b ∈ [true, false], let s := (ctl 0).modCtx 0 0 fun x => { x with acq := some ⟨9, 1, 3, false, b, false⟩ }
    s.cur.agent = .control 0 0 ∧ (s.ctx 0 0).acq = some ⟨9, 1, 3, false, b, false⟩ ∧ (s.ctx 0 0).sleep = none := by
  decide +kernel
theorem wit_SelfInvalidation : lineIn (((ctl 0).plaza 0).l1 false) (0x200 / 128) = some line
    ∧ ∀ y ∈ ((ctl 0).plaza 0).l1 false, y.key = 0x200 / 128 → y.upd = false → y = line := by
  decide +kernel
theorem wit_ReleaseStore : let t := left ((ctl 0).checkVa 0 0 0x200 8 .write)
    val ((ctl 0).checkVa 0 0 0x200 8 .write) = some (0x200, false) ∧ t.pathDown 0x200 = false ∧ (t.plaza 0).hasUpdate 4 = false
    ∧ (tabGet [] t.rrt (t.homeSlice 0x200)).length < rrtSize := by
  decide +kernel
theorem wit_Atomics : let s := ctl 0
    val (s.checkVa 0 0 0x200 8 .atomic) = some (0x200, false)
    ∧ val ((left (s.checkVa 0 0 0x200 8 .atomic)).atomicAt (.ctx 0 0) 0 0x200 8 1 2 1 (leBytes 8 7) (fun o => some (amoValue 1 8 o 7))) = some (0, none)
    ∧ val ((left (s.checkVa 0 0 0x200 8 .atomic)).atomicAt (.ctx 0 0) 0 0x200 8 11 0 1 (leBytes 8 7 ++ leBytes 8 0) (fun o => if o = 0 then some 7 else none))
      = some (0, none) := by
  decide +kernel
theorem wit_AtomicAtHome : (ctl 0).recall 4 = ctl 0 ∧ touchesPoison ((ctl 0).homePoison 4) 0 8 = false
    ∧ (tabGet [] (ctl 0).rrt ((ctl 0).homeSlice 0x200)).length < rrtSize := by
  decide +kernel
theorem wit_CommutativeAdds : val ((ctl 0).checkVa 0 0 0x200 4 .atomic) = some (0x200, false) ∧ (ctl 0).hasFeature 0 6 = true
    ∧ ((ctl 0).modPlace 0 fun q => { q with features := 0 }).hasFeature 0 6 = false := by
  decide +kernel
/-- Context c with g1 = 0x800, an address of which no cache holds a line. -/
def far (c : Nat) : State := (ctl c).modCtx 0 c fun x => { x with g := [(1, 0x800)] }
/-- It may read and write there, and the word lies at its home. -/
theorem far_ready : ∀ n ∈ [4, 8], (∀ need ∈ [Need.read, .write, .atomic], (far 0).grants 0 0 0x800 n need 0x800) ∧ (far 0).homeOnly 0 0x800 n := by
  refine fun n hn => ⟨fun need hneed => ⟨by revert n; decide, by decide, page, rfl, by revert n need; decide +kernel⟩, ?_⟩
  refine ⟨by decide, by revert n; decide, by decide +kernel, no_updates _ _ (by decide +kernel), by revert n; decide +kernel, by revert n; decide +kernel, by decide +kernel⟩
theorem wit_AtomicsComplete : (far 0).cur.agent = .control 0 0 ∧ (far 0).noWake 0 0 ∧ (far 0).atStart 0 0 ∧ (far 0).rrtOf 0x800 = none
    ∧ (tabGet [] (far 0).rrt ((far 0).homeSlice 0x800)).length < rrtSize := by
  unfold State.noWake State.atStart; decide +kernel
theorem wit_AcquiresComplete : (ctl 0).atStart 0 0 ∧ (∀ cond ∈ [1, 3], conditionHolds cond 8 (vecBytes line.data (0x200 % 128) 8) 7)
    ∧ conditionHolds 0 8 (memRead (far 0).mem 0x800 8) 0 := by
  refine ⟨by unfold State.atStart; decide +kernel, by unfold conditionHolds; decide +kernel, Or.inl ⟨rfl, by decide +kernel⟩⟩
theorem wit_WaitmLoads : ((ctl 0).ctx 0 0).acq = none ∧ val ((ctl 0).checkVa 0 0 0x200 8 .read) = some (0x200, false)
    ∧ val ((ctl 0).readData 0 0 0x200 8) = some 0x0807060504030201 ∧ 0x0807060504030201 < 2 ^ 64 := by
  decide +kernel
theorem wit_CsrStorage : (ctl 5).hasPlace 0 = true := by decide +kernel
theorem wit_Prefetches : canonical ((far 0).g 0 0 1) = true ∧ val ((far 0).translate 0 ((far 0).ctxPasid 0 0) 0x800) = some (some page)
    ∧ (left ((far 0).translate 0 0 0x800)) = far 0 ∧ (far 0).transAbsent page 0x800 = false ∧ page.exec = true ∧ page.read = true
    ∧ (far 0).iline 0 0 (0x800 / 64) = none ∧ ((far 0).plaza 0).ifills = [] ∧ (far 0).missing 0 (0, 0x800 / 64) = false ∧ ((far 0).plaza 0).hasUpdate ((far 0).transKey page 0x800 / 128) = false
    ∧ lineIn ((far 0).plaza 0).l1d ((far 0).transKey page 0x800 / 128) = none ∧ ((far 0).plaza 0).fills = []
    ∧ (far 0).viewPage ((far 0).transKey page 0x800) = false ∧ canonical 0x0200000000000000 = false := by
  decide +kernel
theorem wit_DcacheMaintenance : val ((ctl 0).checkVa 0 ((ctl 0).ctxPasid 0 0) 0x200 0 .read) = some (0x200, false)
    ∧ (let t := left ((ctl 0).checkVa 0 ((ctl 0).ctxPasid 0 0) 0x200 0 .read)
       (t.remotes.any fun r => r.who == .ctx 0 0 && r.kind == 3 && r.failed) = false
       ∧ t.lanesLoading 0 4 = false
       ∧ ∀ x ∈ [(t.writeBack 0 4).mergeOwn 0 4, ((t.performTouching 0 4).flushLine 0 4).cancelReads fun r => loadsFor r.who 0 && r.addr == 4 * 128],
          (x.plaza 0).dirtyLine 4 = false ∧ x.noticesFrom 0 = false)
    ∧ ({ ctl 0 with remotes := [⟨5, .lane 0 0, 1, 4 * 128, 128, [], none, false, false, 0⟩] } : State).lanesLoading 0 4 = true := by
  decide +kernel
theorem wit_CacheInstructionsComplete : (ctl 0).grants 0 0 0x200 1 .read 0x200 ∧ (ctl 0).atStart 0 0 ∧ (ctl 0).pathDown 0x200 = false
    ∧ (ctl 0).l1dOnly 0 0x200 line ∧ (∀ y ∈ ((ctl 0).plaza 0).l1d, y.key = 4 → y = line) ∧ (ctl 0).masters = [] ∧ (ctl 0).noticesFrom 0 = false
    ∧ (ctl 0).lanesLoading 0 4 = false ∧ ∀ l, ((ctl 0).lane 0 l).stores = [] := by
  refine ⟨⟨by decide, by decide, page, rfl, by decide +kernel⟩, by unfold State.atStart; decide +kernel, by decide +kernel, ?_, by decide +kernel, rfl,
    by decide +kernel, by decide +kernel, fun _ => rfl⟩
  unfold State.l1dOnly; decide +kernel
/-- The placement with handle 3 as a walk of context 0's XLT, and as a STALE handle that a lane group waits for. -/
def walking : State := ((ctl 0).modPlace 0 fun q => { q with handles := [(3, ⟨.pending, 0, 0x200, 3, false, 0, none, none⟩)] }).modCtx 0 0 fun x =>
  { x with state := .waiting, wait := some (.xlt 3 1 3) }
def staleH : State := (ctl 0).modPlace 0 fun q => { q with handles := [(3, ⟨.stale, 0, 0x200, 3, false, 0, some (some 0, 1, 0), none⟩)] }
theorem wit_XltInstruction : canonical 0x200 = true ∧ (ctl 0).transAbsent page 0x200 = false ∧ page.grantsPerms 3 = true
    ∧ (ctl 0).tlbHit 0 ((ctl 0).place 0).pasid 0x200 = some page
    ∧ ((ctl 0).modPlaza 0 fun q => { q with tlb := [] }).tlbHit 0 0 0x200 = none
    ∧ (walking.ctx 0 0).wait = some (.xlt 3 1 3) ∧ (∀ k, k < 5 → k ≠ 0 → (walking.ctx 0 k).wait = none)
    ∧ walking.handle 0 3 = ⟨.pending, 0, 0x200, 3, false, 0, none, none⟩ ∧ val (walking.translate 0 0 0x200) = some (some page) := by
  decide +kernel

theorem wit_HandleRefreshes : (staleH.handle 0 3).st = .stale ∧ (staleH.handle 0 3).user = some (some 0, 1, 0) ∧ (staleH.handle 0 3).fail = none
    ∧ val (staleH.translate 0 (staleH.place 0).pasid 0x200) = some (some page) ∧ staleH.transAbsent page 0x200 = false
    ∧ page.grantsPerms 3 = true := by
  decide +kernel
theorem wit_ShapeInstructions : (ctl 0).grants 0 0 0x200 64 .read 0x200 ∧ (ctl 0).grants 0 0 0x200 64 .write 0x200 ∧ (ctl 0).l1dHas 0 0x200 64 line
    ∧ (val ((ctl 0).readData 0 0 0x200 64)).isSome = true ∧ val ((ctl 0).writeData 0 0 0x200 64 0) = some () := by
  refine ⟨⟨by decide, by decide, page, rfl, by decide +kernel⟩, ⟨by decide, by decide, page, rfl, by decide +kernel⟩, ?_, by decide +kernel, by decide +kernel⟩
  unfold State.l1dHas State.l1dOnly onlyLine; decide +kernel
/-- Tokens 0 free, 1 OUTSTANDING, 2 DONE, 3 FAILED. -/
def tokens : State := (ctl 0).modPlace 0 fun q => { q with tokens := [(1, ⟨.outstanding, 5⟩), (2, ⟨.done, 6⟩), (3, ⟨.failed, 7⟩)] }
theorem wit_TokenTests : (tokens.token 0 0).st = .free ∧ (tokens.token 0 1).st = .outstanding ∧ (tokens.token 0 2).st = .done
    ∧ (tokens.token 0 3).st = .failed ∧ tokens.cur.agent = .control 0 0 := by
  decide +kernel
/-- A placement whose block table has two entries, with a descriptor for lanes 0 to 7 in g1 and predicate 3 in g4. -/
def emitting : State := ((ctl 0).modPlace 0 fun q => { q with table := [⟨0x400, false, false⟩, ⟨0x500, false, false⟩] }).modCtx 0 0 fun x =>
  { x with g := [(1, 0x000000FF00050000), (4, 3)] }
theorem wit_EmitInstruction : 1 < (emitting.place 0).table.length ∧ (emitting.place 0).w16 = false ∧ (emitting.place 0).unretired.length ≤ 254
    ∧ bits (emitting.g 0 0 1).toNat 15 14 = 0 ∧ (((emitting.g 0 0 1) >>> 32).setWidth 32 : W32) = 0xFF := by
  decide +kernel
/-- An avenue of 256 QUEUED blocks. -/
def fullAvenue : State := emitting.modPlace 0 fun q =>
  { q with avtail := 256, blocks := (List.range 256).map fun n => ⟨n, 0, 0, 1, 0, 0, 0, 0, 0, .met, false, false, 0, .queued, none, [], 0⟩ }
theorem wit_EmitWaits : 256 ≤ (fullAvenue.place 0).unretired.length ∧ (fullAvenue.place 0).table.length = 2
    ∧ (∀ b ∈ (lan.place 0).unretired, (lan.place 0).above 0 b.seq = true) ∧ (∃ b ∈ (lan.place 0).unretired, (lan.place 0).above 1 b.seq = false) := by
  decide +kernel
/-- An alley whose oldest entry is poppable, or is not. -/
def alley (b : Bool) : State := (ctl 0).modPlace 0 fun q => { q with alley := [⟨5, 9, 2, 90, b⟩], altail := 1 }
theorem wit_PopInstructions : ((alley true).place 0).alley = [⟨5, 9, 2, 90, true⟩] ∧ ((alley false).place 0).alley = [⟨5, 9, 2, 90, false⟩]
    ∧ (alley true).cur.agent = .control 0 0 := by
  decide +kernel
/-- A handler context, with one arrival queued; and the target of a WAKE. -/
def arrived : State := (ctl 3).modPlace 0 fun q => { q with arrivals := [⟨0x800, 16, 7, 0x400, 0, 0, []⟩] }
theorem wit_ContextEnds : (arrived.place 0).arrivals.length = 1 ∧ ((ctl 3).place 0).arrivals = [] ∧ (ctl 0).hasPlace 0 = true
    ∧ ((ctl 0).ctx 0 3).state = .dormant ∧ ((ctl 3).ctx 0 3).state ≠ .dormant := by
  decide +kernel
/-- A delivery open for context 0. -/
def delivering : State :=
  ((ctl 5).modPlaza 0 fun q => { q with open_ := some ((ctl 0).record 0 0 .breakpoint 0), svepc := 0x40 }).modCtx 0 0 fun x => { x with state := .trapped }
theorem wit_TrapTaking : ((ctl 0).place 0).halted = false ∧ ((ctl 0).plaza 0).open_ = none ∧ (ctl 0).busy 0 5 = false
    ∧ (delivering.plaza 0).open_.isSome = true ∧ ((ctl 0).plaza 0).pending = [] ∧ ((ctl 0).ctx 0 5).wait = none
    ∧ (((ctl 0).modPlaza 0 fun q => { q with tlb := ⟨0, 0, page⟩ :: q.tlb }).modCtx 0 0 fun x => { x with state := .trapped }).slotStalls 0 0 = false
    ∧ ((delivering.plaza 0).open_.map fun r => r.cycle) = some 100 ∧ (delivering.plaza 0).ctx5.pc ≠ (delivering.plaza 0).trapvec := by
  decide +kernel
/-- Context 1's delivery opened in this cycle, in which context 0 traps too; context 5 has not begun. -/
def together : State := (ctl 0).modPlaza 0 fun q => { q with open_ := some { (ctl 0).record 0 1 .illegal 0 with ctx := 1 }, ctx5 := { q.ctx5 with pc := q.trapvec } }
theorem wit_TrapTaking_together : ((together.plaza 0).open_.map fun r => (r.cycle, r.ctx)) = some (((ctl 0).record 0 0 .illegal 0).cycle, 1)
    ∧ (together.plaza 0).ctx5.pc = (together.plaza 0).trapvec ∧ (together.plaza 0).pending = [] := by
  decide +kernel
theorem wit_TrapReturn : (delivering.g 0 5 4).toNat % 16 = 0 ∧ (delivering.g 0 5 1).toNat % 4 = 0
    ∧ ((delivering.plaza 0).open_.map fun r => (r.ctx, delivering.ours 0 r)) = some (0, true) ∧ (delivering.ctx 0 0).state = .trapped
    ∧ (delivering.place 0).freeze = none ∧ (delivering.plaza 0).pending = [] ∧ (delivering.plaza 0).wakeDue = false := by
  decide +kernel
/-- Context 5 about to execute a halting SRET that names context 0, whose delivery is open. -/
def halting : State := (delivering.modCtx 0 5 fun x => { x with g := [(5, 8)] }).modCtx 0 1 fun x => { x with state := .waiting, wait := some (.twait 1) }
theorem wit_HaltingReturn : halting.cur.agent = .control 0 5 ∧ (halting.g 0 5 5).toNat % 16 = 8 + 0 ∧ (halting.g 0 5 1).toNat % 4 = 0
    ∧ (halting.plaza 0).open_.any (fun r => halting.ours 0 r) = true ∧ (halting.place 0).freeze = none
    ∧ (halting.ctx 0 3).state = .dormant ∧ (halting.ctx 0 1).exitStatus = none ∧ halting.busy 0 1 = false
    ∧ (halting.modCtx 0 1 fun x => { x with wait := some (.ldd 4 1 0 0), acq := some ⟨9, 1, 3, false, false, false⟩ }).busy 0 1 = true := by
  decide +kernel
theorem wit_SupervisorFaults : let s := ctl 5
    s.writes = [] ∧ canonical ((s.plaza 0).trapslot + 128) = true ∧ val (s.translate 0 s.runtime ((s.plaza 0).trapslot + 128)) = some (some page)
    ∧ s.transAbsent page ((s.plaza 0).trapslot + 128) = false ∧ s.transKey page ((s.plaza 0).trapslot + 128) = 128 ∧ s.pathDown 128 = false
    ∧ s.cur.agent = .control 0 5 := by
  decide +kernel
/-- A fetch of an instruction line of context 0 from another module. -/
theorem wit_IcacheInvalidates : let s : State := { ctl 0 with remotes := [⟨5, .fetch 0 0, 1, 4 * 64, 128, [], none, false, false, 0⟩] }
    s.fetching 0 0 = (0, 4) ∧ val ((ctl 0).checkVa 0 ((ctl 0).ctxPasid 0 0) ((ctl 0).g 0 0 1) 0 .read) = some (0x200, false) := by
  decide +kernel
/-- A placement with a checkpoint word at 0x200. -/
def ckpt : State := (ctl 0).modPlace 0 fun q => { q with ckptwa := 0x200 }
theorem wit_Checkpoint : ((ctl 0).place 0).ckptwa = 0 ∧ (ckpt.place 0).ckptwa ≠ 0
    ∧ ckpt.grants 0 0 0x200 8 .write 0x200 ∧ ckpt.pathDown 0x200 = false ∧ (ckpt.plaza 0).hasUpdate 4 = false
    ∧ (tabGet [] ckpt.rrt (ckpt.homeSlice 0x200)).length < rrtSize
    ∧ val (ckpt.checkVa 0 (ckpt.ctxPasid 0 0) 0x200 8 .write) = some (0x200, false)
    ∧ val ((left (ckpt.checkVa 0 (ckpt.ctxPasid 0 0) 0x200 8 .write)).releaseStore (.ctx 0 0) 0 1 0x200 8 7) = some () := by
  exact ⟨by decide +kernel, by decide +kernel, ⟨by decide, by decide, page, rfl, by decide +kernel⟩, by decide +kernel⟩
/-- A shape that moves 16 words within the scratchpad, one that a PUTH may carry, and one with a reserved bit set (R119-R121). -/
def shape : BitVec 512 := BitVec.ofNat 512 (0x1E01 + 0x1E01 * 2 ^ 96 + 16 * 2 ^ 192 + 2 ^ 224 + 2 ^ 256 + 2 ^ 288)
def putShape : BitVec 512 := BitVec.ofNat 512 (0x1E01 + 0x1E05 * 2 ^ 96 + 16 * 2 ^ 192 + 2 ^ 224 + 2 ^ 256 + 2 ^ 288)
def badShape : BitVec 512 := shape ||| 0x80000000
/-- A placement with those shapes in sh1, sh2 and sh3, and token 1 OUTSTANDING. -/
def shaped : State := (ctl 0).modPlace 0 fun q => { q with shapes := [(1, shape), (2, putShape), (3, badShape)], tokens := [(1, ⟨.outstanding, 5⟩)] }
theorem wit_CopyIssue : (shaped.token 0 0).st ≠ .outstanding ∧ (shaped.place 0).copyQ.length < queueSize
    ∧ shaped.shapeOk 0 false (shaped.shape 0 1) = true ∧ shaped.shapeOk 0 true (shaped.shape 0 2) = true ∧ shaped.shapeOk 0 true (shaped.shape 0 1) = false
    ∧ shaped.shapeOk 0 false (shaped.shape 0 3) = false ∧ (dstOf shape).ring = 15 ∧ (dstOf putShape).ring = 15 ∧ (shaped.token 0 1).st = .outstanding := by
  decide +kernel
theorem wit_OtherCommands : bankFmtOk 0 = true ∧ bankFmtOk 0x200 = false ∧ shaped.fmtOn 0 0 = true ∧ shaped.hasFeature 0 1 = true
    ∧ shaped.hasFeature 0 4 = true ∧ (shaped.place 0).linkQ.length < queueSize
    ∧ ((ctl 0).modPlace 0 fun q => { q with features := 0 }).hasFeature 0 4 = false := by
  decide +kernel
/-- A copy command at the head of the queue: not started with its waits over, started with all its units moved, failed. -/
def copyCmd : Cmd := ⟨9, majCpy, shape, 0, 0, 0, 0, 0x100, 0, 0, 0, 4, [.met, .met, .met], false, 0, [], none, none, [], [], false, [], [], (0, 0), false, [], false⟩
def queued (x : Cmd) : State := (ctl 0).modPlace 0 fun q => { q with copyQ := [x], tokens := [(4, ⟨.outstanding, 9⟩)] }
def bookFail : Failure := ⟨.hbounds, 0x5000, false, 0, 0, 0, 0⟩
theorem wit_CopyEvents : (queued copyCmd).serves 0 = true ∧ copyCmd.ready = true ∧ copyCmd.cancelled = false ∧ (dstOf copyCmd.shape).ring = 15
    ∧ ({ copyCmd with waits := [.failed, .met, .met] } : Cmd).ready = true ∧ ({ copyCmd with waits := [.failed, .met, .met] } : Cmd).cancelled = true
    ∧ (∀ b, (queued { copyCmd with started := b }).snapFull 0 [{ copyCmd with started := b }] = false) ∧ (queued copyCmd).remotes = []
    ∧ ({ copyCmd with started := true, next := 1 } : Cmd).total ≤ 1 ∧ (queued copyCmd).token 0 4 = ⟨.outstanding, 9⟩ := by
  decide +kernel
theorem wit_CopyFails : ((queued { copyCmd with fail := some bookFail }).place 0).copyQ = [{ copyCmd with fail := some bookFail }]
    ∧ ((queued copyCmd).plaza 0).snapFree = some 0 ∧ ((queued copyCmd).place 0).halted = false
    ∧ (((queued copyCmd).modPlace 0 fun q => { q with halted := true }).place 0).halted = true := by
  decide +kernel
theorem wit_FormatCommands : let x : Cmd := { copyCmd with major := majBfset, arg := 9 }
    ((queued x).place 0).copyQ = [x] ∧ x.ready = true ∧ x.cancelled = false ∧ (queued x).serves 0 = true := by
  decide +kernel
/-- A started PUTH of plaza 0 toward plaza 0 with all its units moved, and its arrival. -/
def puthCmd : Cmd := { copyCmd with major := majPuth, shape := putShape, started := true, next := 1 }
def offer : Arrival := (queued puthCmd).arrivalOf 0 puthCmd
theorem wit_PuthArrives : offer.sender / 256 = (queued puthCmd).dev.modNum ∧ ((queued puthCmd).offerer 0 offer).isSome = true
    ∧ (queued puthCmd).hasJob 0 offer.job = true ∧ ((queued puthCmd).ctx 0 3).state = .dormant ∧ ((queued puthCmd).place 0).arrivals.length < 16
    ∧ ((queued puthCmd).place 0).halted = false ∧ ((queued puthCmd).plaza 0).wakeAt ≠ (queued puthCmd).dev.cycle + 1 := by
  decide +kernel
theorem wit_ShadowNest : ((ctl 0).place 0).shadow.levels.length = 6 ∧ bits 7 63 46 = 0 ∧ bits 7 3 2 ≠ 3 ∧ bits 0xF 3 2 = 3
    ∧ bits (2 ^ 50) 63 46 ≠ 0 := by
  decide +kernel
/-- A shadow nest of one level that drains, with every bank in FP8 E4M3, whose four streams of B read in four banks; in one bank they conflict. -/
def nest1 : Nest := { Nest.off with sb := 2048, levels := ⟨1, 0, 0, 0, true, true, false, false⟩ :: List.replicate 5 .off }
def nest2 : Nest := { nest1 with sb := 8 }
def nested (n : Nest) : State := (ctl 0).modPlace 0 fun q =>
  { q with shadow := n, abf := (List.range 8).map fun k => (k, 3), wbf := (List.range 8).map fun k => (k, 3), tokens := [(1, ⟨.outstanding, 5⟩)] }
theorem wit_NestGo : (nested nest1).checkNest 0 nest1 = .ok 2 2 ∧ (nested nest2).checkNest 0 nest2 = .conflict
    ∧ (nested .off).checkNest 0 .off = .invalid ∧ ((nested nest1).token 0 1).st = .outstanding ∧ ((nested nest1).token 0 0).st ≠ .outstanding
    ∧ ((nested nest1).place 0).pendingN = none := by
  decide +kernel
/-- A ring of two stages of four rows in AB: EMPTY, and with its first stage FULL. -/
def ringed (st : StageState) : State := (ctl 0).modPlace 0 fun q => { q with rings := [(1, ⟨0x20040000, 0, 0, [st, .empty]⟩)] }
theorem wit_RingInstructions : ringDescOk 0x20040000 = true ∧ ringDescOk 0x200 = false ∧ ((ctl 0).ring 0 1).desc = 0
    ∧ ((ringed .empty).ring 0 1).desc ≠ 0 ∧ ((ringed .empty).ring 0 1).stage 0 = .empty ∧ ((ringed .full).ring 0 1).stage 0 = .full
    ∧ ((ringed .full).ring 0 1).stage 0 ≠ .empty ∧ ((ringed .empty).place 0).ringBusy 1 = false
    ∧ imageOk 2 7 = true ∧ ((ringed .empty).place 0).stageUsed 1 0 = false := by
  decide +kernel
theorem wit_MatrixStatus : ((ctl 0).place 0).active = none ∧ (ctl 0).noWake 0 0 := by unfold State.noWake; decide +kernel
/-- A launch that the Job Placer is asked to accept; its LAUNCH waits for it. -/
def launch : Launch := ⟨0, 0, 0, 0xFF, true, false, 1, 0, 0, [1], [0, 0, 0], 0x1FF, false, 16, [some 0x400, none, none], [], [], false, 0, 0, [], none, [], []⟩
def asking : State := { (ctl 0).modCtx 0 0 fun x => { x with state := .waiting, wait := some (.launch 4 1) } with
  placer := { Placer.off with requests := [⟨0, 0, 90, { launch with features := BitVec.ofNat 32 ((ctl 0).enabledFeatures 0) }, 1⟩] } }
theorem wit_LaunchInstruction : (asking.placer.requests.map fun r => (asking.awaits r, decide (r.at_ < asking.dev.cycle))) = [(some 4, true)] ∧ asking.placer.room 1 = true
    ∧ (ctl 0).launchAt 0 0 = none ∧ asking.placer.jobs = [] ∧ asking.placer.nextId < 0x7FFFFFFF
    ∧ (match ((ctl 0).dropRequest 0 0).readLaunch 0 0 0x200 with
       | .ok (.status n) _ => n == 0x25
       | _ => false) = true := by
  decide +kernel
/-- Job 7 runs, or has ended on plaza 0. -/
def job7 : Job := ⟨7, launch, .running, 1, 1, [], [], [], 0, [], none, 1, 0, 1, 0⟩
def running7 : State := { ctl 0 with placer := { Placer.off with jobs := [job7], nextId := 8 } }
def ended7 : State := { ctl 0 with placer := { Placer.off with completed := [⟨7, 0x8000000000000000, [0], 0, 0⟩], nextId := 8 } }
def waits7 : State := running7.modCtx 0 0 fun x => { x with state := .waiting, wait := some (.jwait 4 2 1), since := 0 }
theorem wit_JwaitInstruction : (running7.g 0 0 2).toNat = 7 ∧ (∃ j ∈ running7.placer.jobs, j.id = 7) ∧ ended7.placer.jobs = []
    ∧ ended7.placer.completed.length = 1 ∧ ({ waits7 with dev := { waits7.dev with cycle := 1024 } } : State).runs 0 0 = true
    ∧ waits7.busy 0 0 = false ∧ (waits7.ctx 0 0).since + 1 * 1024 ≤ 1024 := by
  decide +kernel
/-- A GANG job's placement alone on plaza 0, its first context in the barrier with none or with context 1 still to come. -/
def gang : State := ({ ctl 0 with placer := { Placer.off with jobs := [job7] } }).modPlace 0 fun q => { q with gang := true, job := 7 }
def gang2 : State := gang.modCtx 0 1 fun x => { x with state := .running }
def arrive (s : State) : State := s.modCtx 0 0 fun x => { x with arrivals := x.arrivals + 1, arrived := true, arrLog := x.arrLog ++ [⟨s.plazaId 0, (s.plaza 0).pubBegun, 1⟩] }
theorem wit_JobBarrier : (gang.place 0).gang = true ∧ bit 1 0 = true ∧ (arrive gang).unstarted 7 = false ∧ (arrive gang).away 7 = false
    ∧ (∀ x ∈ (arrive gang).barrier 7 1, (gang.ctx 0 0).arrivals < x.2.2.arrivals ∧ x.2.2.arrLog[0]? = some ⟨(arrive gang).plazaId 0, 0, 1⟩)
    ∧ (∀ x ∈ (arrive gang).barrier 7 7, ∀ e ∈ x.2.2.arrLog[0]?, e.mask = 1) ∧ (gang.ctx 0 0).arrLog.length = 0
    ∧ (∀ k, k < 3 → (gang.ctx 0 k).arrLog = []) ∧ (gang.ctx 0 0).acq = none ∧ (gang.ctx 0 0).arrived = false
    ∧ (gang.plaza 0).res = .resident ∧ (∀ x ∈ gang.plazas, x.2.place.job = 7 → x.1 = 0) ∧ job7.total = 1 ∧ job7.first = 1 ∧ job7.saves = []
    ∧ (gang.place 0).index = 0 ∧ bit 1 1 = false ∧ bit 1 2 = false
    ∧ (∃ x ∈ (arrive gang2).barrier 7 3, x.2.2.state ≠ .ended ∧ x.2.2.arrivals ≤ (gang2.ctx 0 0).arrivals)
    ∧ ((ctl 0).place 0).gang = false := by
  decide +kernel
/-- A GANG job of two placements, both of which have arrived in episode 0; it has published its arrival as far as `n` says. -/
def twoGang (n : Nat) : State :=
  let at_ (p : Nat) (s : State) : State := (s.modPlaza p fun q => { q with res := .resident, pubDone := n, place := { q.place with gang := true, job := 7, index := p } }).modCtx p 0
    fun x => { x with state := .running, arrivals := 1, arrived := true, arrLog := [⟨p, 0, 1⟩] }
  at_ 1 (at_ 0 { (ctl 0) with placer := { Placer.off with jobs := [{ job7 with total := 2, first := 2 }] } })
theorem wit_BarrierPublishes : ∀ n ∈ [0, 1], let s := twoGang n
    s.cur.agent = .control 0 0 ∧ (s.place 0).gang = true ∧ bit 1 0 = true ∧ (s.ctx 0 0).arrived = true ∧ (s.ctx 0 0).acq = none
    ∧ s.unstarted 7 = false ∧ s.away 7 = false ∧ (s.barrier 7 1).map (fun x => (x.1, x.2.2.arrivals, x.2.2.arrLog)) = [(0, 1, [⟨0, 0, 1⟩]), (1, 1, [⟨1, 0, 1⟩])]
    ∧ s.plazaId 0 = 0 ∧ s.published 1 0 = (n == 1) ∧ (∀ x ∈ s.barrier 7 7, ∀ e ∈ x.2.2.arrLog[0]?, e.mask = 1) := by
  decide +kernel
/-- A live view of a master of 8 rows of 8 elements at 0x800. -/
def master : Master := ⟨0, 0x800, 8, 8, 32, 0, [(0, 0, 4096)], []⟩
def view0 : View := ⟨7, 0, 0x800, [0xC00], 0, 8, 8, 0, 0, 0, 0, 0, 0xF00, none, [(0, 0, 4096)], []⟩
def viewing : State := { ctl 0 with masters := [master], views := [view0] }
theorem wit_ViewInstructions : (ctl 0).hasFeature 0 2 = true ∧ (ctl 0).findView 0 0 7 = none ∧ (viewing.findView 0 0 7).isSome = true
    ∧ (val ((ctl 0).readData 0 0 0x200 64)).isSome = true ∧ (viewing.g 0 0 2).toNat < 4096
    ∧ (viewing.findView 0 0 7).any (fun v => !viewing.deriving_ v) = true
    ∧ (val ((ctl 0).checkVa 0 0 0x200 0 .read)).isSome = true ∧ (ctl 0).masterAt 0 0x200 = none ∧ (viewing.masterAt 0 0x800).isSome = true := by
  decide +kernel
/-- A view record at 0x800 and its master record at 0xC00: 128 rows and columns of FP32 at 0x80000, its BF16 view at 2^30; and the PASID's tables
with a page of 1 GiB for each. -/
def registering : State := { far 0 with pasids := [(0, 0x1000)], mem := (far 0).mem |>
  (memWrite · 0x1000 8 0x2000) |> (memWrite · 0x2000 8 0x3001) |> (memWrite · 0x3000 8 0x5F) |> (memWrite · 0x3008 8 0x4000001F) |>
  (memWrite · 0x800 64 (0xC00 + 2 ^ 30 * 2 ^ 64 + 0x010100000001 * 2 ^ 192)) |> (memWrite · 0xC00 32 (0x80000 + (2 ^ 39 + 128) * 2 ^ 64 + 2 ^ 41 * 2 ^ 128)) }
/-- The two records as VIEWREG reads them, and the checks of R297 in the state that the reads leave. -/
def regRecords : State × Nat × Nat := match registering.readData 0 0 0x800 64 with
  | .ok v t => (match t.readData 0 0 0xC00 32 with
    | .ok m u => (u, v, m)
    | _ => (t, v, 0))
  | _ => (registering, 0, 0)
def regStatus (s : State) (v m : Nat) : Option Nat := match s.viewChecks (s.jobOn 0) (s.ctxPasid 0 0) 0x800 v m [dword v 1] with
  | some (.inl n) => some n
  | some (.inr (x, y)) => if s.regRemote 0 0 x y then some 1 else some 0
  | none => none
theorem wit_ViewRegisters : let x := regRecords
    bits (dword x.2.1 3) 29 24 = 0 ∧ dword x.2.1 0 = 0xC00 ∧ regStatus x.1 x.2.1 x.2.2 = some 0 ∧ regStatus x.1 x.2.1 0 = some 0x31
    ∧ x.1.walked (x.1.ctxPasid 0 0) (x.1.regRanges (x.1.ctxPasid 0 0) 0x800 x.2.1 x.2.2 [dword x.2.1 1]) = x.1 := by
  decide +kernel
theorem wit_ViewSyncInstruction : (viewing.masterAt (viewing.ctxPasid 0 0) 0x800).isSome = true ∧ (viewing.ctx 0 0).acq = none
    ∧ (viewing.ctx 0 0).sync = [] ∧ (ctl 0).masterAt 0 0x800 = none ∧ (viewing.modCtx 0 0 fun x => { x with sync := [0] }).synced master [0] = true := by
  decide +kernel
/-- A lane group with handle 2 VALID on page 0 and handle 3 PENDING, its page's line 4 in the lanes' L1, and a scratchpad of 4 KiB. -/
def mem_ : State := lan.modPlaza 0 fun q =>
  { q with l1d := [], l1v := [line]
           place := { q.place with scrsize := 4096, handles := [(2, ⟨.valid, handleValue page 7, 0, 7, false, 0, none, none⟩), (3, ⟨.pending, 0, 0, 7, false, 0, none, none⟩)] } }
/-- The home location of lane j's word of `vldu [h2 + s1 * ...]` with s1 = 0x200. -/
def laneKey (j : Nat) : Nat := 0x200 + 4 * j
def access (n : Need) (j : Nat) : Bool := match mem_.laneUse 0 (mem_.handle 0 2) 4 n false (laneKey j) with
  | .ok key priv => key == laneKey j && !priv
  | _ => false
/-- The same by an address register, j words after byte o of the page. -/
def reaches (n : Need) (o j : Nat) : Bool := match mem_.laneUse 0 (mem_.handle 0 2) 4 n true (o + 4 * j) with
  | .ok key priv => key == o + 4 * j && !priv
  | _ => false
theorem wit_LaneLoads : (mem_.lane 0 0).stores = [] ∧ (mem_.lane 0 0).delays = [] ∧ (mem_.handle 0 2).st = .valid ∧ (mem_.handle 0 3).st = .pending
    ∧ (∀ j, j < 32 → access .read j = true) ∧ (mem_.place 0).halted = false ∧ mem_.laneMaskIs 0 0 1 0 0x55555555
    ∧ ((val (mem_.loadLanes 0 0 4 ((enabled 0x55555555).map fun j => (⟨j, laneKey j, laneKey j, false⟩, .plain)))).any fun r => r.2.isEmpty) = true := by
  unfold State.laneMaskIs State.predReady; decide +kernel
theorem wit_LaneLoadsHit : ∀ n ∈ [1, 2, 4], ∀ j, j < 32 → mem_.viewPage (laneKey j) = false ∧ mem_.l1vHas 0 (laneKey j) n line ∧ laneKey j / 128 = 4 := by
  unfold State.l1vHas onlyLine; decide +kernel
theorem wit_LaneLoadsComplete : (∀ j, j < 32 → reaches .read 0x200 j = true) ∧ mem_.scalarReady 0 0 0 ∧ ((mem_.lane 0 0).scalar 0).toNat + 4 * 0x80 = 0x200
    ∧ (mem_.laneOperand 0 0 32 72).isSome = true ∧ typeWidth 7 / 8 = 1 := by
  unfold State.scalarReady; decide +kernel
theorem wit_VamoCompletes : (∀ j, j < 32 → reaches .atomic 0x800 j = true) ∧ (∀ j, j < 32 → mem_.homeOnly 0 (0x800 + 4 * j) 4)
    ∧ (mem_.lane 0 0).acq = none ∧ (mem_.lane 0 0).vamo = ⟨0, 0, [], false, none⟩ := by
  have h : ∀ j, j < 32 → (0x800 + 4 * j) / 128 = 16 := by omega
  refine ⟨by decide +kernel, fun j hj => ⟨by omega, by omega, by revert j; decide +kernel, ?_, by revert j; decide +kernel, by revert j; decide +kernel, ?_⟩, by decide +kernel⟩
  · rw [h j hj]; exact no_updates _ _ (by decide +kernel)
  · rw [h j hj]; decide +kernel
theorem wit_LaneStores : (∀ j, j < 32 → access .write j = true) ∧ (mem_.handle 0 2).st = .valid
    ∧ ((mem_.laneOperand 0 0 32 1).isSome ∧ (mem_.laneOperand 0 0 32 73).isSome) := by
  decide +kernel
theorem wit_LaneBuffers : (mem_.place 0).scrsize = 4096 ∧ mem_.scalarReady 0 0 1 ∧ (mem_.lane 0 0).undefRow mem_.dev.cycle 7 = 0
    ∧ (mem_.lane 0 0).results = [] ∧ ∀ j, j < 4 → (levelOf (mem_.lane 0 0).levels j).active = false := by
  unfold State.scalarReady; decide +kernel
/-- Three stores on their way: two to memory of one class, one to the scratchpad. -/
def storing : State := mem_.modLane 0 0 fun x => { x with stores :=
  [⟨1, 0, .mem, [(0x200, 4, 9)], false⟩, ⟨2, 0, .mem, [(0x204, 4, 8)], false⟩, ⟨3, 1, .scratch, [(0x80, 4, 7)], false⟩] }
theorem wit_StorePerforms : let st := (storing.lane 0 0).stores
    (((st.take 0).any fun o => o.before 0 .mem [(0x200, 4)]) = false) ∧ (((st.take 1).any fun o => o.before 0 .mem [(0x204, 4)]) = true)
    ∧ (((st.take 2).any fun o => o.before 1 .scratch [(0x80, 4)]) = false) ∧ (storing.plaza 0).hasUpdate 4 = false
    ∧ lineIn (storing.plaza 0).l1v 4 = some line ∧ lineIn (storing.plaza 0).l1d 4 = none := by
  decide +kernel
/-- Whether the lanes of a VAMO of that scope, order and operation end at once. -/
def amoEnds (o r sc : Nat) : Bool := let as : List Access := (enabled 1).map fun j => ⟨j, laneKey j, laneKey j, false⟩
  match (mem_.modLane 0 0 fun z => z.amoHeld as).amoLanes 0 0 1 o r sc 0 as with
  | .inr (f, none) => (f.lane 0 0).acq == none && (f.lane 0 0).vamo.pubs.isEmpty
  | _ => false
theorem wit_VamoInstruction : amoEnds 1 0 0 = true ∧ amoEnds 9 0 0 = true ∧ (mem_.lane 0 0).amo = 0 ∧ mem_.hasFeature 0 6 = true
    ∧ access .atomic 0 = true ∧ (mem_.modPlace 0 fun q => { q with features := 0 }).hasFeature 0 6 = false := by
  decide +kernel
theorem wit_LaneTyped : (∀ t, t < 13 → (lan.laneOperand 0 0 (typeWidth t) 1).isSome = true ∧ (lan.laneOperand 0 0 (typeWidth t) 74).isSome = true)
    ∧ typeFmt 1 ≠ none ∧ typeWidth 1 < typeWidth 0 := by
  refine ⟨by decide +kernel, by simp [typeFmt], by decide⟩
theorem wit_LaneCross : segWidth 0 (lan.width 0) = 32 ∧ lan.hasFeature 0 3 = true ∧ lan.scalarReady 0 0 0 := by
  unfold State.scalarReady; decide +kernel
theorem wit_ShuffleStaysInSegment : shuffleFrom 1 0 32 3 5 = some 2 ∨ (shuffleFrom 0 0 32 3 5).isSome = true ∨ (shuffleFrom 3 1 32 3 5).isSome = true := by
  decide +kernel
theorem wit_LaneControl : lan.scalarReady 0 0 1 ∧ (∀ j, j < 4 → (levelOf (lan.lane 0 0).levels j).active = false)
    ∧ (let s := lan.modLane 0 0 fun x => { x with marking := true }
       (s.lane 0 0).busy = true ∧ (s.lane 0 0).marking = true ∧ (s.lane 0 0).stopped = false ∧ (s.lane 0 0).quiet = true) := by
  unfold State.scalarReady; decide +kernel
theorem wit_IssueEffect : (lan.lane 0 0).noLoopEnd := by unfold Lane.noLoopEnd; decide +kernel
/-- A row result, a scalar result and a predicate result in flight. -/
def flying : State := lan.modLane 0 0 fun x => { x with results :=
  [⟨1, 99, 2, false, .row 3, 1, 5, 1, 0, false⟩, ⟨2, 99, 1, false, .scalar 4, 0, 6, 1, 0, false⟩, ⟨3, 99, 1, false, .pred 2, 0, 7, 1, 0, false⟩] }
theorem wit_ResultLands : (∀ r ∈ (flying.lane 0 0).results, r.landed = false ∧ r.clash = 0 ∧ r.at_ < flying.dev.cycle) ∧ (flying.lane 0 0).draining = false
    ∧ (flying.lane 0 0).results.length = 3 := by
  decide +kernel
theorem wit_ResultsByBound : ((flying.landDue 0 0).lane 0 0).results.map (fun r => r.id) = [1] := by decide +kernel
/-- An avenue whose only block is QUEUED, runs on group 0 to its end, or is COMPLETE. -/
def avenue (st : BlockState) : State := emitting.modPlace 0 fun q =>
  { q with avtail := 1, blocks := [⟨0, 1, 5, 0xFF, 9, 1, 2, 3, 4, .met, false, false, 0, st, (if st = .queued then none else some 0), [⟨1, 2⟩], 0⟩]
           lanes := if st = .queued then [] else [(0, { Lane.off with busy := true, ended := true })] }
theorem wit_BlockLife : ((avenue .queued).dispatchable 0).isSome = true ∧ ((avenue .queued).place 0).freeSeat 100 = some 0
    ∧ ((avenue .running).lane 0 0).quiet = true ∧ ((avenue .running).lane 0 0).ended = true
    ∧ (((avenue .complete).place 0).blocks.map fun b => (b.st, b.pushes.length)) = [(.complete, 1)] ∧ ((avenue .complete).place 0).alley = []
    ∧ (((avenue .complete).modPlace 0 fun q => { q with alley := List.replicate 64 ⟨5, 9, 2, 90, true⟩ }).place 0).alley.length = 64 := by
  decide +kernel
theorem wit_LowestFreeSeat : ((avenue .running).place 0).freeSeat 100 = some 2 ∧ (((avenue .running).modPlace 0 fun q => { q with w16 := true }).place 0).freeSeat 100 = some 1 := by
  decide +kernel
/-- A frozen avenue. -/
def frozen : State := (avenue .faulted).modPlace 0 fun q => { q with freeze := some ⟨0, (ctl 0).record 0 0 .illegal 0, false⟩ }
theorem wit_FreezeEvents : ((avenue .running).place 0).blockOn 0 = some (((avenue .running).place 0).blocks.headD ⟨0, 0, 0, 0, 0, 0, 0, 0, 0, .met, false, false, 0, .queued, none, [], 0⟩)
    ∧ ((avenue .running).place 0).blocks.map (fun y => (y.st, y.seq)) = [(.running, 0)]
    ∧ (frozen.place 0).freeze.any (fun f => !f.settled) = true ∧ frozen.lanesRun 0 = true ∧ (frozen.place 0).blocks.takeWhile (fun x => x.seq != 0) = [] := by
  decide +kernel
/-- Context 1 in BWAIT for longer than the deadlock's limit. -/
def dead : State := ((ctl 1).modCtx 0 1 fun x => { x with state := .waiting, wait := some (.bwait 1) }).modPlace 0 fun q => { q with qdead := 65537 }
theorem wit_QueueDeadlock : 65536 < (dead.place 0).qdead ∧ (dead.ctx 0 1).stuck = true ∧ (dead.ctx 0 0).stuck = false ∧ (lan.place 0).qdead ≤ 65536 := by
  decide +kernel
theorem wit_FloatPick : (f32 0x7FC00000).isNan = true ∧ (f32 0x3F800000).isNan = false ∧ (f32 0x3F800000).lt (f32 0x40000000) = true
    ∧ (f32 0x40000000).lt (f32 0x3F800000) = false ∧ (f32 0x40000000).isZero = false := by
  decide +kernel
/-- Context 0 waiting in an instruction. -/
def waiting (i : Instr) : State := tokens.modCtx 0 0 fun x => { x with state := .waiting, wait := some i, wdog := 50, since := 10 }
/-- Whether the instruction a context waits in completes when it runs again. -/
def retries (i : Instr) : Bool :=
  let s := waiting i
  match exec i { s with cur := ⟨.control 0 0, (s.ctx 0 0).pc, 0, 0, 4⟩ } with
  | .next t => (t.ctx 0 0).wait.isNone && (t.ctx 0 0).insret == 1
  | _ => false
theorem wit_WaitsEnd_hit : (∀ i ∈ [Instr.waitm 4 1 2 0 0 1, .ldd 4 1 0 0, .dcwb 1], (waiting i).atStart 0 0)
    ∧ (waiting (.ldd 4 1 0 0)).grants 0 0 0x200 8 .read 0x200 ∧ (waiting (.ldd 4 1 0 0)).l1dHas 0 0x200 8 line
    ∧ conditionHolds 1 8 (vecBytes line.data (0x200 % 128) 8) 7
    ∧ ((waiting (.dcwb 1)).plaza 0).dirtyLine 4 = false ∧ (waiting (.dcwb 1)).noticesFrom 0 = false := by
  refine ⟨by unfold State.atStart; decide +kernel, ⟨by decide, by decide, page, rfl, by decide +kernel⟩, ?_, ?_, by decide +kernel⟩
  · unfold State.l1dHas State.l1dOnly onlyLine; decide +kernel
  · unfold conditionHolds; decide +kernel
theorem wit_WaitsEnd : (waiting (.twait 2)).runs 0 0 = true ∧ ((waiting (.twait 2)).ctx 0 0).state = .waiting ∧ ((waiting (.twait 2)).token 0 2).st = .done
    ∧ ((waiting (.twait 1)).token 0 1).st = .outstanding ∧ retries (.waitm 4 1 2 0 0 1) = true ∧ retries (.lda 4 1 0 0 0 0) = true
    ∧ retries (.dcwb 1) = true ∧ (waiting (.dcwb 1)).moves = [] ∧ (waiting (.waitm 4 1 2 0 0 0)).busy 0 0 = false
    ∧ ((waiting (.waitm 4 1 2 0 0 0)).ctx 0 0).since + 50 ≤ (waiting (.twait 2)).dev.cycle := by
  decide +kernel
theorem wit_DelayedReads : ((lan.modLane 0 0 fun x => { x with delays := [⟨7, 0, 0, 0, [], [], []⟩] }).lane 0 0).delays ≠ [] := by decide +kernel
/-- An engine's trap kept for context 0. -/
def kept : State := (ctl 0).modPlace 0 fun q => { q with async := [{ (ctl 0).record 0 0 .engine 0 with async := true }] }
theorem wit_EngineTrap : (kept.asyncOf 0 0).isSome = true ∧ (kept.ctx 0 0).ending = none ∧ kept.runs 0 0 = true ∧ kept.busy 0 0 = false ∧ (kept.place 0).halted = false
    ∧ (kept.plaza 0).open_ = none ∧ (kept.plaza 0).pending = [] ∧ kept.writes = [] ∧ (kept.tlbHit 0 kept.runtime (kept.plaza 0).trapslot).isSome = true := by
  decide +kernel
/-- An instruction fill and a data fill in flight. -/
def filling (b : Bool) : State := (ctl 0).modPlaza 0 fun q => { q with ifills := [⟨0, 0x800 / 64, 0x800, 90, b⟩], fills := [⟨0x800 / 128, false, b⟩] }
theorem wit_FillsReturn : (filling false).iline 0 0 (0x800 / 64) = none
    ∧ lineIn ((filling false).plaza 0).l1d (0x800 / 128) = none ∧ (filling false).pathDown 0x800 = false ∧ ((filling true).plaza 0).fills.length = 1
    ∧ ∀ q, ((filling false).plaza q).hasUpdate (0x800 / 128) = false :=
  ⟨by decide +kernel, by decide +kernel, by decide +kernel, by decide +kernel, no_updates _ _ (by decide +kernel)⟩
/-- A line dirty since cycle 0, with SWEEPAGE 50 or 4096. -/
def sweeping (n : Nat) : State := (ctl 0).modPlaza 0 fun q => { q with sweepage := BitVec.ofNat 64 n, l1d := [{ line with dirty := 1 }] }
theorem wit_SweeperWrites : lineIn ((sweeping 50).plaza 0).l1d 4 = some { line with dirty := 1 }
    ∧ (sweeping 50).sweepDue 0 { line with dirty := 1 } = true ∧ (sweeping 4096).sweepDue 0 { line with dirty := 1 } = false
    ∧ (sweeping 50).pathDown 0x200 = false ∧ ((sweeping 50).plaza 0).l1v = []
    ∧ (∀ y ∈ ((sweeping 50).plaza 0).l1 false, y.key = 4 → y.upd = false → y = { line with dirty := 1 }) := by
  decide +kernel
/-- An invalidation queue of 8 entries at 0x800 with an entry posted, and invalidations in progress. -/
def invalidating : State := { (ctl 0).modHost (fun y => { y with portUp := [true, true], invqbase := 0x800, invqsize := 8, invqtail := 0 }) with
  invals := [⟨0, 0, 4096, none⟩, ⟨0, 0, 4096, some 0x800⟩] }
theorem wit_Invalidations : invalidating.invals.length = 2 ∧ invalidating.performPasid 0 = invalidating ∧ invalidating.oldAccesses 0 = false
    ∧ ({ invalidating with remotes := [⟨5, .ctx 0 0, 4, 2 ^ 50, 8, [], none, false, false, 0⟩] } : State).oldAccesses 0 = true ∧ (ctl 0).dev.host.invqsize = 0
    ∧ invalidating.bar0 0 = true ∧ (ctl 0).bar0 0 = false ∧ ((ctl 0).modHost fun y => { y with portUp := [true, true] }).bar0 1 = true
    ∧ invalidating.dev.host.invqtail + 1 = 1 ∧ invalidating.pathDown 0x800 = false ∧ invalidating.absent 0x800 = false ∧ invalidating.dev.host.invqbase ≠ 0 := by
  decide +kernel
theorem wit_PagePublish : (∀ x ∈ (ctl 0).plazas, (ctl 0).plaza x.1 = x.2)
    ∧ ∀ x ∈ (ctl 0).plazas, ∀ y ∈ ((ctl 0).plaza x.1).l1d ++ ((ctl 0).plaza x.1).l1v, 0 ≤ y.key * 128 → y.key * 128 < 4096 → y.dirty = 0 ∧ y.upd = false := by
  decide +kernel
/-- A publish request of context 1 at plaza 0, whose last publish is n, with none or one in progress. -/
def asked (n : Nat) (w : Option Publish) : State :=
  { (ctl 0).modPlaza 0 fun q => { q with pubDone := n, publish := w } with requests := [(0, 3, .ctx 0 1)] }
theorem wit_Publishes : (asked 0 none).requests.contains (0, 3, Requester.ctx 0 1) = true ∧ genBelow 3 4 = true ∧ genBelow 3 0 = false
    ∧ ((asked 0 (some ⟨1, [(3, .ctx 0 1)], false, false⟩)).plaza 0).publish.isSome = true := by
  decide +kernel
theorem wit_PublishCompletes : ((asked 0 (some ⟨1, [(3, .ctx 0 1)], false, false⟩)).noticesFrom 0 = false)
    ∧ ((asked 0 (some ⟨1, [(3, .ctx 0 1)], false, false⟩)).plaza 0).pubQueue = [] ∧ (asked 0 none).moves = []
    ∧ ((asked 0 (some ⟨1, [(3, .ctx 0 1)], false, true⟩)).plaza 0).publish = some ⟨1, [(3, .ctx 0 1)], false, true⟩
    ∧ ({ asked 0 (some ⟨1, [(3, .ctx 0 1)], false, false⟩) with notices := [⟨7, 0, 1, some 0, none, none⟩] } : State).noticesFrom 0 = true := by
  decide +kernel
/-- Context 1 in an acquire of plaza 0's publish 3, and its acknowledgement. -/
def acked (f : Nat) : State :=
  { (ctl 0).modCtx 0 1 fun x => { x with state := .waiting, wait := some (.lda 4 1 0 1 0 0), acq := some ⟨9, 0, 3, false, false, false⟩ } with
    acks := [(0, 4, f, .ctx 0 1)] }
theorem wit_PublishAnswers : (acked 0).acks.contains (0, 4, 0, Requester.ctx 0 1) = true ∧ (acked 1).acks.contains (0, 4, 1, Requester.ctx 0 1) = true
    ∧ ((acked 0).ctx 0 1).acq = some ⟨9, 0, 3, false, false, false⟩ ∧ genBelow 3 4 = true := by
  decide +kernel
theorem wit_KgNotices : let s : State := { viewing with notices := [⟨7, 0, 1, some 0, none, none⟩] }
    s.notices[0]? = some ⟨7, 0, 1, some 0, none, none⟩ ∧ 7 ≠ noView ∧ s.views.map (fun y => y.id) = [7] := by
  decide +kernel
/-- A master of one block at 0x80000 and its view at 0xC0000, in a page of 1 GiB that the PASID's tables map; a view engine with the block
queued, and one with a derivation to write. -/
def master1 : Master := ⟨0, 0x80000, 128, 128, 512, 0, [(0, 0, 2 ^ 30)], []⟩
def view1 : View := ⟨7, 0, 0x80000, [0xC0000], 0, 1, 1, 0, 0, 0, 0, 0, 0xF0000, none, [(0, 0, 2 ^ 30)], []⟩
def engine1 : State := { ctl 0 with
  pasids := [(0, 0x1000)], mem := memWrite (memWrite (memWrite [] 0x1000 8 0x2000) 0x2000 8 0x3001) 0x3000 8 0x1F, masters := [master1], views := [view1]
  engines := [(0, ⟨[(0, 0x80000, 0)], none⟩), (1, ⟨[], some ⟨0, 0x80000, 0, 1, [], none, [7]⟩⟩)] }
/-- A range that maps to these pages. -/
def spanIs : Span → List (Nat × Nat × Nat) → Bool
  | .ok ps, qs => ps == qs
  | _, _ => false
theorem wit_Snapshots : tabGet ViewEngine.off engine1.engines 0 = ⟨[(0, 0x80000, 0)], none⟩
    ∧ engine1.masters.find? (fun y => y.pasid == 0 && y.mva == 0x80000) = some master1 ∧ engine1.walked 0 (master1.blockRows 0) = engine1
    ∧ spanIs (engine1.span none 0 (fun y => y.read) (master1.blockRows 0)) [(0, 0, 2 ^ 30)] = true := by
  decide +kernel
/-- That engine with its page gone, or migrating, or in the memory behind a second-tier port that is down; and with a unit of the master poisoned. -/
def enginePage (leaf : Nat) : State := { engine1 with mem := memWrite engine1.mem 0x3000 8 leaf, dev := { engine1.dev with tierCap := [(0, 4)] } }
def enginePoison : State := { engine1 with poison := [0x80000 / 64 + 1] }
def firstPieces : List (Nat × Nat) := (master1.blockRows 0).flatMap fun y => keyPieces [(0, 0, 2 ^ 30)] y.1 y.2
theorem wit_Snapshots_fail : spanIs ((enginePage 0x1E).span none 0 (fun y => y.read) (master1.blockRows 0)) [] = false
    ∧ (match (enginePage 0x11F).span none 0 (fun y => y.read) (master1.blockRows 0) with
       | .migrating => true
       | _ => false) = true
    ∧ spanIs ((enginePage (Config.tierBase + 0x1F)).span none 0 (fun y => y.read) (master1.blockRows 0)) [(0, Config.tierBase, 2 ^ 30)] = true
    ∧ (enginePage (Config.tierBase + 0x1F)).pathDown (Config.tierBase + 0x80000) = true ∧ Config.tierBase + 0x80000 < 2 ^ 45
    ∧ firstPieces.head? = some (0x80000, 128) ∧ touchesPoison (enginePoison.homePoison 0x1000) 0 128 = true := by
  decide +kernel
theorem wit_ViewDerivation : ∀ x ∈ firstPieces, engine1.pieceHome x := by
  have h : ∀ x ∈ firstPieces, x.1 < 2 ^ 45 ∧ x.1 % 128 + x.2 ≤ 128 ∧ engine1.pathDown x.1 = false
      ∧ touchesPoison (engine1.homePoison (x.1 / 128)) (x.1 % 128) x.2 = false ∧ (engine1.plazas.all fun q => !q.2.hasUpdate (x.1 / 128)) = true := by
    decide +kernel
  exact fun x hx => let ⟨a, b, c, d, e⟩ := h x hx; ⟨a, b, c, d, no_updates _ _ e⟩
theorem wit_ViewBlockWrites : (tabGet ViewEngine.off engine1.engines 1).work = some ⟨0, 0x80000, 0, 1, [], none, [7]⟩
    ∧ (∀ s ∈ [engine1, enginePage 0x1E, enginePage (Config.tierBase + 0x1F)],
      s.views.find? (fun y => y.id == 7) = some view1 ∧ s.masters.find? (fun y => y.pasid == 0 && y.mva == 0x80000) = some master1
      ∧ (tabGet ViewBlock.off view1.blocks 0).pins = 0 ∧ s.readPinned view1 master1 0 = false ∧ s.hasPasid 0 = true
      ∧ (match s.viewBook 1 view1 with
         | .ok (.inr _) t => t == s
         | _ => false) = true
      ∧ s.walked 0 [(view1.blockVa master1.across 0, viewStride view1.tfmt)] = s)
    ∧ spanIs (engine1.span none 0 (fun y => y.read) [(0xC0000, viewStride view1.tfmt)]) [(0, 0, 2 ^ 30)] = true
    ∧ spanIs ((enginePage 0x1E).span none 0 (fun y => y.read) [(0xC0000, viewStride view1.tfmt)]) [] = false
    ∧ (keyPieces [(0, Config.tierBase, 2 ^ 30)] 0xC0000 17024).head? = some (Config.tierBase + 0xC0000, 128) := by
  decide +kernel
theorem wit_ViewBlockWrite : (engine1.putHome none (keyPieces [(0, 0, 2 ^ 30)] 0xC0000 17024) (leBytes 4 1)).isSome = true
    ∧ ∀ x ∈ keyPieces [(0, 0, 2 ^ 30)] 0xC0000 17024, x.1 < 2 ^ 45 ∧ engine1.pathDown (x.1 / 128 * 128) = false := by
  decide +kernel
/-- A view with a VQ2 target and its codebook at 0x90000. -/
def viewVq : View := { view1 with tfmt := 0x13, cbva := 0x90000, layout := 1, axis := 1 }
theorem wit_ViewCodebooks : engine1.walked 0 [(0x90000, 2048)] = engine1 ∧ spanIs (engine1.span none 0 (fun y => y.read) [(0x90000, 2048)]) [(0, 0, 2 ^ 30)] = true
    ∧ spanIs ((enginePage 0x1E).span none 0 (fun y => y.read) [(0x90000, 2048)]) [] = false
    ∧ (enginePage (Config.tierBase + 0x1F)).pathDown (Config.tierBase + 0x90000) = true
    ∧ ∀ x ∈ keyPieces [(0, 0, 2 ^ 30)] 0x90000 2048, x.1 < 2 ^ 45 ∧ x.1 % 128 + x.2 ≤ 128 ∧ engine1.pathDown x.1 = false
      ∧ touchesPoison (engine1.homePoison (x.1 / 128)) (x.1 % 128) x.2 = false ∧ (engine1.plazas.all fun q => !q.2.hasUpdate (x.1 / 128)) = true := by
  decide +kernel
theorem wit_ViewFailures : (match (enginePage 0x1E).viewBook 1 viewVq with
       | .ok (.inl x) t => x == (0x04, 0) && t == enginePage 0x1E
       | _ => false) = true ∧ pageKey master1.pages (master1.blockVa 0) = some 0x80000 := by
  decide +kernel
theorem wit_ViewBlockData : viewVq.layout ≠ 0 ∧ view1.layout = 0 ∧ ({ view1 with tfmt := 0x10 } : View).layout = 0 := by decide +kernel
/-- A job of one placement, QUEUED for die 0, with plaza 0 free, with plaza 0 taken by a job of level 0, and the same from a GANG job. -/
def job8 (gang : Bool) : Job := ⟨8, { launch with gang := gang, diemask := 1 }, .queued, 1, 0, [], [], [], 0, [], none, 1, 0, 1, 0⟩
def placer8 (gang : Bool) : Placer := { Placer.off with jobs := [job8 gang], fifo := [8], saveslots := 4, nextId := 9 }
def placing (gang : Bool) (res : Residency) : State := { lab.modPlaza 0 (fun q => { q with res := res }) with placer := placer8 gang }
theorem wit_JobPlacing : ((placing false .free).queue.map fun j => j.id) = [8] ∧ ((placing false .free).tryPlace (job8 false)).isSome = true
    ∧ (placing false .free).pickPlaza (job8 false).launch 0 = some 0 ∧ (job8 false).saves = [] ∧ (job8 false).restarts = []
    ∧ (placing false .free).saving 8 = [] ∧ (job8 false).first + 1 = (job8 false).total ∧ 0 < (placing false .free).freeSlots
    ∧ (placing false .free).placer.saveslots ≠ 0
    ∧ (let s : State := { placing true .free with placer := { placer8 true with saveslots := 0 } }
       (s.tryPlace (job8 true)).isNone = true ∧ (s.tryPreempt (job8 true)).isNone = true ∧ (s.queue.map fun j => j.launch.gang) = [true]) := by
  decide +kernel
/-- A placement of a job of two starting on plaza 0 with its turn come, while another of its die has begun, or has not. -/
def spaced (b : Option Nat) (at_ : Nat) : State :=
  { (lab.modPlaza 0 fun q => { q with res := .starting, startAt := 110, place := { q.place with job := 7 } }).modPlaza 1 fun q =>
      { q with res := .starting, begun := b, startAt := at_, place := { Place.off with job := 7, index := 1 } } with
    placer := { Placer.off with jobs := [{ job7 with total := 2, first := 2 }] } }
theorem wit_StartSpacing : (∀ s ∈ [spaced (some 80) 90, spaced none 105, spaced none 126], ((s.job (s.place 0).job).map fun j => j.id) = some 7
      ∧ (s.plaza 0).res = .starting ∧ (s.plaza 0).begun = none ∧ s.live 0 = true ∧ (s.plaza 0).startAt ≤ s.dev.cycle + 16)
    ∧ ((spaced (some 80) 90).plaza 1).startAt ≤ (spaced (some 80) 90).dev.cycle ∧ ((spaced none 105).plaza 1).startAt ≤ ((spaced none 105).plaza 0).startAt
    ∧ ((spaced none 126).plaza 0).startAt < ((spaced none 126).plaza 1).startAt := by
  decide +kernel
/-- Every plaza of die 0 resident with a placement of a job of level 0 that may be pre-empted. -/
def full : State :=
  let job0 : Job := ⟨3, { launch with prio := 0 }, .running, 24, 24, [], [], [], 0, [], none, 0, 0, 0, 24⟩
  let s := (List.range 24).foldl (fun (t : State) q => t.modPlaza q fun x => { x with res := .resident, place := { x.place with job := 3, index := q } }) lab
  { s with placer := { placer8 false with jobs := [job0, job8 false], saveslots := 40 } }
theorem wit_Preempting : (full.queue.map fun j => j.id) = [8] ∧ (full.tryPlace (job8 false)).isNone = true
    ∧ (full.tryPreempt (job8 false)).isSome = true := by
  decide +kernel
theorem wit_AgingMoves : (placing false .free).placer.agestep ≠ 0 ∧ ((placing false .free).placer.jobs.map fun j => j.id).Nodup
    ∧ ({ Placer.off with agestep := 0 } : Placer).agestep = 0 := by
  decide +kernel
/-- A placement told to stop, with nothing begun. -/
def stopping : State := { lab.modPlaza 0 (fun q => { q with preempt := true, place := { q.place with job := 7 } }) with placer := { Placer.off with jobs := [job7] } }
theorem wit_SaveCompletes : stopping.saveReady 0 = true ∧ lab.saveReady 0 = false ∧ (stopping.place 0).lanes = [] ∧ (stopping.place 0).async = [] := by decide +kernel
/-- A placement of job 7 starting on plaza 0 at cycle 90 or 200, and one resuming. -/
def saved7 : Saved := ⟨{ Place.off with job := 7 }, [], [], [], [], 0, 0⟩
def starting (res : Residency) (at_ : Nat) : State :=
  { lab.modPlaza 0 (fun q => { q with res := res, startAt := at_, begun := if at_ = 90 then some 0 else none, place := { Place.off with job := 7 } }) with
    placer := { Placer.off with jobs := [{ job7 with saves := [saved7] }] } }
theorem wit_PlacementStarts : (let r := (starting .starting 90).prepare 0 0 ((starting .starting 90).keyOf 0)
      r.1 = true ∧ (r.2.acquirePlaza 0 0 0).1 = true)
    ∧ ((starting .starting 200).prepare 0 0 ((starting .starting 200).keyOf 0)).1 = false
    ∧ ((starting .resuming 90).prepare 0 0 ((starting .resuming 90).keyOf 0)).1 = true
    ∧ ((starting .starting 90).job 7).any (fun j => (j.saves.find? fun w => w.place.index == 0).isSome) = true
    ∧ launch.roles.getD 0 none = some 0x400 ∧ launch.roles.getD 1 none = none := by
  decide +kernel
/-- The plaza is as R231 wants it, and what the job starts from and left behind is this plaza's own. -/
theorem wit_PlacementStarts_ready : ∀ res ∈ [Residency.starting, .resuming], let s := starting res 90
    (s.plaza 0).res = res ∧ s.live 0 = true ∧ (∀ k, (s.plaza 0).tenant = some k → k = s.keyOf 0) ∧ (s.plaza 0).begun = some 0
    ∧ 0 + 16 * (launch.scratch / 8192) ≤ s.dev.cycle ∧ (s.plaza 0).l1v = [] ∧ s.noticesFrom 0 = false ∧ launch.plaza = 0 ∧ saved7.plaza = 0
    ∧ saved7.place.blocks = [] ∧ saved7.place.records = [] ∧ saved7.place.refused = [] := by
  intro res hres
  refine ⟨?_, ?_, fun k hk => ?_, ?_⟩
  · revert res; decide +kernel
  · revert res; decide +kernel
  · have : ((starting res 90).plaza 0).tenant = none := by clear hk; revert res; decide +kernel
    simp [this] at hk
  · revert res; decide +kernel
/-- A placement that restarts after its CKPT site at 0x500 with its checkpoint word. -/
def again : Restart := ⟨0, 9, 3, 2, 1, 0, [some 0, none, none]⟩
theorem wit_Restarts : again.sites.getD 0 none = some 0 ∧ ({ launch with sites := [0x500] } : Launch).sites[0]? = some 0x500
    ∧ again.sites.getD 1 none = none := by
  decide +kernel
/-- A placement of job 7, the last of one or the first of two, that is over; its completion word at 0x300 or none. -/
def overState (n : Nat) (w : Word) : State :=
  { lab.modPlaza 0 (fun q => { q with place := { q.place with job := 7, ctx := [(3, .off .dormant), (4, .off .dormant)] } }) with
    placer := { Placer.off with jobs := [{ job7 with total := n, launch := { launch with donewa := w } }] } }
/-- The same where no TLB holds the page, which migrates. -/
def migrates : State := { (overState 1 0).modPlaza 0 (fun q => { q with tlb := [] }) with
  pasids := [(0, 0x1000)], mem := memWrite (memWrite (memWrite [] 0x1000 8 0x2000) 0x2000 8 0x3001) 0x3000 8 0x11F }
theorem wit_PlacementEnds : ((overState 1 0).place 0).over = true ∧ val ((overState 1 0).writeCompletion 0 9 0 0x300 (completionValue none)) = some true
    ∧ waits (migrates.writeCompletion 0 9 0 0x300 (completionValue none)) = true
    ∧ ((overState 1 0).plaza 0).res = .resident ∧ ((overState 2 0).plaza 0).await = none ∧ ((overState 2 0).job 7).any (fun j => j.ended + 1 != j.total) = true
    ∧ ((ctl 0).place 0).over = false := by
  decide +kernel
/-- A pending nest, an active one that waits for its stage or has it, one that drains, one that is finished. -/
def nestCmd : Cmd := { copyCmd with major := 0x68 }
def active (ph : NestPhase) : Active := ⟨{ nest1 with ringa := 1, levels := ⟨1, 0, 0, 0, true, true, true, false⟩ :: List.replicate 5 .off }, nestCmd, [0, 0, 0, 0, 0, 0], ph, none, none, 2, 2, zeroAcc, [false, false, false, false], [], [], none, 0⟩
def nesting (ph : NestPhase) (st : StageState) : State := (nested nest1).modPlace 0 fun q =>
  { q with active := some (active ph), rings := [(1, ⟨0x20040000, 0, 0, [st, .empty]⟩)], tokens := [(4, ⟨.outstanding, 9⟩)] }
theorem wit_NestEvents : nestCmd.ready = true ∧ nestCmd.cancelled = false ∧ (nested nest1).serves 0 = true ∧ (active .take).nest.ringa ≠ 15
    ∧ (active .take).nest.advA = some 0 ∧ (active .take).nest.advB = none ∧ ((nesting .take .full).ring 0 1).stage ((nesting .take .full).ring 0 1).cc = .full
    ∧ ((nesting .take .empty).ring 0 1).stage 0 ≠ .full ∧ (nesting .finished .empty).token 0 4 = ⟨.outstanding, 9⟩ := by
  decide +kernel
/-- A plane of zeros that drains, its last sub-array next. -/
def plane : Drain := ⟨[0, 0, 0, 0, 0, 0], zeroAcc, [false, false, false, false], 3, List.range (active .take).nest.tileRows⟩
theorem wit_NestEvents_drain : plane.sub ≤ 3 ∧ plane.rows = List.range (active .take).nest.tileRows ∧ (active .step).phase ≠ .discarded
    ∧ (active .finished).drain.isNone = true ∧ (active .take).stageA = none ∧ ((nesting .take .empty).place 0).halted = false
    ∧ (((nesting .take .empty).modPlace 0 fun q => { q with halted := true }).place 0).halted = true := by
  decide +kernel
/-- The first step of a nest without rings whose rows have all been read: of four streams of B, in banks of FP8 E4M3. -/
def summing : Active := { active .step with nest := nest1, got := [⟨⟨false, 0, 0, false⟩, 0, 3, List.replicate 256 0⟩] }
theorem wit_NestAccumulates : let s : State := (nested nest1).modPlace 0 fun q => { q with active := some summing }
    (s.place 0).active = some summing ∧ summing.phase = .step ∧ summing.todo = [] ∧ summing.drain = none ∧ summing.nest.lastOf summing.idx summing.nest.drainLevel = true
    ∧ (∀ j, j < 4 → (summing.acc.getD j []).length = 128) ∧ (summing.acc.all fun p => p.all fun r => r.length == 128) = true
    ∧ (summing.got.find? (fun g => g.read == ⟨false, 0, 0, false⟩)).isSome = true ∧ kprOf 3 = 2 ∧ scaled 3 = false ∧ intFmt 3 = false := by
  decide +kernel
theorem wit_NestAccumulates_advance : (active .step).nest.advA = some 0 ∧ (active .step).nest.lastOf [0, 0, 0, 0, 0, 0] 0 = true
    ∧ 0 < ((nesting .step .draining).ring 0 1).stages.length ∧ ({ active .step with stageA := some 0 } : Active).stageA = some 0 := by
  decide +kernel
theorem wit_DrainWritesTile : (active .take).nest.out = 0 ∧ (active .take).nest.plus plane.idx = false ∧ plane.spoiled.getD 0 false = false
    ∧ (plane.acc.getD 0 []).length = 128 ∧ ∀ r ∈ plane.acc.getD 0 [], r.length = 128 := by
  decide +kernel
/-- LSCHED of a schedule of one step at 0x800, and LGO of it at time 0. -/
def schedCmd (maj : Nat) : Cmd := { copyCmd with major := maj, opa := 0x800, opb := 0x0000000100000001 }
def sched (maj : Nat) : State := { (ctl 0).modPlace 0 (fun q => { q with linkQ := [schedCmd maj], tokens := [(4, ⟨.outstanding, 9⟩)] }) with
  dev := { (ctl 0).dev with locked := true } }
theorem wit_ScheduleCommands : (sched majLsched).serves 0 = true ∧ ((sched majLsched).place 0).linkHead = some (schedCmd majLsched)
    ∧ (schedCmd majLsched).ready = true ∧ ((sched majLsched).slot 0 0).running = false ∧ ((sched majLsched).slot 0 0).job = none
    ∧ (val ((sched majLsched).engineVa 0 (linePieces 0x800 32))).isSome = true ∧ stepOk (leNat (List.replicate 32 0)) = true
    ∧ bits (schedCmd majLsched).opb.toNat 15 0 = 1 ∧ bits (schedCmd majLsched).opb.toNat 47 32 = 1 ∧ (sched majLsched).fmtOn 0 0 = true := by
  decide +kernel
theorem wit_ScheduleCommands_one : let s := sched majLsched
    val (s.checkVa 0 (s.place 0).pasid 0x800 0 .read) = some (0x800, false) ∧ left (s.checkVa 0 (s.place 0).pasid 0x800 0 .read) = s
    ∧ s.homeOnly 0 0x800 32 ∧ stepOk (memRead s.mem 0x800 32) = true ∧ 0x800 % 32 = 0 :=
  ⟨by decide +kernel, by decide +kernel,
    ⟨by decide, by decide, by decide +kernel, no_updates _ _ (by decide +kernel), by decide +kernel, by decide +kernel, by decide +kernel⟩, by decide +kernel, by decide⟩
theorem wit_ScheduleStarts : let s : State := (sched majLgo).modSlot 0 0 fun x => { x with job := some 0, index := 0 }
    (s.slot 0 0).running = false ∧ (s.slot 0 0).job = some 0 ∧ s.dev.locked = true ∧ s.dev.ns ≤ 0x800
    ∧ (s.findPlace 0 0).any (fun r => r.1 == some 0) = true := by
  decide +kernel
/-- A schedule that runs: a step of that operation due at time t. -/
def stepping (op t : Nat) : State := (sched majLgo).modSlot 0 0 fun x =>
  { x with job := some 0, running := true, steps := [⟨t, op, 0, 4, 0, 0, 0, 0, 0, 0, 0, 0, 0⟩], period := 10, cmd := some (0, 9) }
def stepRuns (s : State) : Bool := match s.stepEffect 0 0 with
  | .ok _ _ => true
  | _ => false
theorem wit_ScheduleRuns : ((stepping 0 0).slotFailure ((stepping 0 0).slot 0 0)).isNone = true ∧ (stepping 0 5).stepDue ((stepping 0 5).slot 0 0) = false ∧ (stepping 0 0).stepDue ((stepping 0 0).slot 0 0) = true
    ∧ (stepping 0 0).stepReady ((stepping 0 0).slot 0 0) = true ∧ stepRuns ((stepping 4 0).modPlace 0 fun q => { q with tokens := [(4, ⟨.done, 9⟩)] }) = true
    ∧ (stepping 4 0).stepReady ((stepping 4 0).slot 0 0) = false ∧ ((stepping 4 0).slot 0 0).ports = [] ∧ ((stepping 0 0).slot 0 0).pauses = []
    ∧ (((stepping 0 0).modSlot 0 0 fun x => { x with next := 1 }).slot 0 0).steps.length ≤ 1 := by
  decide +kernel

/-- The module with link 3 up, at module 0, and a flit of that kind for it that carries those bytes to address 0x40. -/
def linked : State := lab.modDev fun d => { d with links := [(3, { Link.off with up := true, failed := 14 })], locked := true }
def flit (kind op size : Nat) (ok : Bool) (bs : List Byte) : Flit := ⟨kind, 0, 1, 0, 0, 0, 0, 3, bs.length, 0, 0, 0x40, size, op, ok, bs⟩
theorem wit_FlitChecks : (tabGet Link.off linked.dev.links 3).up = true ∧ (tabGet Link.off lab.dev.links 3).up = false ∧ linked.dev.modNum = 0
    ∧ (flit 1 0 8 false []).ok = false ∧ (flit 0 0 8 true []).kind = 0 ∧ 14 < (flit 15 0 8 true []).kind
    ∧ (tabGet Link.off linked.dev.links 3).failed = 14 ∧ ¬ 16 ≤ 14 + 1 ∧ 16 ≤ 15 + 1 := by decide +kernel
theorem wit_FlitEffects : let f := flit 4 1 8 true [1, 0, 0, 0, 0, 0, 0, 0]
    let t := linked.modLink f.link fun y => { y with failed := 0 }
    (tabGet Link.off linked.dev.links f.link).up = true ∧ f.dmod = linked.dev.modNum ∧ f.ok = true ∧ linked.absent f.addr = false
    ∧ linked.pathDown f.addr = false ∧ t.recall (f.addr / 128) = t ∧ f.addr % 128 + 8 ≤ 128
    ∧ touchesPoison (t.homePoison (f.addr / 128)) (f.addr % 128) 8 = false ∧ linked.readStatus 0x40 8 = some 0 := by decide +kernel
/-- A read request for a byte of a view block that was never derived waits; an answer finds its request, and a notice's its notice. -/
theorem wit_FlitEffects_waits : let s : State := { linked with masters := [⟨0, 0x800, 128, 128, 512, 0, [(0, 0x800, 65536)], []⟩], views := [⟨7, 0, 0x800, [0x40], 0, 1, 1, 0, 0, 0, 1, 0, 0, none, [(0, 0, 2 ^ 30)], []⟩] }
    s.readStatus 0x40 8 = none := by decide +kernel
/-- A request without an answer; link 3 up, link 4 down; module 1 the master of the time. -/
def requesting : State := { linked.modDev (fun d => { d with links := [], ns := 1000000 }) with remotes :=
  [⟨5, .host, 1, 2 ^ 50, 8, [], none, false, false, 0⟩, ⟨6, .plaza 0, 3, 0x200, 128, maskedData 1 9 0, none, false, false, 0⟩,
   ⟨7, .ctx 0 0, 6, 256, 3, [], none, false, false, 0⟩, ⟨8, .host, 0x0D, 2 ^ 50, 4, [], none, false, false, 0⟩,
   ⟨9, .host, 3, 2 ^ 50, 128, [], none, false, false, 0⟩, ⟨10, .ctx 0 0, 1, 2 ^ 50, 8, [], none, false, false, 0⟩], notices := [⟨7, 0, 1, some 0, some 8, none⟩] }
theorem wit_LinkEvents : (∀ r ∈ requesting.remotes, requesting.noPath r = true) ∧ (∀ r ∈ requesting.remotes, linked.noPath r = false)
    ∧ requesting.remotes.map (fun r => (r.kind, r.reply.isNone)) = [(1, true), (3, true), (6, true), (0x0D, true), (3, true), (1, true)]
    ∧ lineIn ((requesting.plaza 0).l1 false) (0x200 / 128) = some line ∧ (lineIn (requesting.plaza 0).l1v (0x200 / 128)).isSome = false
    ∧ requesting.notices.any (fun n => n.tag == some 8) = true ∧ (tabGet Link.off requesting.dev.links 4).up = false
    ∧ requesting.dev.host.tbmaster = requesting.dev.modNum ∧ (requesting.modHost fun x => { x with tbmaster := 1 }).dev.host.tbmaster ≠ requesting.dev.modNum
    ∧ requesting.dev.locked = true ∧ lab.dev.locked = false ∧ lab.dev.ns ≤ 5 := by decide +kernel
/-- The module without a plaza in use; what a host reads is then what memory holds. -/
def quiet : State := { lab.modHost (fun x => { x with portUp := [true, true] }) with plazas := [] }
/-- A poisoned view block at 0x40, and one that was never derived. -/
def hostViews (b : ViewBlock) : State := { quiet with masters := [⟨0, 0x800, 128, 128, 512, 0, [(0, 0x800, 65536)], []⟩], views := [⟨7, 0, 0x800, [0x40], 0, 1, 1, 0, 0, 0, 1, 0, 0, none, [(0, 0, 2 ^ 30)], [(0, b)]⟩] }
theorem wit_HostAccesses_views : ((hostViews ⟨0, 0, true, true, 0⟩).viewBlocks 0x40 8).map (fun x => (tabGet ViewBlock.off x.1.blocks x.2.2).poison) = [true]
    ∧ ((hostViews ViewBlock.off).viewBlocks 0x40 8).map (fun x => (tabGet ViewBlock.off x.1.blocks x.2.2).never) = [true]
    ∧ (∀ b, (hostViews b).plazas = []) ∧ (hostViews ViewBlock.off).viewPage 0x40 = true ∧ quiet.inBar2 0 0x40 8 = true ∧ quiet.inBar2 0 (2 ^ 30) 8 = false :=
  ⟨by decide +kernel, by decide +kernel, fun _ => rfl, by decide +kernel, by decide +kernel, by decide +kernel⟩
theorem wit_HostAccesses : (quiet.hostReaches 0 0x40 && quiet.hostReaches 0 (0x40 + 8 - 1)) = true ∧ quiet.hostReaches 0 0x2400000000 = false
    ∧ (∀ l, quiet.recall l = quiet) ∧ quiet.viewBlocks 0x40 8 = [] ∧ quiet.hostNeeds 0x40 8 = [] ∧ ∀ k, quiet.viewPage k = false :=
  ⟨by decide +kernel, by decide +kernel, fun _ => rfl, by decide +kernel, by decide +kernel, fun _ => rfl⟩
/-- PRIMARY/STANDBY with host 0 the primary and its link down since 0; the time is 10 ms. -/
def failing : State := quiet.modDev fun d => { d with ns := 10000000, host := { d.host with partmode := 2, portUp := [false, true] } }
theorem wit_HostRegisters : failing.dev.host.standby 1 = true ∧ failing.dev.host.standby 0 = false ∧ failing.dev.host.portUp.getD 0 true = false
    ∧ failing.bar0 1 = false ∧ quiet.bar0 0 = true ∧ lab.bar0 0 = false ∧ failing.dev.host.portUp.getD 1 false = true
    ∧ (quiet.modHost fun y => { y with partmode := 1 }).dev.host.owns 0 5 = false
    ∧ failing.dev.host.downAt.getD 0 0 + 10000000 ≤ failing.dev.ns ∧ quiet.placer.jobs = [] ∧ quiet.dev.host.standby 1 = false
    ∧ job7.st = .running ∧ (quiet.plazas.all fun q => q.2.res == .free) = true
    ∧ quiet.dev.host.portUp.getD 1 false = true ∧ failing.dev.host.portUp.getD 0 false = false := by decide +kernel
/-- Two dies ON, die 2 OFF and coming back, die 3 IDLE. -/
def powered : State := (lab.modHost fun x => { x with portUp := [true, true] }).modDev fun d => { d with dies := [(0, ⟨true, 0, false⟩), (1, ⟨true, 0, false⟩), (2, ⟨true, 2, true⟩), (3, ⟨true, 1, false⟩)] }
theorem wit_DiePower : powered.dieUsed 0 = true ∧ powered.dieUsed 1 = false ∧ powered.dieReleases 1 = false ∧ powered.dieGenerations 1 = false
    ∧ powered.lastDie 1 = false ∧ quiet.lastDie 0 = true ∧ (powered.die 1).power = 0 ∧ (powered.die 2).power = 2 ∧ (powered.die 2).returning = true
    ∧ (powered.die 3).power = 1 ∧ powered.bar0 0 = true ∧ powered.dev.host.owns 0 1 = true
    ∧ (powered.modHost fun y => { y with partmode := 1 }).dev.host.owns 0 5 = false ∧ (powered.die 1).enabled = true ∧ (powered.die 2).enabled = true := by decide +kernel
/-- A job of PASID 4, which is bound to key slot 6. -/
def keyed : State := { quiet.modDev (fun d => { d with pasidKey := [(4, 7)], alarmDue := true }) with
  placer := { Placer.off with jobs := [{ job7 with launch := { launch with pasid := 4 } }] } }
theorem wit_ProtectionEvents : keyed.slotUsed 6 = true ∧ keyed.slotUsed 5 = false ∧ keyed.dev.alarmDue = true ∧ quiet.slotUsed 6 = false
    ∧ quiet.dev.alarmDue = false ∧ quiet.bar0 0 = true ∧ quiet.dev.host.portUp.contains true = true ∧ lab.dev.host.portUp.contains true = false
    ∧ quiet.dev.host.partmode ≠ 1 ∧ (tabGet KeySlot.off (keyed.modDev fun d => { d with keys := [(6, ⟨1, true, 0⟩)] }).dev.keys 6).loaded = true := by decide +kernel
theorem wit_PowerAndAlarm : lab.dev.phase ≠ .unpowered ∧ lab.dev.alarms.length < 16
    ∧ 16 ≤ (lab.modDev fun d => { d with alarms := List.replicate 16 (0, 1) }).dev.alarms.length := by decide +kernel
theorem wit_StartUpSteps : State.reset.dev.phase = .reset ∧ State.reset.dev.journal = [] ∧ (⟨true, false, [], [], [], [], [], [], none⟩ : StartUp).ctlFails = true
    ∧ (∀ d, d < 8 → (⟨false, false, [0, 1, 2, 3, 4, 5, 6, 7], [], [], [], [], [], none⟩ : StartUp).deadDies.contains d = true)
    ∧ (⟨false, false, [], [], [], [], [], [], none⟩ : StartUp).baseFails = false
    ∧ (⟨false, false, [], [], [], [], [3], [], none⟩ : StartUp).deadDispatchers.contains 3 = true ∧ (⟨false, false, [], [], [], [], [], [], some 9⟩ : StartUp).upTo = some 9 := by decide +kernel
theorem wit_StoppedModule : (lab.cold .unpowered).dev.phase = .unpowered ∧ (lab.cold .unpowered).agenda = []
    ∧ goes (step { (lab.cold .unpowered) with agenda := [.event (.startUp ⟨true, false, [], [], [], [], [], [], none⟩)] }) = true
    ∧ takes .unpowered .autoModule = false ∧ takes .halted .autoModule = false
    ∧ goes (step { (lab.cold .halted) with agenda := [.event .powerRemoval] }) = true := by decide +kernel
theorem wit_MemoryLaws : memWf [(3, 1), (7, 2)] = true ∧ memWf [(7, 2), (3, 1)] = false ∧ memWf [(3, 0)] = false := by decide +kernel
/-- Context 0 about to run the word at 0x100 of a resident instruction line, on its agenda. -/
def fetching (w : Nat) : State := { (ctl 0).modPlaza 0 (fun q => { q with icache := [⟨0, 4, lineWith (twoWords w), false, 0, 1⟩] }) with agenda := [.control 0 0] }
def fetched (s : State) : Option Instr := match s.fetch 0 0 with
  | .inl (i, _) => some i
  | _ => none
theorem wit_StepRunsDecoded_control : let s := fetching 0x020A0C0E
    let u : State := { s with agenda := [] }
    s.dev.phase = .up ∧ u.runs 0 0 = true ∧ u.issueHeld = false ∧ (u.takeKept 0 0).isNone = true ∧ (u.ctx 0 0).state = .running
    ∧ fetched u = some (.add 5 6 7 0) ∧ canonical (u.ctx 0 0).pc = true
    ∧ (u.iline 0 (u.ctxPasid 0 0) 4).any (fun x => x.bad = false && vecBytes x.data 0 4 = 0x020A0C0E) = true := by decide +kernel
/-- Lane group 0 about to run the word at 0 of near memory. -/
def packet (w : Nat) : State := State.reset.placeLane w
def packetInstr (s : State) : Option Instr := match s.laneInstr 0 0 (s.lane 0 0).pc with
  | .ok (.inr a) _ => a.i
  | _ => none
theorem wit_StepRunsDecoded_lane : let s := packet 0x8A285980
    let u : State := { s with agenda := [] }
    s.dev.phase = .up ∧ u.powered 0 = true ∧ u.lanesRun 0 = true ∧ u.issueHeld = false ∧ (u.place 0).mayIssue u.dev.cycle 0 = true
    ∧ (u.place 0).rivals u.dev.cycle 0 = []
    ∧ packetInstr u = some (.viadd 5 5 76 0 0 0) ∧ paired 0x8A285980 = false
    ∧ ((u.beginPacket 0 0).lane 0 0).full (.viadd 5 5 76 0 0 0) = false ∧ goes (step s) = true := by decide +kernel
theorem wit_EncodingControl : (Instr.add 3 4 5 1).wfControl = true ∧ (Instr.lix 5 0x80000001).wfControl = true := by decide +kernel
theorem wit_EncodingLanes : (Instr.vfma 1 2 3 4 3 1 2 1 0 0).wfLane = true ∧ Instr.vbend.wfLane = true := by decide +kernel

/-! ### Decoding: each word is the spec's own example, or is written out field by field, high bits first, from its encoding table. -/
/-- Encodings of R38, R39. -/
theorem test_decode_shared_registers :
    decodeControl 0x020A0C0E 0 = some (.add 5 6 7 0)
    ∧ decodeControl 0b0000010_00011100_00011001_00010010_0 0 = some (.sub 28 25 18 0)
    ∧ decodeControl 0b0000011_00000111_00000111_00001010_0 0 = some (.and 7 7 10 0)
    ∧ decodeControl 0b0000100_00011100_00001000_00001000_1 0 = some (.or 28 8 8 1)
    ∧ decodeControl 0b0000101_00010101_00000111_00001101_0 0 = some (.xor 21 7 13 0)
    ∧ decodeControl 0b0000110_00000111_00000100_00011000_1 0 = some (.andn 7 4 24 1)
    ∧ decodeControl 0b0000111_00000010_00000110_00001100_0 0 = some (.shl 2 6 12 0)
    ∧ decodeControl 0b0001000_00010010_00001011_00000010_0 0 = some (.shr 18 11 2 0)
    ∧ decodeControl 0b0001001_00010011_00001011_00011101_1 0 = some (.sra 19 11 29 1)
    ∧ decodeControl 0b0001010_00001001_00010101_00001110_0 0 = some (.mul 9 21 14 0)
    ∧ decodeControl 0b0001011_00011111_00001001_00000101_0 0 = some (.mulhs 31 9 5 0)
    ∧ decodeControl 0b0001100_00010011_00010111_00011000_0 0 = some (.mulhn 19 23 24 0)
    ∧ decodeControl 0x1A06080B 0 = some (.divs 3 4 5 1)
    ∧ decodeControl 0b0001110_00001010_00001001_00011001_1 0 = some (.divn 10 9 25 1)
    ∧ decodeControl 0b0001111_00010101_00010101_00010111_1 0 = some (.rems 21 21 23 1)
    ∧ decodeControl 0b0010000_00000000_00001011_00011101_0 0 = some (.remn 0 11 29 0) := by decide +kernel
/-- Encodings of R38. -/
theorem test_decode_shared_compares :
    decodeControl 0b0010001_00011010_00011100_00000001_0 0 = some (.min 26 28 1 0)
    ∧ decodeControl 0b0010010_00000111_00011011_00011101_0 0 = some (.max 7 27 29 0)
    ∧ decodeControl 0b0010011_00010100_00010011_00010011_1 0 = some (.minn 20 19 19 1)
    ∧ decodeControl 0b0010100_00001001_00010000_00011001_0 0 = some (.maxn 9 16 25 0)
    ∧ decodeControl 0b0010101_00011011_00011111_00000010_1 0 = some (.slt 27 31 2 1)
    ∧ decodeControl 0b0010110_00001000_00001001_00000100_1 0 = some (.sltn 8 9 4 1)
    ∧ decodeControl 0b0010111_00000100_00010011_00001100_0 0 = some (.seq 4 19 12 0)
    ∧ decodeControl 0b0011000_00010000_00000010_00010010_1 0 = some (.sh1add 16 2 18 1)
    ∧ decodeControl 0b0011001_00000010_00000011_00001011_1 0 = some (.sh2add 2 3 11 1)
    ∧ decodeControl 0b0011010_00011000_00011110_00001111_1 0 = some (.sh3add 24 30 15 1)
    ∧ decodeControl 0b0011011_00000111_00011111_00000000_1 0 = some (.clz 7 31 1)
    ∧ decodeControl 0b0011100_00000011_00010000_00000000_0 0 = some (.popc 3 16 0)
    ∧ decodeControl 0b0011101_00000010_00001110_00000111_1 0 = some (.sne 2 14 7 1) := by decide +kernel
/-- Encodings of R40, R41. -/
theorem test_decode_immediates :
    decodeControl 0x3C0A0BFC 0 = some (.addi 5 5 508)
    ∧ decodeControl 0b0011111_00010001_00010000_100101101 0 = some (.andi 17 16 301)
    ∧ decodeControl 0b0100000_00010111_00000011_011100111 0 = some (.ori 23 3 231)
    ∧ decodeControl 0b0100001_00011110_00010101_110010010 0 = some (.xori 30 21 402)
    ∧ decodeControl 0b0100010_00010111_00011001_000110001 0 = some (.shli 23 25 49)
    ∧ decodeControl 0b0100011_00001101_00011111_000110111 0 = some (.shri 13 31 55)
    ∧ decodeControl 0b0100100_00011011_00010000_000100101 0 = some (.srai 27 16 37)
    ∧ decodeControl 0b0100101_00010101_00001110_011011110 0 = some (.slti 21 14 222)
    ∧ decodeControl 0b0100110_00011010_00000111_001000111 0 = some (.sltni 26 7 71)
    ∧ decodeControl 0b0100111_00001110_01011110110111010 0 = some (.li 14 48570)
    ∧ decodeControl 0b0101000_00001110_0_0110110111001001 0 = some (.lih 14 28105) := by decide +kernel
/-- Encodings of R42-R56. -/
theorem test_decode_transfers :
    decodeControl 0b0101001_00010011_00010011_111000010 0 = some (.beq 19 19 450)
    ∧ decodeControl 0x540201FD 0 = some (.bne 1 0 509)
    ∧ decodeControl 0b0101011_00001011_00011011_010111110 0 = some (.blt 11 27 190)
    ∧ decodeControl 0b0101100_00010010_00000111_011111100 0 = some (.bge 18 7 252)
    ∧ decodeControl 0b0101101_00010001_00011000_011111000 0 = some (.bltn 17 24 248)
    ∧ decodeControl 0b0101110_00010100_00011011_110001001 0 = some (.bgen 20 27 393)
    ∧ decodeControl 0b0101111_0001111011110011111010111 0 = some (.j 4057047)
    ∧ decodeControl 0b0110000_0000001101001010110101111 0 = some (.call 431535)
    ∧ decodeControl 0x62003E00 0 = some (.jalr 0 31 0)
    ∧ decodeControl 0b0110010_00000010_011011000_10_00_0000 0 = some (.loop 2 216 2 0 0)
    ∧ decodeControl 0b0110011_10011001_111001010_10_00_0000 0 = some (.loopi 153 458 2 0 0)
    ∧ decodeControl 0x68000006 0 = some (.fence 6)
    ∧ decodeControl 0x6A080000 0 = some (.fqry 4 0)
    ∧ decodeControl 0b0111111_0000000000000000000000000 0 = some (.nop) := by decide +kernel
/-- Encodings of R16, R20. -/
theorem test_decode_shared_on_lanes :
    decodeLane 0b0000010_00111011_10011000_01111001_0 0 = some (.sub 59 152 121 0)
    ∧ decodeLane 0b0001100_10110101_00110110_10000011_0 0 = some (.mulhn 181 54 131 0)
    ∧ decodeLane 0b0011010_00101110_10101010_01010011_0 0 = some (.sh3add 46 170 83 0)
    ∧ decodeLane 0b0011011_10110111_10001010_00000000_0 0 = some (.clz 183 138 0)
    ∧ decodeLane 0b0100100_00100111_00101011_000000101 0 = some (.srai 39 43 5)
    ∧ decodeLane 0b0100111_01000110_01000010010101000 0 = some (.li 70 33960)
    ∧ decodeLane 0b0101000_10100011_0_1010110000101100 0 = some (.lih 163 44076)
    ∧ decodeLane 0b0110010_00011100_111101010_01_00_0000 0 = some (.loop 28 490 1 0 0)
    ∧ decodeLane 0b0110011_11101110_110101000_11_11_1101 0 = some (.loopi 238 424 3 3 13)
    ∧ decodeLane 0b0111111_0000000000000000000000000 0 = some (.nop) := by decide +kernel
/-- Encodings of R58-R65. -/
theorem test_decode_memory :
    decodeControl 0b1000000_01011_00011_1100_10011100010 0 = some (.ldb 11 3 12 1250)
    ∧ decodeControl 0b1000001_11010_01010_1110_00001111010 0 = some (.ldbn 26 10 14 122)
    ∧ decodeControl 0b1000010_00111_01101_1100_11011010111 0 = some (.ldh 7 13 12 1751)
    ∧ decodeControl 0b1000011_00010_10000_1001_01010100100 0 = some (.ldhn 2 16 9 676)
    ∧ decodeControl 0b1000100_11101_10111_0100_00110001011 0 = some (.ldw 29 23 4 395)
    ∧ decodeControl 0b1000101_01011_00100_1001_10110111000 0 = some (.ldwn 11 4 9 1464)
    ∧ decodeControl 0b1000110_01011_01010_1010_10111110111 0 = some (.ldd 11 10 10 1527)
    ∧ decodeControl 0b1000111_00011_11100_0001_11001101111 0 = some (.stb 3 28 1 1647)
    ∧ decodeControl 0b1001000_00010_10111_0011_01111100010 0 = some (.sth 2 23 3 994)
    ∧ decodeControl 0b1001001_10001_00010_0011_00010011110 0 = some (.stw 17 2 3 158)
    ∧ decodeControl 0b1001010_01011_11101_1110_10000100101 0 = some (.std 11 29 14 1061)
    ∧ decodeControl 0x96330200 0 = some (.lda 3 6 0 1 0 0)
    ∧ decodeControl 0x98130200 0 = some (.strel 1 6 0 1 0 0)
    ∧ decodeControl 0x9A229851 0 = some (.amo 2 5 6 0 1 1 1)
    ∧ decodeControl 0b1001101_00000_10111_01110_0_1_0000_1001 0 = some (.amoAddc 23 14 1)
    ∧ decodeControl 0b1001101_00000_01110_11101_0_1_0000_1010 0 = some (.amoFaddc 14 29)
    ∧ decodeControl 0x9C42980A 0 = some (.waitm 4 5 6 0 1 2) := by decide +kernel
/-- Encodings of R68, R72-R74. -/
theorem test_decode_csr_and_caches :
    decodeControl 0x9E500001 0 = some (.csrr 5 1)
    ∧ decodeControl 0b1001111_10111_01001_00000_01_00100000 0 = some (.csrw 23 9 32)
    ∧ decodeControl 0b1001111_01111_11001_00000_10_00100001 0 = some (.csrs 15 25 33)
    ∧ decodeControl 0x9E038310 0 = some (.csrc 0 7 16)
    ∧ decodeControl 0xA0048000 0 = some (.icpf 9)
    ∧ decodeControl 0xA0048001 0 = some (.icinv 9)
    ∧ decodeControl 0b1010000_000000000000000000000_1_001 0 = some (.icinvAll)
    ∧ decodeControl 0b1010000_00000_11001_000000000000_010 0 = some (.dcpf 25)
    ∧ decodeControl 0b1010000_00000_00011_000000000000_011 0 = some (.dcwb 3)
    ∧ decodeControl 0b1010000_00000_01000_000000000000_100 0 = some (.dcinv 8) := by decide +kernel
/-- Encodings of R109-R111, R122. -/
theorem test_decode_translation :
    decodeControl 0xA2328003 0 = some (.xlt 3 5 3)
    ∧ decodeControl 0xA4300000 0 = some (.hinv 3)
    ∧ decodeControl 0xA4000001 0 = some (.hinvAll)
    ∧ decodeControl 0xA6618000 0 = some (.hget 6 3)
    ∧ decodeControl 0xA6718001 0 = some (.hgetva 7 3)
    ∧ decodeControl 0xA8238001 0 = some (.shld 2 7 1)
    ∧ decodeControl 0b1010101_01010_11011_00000000000_1000 0 = some (.shst 10 27 8)
    ∧ decodeControl 0xAC350000 0 = some (.shset 3 10 0)
    ∧ decodeControl 0b1010111_10110_00101_00000_0000000110 0 = some (.shget 22 5 6) := by decide +kernel
/-- Encodings of R127, R139-R141. -/
theorem test_decode_avenue_and_tokens :
    decodeControl 0xB0301000 0 = some (.popp 3 4)
    ∧ decodeControl 0b1011000_10100_00000_00010_000000000_1 0 = some (.poppn 20 2)
    ∧ decodeControl 0xB2530000 0 = some (.bcancel 5 6)
    ∧ decodeControl 0xB4700000 0 = some (.bseq 7 0)
    ∧ decodeControl 0xB6030000 0 = some (.bwait 6)
    ∧ decodeControl 0b1011100_0000000000000000000_111011 0 = some (.twait 59)
    ∧ decodeControl 0b1011100_00000_01111_00000000_1_000000 0 = some (.twaitm 15)
    ∧ decodeControl 0b1011101_10101_00000000000000_010101 0 = some (.ttest 21 21)
    ∧ decodeControl 0b1011101_11111_000000000000_01_000000 0 = some (.ttestOut 31)
    ∧ decodeControl 0b1011101_11000_000000000000_10_000000 0 = some (.ttestFailed 24)
    ∧ decodeControl 0b1011110_0000000000000000000_100011 0 = some (.tfree 35)
    ∧ decodeControl 0b1011110_00000_11100_00000000_1_000000 0 = some (.tfreem 28) := by decide +kernel
/-- Encodings of R67, R76. -/
theorem test_decode_system :
    decodeControl 0b1011111_00000_01110_00000000000_0000 0 = some (.exit 14)
    ∧ decodeControl 0b1011111_000000000000000_000010_0001 0 = some (.trap 2)
    ∧ decodeControl 0xBE321402 0 = some (.sret 3 4 5)
    ∧ decodeControl 0b1011111_000000000000000000000_0011 0 = some (.hret)
    ∧ decodeControl 0b1011111_11110_10101_11000_000000_0100 0 = some (.wake 30 21 24)
    ∧ decodeControl 0b1011111_00000_11011_00000000000_0101 0 = some (.ckpt 27)
    ∧ decodeControl 0b1011111_000000000000000000000_0110 0 = some (.tbr)
    ∧ decodeControl 0xC0700000 0x12345678 = some (.lix 7 0x12345678)
    ∧ decodeControl 0xC0700001 0xFF = some (.lixh 7 0xFF) := by decide +kernel
/-- Encodings of R66, R131-R137. -/
theorem test_decode_doubles :
    decodeControl 0xC2229800 0xE7 = some (.cas 2 5 6 0 1 3 7)
    ∧ decodeControl 0xC4429800 0x23F8000 = some (.emit 4 5 6 2 0 127)
    ∧ decodeControl 0b1100011_00010_01110_11010_00000_10110 0b10010101_0_0_0110100_00101101_0000000 = some (.split 2 14 26 22 149 0 52 45)
    ∧ decodeControl 0xC8042400 0x31C17FFE = some (.cpy 8 9 3 7 2 127 127)
    ∧ decodeControl 0b1100101_00000_11100_01101_0000000000 0b1111_111101_0101010_0110100_0001111_0 = some (.cpyg 28 13 15 61 42 52 15)
    ∧ decodeControl 0b1100110_00000_01011_10110_0000000000 0b0110_101110_1111111_0000101_0001111_0 = some (.puth 11 22 6 46 127 5 15) := by decide +kernel
/-- Encodings of R283-R289. -/
theorem test_decode_nest :
    decodeControl 0b1100111_00000_00001_000000000000_011 0b0000000000000000000000000000_1000 = some (.mnsetLvl 3 1 8)
    ∧ decodeControl 0b1100111_00000_10010_000000000000_110 0b000000000000000000000000_0101_0110 = some (.mnsetBase 18 6 5)
    ∧ decodeControl 0b1100111_00000_10110_11001_0000000_111 0b00000000000000000000000000000000 = some (.mnsetCtl 22 25)
    ∧ decodeControl 0b1101000_0000000000000000000000000 0b0000_100101_0011011_0011001_0111011_0 = some (.mgo 37 27 25 59)
    ∧ decodeControl 0b1101001_00000_10011_000000000000_011 0b00000000000000000000000000000000 = some (.rset 3 19)
    ∧ decodeControl 0b1101010_00111_000000000000000_01_010 0b00000000000000000000000000000000 = some (.rwait 7 2 1)
    ∧ decodeControl 0b1101011_00000_11110_000000000000_101 0b00000000000000000000000000000000 = some (.rmark 5 30)
    ∧ decodeControl 0b1101100_00000_10110_00000000000_1000 0b0000_111101_0101011_0101101_0010001_0 = some (.bfset 8 22 61 43 45 17)
    ∧ decodeControl 0b1101101_00011_01001_0000000000_00000 0b0000_010111_0010100_0000111_0001001_0 = some (.cbld 3 9 0 23 20 7 9) := by decide +kernel
/-- Encodings of R143, R145, R290, R297-R306. -/
theorem test_decode_jobs_views_links :
    decodeControl 0xDC248000 0x0 = some (.launch 2 9)
    ∧ decodeControl 0xDE310000 0x0 = some (.jwait 3 2 0)
    ∧ decodeControl 0b1110000_01010_00000000000000000_101 0b00000000000000000000000000000000 = some (.jbar 10 5)
    ∧ decodeControl 0xE2248000 0x0 = some (.viewreg 2 9)
    ∧ decodeControl 0xE4310000 0x0 = some (.viewdrop 3 2)
    ∧ decodeControl 0xE6310001 0x0 = some (.viewpol 3 2 1)
    ∧ decodeControl 0xE8428001 0x0 = some (.viewtag 4 5 1)
    ∧ decodeControl 0xEA428000 0x0 = some (.viewsync 4 5)
    ∧ decodeControl 0xEC052C00 0x27FFFFE = some (.lsched 0 10 11 9 127 127 127)
    ∧ decodeControl 0xEE060000 0x284FFFE = some (.lgo 0 12 10 9 127 127)
    ∧ decodeControl 0b1111000_01100_11101_000000000000_100 0b00000000000000000000000000000000 = some (.mstat 12 4 29) := by decide +kernel
/-- Encodings of R148. -/
theorem test_decode_lane_arithmetic :
    decodeLane 0b1000000_111100_0010010_0110000_10_01_0 0 = some (.vfadd 60 18 48 2 1 0)
    ∧ decodeLane 0b1000001_011000_1011101_0001101_11_01_1 0 = some (.vfsub 24 93 13 3 1 1)
    ∧ decodeLane 0b1000010_011010_1110001_1100101_00_00_1 0 = some (.vfmul 26 113 101 0 0 1)
    ∧ decodeLane 0b1000011_000011_1000100_1110100_10_00_1 0 = some (.vfmin 3 68 116 2 0 1)
    ∧ decodeLane 0b1000100_111010_1100100_1001000_10_10_0 0 = some (.vfmax 58 100 72 2 2 0)
    ∧ decodeLane 0x8A285980 0 = some (.viadd 5 5 76 0 0 0)
    ∧ decodeLane 0b1000110_001010_1011010_0111011_01_10_1 0 = some (.visub 10 90 59 1 2 1)
    ∧ decodeLane 0b1000111_000000_1110011_1100000_11_10_1 0 = some (.vimul 0 115 96 3 2 1)
    ∧ decodeLane 0b1001000_110101_1011100_0111011_11_11_1 0 = some (.vimin 53 92 59 3 3 1)
    ∧ decodeLane 0b1001001_110001_1111000_0101011_00_11_1 0 = some (.vimax 49 120 43 0 3 1)
    ∧ decodeLane 0b1001010_010011_0010101_0110100_00_00_0 0 = some (.vnmin 19 21 52 0 0 0)
    ∧ decodeLane 0b1001011_011100_0010111_0000010_11_10_0 0 = some (.vnmax 28 23 2 3 2 0)
    ∧ decodeLane 0b1001100_001100_1011000_0001001_10_10_1 0 = some (.vand 12 88 9 2 2 1)
    ∧ decodeLane 0b1001101_100100_1100100_1000011_11_00_1 0 = some (.vor 36 100 67 3 0 1)
    ∧ decodeLane 0b1001110_110111_0100000_0000010_10_00_0 0 = some (.vxor 55 32 2 2 0 0)
    ∧ decodeLane 0b1001111_011001_0111101_0011111_11_01_1 0 = some (.vshl 25 61 31 3 1 1)
    ∧ decodeLane 0b1010000_111010_0000001_1111000_11_00_0 0 = some (.vshr 58 1 120 3 0 0)
    ∧ decodeLane 0b1010001_001101_0011101_0101011_10_01_1 0 = some (.vsra 13 29 43 2 1 1) := by decide +kernel
/-- Encodings of R150-R162. -/
theorem test_decode_lane_moves :
    decodeLane 0b1010010_000110_1101101_0000000_10_01_0 0 = some (.vmov 6 109 2 1 0)
    ∧ decodeLane 0b1010010_010100_0110100_0000001_11_00_0 0 = some (.vmovScalar 20 52 3 0 0)
    ∧ decodeLane 0b1010010_110101_0111000_0000010_01_11_0 0 = some (.vmovScalarHigh 53 56 1 3 0)
    ∧ decodeLane 0xA6080902 0 = some (.vlid 1 72 0 1 0)
    ∧ decodeLane 0xA804E000 0 = some (.vwin 78 0 0)
    ∧ decodeLane 0xA804E020 0 = some (.vwinadd 78 0 0)
    ∧ decodeLane 0xAB47FFE0 0 = some (.vwait 40 127 127)
    ∧ decodeLane 0b1010110_0000000000000000000000000 0 = some (.vbend)
    ∧ decodeLane 0b1010111_0000000000000000000000000 0 = some (.vrgn)
    ∧ decodeLane 0b1011000_00000_011_101_111_000000_00_00_0 0 = some (.pand 3 5 7 0 0)
    ∧ decodeLane 0b1011000_00000_010_010_011_000000_01_01_0 0 = some (.por 2 2 3 1 0)
    ∧ decodeLane 0b1011000_00000_010_011_100_000000_10_00_1 0 = some (.pxor 2 3 4 0 1)
    ∧ decodeLane 0b1011000_00000_010_111_100_000000_11_11_0 0 = some (.pandn 2 7 4 3 0)
    ∧ decodeLane 0b1011001_10000110_000_111_00000000_10_1 0 = some (.pbal 134 0 7 2 1)
    ∧ decodeLane 0b1011010_00000_101_000_110_10100001_10_0 0 = some (.pset 5 6 161 2 0)
    ∧ decodeLane 0b1011011_01111000_100_011_00000000_01_1 0 = some (.ppopc 120 4 3 1 1)
    ∧ decodeLane 0b1011100_01011001_101_100_00000000_01_1 0 = some (.pfirst 89 5 4 1 1)
    ∧ decodeLane 0b1011101_00000000_001_100_01100011_11_1 0 = some (.pushp 1 4 99 3 1) := by decide +kernel
/-- Encodings of R158-R160, R212-R217. -/
theorem test_decode_lane_typed :
    decodeLane 0b1100000_100100_0101111_0011100_00_10_1 0b0000000_011_0_0111_000000000000_00100 = some (.valu 36 47 28 4 7 3 0 2 1)
    ∧ decodeLane 0b1100001_111100_1010000_1100010_00_10_0 0b0011101_001_1_0001_000000000000000_00 = some (.vfma 60 80 98 29 0 1 1 1 2 0)
    ∧ decodeLane 0xC4305000 0xC000081 = some (.vcvt 6 5 6 0 1 0 0 1 0 0 0 0)
    ∧ decodeLane 0xC60819A4 0x160004 = some (.vcmp 1 1 77 4 11 0 0 2 0)
    ∧ decodeLane 0b1100100_010001_1011000_0101010_00_01_1 0b0000000_100_1_00000000000000000_1_000 = some (.vsel 17 88 42 0 1 4 1 1 1)
    ∧ decodeLane 0xCA386000 0x3 = some (.vsfn 7 6 3 0 0 0 0)
    ∧ decodeLane 0xCC201000 0x160000 = some (.vred 4 1 0 0 11 0 0 0 0)
    ∧ decodeLane 0b1100111_000111_1111001_000000000_10_1 0b0000000_001_0_1011_000000000_000_0_1_101 = some (.vscan 7 121 5 1 0 11 1 0 2 1)
    ∧ decodeLane 0xD0305000 0x1001 = some (.vshfl 6 5 0 2 0 1 0 0 0 0) := by decide +kernel
/-- Encodings of R218-R224. -/
theorem test_decode_lane_units :
    decodeLane 0b1101001_001110_0111011_0010010_00_10_0 0b0000011_111_1_0111_0000000000000000_1 = some (.vperm 14 59 18 3 1 7 7 1 2 0)
    ∧ decodeLane 0b1101010_000100_0010101_1101001_00_10_1 0b1111101_000_1_0000000000000_1_0000000 = some (.vrotm 4 21 105 125 1 0 0 1 2 1)
    ∧ decodeLane 0b1101011_001111_0111101_0011001_00_00_0 0b1100000_001_1_0001_0000000000000_0010 = some (.vdot 15 61 25 96 1 2 1 1 0 0)
    ∧ decodeLane 0b1101100_010110_1111001_000000000_01_0 0b1110101_001_1_00000000_00000000_010_10 = some (.vmxq 22 121 117 0 2 2 1 1 1 0)
    ∧ decodeLane 0b1101101_011010_1010000_1011100_00_10_0 0b0000101_010_0_00000000000000000_0101 = some (.vbit 26 80 92 5 5 2 0 2 0)
    ∧ decodeLane 0b1101110_101011_1100110_0000000_00_00_1 0b0000000_010_0_0011_000000000_0_0010101 = some (.vbcast 43 102 0 0 21 3 2 0 0 1)
    ∧ decodeLane 0b1101111_000000_0011011_1100011_00_10_0 0b0000000_010_0_00000000_00000_00010010 = some (.vgetl 18 27 99 0 2 0 2 0) := by decide +kernel
/-- Encodings of R161, R225-R227. -/
theorem test_decode_lane_memory :
    decodeLane 0b1110000_100101_1101001_000000000_10_0 0b0000000_110_0_0000_0110_00000_00111100 = some (.vlds 37 105 60 6 6 0 2 0)
    ∧ decodeLane 0b1110001_000000_1010101_0001100_00_01_1 0b0000000_101_1_0000_1101_00000_10100100 = some (.vsts 85 12 164 13 5 1 1 1)
    ∧ decodeLane 0b1110010_001011_0101001_0110001_00_10_0 0b0000000_111_1_0111_1000_01001_00000000 = some (.vldg 11 41 49 9 7 8 7 1 2 0)
    ∧ decodeLane 0b1110011_000000_1000101_1011010_00_10_1 0b1111011_111_0_0111_0000_11101_00000000 = some (.vstg 69 90 123 29 7 0 7 0 2 1)
    ∧ decodeLane 0xE80CC000 0x200 = some (.vldu 1 76 2 0 0 0 0 0 0)
    ∧ decodeLane 0b1110101_000000_1111001_1001101_00_01_1 0b0000000_001_0_0000_1010_11011_01011110 = some (.vstu 121 77 27 94 10 1 0 1 1)
    ∧ decodeLane 0xEC002900 0xA8160409 = some (.vamo 0 2 72 84 4 0 0 9 11 0 0 0 0 0)
    ∧ decodeLane 0xEE4DC000 0x403 = some (.vldb 9 92 0 1 3 0 0 0 0 0)
    ∧ decodeLane 0b1111000_000000_1100111_0110011_00_11_0 0b0000000_011_0_0000_0011_00_0_00_11110011 = some (.vstb 103 51 0 0 243 3 3 0 3 0) := by decide +kernel


/-! ### Ill-formed terms, one for each check, that the slice's check refuses; beside each a neighbour that it takes. -/
/-- Register numbers (R16, R18, R20): g0-g31, s0-s191, and x = 0 on the lanes. -/
theorem smoke_registers : (Instr.add 32 0 0 0).wfControl = false ∧ (Instr.add 31 0 0 0).wfControl = true ∧ (Instr.add 0 32 0 0).wfControl = false
    ∧ (Instr.add 0 0 32 0).wfControl = false ∧ (Instr.add 192 0 0 0).wfLane = false ∧ (Instr.add 191 0 0 0).wfLane = true
    ∧ (Instr.add 0 0 0 1).wfLane = false ∧ (Instr.clz 0 0 1).wfLane = false ∧ (Instr.li 32 0).wfControl = false ∧ (Instr.lih 192 0).wfLane = false
    ∧ (Instr.pbal 192 0 0 0 0).wfLane = false ∧ (Instr.pset 1 0 192 0 0).wfLane = false ∧ (Instr.pushp 0 0 192 0 0).wfLane = false
    ∧ (Instr.fqry 32 0).wfControl = false ∧ (Instr.fqry 191 0).wfLane = true := by decide +kernel
/-- Field widths (R14). -/
theorem smoke_widths : (Instr.addi 0 0 512).wfControl = false ∧ (Instr.li 0 131072).wfControl = false ∧ (Instr.lih 0 65536).wfControl = false
    ∧ (Instr.j 33554432).wfControl = false ∧ (Instr.fence 65536).wfControl = false ∧ (Instr.lix 0 4294967296).wfControl = false
    ∧ (Instr.ldd 0 0 16 0).wfControl = false ∧ (Instr.stb 0 0 0 2048).wfControl = false ∧ (Instr.vfadd 64 0 0 0 0 0).wfLane = false
    ∧ (Instr.vfadd 63 127 128 0 0 0).wfLane = false ∧ (Instr.vfadd 0 0 0 4 0 0).wfLane = false ∧ (Instr.trap 64).wfControl = false := by decide +kernel
/-- A slice's words are not the other's (R15, R18, R20). -/
theorem smoke_slices : (Instr.divs 0 0 0 0).wfLane = false ∧ (Instr.beq 0 0 0).wfLane = false ∧ (Instr.ldd 0 0 0 0).wfLane = false
    ∧ (Instr.vfadd 0 0 0 0 0 0).wfControl = false ∧ Instr.vbend.wfControl = false ∧ (Instr.blockRetire 0).wfControl = false
    ∧ (Instr.blockRetire 0).wfLane = false ∧ Instr.nop.wfEvent = false ∧ Instr.nop.wf = true := by decide +kernel
/-- Shift amounts (R40), loops (R49): an empty body, a lane mode on the control core, a mode without its predicate or with too great a p. -/
theorem smoke_shifts_and_loops : (Instr.shli 0 0 64).wfControl = false ∧ (Instr.shli 0 0 63).wfControl = true ∧ (Instr.srai 0 0 32).wfLane = false
    ∧ (Instr.loop 0 0 0 0 0).wfControl = false ∧ (Instr.loop 0 1 0 0 0).wfControl = true ∧ (Instr.loopi 0 1 0 1 1).wfControl = false
    ∧ (Instr.loopi 0 1 0 1 1).wfLane = true ∧ (Instr.loopi 0 1 0 1 0).wfLane = false ∧ (Instr.loop 0 1 0 2 5).wfLane = false
    ∧ (Instr.loopi 0 1 0 0 1).wfLane = false ∧ (Instr.loop 0 1 4 0 0).wfControl = false := by decide +kernel
/-- CSR numbers (R68, R69), scopes (R60), atomics (R65, R66), WAITM conditions (R61), XLT's permissions (R109). -/
theorem smoke_csr_and_memory : (Instr.csrr 0 10).wfControl = false ∧ (Instr.csrr 0 0x25).wfControl = true ∧ (Instr.csrw 0 0 0).wfControl = false
    ∧ (Instr.csrs 0 0 0x26).wfControl = false ∧ (Instr.csrc 0 0 3).wfControl = true ∧ (Instr.lda 0 0 0 3 0 0).wfControl = false
    ∧ (Instr.strel 0 0 0 3 0 0).wfControl = false ∧ (Instr.amo 0 0 0 0 0 0 9).wfControl = false ∧ (Instr.amo 0 0 0 0 1 0 0).wfControl = false
    ∧ (Instr.cas 0 0 0 0 1 0 0).wfControl = false ∧ (Instr.waitm 0 0 0 0 0 7).wfControl = false ∧ (Instr.xlt 0 0 4).wfControl = false
    ∧ (Instr.xlt 0 0 7).wfControl = true ∧ (Instr.shld 16 0 0).wfControl = false ∧ (Instr.shset 0 0 14).wfControl = false
    ∧ (Instr.shget 0 0 14).wfControl = false ∧ (Instr.bseq 0 3).wfControl = false := by decide +kernel
/-- Token blocks (R19): a wait of 64 to 126, a command that waits for its own token, a token over 63; blocks' register pairs and tokens (R136). -/
theorem smoke_tokens : (Instr.cpy 0 0 0 7 64 127 127).wfControl = false ∧ (Instr.cpy 0 0 0 7 7 127 127).wfControl = false
    ∧ (Instr.cpy 0 0 0 7 6 127 126).wfControl = false ∧ (Instr.mgo 64 127 127 127).wfControl = false ∧ (Instr.mgo 63 127 127 127).wfControl = true
    ∧ (Instr.emit 0 0 1 0 0 127).wfControl = false ∧ (Instr.emit 0 0 2 0 0 64).wfControl = false ∧ (Instr.split 0 0 1 0 0 0 127 0).wfControl = false := by
  decide +kernel
/-- Nests, rings, codebooks, views (R283-R289, R297-R301). -/
theorem smoke_engines : (Instr.mnsetLvl 6 0 0).wfControl = false ∧ (Instr.mnsetBase 0 8 0).wfControl = false ∧ (Instr.mnsetBase 0 15 15).wfControl = true
    ∧ (Instr.mnsetBase 0 0 14).wfControl = false ∧ (Instr.rwait 0 0 3).wfControl = false ∧ (Instr.cbld 4 0 0 0 127 127 127).wfControl = false
    ∧ (Instr.jbar 0 0).wfControl = false ∧ (Instr.jbar 0 7).wfControl = true ∧ (Instr.viewpol 0 0 3).wfControl = false
    ∧ (Instr.viewtag 0 0 3).wfControl = false ∧ (Instr.mstat 0 6 0).wfControl = false ∧ (Instr.mstat 0 2 1).wfControl = false
    ∧ (Instr.mstat 0 3 1).wfControl = true := by decide +kernel
/-- Lane words: windows, waits, predicates (R150-R156), p0 as a destination. -/
theorem smoke_lane_words : (Instr.vwin 71 0 0).wfLane = false ∧ (Instr.vwin 72 0 0).wfLane = true ∧ (Instr.vwinadd 0 0 0).wfLane = false
    ∧ (Instr.vwait 0 64 127).wfLane = false ∧ (Instr.vwait 0 127 126).wfLane = false ∧ (Instr.vmovScalarHigh 0 64 0 0 0).wfLane = false
    ∧ (Instr.pand 0 1 1 0 0).wfLane = false ∧ (Instr.pset 0 1 1 0 0).wfLane = false ∧ (Instr.vcmp 0 0 0 0 0 0 0 0 0).wfLane = false := by
  decide +kernel
/-- Typed operations (R211-R225): each combination check. -/
theorem smoke_typed : (Instr.valu 0 0 0 0 3 0 0 0 0).wfLane = false ∧ (Instr.valu 0 0 0 7 0 0 0 0 0).wfLane = false ∧ (Instr.valu 0 0 1 5 7 0 0 0 0).wfLane = false
    ∧ (Instr.valu 0 0 0 12 7 0 0 0 0).wfLane = false ∧ (Instr.vfma 0 0 0 0 0 3 0 0 0 0).wfLane = false
    ∧ (Instr.vcvt 0 0 1 1 0 0 0 0 0 0 0 0).wfLane = false ∧ (Instr.vcvt 0 0 0 0 1 0 0 2 0 0 0 0).wfLane = false
    ∧ (Instr.vcvt 0 0 0 13 0 0 0 0 0 0 0 0).wfLane = false ∧ (Instr.vcmp 1 0 0 7 0 0 0 0 0).wfLane = false ∧ (Instr.vcmp 1 0 0 6 11 0 0 0 0).wfLane = false
    ∧ (Instr.vcmp 1 0 0 0 1 0 0 0 0).wfLane = false ∧ (Instr.vred 0 0 3 0 0 0 0 0 0).wfLane = false ∧ (Instr.vred 0 0 0 5 0 0 0 0 0).wfLane = false
    ∧ (Instr.vscan 0 0 6 0 0 7 0 0 0 0).wfLane = false ∧ (Instr.vshfl 0 0 0 0 0 1 0 0 0 0).wfLane = false ∧ (Instr.vshfl 0 0 1 1 0 0 0 0 0 0).wfLane = false
    ∧ (Instr.vshfl 0 0 0 3 3 4 0 0 0 0).wfLane = false ∧ (Instr.vshfl 0 0 0 3 3 3 0 0 0 0).wfLane = true := by decide +kernel
theorem smoke_units : (Instr.vperm 0 0 0 0 0 5 0 0 0 0).wfLane = false ∧ (Instr.vperm 0 0 0 1 0 0 0 0 0 0).wfLane = false
    ∧ (Instr.vrotm 0 0 0 1 0 0 0 0 0 0).wfLane = false ∧ (Instr.vrotm 0 0 0 71 1 0 0 0 0 0).wfLane = false ∧ (Instr.vdot 0 0 0 0 1 3 0 0 0 0).wfLane = false
    ∧ (Instr.vmxq 0 0 0 192 0 2 0 0 0 0).wfLane = false ∧ (Instr.vmxq 0 0 0 0 4 1 0 0 0 0).wfLane = false ∧ (Instr.vmxq 0 0 0 0 0 3 0 0 0 0).wfLane = false
    ∧ (Instr.vbit 0 0 1 0 0 0 0 0 0).wfLane = false ∧ (Instr.vbit 0 0 0 1 4 0 0 0 0).wfLane = false ∧ (Instr.vbit 0 0 0 0 7 0 0 0 0).wfLane = false
    ∧ (Instr.vbcast 0 0 1 0 0 0 0 0 0 0).wfLane = false ∧ (Instr.vbcast 0 0 72 1 1 0 0 0 0 0).wfLane = false ∧ (Instr.vgetl 0 0 1 0 0 0 0 0).wfLane = false
    ∧ (Instr.vgetl 192 0 0 0 0 0 0 0).wfLane = false ∧ (Instr.vlds 0 71 0 0 0 0 0 0).wfLane = false ∧ (Instr.vldg 0 0 0 0 1 0 0 0 0 0).wfLane = false
    ∧ (Instr.vstg 0 0 0 0 13 0 0 0 0 0).wfLane = false ∧ (Instr.vldb 0 72 3 0 0 0 0 0 0 0).wfLane = false ∧ (Instr.vldb 0 72 2 1 0 0 0 0 0 0).wfLane = false
    ∧ (Instr.vstb 72 0 1 0 0 0 0 0 0 0).wfLane = false ∧ (Instr.vamo 0 0 0 0 0 0 0 11 11 0 0 0 0 0).wfLane = false
    ∧ (Instr.vamo 0 0 0 0 0 1 0 0 11 0 0 0 0 0).wfLane = false ∧ (Instr.vamo 0 0 0 0 0 0 0 10 11 0 0 0 0 0).wfLane = false
    ∧ (Instr.vamo 1 0 0 0 0 0 0 9 11 0 0 0 0 0).wfLane = false := by decide +kernel
/-- Plaza, context, lane group, die, link and port numbers of the steps that name them. -/
theorem smoke_events : (Instr.conditionMet 192 0).wfEvent = false ∧ (Instr.conditionMet 0 6).wfEvent = false ∧ (Instr.conditionMet 191 5).wfEvent = true
    ∧ (Instr.regionMarker 0 32).wfEvent = false ∧ (Instr.scheduleStep 8 0).wfEvent = false ∧ (Instr.scheduleStep 7 4).wfEvent = false
    ∧ (Instr.viewDerivation 64).wfEvent = false ∧ (Instr.linkDown 24).wfEvent = false ∧ (Instr.bar2Read 2 0 0).wfEvent = false
    ∧ (Instr.diepwrWrite 8 ⟨0, 0⟩).wfEvent = false ∧ (Instr.keyLoad 64 0 0).wfEvent = false ∧ (Instr.secondTierPortDown 16).wfEvent = false
    ∧ (Instr.securityAlarm 16).wfEvent = false ∧ (Instr.handleRefresh 0 32).wfEvent = false := by decide +kernel

/-! ### Single steps on small states; each expected value is the spec's own, or worked by hand from the rule cited. -/
/-- The module after one step of context 0 on the word at 0x100, with g7 as given. -/
def ran (w g7 : Nat) : State := after (step { (fetching w).modCtx 0 0 fun x => { x with g := (7, BitVec.ofNat 64 g7) :: x.g } with agenda := [.control 0 0] })
/-- R41's table. -/
theorem test_li : (ran 0x4E0EABCD 0).g 0 0 7 = 0xABCD ∧ (ran 0x4E0FFFFF 0).g 0 0 7 = 0xFFFFFFFFFFFFFFFF ∧ ((ran 0x4E0EABCD 0).ctx 0 0).pc = 0x104 := by
  decide +kernel
theorem test_lih : (ran 0x500E1234 0xABCD).g 0 0 7 = 0x1234ABCD ∧ (ran 0x500E8000 0xFFFFFFFFFFFFFFFF).g 0 0 7 = 0xFFFFFFFF8000FFFF := by decide +kernel
/-- R67's words: g7 is then 0x000000FF12345678; a word of two is passed whole. -/
theorem test_lix : (ran 0x12345678C0700000 0).g 0 0 7 = 0x12345678 ∧ (ran 0xFFC0700001 0x12345678).g 0 0 7 = 0x000000FF12345678
    ∧ ((ran 0xFFC0700001 0).ctx 0 0).pc = 0x108 := by decide +kernel
/-- R42: `bne g1, g0, -3 words`: g1 = 0x200, so the branch from 0x100 goes to 0xF4. -/
theorem test_bne : ((ran 0x540201FD 0).ctx 0 0).pc = 0xF4 := by decide +kernel
/-- R38: g2 + g3 = 7 + (-2); the 32-bit form sign-extends: 7 - (-2 ^ 31 in 32 bits) = 0x80000007. -/
theorem test_add : (after (exec (.add 5 2 3 0) (ctl 0))).g 0 0 5 = 5 ∧ (after (exec (.add 0 2 3 0) (ctl 0))).g 0 0 0 = 0 := by decide +kernel
theorem test_sub_32 : (after (exec (.sub 7 2 7 1) ((ctl 0).modCtx 0 0 fun x => { x with g := (7, 0x80000000) :: x.g }))).g 0 0 7 = 0xFFFFFFFF80000007 := by
  decide +kernel
/-- R39: a quotient by 0 is all ones and the remainder the dividend; -2 / 7 truncates to 0 with remainder -2. -/
theorem test_divs : (after (exec (.divs 5 2 0 0) (ctl 0))).g 0 0 5 = 0xFFFFFFFFFFFFFFFF ∧ (after (exec (.rems 5 3 2 0) (ctl 0))).g 0 0 5 = 0xFFFFFFFFFFFFFFFE := by
  decide +kernel
/-- R58: the line at 0x200 holds the bytes 1, 2, ... 8, least significant first. -/
theorem test_ldd : (after (exec (.ldd 5 1 0 0) (ctl 0))).g 0 0 5 = 0x0807060504030201 ∧ (after (exec (.ldh 5 1 0 1) (ctl 0))).g 0 0 5 = 0x0403 := by decide +kernel
/-- R58: a byte stored at 0x201 sits beside its neighbours; the load extends it with its sign. -/
theorem test_stb : let t := after (exec (.stb 3 1 0 1) (ctl 0))
    (after (exec (.ldd 5 1 0 0) t)).g 0 0 5 = 0x080706050403FE01 ∧ (after (exec (.ldb 5 1 0 1) t)).g 0 0 5 = 0xFFFFFFFFFFFFFFFE := by decide +kernel
/-- R57, R92: a doubleword at 0x201 is MISALIGNED (code 3): no register is written and the context is TRAPPED. -/
theorem test_misaligned : let t := after (exec (.ldd 5 4 0 0) ((ctl 0).modCtx 0 0 fun x => { x with g := (4, 0x201) :: x.g }))
    (t.ctx 0 0).state = .trapped ∧ t.g 0 0 5 = 0 ∧ (t.ctx 0 0).pc = 0x100 := by decide +kernel
/-- R14: the word 0 is ILLEGAL. -/
theorem test_illegal : ((ran 0 0).ctx 0 0).state = .trapped := by decide +kernel
/-- R148: lanes 0 to 3 of v1 hold 1 to 4; added to s1 = 7 they give 8 to 11. Under p1 the even lanes alone are written. -/
def result (i : Instr) : Option Result := ((after (exec i lan)).lane 0 0).results.getLast?
theorem test_viadd : (result (.viadd 2 1 73 0 0 0)).map (fun r => (r.dest, r.data.toNat % 2 ^ 128, r.mask)) = some (.row 2, 0x0000000B0000000A0000000900000008, 0xFFFFFFFF)
    ∧ (result (.viadd 2 1 73 1 0 0)).map (fun r => r.mask) = some 0x55555555 := by decide +kernel
/-- R148: 2.0 + 1.5 = 3.5, 2.0 × 1.5 = 3.0, and 2 ^ 24 + 1 rounds to 2 ^ 24 (to even). -/
def floats (a b : W32) : State := lan.modLane 0 0 fun x => { x with s := [(1, a), (2, b)] }
def lane0 (i : Instr) (s : State) : Option W32 := ((after (exec i s)).lane 0 0).results.getLast?.map fun r => r.data.setWidth 32
theorem test_vfadd : lane0 (.vfadd 2 73 74 0 0 0) (floats 0x40000000 0x3FC00000) = some 0x40600000
    ∧ lane0 (.vfadd 2 73 74 0 0 0) (floats 0x4B800000 0x3F800000) = some 0x4B800000 := by decide +kernel
/-- R148, R202: infinity minus infinity is the canonical NaN; -0 times 2 is -0. -/
theorem test_vfsub_vfmul : lane0 (.vfsub 2 73 74 0 0 0) (floats 0x7F800000 0x7F800000) = some 0x7FC00000
    ∧ lane0 (.vfmul 2 73 74 0 0 0) (floats 0x80000000 0x40000000) = some 0x80000000
    ∧ lane0 (.vfmul 2 73 74 0 0 0) (floats 0x40000000 0x3FC00000) = some 0x40400000 := by decide +kernel
/-- R158: a NaN makes lt false and ne true; -0 equals +0. -/
def cmp0 (c : Nat) (a b : W32) : Option Bool := ((after (exec (.vcmp 1 73 74 c 0 0 0 0 0) (floats a b))).lane 0 0).results.getLast?.map fun r => r.data.toNat.testBit 0
theorem test_vcmp : cmp0 2 0x7FC00000 0x3F800000 = some false ∧ cmp0 1 0x7FC00000 0x3F800000 = some true ∧ cmp0 0 0x80000000 0 = some true
    ∧ cmp0 4 0x40000000 0x3F800000 = some true := by decide +kernel
/-- R160: `vshfl v6, v1, down, 1`: lane 0 gets lane 1's word; xor 2: lane 0 gets lane 2's. -/
theorem test_vshfl : lane0 (.vshfl 6 1 0 2 0 1 0 0 0 0) lan = some 2 ∧ lane0 (.vshfl 6 1 0 3 0 2 0 0 0 0) lan = some 3 := by decide +kernel
/-- R212, R211: lane 0's bytes 1, 0, 0, 0 as I8; a scalar gives every element its low byte: ADDS 0x7F saturates, SUBS 0x7F gives 0x82, 0x81. -/
theorem test_valu : lane0 (.valu 2 1 73 7 7 0 0 0 0) (floats 0xAB7F 0) = some 0x7F7F7F7F ∧ lane0 (.valu 2 1 73 8 7 0 0 0 0) (floats 0xAB7F 0) = some 0x81818182 := by
  decide +kernel
/-- R216: the sum of v1's segment of 32 lanes as I32: 1 + 2 + 3 + 4. -/
theorem test_vred : lane0 (.vred 4 1 0 0 11 0 0 0 0) lan = some 10 := by decide +kernel
/-- R370, R82: a step before start-up starts the module; context 5 of a die's plaza 0 then runs. -/
theorem test_start_up : (after (step { State.reset with agenda := [.boot] })).dev.phase = .up
    ∧ ((after (step { State.reset with agenda := [.boot] })).ctx 24 5).state = .running := by decide +kernel
/-- R236, R360, R368: AGESTEP, an unlisted offset and IDENT of a module that has started, a misaligned access, one of 4 bytes, and one before the
port is up; R371's check is the
CRC-32 whose check value for the ASCII digits 1 to 9 is 0xCBF43926. -/
theorem test_management_window : let s := after (step { State.reset with agenda := [.boot] })
    s.readRegister 0 0x2000 8 = some 2000 ∧ s.readRegister 1 0x2028 8 = some 0 ∧ s.readRegister 0 0 8 = some 0x094000A000000000
    ∧ s.readRegister 0 4 8 = none ∧ s.readRegister 0 0 4 = none ∧ State.reset.readRegister 0 0x2000 8 = none
    ∧ crc32 [0x31, 0x32, 0x33, 0x34, 0x35, 0x36, 0x37, 0x38, 0x39] = 0xCBF43926 := by decide +kernel
/-- Lane group 0 with level 1 active in mode m beside the one a LOOP starts, the body's word at 0x104 being w. -/
def looping (m w : Nat) : State := { lan.modLane 0 0 (fun x => { x with levels := [(1, ⟨true, 0x40, 0x80, 3, m, 1, 0⟩)] }) with
  mem := memWrite [] 0x104 4 w }
/-- The words of a body of one word, with nothing changed, and whether they raise ILLEGAL. -/
def laneBody (s : State) : Option Bool := match readWords (fun va u => u.laneWord 0 0 va) 1 0x104 s with
  | .ok (.inr ws) t => if t.lane 0 0 = s.lane 0 0 then some (badBody true ws) else none
  | _ => none
/-- Both sides of the conflict of stage levels, a body that raises ILLEGAL and one that does not. -/
theorem wit_LaneLoops : (looping 2 0).scalarReady 0 0 1 ∧ (looping 2 0).cur.agent = .lane 0 0
    ∧ (levelOf ((looping 2 0).lane 0 0).levels 1).active = true ∧ 2 ≤ (levelOf ((looping 2 0).lane 0 0).levels 1).mode
    ∧ (∀ m ∈ [0, 1], ∀ w ∈ [0, 0x80000001], ¬∃ j, j < 4 ∧ j ≠ 2 ∧ (levelOf ((looping m w).lane 0 0).levels j).active = true
      ∧ 2 ≤ (levelOf ((looping m w).lane 0 0).levels j).mode)
    ∧ laneBody (looping 0 0) = some false ∧ laneBody (looping 1 0x80000001) = some true
    ∧ ∀ j, j < 4 → j ≠ 2 → (levelOf ((looping 0 0).lane 0 0).levels j).active = true →
        (levelOf ((looping 0 0).lane 0 0).levels j).last ≠ ((looping 0 0).lane 0 0).pc := by
  unfold State.scalarReady; decide +kernel
/-- Lane group 0 at the last word of level 2's body, with n iterations left in mode m; level 1 ends there too, where o says so. -/
def lastWord (n m : Nat) (o : Bool) : State := lan.modLane 0 0 fun x =>
  { x with levels := [(2, ⟨true, 0xF0, 0x100, n, m, 1, 0⟩), (1, ⟨o, 0xE0, 0x100, 2, 0, 0, 0⟩)] }
theorem wit_LaneLoopEnds : (∀ n ∈ [1, 2], ∀ m ∈ [0, 1, 2, 3], ∀ o ∈ [false, true], let x := (lastWord n m o).lane 0 0
      (lastWord n m o).cur.agent = .lane 0 0 ∧ (levelOf x.levels 2).active = true ∧ (levelOf x.levels 2).last = x.pc
      ∧ (levelOf x.levels 2).remaining = n ∧ ∀ j, j < 4 → 2 < j → (levelOf x.levels j).active = false)
    ∧ (levelOf ((lastWord 1 0 true).lane 0 0).levels 1).active = true ∧ (levelOf ((lastWord 1 0 true).lane 0 0).levels 1).last = 0x100
    ∧ 1 < (levelOf ((lastWord 1 0 true).lane 0 0).levels 1).remaining ∧ (levelOf ((lastWord 1 0 true).lane 0 0).levels 0).active = false
    ∧ (∀ j, j < 2 → (levelOf ((lastWord 1 0 false).lane 0 0).levels j).active = false) := by decide +kernel
/-- A lane group with a store of class c still to perform and a FENCE's mask in force, about to move. -/
def fencing (c : Nat) : State := { storing.modLane 0 0 (fun x => { x with fence := 2, stores := x.stores.map fun st => { st with cls := c } }) with
  agenda := [.lane 0 0] }
theorem wit_FenceHolds : (fencing 1).dev.phase = .up ∧ ((fencing 1).lane 0 0).stores ≠ []
    ∧ (((fencing 1).lane 0 0).stores.any fun st => ((fencing 1).lane 0 0).fence.testBit st.cls) = true
    ∧ ∀ st ∈ ((fencing 0).lane 0 0).stores, ((fencing 0).lane 0 0).fence.testBit st.cls = false := by decide +kernel
theorem wit_HostReads : quiet.dev.host.portUp.getD 0 false = true ∧ lab.dev.host.portUp.getD 0 false = false
    ∧ keyed.dev.host.portUp.getD 0 false = true := by decide +kernel
theorem wit_StepKeepsMemory : memWf (looping 0 5).mem = true ∧ (looping 0 5).memOk
    ∧ goes (step { looping 0 5 with agenda := [.lane 0 0] }) = true := by unfold State.memOk; decide +kernel
theorem wit_FloatFormats : (∃ f ∈ floatTable, f.top < 2 ^ (1 + f.eb + f.mb)) ∧ (∃ f ∈ floatTable, (f.inf).isSome = true)
    ∧ ∃ f ∈ floatTable, f.top + 2 < 2 ^ (f.eb + f.mb) ∧ f.inf ≠ some (f.top + 2) := by decide +kernel
theorem wit_Conversions : (typeFmt 0).isSome = true ∧ (∃ r ∈ intTypes, r.2.2.1 < 0 ∧ 255 < 2 ^ r.2.1) ∧ (2 ^ 3 ≤ 12 ∧ 12 < 2 ^ 4) := by decide
/-- 1, 2, NaN, +0 and -0 in FP32. -/
theorem wit_TypedElements : (decodeF fp32 0x7FC00000).isNan = true ∧ (decodeF fp32 0x3F800000).isNan = false
    ∧ (decodeF fp32 0x3F800000).lt (decodeF fp32 0x40000000) = true ∧ (decodeF fp32 0).isZero = true ∧ (decodeF fp32 0x80000000).isZero = true := by decide
theorem wit_ConvertedWords : typeWidth 1 ≤ typeWidth 0 ∧ (1 + 1) * typeWidth 1 ≤ typeWidth 0 ∧ typeWidth 3 < typeWidth 0
    ∧ (3 + 1) * typeWidth 3 ≤ typeWidth 0 := by decide
/-- NaN, -1, 128, 3/2 and 1/2 meet the hypotheses of the special functions. -/
theorem wit_SpecialFunctions : f32 0x7FC00000 = .nan ∧ (f32 0xBF800000).isNan = false ∧ (f32 0xBF800000).isZero = false
    ∧ f32 0x43000000 = .fin false (2 ^ 23) (-16) ∧ 128 * 2 ^ 16 ≤ 2 ^ 23 ∧ 2 ^ 23 % 2 ^ 16 = 0
    ∧ f32 0x3F800000 = .fin false (2 ^ 23) (-23) ∧ f32 0x3FC00000 = .fin false (3 * 2 ^ 22) (-23) ∧ 2 * (3 * 2 ^ 22) % 2 ^ 23 = 0
    ∧ (3 * 2 ^ 22) % 2 ^ 23 ≠ 0 := by decide +kernel
theorem wit_TreesAndScans : (∀ t ∈ [0, 1, 2, 7, 8, 9, 10, 11, 12], arithType t = true) ∧ (typeFmt 1).isSome = true ∧ [none, some (3 : W32)].length = 2 ^ (0 + 1)
    ∧ ∃ r ∈ intTypes, r.1 = 7 := by decide
/-- A group of NaN, one of zeros, and one of 1 and 6, whose largest exponent is 2. -/
theorem wit_MxGroups : (∃ v ∈ [Val.nan], v = .nan) ∧ (∀ v ∈ [Val.fin true 0 3], ∃ n e, v = .fin n 0 e)
    ∧ (Nat.log2 6 : Int) + 0 = 2 ∧ (Nat.log2 1 : Int) + 0 ≤ 2 ∧ max ((2 : Int) - 8) (-127) ≤ 127 := by
  refine ⟨⟨_, List.mem_singleton.mpr rfl, rfl⟩, fun v hv => ⟨true, 3, by simpa using hv⟩, ?_⟩; decide

end Sys2Proof.Tests
end

section
/-! What the byte memory holds after a wide or a masked write, and that a memory in canonical form is determined by its bytes. -/
namespace Sys2Proof.Machine

/-- A write of n bytes changes its own range only. -/
theorem memByte_memWrite (n : Nat) (m : List Host.Cell) (a v c : Nat) :
    memByte (memWrite m a n v) c = if a ≤ c ∧ c < a + n then BitVec.ofNat 8 (v / 2 ^ (8 * (c - a))) else memByte m c := by
  induction n generalizing m a v with
  | zero => rw [if_neg (by omega)]; rfl
  | succ n ih =>
    rw [memWrite, ih, memByte_memPut]
    by_cases hc : c = a
    · subst hc
      rw [if_neg (by omega), if_pos rfl, if_pos (by omega)]
      simp
    · rw [if_neg hc]
      by_cases hin : a + 1 ≤ c ∧ c < a + 1 + n
      · have he : 8 * (c - a) = 8 + 8 * (c - (a + 1)) := by omega
        rw [if_pos hin, if_pos (by omega), Nat.div_div_eq_div_mul, he, Nat.pow_add]
      · rw [if_neg hin, if_neg (by omega)]

theorem memRead_memWrite (n : Nat) (m : List Host.Cell) (a v : Nat) : memRead (memWrite m a n v) a n = v % 2 ^ (8 * n) := by
  induction n generalizing m a v with
  | zero => simp [memRead, Nat.mod_one]
  | succ n ih =>
    have hb : (memByte (memWrite m a (n + 1) v) a).toNat = v % 256 := by
      rw [memByte_memWrite, if_pos (by omega)]; simp
    rw [memRead, hb, memWrite, ih, show 8 * (n + 1) = 8 + 8 * n by omega, Nat.pow_add, Nat.mod_mul]

/-- One lane of a masked write: its byte is the data's where the mask has the lane, and every other byte stays. -/
theorem memByte_ite_memPut (m : List Host.Cell) (line i : Nat) (hi : i < 128) (on : Bool) (b : Byte) (c : Nat) :
    memByte (if on then memPut m (line * 128 + i) b else m) c =
      if c / 128 = line ∧ c % 128 = i ∧ on = true then b else memByte m c := by
  have hc : c = line * 128 + i ↔ c / 128 = line ∧ c % 128 = i := by omega
  cases on
  · simp
  · simp [memByte_memPut, hc]

/-- The lanes of a masked write, taken one after another: each writes its own byte. -/
theorem memByte_foldl_memPut (line : Nat) (mask : BitVec 128) (data : Row) (is : List Nat) (hi : ∀ i ∈ is, i < 128) (m : List Host.Cell)
    (c : Nat) :
    memByte (is.foldl (fun acc i => if mask.getLsbD i then memPut acc (line * 128 + i) (data.extractLsb' (8 * i) 8) else acc) m) c =
      if c / 128 = line ∧ c % 128 ∈ is ∧ mask.getLsbD (c % 128) = true then data.extractLsb' (8 * (c % 128)) 8 else memByte m c := by
  induction is generalizing m with
  | nil => simp
  | cons i is ih =>
    rw [List.foldl_cons, ih fun j hj => hi j (List.mem_cons_of_mem i hj), memByte_ite_memPut _ _ _ (hi i List.mem_cons_self)]
    by_cases hc : c % 128 = i
    · subst hc
      by_cases hon : c / 128 = line ∧ mask.getLsbD (c % 128) = true
      · simp only [hon, List.mem_cons_self, true_and, and_self, if_true, ite_self]
      · rw [if_neg fun h => hon ⟨h.1, h.2.2⟩, if_neg fun h => hon ⟨h.1, h.2.2⟩, if_neg fun h => hon ⟨h.1, h.2.2⟩]
    · rw [if_neg fun h : c / 128 = line ∧ c % 128 = i ∧ mask.getLsbD i = true => hc h.2.1]
      simp only [List.mem_cons, hc, false_or]

theorem memByte_memPutRow (m : List Host.Cell) (line : Nat) (mask : BitVec 128) (data : Row) (c : Nat) :
    memByte (memPutRow m line mask data) c =
      if c / 128 = line ∧ mask.getLsbD (c % 128) = true then data.extractLsb' (8 * (c % 128)) 8 else memByte m c := by
  rw [memPutRow, memByte_foldl_memPut _ _ _ _ fun i => List.mem_range.mp]
  simp only [List.mem_range, Nat.mod_lt c (by omega : 0 < 128), true_and]

/-- A memory in canonical form lists exactly the bytes that do not read as unlisted ones. -/
theorem mem_iff_memByte {m : List Host.Cell} (h : memWf m = true) (x : Host.Cell) : x ∈ m ↔ memByte m x.1 = x.2 ∧ x.2 ≠ emptyByte := by
  rw [memWf_iff] at h
  obtain ⟨hrise, hne⟩ := h
  induction m with
  | nil => simpa [memByte, tabGet] using fun e => e.symm
  | cons y m ih =>
    obtain ⟨j, b⟩ := y
    obtain ⟨hj, hrise⟩ := List.pairwise_cons.mp hrise
    have hm := ih hrise fun z hz => hne z (List.mem_cons_of_mem _ hz)
    rw [List.mem_cons, memByte, tabGet]
    by_cases he : j = x.1
    · have hx : x ∉ m := fun hx => absurd (hj x.1 (List.mem_map_of_mem hx)) (by simp [he])
      rw [if_pos he]
      constructor
      · rintro (rfl | hx')
        · exact ⟨rfl, hne _ List.mem_cons_self⟩
        · exact absurd hx' hx
      · rintro ⟨hb, -⟩
        exact .inl (Prod.ext he.symm hb.symm)
    · rw [if_neg he, ← memByte, ← hm]
      exact or_iff_right fun e => he (congrArg Prod.fst e).symm

/-- A memory in canonical form is determined by its bytes. -/
theorem mem_ext_of_memWf {m m' : List Host.Cell} (h : memWf m = true) (h' : memWf m' = true) (hb : ∀ a, memByte m a = memByte m' a) :
    m = m' := by
  have rise : ∀ {n : List Host.Cell}, memWf n = true → n.Pairwise fun x y => x.1 < y.1 := fun hn =>
    List.pairwise_map.mp ((memWf_iff _).mp hn).1
  have nodup : ∀ {n : List Host.Cell}, memWf n = true → n.Nodup := fun hn => (rise hn).imp fun hlt e => absurd hlt (by simp [e])
  have perm : m.Perm m' := (List.perm_ext_iff_of_nodup (nodup h) (nodup h')).mpr fun x => by
    rw [mem_iff_memByte h, mem_iff_memByte h', hb]
  exact perm.eq_of_pairwise (fun x y _ _ hxy hyx => absurd hxy hyx.asymm) (rise h) (rise h')

/-- Settles O54: what a byte, a little-endian and a masked write leave at each key, the canonical form that every write keeps, and that the
form determines the memory. -/
theorem memoryLaws : Obligations.MemoryLaws := fun m =>
  ⟨memByte_memPut m, fun a n v => memRead_memWrite n m a v, fun a n v c => memByte_memWrite n m a v c, memByte_memPutRow m,
    fun h a b n v xs line mask data =>
      ⟨memWf_memPut m a b h, memWf_memWrite n m a v h, memWf_memPutBytes xs m a h, memWf_memPutRow m line mask data h⟩,
    fun _ => mem_ext_of_memWf⟩

end Sys2Proof.Machine
end

section
/-! Where a context's instruction begins and how it completes (R37, R46, R118): what its completion keeps of the placement. -/
namespace Sys2Proof.Machine

theorem onContext_control {s : State} {legal : List Nat} {f : Nat → Nat → Out} {p c : Nat} (ha : s.cur.agent = .control p c) (hc : c ∈ legal) :
    onContext s legal f = f p c := by
  simp [onContext, ha, hc]

theorem mem_jobCtx {c : Nat} (h : c < 5) : c ∈ jobCtx := by
  simp only [jobCtx, List.mem_cons, List.not_mem_nil, or_false]; omega

/-- Contexts 0 to 4 live in the placement, whose other fields a change of one of them keeps. -/
theorem place_modCtx {s : State} {p c : Nat} {f : Ctx → Ctx} (hc : c ≠ 5) :
    (s.modCtx p c f).place p = { s.place p with ctx := tabSet (s.place p).ctx c (f (s.ctx p c)) } := by
  simp [State.modCtx, hc, State.ctx]
theorem token_modCtx (s : State) (p c k : Nat) (f : Ctx → Ctx) : (s.modCtx p c f).token p k = s.token p k := by
  by_cases hc : c = 5
  · simp [State.token, State.place, State.modCtx, hc]
  · simp [State.token, place_modCtx hc]
theorem shape_modCtx (s : State) (p c n : Nat) (f : Ctx → Ctx) : (s.modCtx p c f).shape p n = s.shape p n := by
  by_cases hc : c = 5
  · simp [State.shape, State.place, State.modCtx, hc]
  · simp [State.shape, place_modCtx hc]
theorem ctx_setShape (s : State) (p n c : Nat) (v : BitVec 512) : (s.setShape p n v).ctx p c = s.ctx p c := by
  by_cases hc : c = 5 <;> simp [State.ctx, State.setShape, State.modPlace, State.place, hc]
theorem shape_setShape (s : State) (p n m : Nat) (v : BitVec 512) : (s.setShape p n v).shape p m = if m = n then v else s.shape p m := by
  rw [State.setShape, State.shape, place_modPlace_self]
  split
  · next h => rw [h]; exact tabGet_tabPut_self ..
  · next h => exact tabGet_tabPut_ne _ _ _ h
theorem noWake_setShape {s : State} {p c n : Nat} {v : BitVec 512} (h : s.noWake p c) : (s.setShape p n v).noWake p c := by
  rw [State.noWake, ctx_setShape]
  simpa [State.noWake, State.setShape, State.modPlace] using h

/-- A context whose sleep on a line ended completes as it would have. -/
theorem completed_of_awake {x y : Ctx} (h : { x with sleep := none }.completed y) : x.completed y := by
  obtain ⟨hy, hs, hl⟩ := h
  exact ⟨hy, .inr (hs.elim id id), hl⟩

/-- An instruction completes that leaves its context as it was, but perhaps awake, and then retires with a register write. -/
theorem completesWith_retireReg {i : Instr} {s t : State} {p c d : Nat} {v : Word} {more : State → Prop} (hw : t.noWake p c)
    (he : exec i s = .next (t.retireReg p c d v)) (hx : t.ctx p c = s.ctx p c ∨ t.ctx p c = { s.ctx p c with sleep := none })
    (hmore : ∀ f, more (t.modCtx p c f)) : completesWith i s p c d v more := by
  have e : t.retireReg p c d v = t.modCtx p c fun x => (x.setReg d v).fallThrough := retire_eq t p c _ hw (by simp [hw.2])
  have hg : ∀ n, (t.ctx p c).reg n = s.g p c n := fun n => by rcases hx with hx | hx <;> rw [hx] <;> rfl
  refine ⟨_, he, ?_, fun n => ?_, by rw [e]; exact hmore _⟩
  · rw [e, ctx_modCtx_self]
    rcases hx with hx | hx
    · rw [hx]; exact completed_setReg _ d v
    · rw [hx]; exact completed_of_awake (completed_setReg _ d v)
  · rw [e, State.g, ctx_modCtx_self, reg_fallThrough, Ctx.reg_setReg, hg]
/-- The same with no register written. -/
theorem completesWith_retire {i : Instr} {s t : State} {p c : Nat} {more : State → Prop} (hw : t.noWake p c)
    (he : exec i s = .next (t.retire p c id)) (hx : t.ctx p c = s.ctx p c ∨ t.ctx p c = { s.ctx p c with sleep := none })
    (hmore : ∀ f, more (t.modCtx p c f)) : completesWith i s p c 0 0 more :=
  completesWith_retireReg hw (by rw [he]; rfl) hx hmore

end Sys2Proof.Machine
end

section
/-! The tokens (R123, R127): the masks of the tokens in a state, and what waits for, tests and frees them. -/
namespace Sys2Proof.Machine

/-- A mask built from the numbers below n that satisfy P has exactly their bits. -/
theorem testBit_foldl_pow (P : Nat → Prop) [DecidablePred P] (n : Nat) :
    (List.range n).foldl (fun m j => if P j then m + 2 ^ j else m) 0 < 2 ^ n ∧
      ∀ k, ((List.range n).foldl (fun m j => if P j then m + 2 ^ j else m) 0).testBit k = decide (k < n ∧ P k) := by
  induction n with
  | zero => simp
  | succ n ih =>
    obtain ⟨hlt, hbit⟩ := ih
    rw [List.range_succ, List.foldl_append]
    generalize (List.range n).foldl (fun m j => if P j then m + 2 ^ j else m) 0 = x at hlt hbit ⊢
    simp only [List.foldl_cons, List.foldl_nil]
    have hpow : 2 ^ (n + 1) = 2 ^ n + 2 ^ n := by omega
    split
    · next hP =>
      refine ⟨by omega, fun k => ?_⟩
      rw [Nat.add_comm]
      rcases Nat.lt_trichotomy k n with hk | rfl | hk
      · rw [Nat.testBit_two_pow_add_gt hk, hbit]; simp [hk, Nat.lt_succ_of_lt hk]
      · rw [Nat.testBit_two_pow_add_eq, hbit]; simp [hP]
      · rw [Nat.testBit_lt_two_pow (Nat.lt_of_lt_of_le (by omega) (Nat.pow_le_pow_right (by omega : 0 < 2) hk))]
        simp; omega
    · next hP =>
      refine ⟨by omega, fun k => ?_⟩
      rw [hbit]
      have hiff : (k < n ∧ P k) ↔ (k < n + 1 ∧ P k) :=
        and_congr_left fun hk => ⟨by omega, fun h => Nat.lt_of_le_of_ne (by omega) (by rintro rfl; exact hP hk)⟩
      simp only [hiff]
theorem testBit_tokMask (s : State) (p k : Nat) (st : TokState) : (s.tokMask p st).testBit k = decide (k < 64 ∧ (s.token p k).st = st) :=
  (testBit_foldl_pow (fun n => (s.token p n).st = st) 64).2 k

/-- A mask names a token in a state when the two masks meet. -/
theorem and_tokMask_ne_zero (s : State) (p m : Nat) (st : TokState) :
    (m &&& s.tokMask p st != 0) = true ↔ ∃ k, k < 64 ∧ m / 2 ^ k % 2 = 1 ∧ (s.token p k).st = st := by
  have hbit : ∀ k, (m &&& s.tokMask p st).testBit k = true ↔ k < 64 ∧ m / 2 ^ k % 2 = 1 ∧ (s.token p k).st = st := fun k => by
    rw [Nat.testBit_and, testBit_tokMask, Bool.and_eq_true, Nat.testBit_eq_decide_div_mod_eq, decide_eq_true_iff, decide_eq_true_iff]
    tauto
  rw [bne_iff_ne]
  constructor
  · intro h
    obtain ⟨k, hk⟩ := Nat.exists_testBit_of_ne_zero h
    exact ⟨k, (hbit k).mp hk⟩
  · rintro ⟨k, hk⟩ h0
    have hset := (hbit k).mpr hk
    simp [h0] at hset

theorem twaitMask_control {s : State} {i : Instr} {mask : Nat → Nat → Nat} {p c : Nat} (ha : s.cur.agent = .control p c) (hc : c < 5) :
    twaitMask i mask s =
      if mask p c &&& s.tokMask p .outstanding != 0 then .next (s.block p c i)
      else if mask p c &&& s.tokMask p .failed != 0 then .next (s.trap p c .tokenfailed 0)
      else .next (s.retire p c id) :=
  onContext_control ha (mem_jobCtx hc)

theorem tokenTests : Claims.TokenTests := by
  intro s p c n a d ha hc hn some_ waits
  have hwait : ∀ i m, exec i s = twaitMask i (fun _ _ => m) s → waits i m := fun i m e => by
    simp only [waits, some_, e, twaitMask_control ha hc, and_tokMask_ne_zero]
    exact ⟨fun h => if_pos h, fun h h' => by rw [if_neg h, if_pos h'], fun h h' => by rw [if_neg h, if_neg h']⟩
  have hmask : ∀ st k, k < 64 → ((BitVec.ofNat 64 (s.tokMask p st)).getLsbD k = true ↔ (s.token p k).st = st) := fun st k hk => by
    rw [BitVec.getLsbD_ofNat, testBit_tokMask]; simp [hk]
  refine ⟨hwait _ _ rfl, hwait _ _ ?_, ?_, _, _, onContext_control ha (mem_jobCtx hc), onContext_control ha (mem_jobCtx hc),
    fun k hk => ⟨hmask _ k hk, hmask _ k hk⟩⟩
  · show execTwaitm a s = _
    rw [execTwaitm, twaitMask_control ha hc, twaitMask_control ha hc]
  · show execTtest d n s = _
    rw [execTtest, onContext_control ha (mem_jobCtx hc)]
    cases (s.token p n).st <;> rfl

/-- Freeing tokens one after another frees the named ones that are not OUTSTANDING. -/
theorem tabGet_foldl_tabErase (P : Nat → Bool) (t : Tab Token) (k : Nat) (is : List Nat) :
    (tabGet ⟨.free, 0⟩ (is.foldl (fun t j => if P j && (tabGet ⟨.free, 0⟩ t j).st != .outstanding then tabErase t j else t) t) k).st =
      if k ∈ is ∧ P k = true ∧ (tabGet ⟨.free, 0⟩ t k).st ≠ .outstanding then .free else (tabGet ⟨.free, 0⟩ t k).st := by
  induction is generalizing t with
  | nil => simp
  | cons j is ih =>
    rw [List.foldl_cons, ih]
    by_cases hj : P j && (tabGet ⟨.free, 0⟩ t j).st != .outstanding
    · rw [if_pos hj]
      by_cases hk : k = j
      · subst hk
        have hP := hj
        simp only [Bool.and_eq_true, bne_iff_ne] at hP
        simp [tabGet_tabErase_self, hP]
      · rw [tabGet_tabErase_ne _ _ hk]; simp [hk]
    · rw [if_neg hj]
      by_cases hk : k = j
      · subst hk
        have hP : ¬(P k = true ∧ (tabGet ⟨.free, 0⟩ t k).st ≠ .outstanding) := by simpa using hj
        simp [hP]
      · simp [hk]
theorem token_freeTokens {s : State} {p m k : Nat} (hk : k < 64) :
    ((s.freeTokens p m).token p k).st = if m / 2 ^ k % 2 = 1 ∧ (s.token p k).st ≠ .outstanding then .free else (s.token p k).st := by
  rw [State.token, State.freeTokens, place_modPlace_self, tabGet_foldl_tabErase]
  exact if_congr (by simp [bit, hk, State.token]) rfl rfl

/-- The completion of an instruction of contexts 0 to 4 leaves the tokens and the registers, and no wait. -/
theorem retire_keeps {s : State} {p c : Nat} (hc : c < 5) :
    (s.retire p c id).mem = s.mem ∧ ((s.retire p c id).ctx p c).g = (s.ctx p c).g ∧ (∀ k, (s.retire p c id).token p k = s.token p k)
      ∧ ((s.retire p c id).ctx p c).wait = none := by
  have h5 : (decide (c = 5) && ((s.modCtx p c fun x => (id x).fallThrough).plaza p).wakeDue) = false := by simp [show c ≠ 5 by omega]
  rw [State.retire, State.settleWake, h5]
  simp only [Bool.false_eq_true, if_false]
  split
  · simp [token_modCtx, Ctx.endBy, Ctx.fallThrough]
  · simp [token_modCtx, Ctx.fallThrough]
theorem block_keeps (s : State) (p c : Nat) (i : Instr) :
    (s.block p c i).mem = s.mem ∧ ((s.block p c i).ctx p c).g = (s.ctx p c).g ∧ (∀ k, (s.block p c i).token p k = s.token p k)
      ∧ ((s.block p c i).ctx p c).wait = some i := by
  simp [State.block, token_modCtx]

theorem ctx_freeTokens (s : State) (p m c : Nat) : (s.freeTokens p m).ctx p c = s.ctx p c := by
  by_cases hc : c = 5 <;> simp [State.ctx, State.freeTokens, State.modPlace, State.place, hc]

theorem tokenFrees : Claims.TokenFrees := by
  intro s p c n a ha hc hn frees
  have hfree : ∀ i m, exec i s = (if m &&& s.tokMask p .outstanding != 0 then .next ((s.freeTokens p m).block p c i)
      else .next ((s.freeTokens p m).retire p c id)) → frees i m := fun i m e => by
    by_cases hm : m &&& s.tokMask p .outstanding != 0
    · rw [if_pos hm] at e
      obtain ⟨hmem, hg, htok, hwait⟩ := block_keeps (s.freeTokens p m) p c i
      exact ⟨_, e, hmem, by rw [hg, ctx_freeTokens], fun k hk => by rw [htok, token_freeTokens hk],
        by rw [hwait]; exact iff_of_true rfl ((and_tokMask_ne_zero ..).mp hm)⟩
    · rw [if_neg hm] at e
      obtain ⟨hmem, hg, htok, hwait⟩ := retire_keeps (s := s.freeTokens p m) (p := p) hc
      exact ⟨_, e, hmem, by rw [hg, ctx_freeTokens], fun k hk => by rw [htok, token_freeTokens hk],
        by rw [hwait]; exact iff_of_false (by simp) fun h => hm ((and_tokMask_ne_zero ..).mpr h)⟩
  exact ⟨hfree _ _ (onContext_control ha (mem_jobCtx hc)), hfree _ _ (onContext_control ha (mem_jobCtx hc))⟩

end Sys2Proof.Machine
end

section
/-! The bytes of a wide register before and after a write of some of them. -/
namespace Sys2Proof.Machine

theorem testBit_vecBytes {w : Nat} (v : BitVec w) (i n k : Nat) : (vecBytes v i n).testBit k = (decide (k < 8 * n) && v.getLsbD (8 * i + k)) := by
  rw [vecBytes, Nat.testBit_mod_two_pow, Nat.testBit_div_two_pow, BitVec.testBit_toNat, Nat.add_comm]

theorem getLsbD_vecPut {w : Nat} (v : BitVec w) (i n x j : Nat) :
    (vecPut v i n x).getLsbD j = (decide (j < w) && if 8 * i ≤ j ∧ j < 8 * i + 8 * n then x.testBit (j - 8 * i) else v.getLsbD j) := by
  simp only [vecPut, BitVec.getLsbD_or, BitVec.getLsbD_and, BitVec.getLsbD_not, BitVec.getLsbD_shiftLeft, BitVec.getLsbD_ofNat,
    Nat.testBit_two_pow_sub_one, Nat.testBit_mod_two_pow]
  by_cases hw : j < w
  · by_cases hlo : j < 8 * i
    · simp [hw, hlo, show ¬8 * i ≤ j by omega]
    · have hjw : j - 8 * i < w := by omega
      by_cases hin : j < 8 * i + 8 * n
      · simp [hw, hlo, hjw, hin, show 8 * i ≤ j by omega, show j - 8 * i < 8 * n by omega]
      · simp [hw, hlo, hjw, hin, show ¬ j - 8 * i < 8 * n by omega]
  · simp [hw, BitVec.getLsbD_of_ge v j (by omega)]

/-- Bytes inside the range that was written are the value's. -/
theorem vecBytes_vecPut_inside {w : Nat} (v : BitVec w) {i n x j m : Nat} (hij : i ≤ j) (hjm : j + m ≤ i + n) (hw : 8 * (i + n) ≤ w) :
    vecBytes (vecPut v i n x) j m = x / 2 ^ (8 * (j - i)) % 2 ^ (8 * m) := by
  refine Nat.eq_of_testBit_eq fun k => ?_
  rw [testBit_vecBytes, getLsbD_vecPut, Nat.testBit_mod_two_pow, Nat.testBit_div_two_pow]
  by_cases hk : k < 8 * m
  · rw [if_pos (by omega), show 8 * j + k - 8 * i = k + 8 * (j - i) by omega, decide_eq_true (show 8 * j + k < w by omega), Bool.true_and]
  · rw [decide_eq_false hk, Bool.false_and, Bool.false_and]

/-- Bytes outside of the range that was written stay. -/
theorem vecBytes_vecPut_outside {w : Nat} (v : BitVec w) {i n x j m : Nat} (h : j + m ≤ i ∨ i + n ≤ j) :
    vecBytes (vecPut v i n x) j m = vecBytes v j m := by
  refine Nat.eq_of_testBit_eq fun k => ?_
  rw [testBit_vecBytes, testBit_vecBytes, getLsbD_vecPut]
  by_cases hk : k < 8 * m
  · rw [if_neg (by omega)]
    by_cases hw : 8 * j + k < w
    · rw [decide_eq_true hw, Bool.true_and]
    · rw [BitVec.getLsbD_of_ge v _ (by omega), Bool.and_false]
  · rw [decide_eq_false hk, Bool.false_and, Bool.false_and]

theorem getLsbD_byteMask {i n j : Nat} (hj : j < 128) : (byteMask i n).getLsbD j = decide (i ≤ j ∧ j < i + n) := by
  rw [byteMask, BitVec.getLsbD_ofNat, Nat.testBit_mul_two_pow, Nat.testBit_two_pow_sub_one, decide_eq_true hj, Bool.true_and, ← Bool.decide_and]
  exact decide_eq_decide.mpr (by omega)
/-- One byte of a wide value. -/
theorem extractLsb'_byte {w : Nat} (v : BitVec w) (j : Nat) : v.extractLsb' (8 * j) 8 = BitVec.ofNat 8 (vecBytes v j 1) := by
  rw [BitVec.extractLsb', vecBytes, Nat.shiftRight_eq_div_pow]
  exact BitVec.eq_of_toNat_eq (by simp)

end Sys2Proof.Machine
end

section
/-! Shape registers (R119, R121, R122): a field occupies bytes of its own, and reserved bits read as zero. -/
namespace Sys2Proof.Machine

theorem shapeWord_eq (v : BitVec 512) (n : Nat) : shapeWord v n = vecBytes v (4 * n) 4 := by
  rw [shapeWord, vecBytes, show 8 * (4 * n) = 32 * n by omega]

theorem shapeOff_eq (v : BitVec 512) (n : Nat) : shapeOff v n = vecBytes v (4 * n) 6 := by
  have h48 : 2 ^ (8 * 6) = 2 ^ 32 * 2 ^ 16 := by rw [← Nat.pow_add]
  rw [shapeOff, shapeWord, shapeWord, vecBytes, show 8 * (4 * n) = 32 * n by omega, show 32 * (n + 1) = 32 * n + 32 by omega, Nat.pow_add,
    ← Nat.div_div_eq_div_mul, h48, Nat.mod_mul, Nat.mul_comm (2 ^ 32)]
  omega

/-- The bytes that a field id names in a shape register (R122): 48 bits of the offsets, 32 of the others. -/
def fieldBytes (f : Nat) : Nat := if f = 1 || f = 3 then 6 else 4

/-- A field is read from its own bytes. -/
theorem shapeField_eq (v : BitVec 512) (f : Nat) : shapeField v f =
    if 8 ≤ f then sext64 32 (vecBytes v (4 * fieldWord f) (fieldBytes f)) else BitVec.ofNat 64 (vecBytes v (4 * fieldWord f) (fieldBytes f)) := by
  by_cases hoff : f = 1 ∨ f = 3
  · simp [shapeField, shapeOff_eq, fieldBytes, hoff, show ¬8 ≤ f by omega]
  · simp [shapeField, shapeWord_eq, fieldBytes, hoff]

theorem fieldBytes_disjoint {e f : Nat} (hef : e ≠ f) :
    4 * fieldWord e + fieldBytes e ≤ 4 * fieldWord f ∨ 4 * fieldWord f + fieldBytes f ≤ 4 * fieldWord e := by
  simp only [fieldWord, fieldBytes, Bool.or_eq_true, decide_eq_true_eq]
  split_ifs <;> omega
theorem fieldBytes_inside {f : Nat} (hf : f < 14) : 8 * (4 * fieldWord f + fieldBytes f) ≤ 512 := by
  simp only [fieldWord, fieldBytes, Bool.or_eq_true, decide_eq_true_eq]
  split_ifs <;> omega

theorem shapeField_vecPut_self (v : BitVec 512) {f : Nat} (hf : f < 14) (x : Word) :
    shapeField (vecPut v (4 * fieldWord f) (fieldBytes f) x.toNat) f = if f = 1 ∨ f = 3 then BitVec.ofNat 64 (x.toNat % 2 ^ 48)
      else if 8 ≤ f then (x.setWidth 32).signExtend 64 else BitVec.ofNat 64 (x.toNat % 2 ^ 32) := by
  have hx : BitVec.ofNat 32 (x.toNat % 2 ^ (8 * 4)) = x.setWidth 32 := by
    refine BitVec.eq_of_toNat_eq ?_
    rw [BitVec.toNat_ofNat, BitVec.toNat_setWidth, Nat.mod_mod]
  rw [shapeField_eq, vecBytes_vecPut_inside v le_rfl le_rfl (fieldBytes_inside hf), Nat.sub_self, Nat.mul_zero, pow_zero, Nat.div_one]
  by_cases hoff : f = 1 ∨ f = 3
  · simp [fieldBytes, hoff, show ¬8 ≤ f by omega]
  · simp [fieldBytes, hoff, sext64, ← hx]
theorem shapeField_vecPut_ne (v : BitVec 512) {e f : Nat} (hef : e ≠ f) (x : Nat) :
    shapeField (vecPut v (4 * fieldWord f) (fieldBytes f) x) e = shapeField v e := by
  rw [shapeField_eq, shapeField_eq, vecBytes_vecPut_outside v (fieldBytes_disjoint hef)]

theorem getLsbD_clearShape (v : BitVec 512) {hi lo j : Nat} (hj : j < 512) :
    (clearShape v hi lo).getLsbD j = (v.getLsbD j && !decide (lo ≤ j ∧ j ≤ hi)) := by
  have hmask : 2 ^ (hi + 1) - 2 ^ lo = (2 ^ (hi + 1 - lo) - 1) * 2 ^ lo := by
    rcases Nat.le_total lo (hi + 1) with h | h
    · rw [Nat.sub_mul, one_mul, ← Nat.pow_add, Nat.sub_add_cancel h]
    · rw [Nat.sub_eq_zero_of_le (Nat.pow_le_pow_right (by omega) h), Nat.sub_eq_zero_of_le h, pow_zero, Nat.sub_self, Nat.zero_mul]
  have hbit : (2 ^ (hi + 1) - 2 ^ lo).testBit j = decide (lo ≤ j ∧ j ≤ hi) := by
    rw [hmask, Nat.testBit_mul_two_pow, Nat.testBit_two_pow_sub_one, ← Bool.decide_and]
    exact decide_eq_decide.mpr (by omega)
  simp only [clearShape, BitVec.getLsbD_and, BitVec.getLsbD_not, BitVec.getLsbD_ofNat, hbit, hj, decide_true, Bool.true_and]

theorem getLsbD_ite_clearShape (c : Prop) [Decidable c] (v : BitVec 512) {hi lo j : Nat} (hj : j < 512) :
    (if c then v else clearShape v hi lo).getLsbD j = (v.getLsbD j && !decide (lo ≤ j ∧ j ≤ hi ∧ ¬c)) := by
  by_cases hc : c
  · rw [if_pos hc, decide_eq_false fun h => h.2.2 hc, Bool.not_false, Bool.and_true]
  · rw [if_neg hc, getLsbD_clearShape v hj]; simp only [hc, not_false_eq_true, and_true]

/-- The reserved bits of a shape register read as zero; a handle is reserved unless its space is 0. -/
theorem getLsbD_shapeRead (v : BitVec 512) {j : Nat} (hj : j < 512) :
    (shapeRead v).getLsbD j = (v.getLsbD j
      && !(decide (25 ≤ j ∧ j ≤ 31) || decide (21 ≤ j ∧ j ≤ 23) || decide (80 ≤ j ∧ j ≤ 95) || decide (120 ≤ j ∧ j ≤ 127)
        || decide (176 ≤ j ∧ j ≤ 191)
        || decide (4 ≤ j ∧ j ≤ 8 ∧ shapeWord v 0 % 16 ≠ 0) || decide (100 ≤ j ∧ j ≤ 104 ∧ shapeWord v 3 % 16 ≠ 0))) := by
  simp only [shapeRead, getLsbD_ite_clearShape _ _ hj, getLsbD_clearShape _ hj, Bool.not_or, Bool.and_assoc, ne_eq]

end Sys2Proof.Machine
end

section
/-! Plain accesses of a context that find their line in the plaza's L1D (R57, R58, R310): they read and write that line, and the
memory and every other byte of the L1s stay. -/
namespace Sys2Proof.Machine

theorem checkVa_of_grants {s : State} {p c n key : Nat} {ea : Word} {need : Need} (h : s.grants p c ea n need key) :
    ∃ priv, s.checkVa p (s.ctxPasid p c) ea n need = .ok (key, priv) s := by
  obtain ⟨hal, hcan, t, htr, habs, hperm, rfl, hrem, hview, -⟩ := h
  exact ⟨t.priv, by simp [State.checkVa, hal, hcan, htr, habs, hperm, hrem, hview]⟩

theorem viewRead_plain {s : State} {p key n : Nat} {delays : List Delay} {ps : List (Nat × Nat)} (hv : s.viewPage key = false)
    (hk : keptBytes delays key n = none) : s.viewRead p key n delays ps = (.plain, s) := by
  have hnone : keptRead delays key n = none := by
    rw [keptBytes, Option.map_eq_none_iff] at hk
    rw [keptRead, hk]; rfl
  simp [State.viewRead, hnone, hv]

/-- Only the other entries of a table count in a search that leaves k out. -/
theorem any_tabSet_ne {α : Type} (t : Tab α) (k : Nat) (v : α) (f : Nat × α → Bool) :
    (tabSet t k v).any (fun x => x.1 != k && f x) = t.any (fun x => x.1 != k && f x) := by
  refine Bool.eq_iff_iff.mpr ?_
  simp only [List.any_eq_true, tabSet, mem_tabInsert, tabErase_eq_filter, List.mem_filter, Bool.and_eq_true, bne_iff_ne, decide_eq_true_eq]
  constructor
  · rintro ⟨x, rfl | hx, hne, hf⟩
    · exact absurd rfl hne
    · exact ⟨x, hx.1, hne, hf⟩
  · rintro ⟨x, hx, hne, hf⟩
    exact ⟨x, .inr ⟨hx, hne⟩, hne, hf⟩

/-- The clash rules look at the other plazas, the memory and the dirty bytes of the plaza itself. -/
theorem privClash_modPlaza {s : State} {p : Nat} {f : Plaza → Plaza} {x : Line} (mask : BitVec 128)
    (hd : (f (s.plaza p)).dirtyMask x.key = (s.plaza p).dirtyMask x.key) : (s.modPlaza p f).privClash p x mask = s.privClash p x mask := by
  simp only [State.privClash, State.privOther, plaza_modPlaza_self, hd]
  simp only [State.modPlaza, any_tabSet_ne, State.homeRow]

/-- The lines of an L1 with z in the place of the data line of its key. -/
def replaceLine (z : Line) (ls : List Line) : List Line := ls.map fun y => if y.key == z.key && !y.upd then z else y

theorem setLine_eq (s : State) (p : Nat) (lanes : Bool) (x : Line) :
    s.setLine p lanes x = s.modPlaza p fun q => q.modL1 lanes fun ls => replaceLine { x with used := nextUse ls } ls := rfl

/-- Putting a line with the same dirty bytes in the place of the only line of its key changes no dirty byte. -/
theorem dirtyMask_replaceLine {q : Plaza} {x z : Line} {line : Nat} (h : onlyLine q.l1d z.key x) (hd : z.dirty = x.dirty)
    (hz : z.upd = x.upd) (hk : z.key = x.key) : (q.modL1 false (replaceLine z)).dirtyMask line = q.dirtyMask line := by
  have hx : ∀ y ∈ q.l1d, (y.key == z.key && !y.upd) = true → y = x := fun y hy e => by
    simp only [Bool.and_eq_true, beq_iff_eq, Bool.not_eq_true'] at e
    exact h.2 y hy e.1 e.2
  simp only [Plaza.dirtyMask, Plaza.modL1, Bool.false_eq_true, if_false, List.foldl_append, replaceLine, List.foldl_map]
  congr 1
  refine List.foldl_ext _ _ _ fun m y hy => ?_
  split
  · next e => rw [hx y hy e, hd, hz, hk]
  · rfl

theorem key_of_lineIn {ls : List Line} {line : Nat} {x : Line} (h : lineIn ls line = some x) : x.key = line ∧ x.upd = false := by
  simpa using List.find?_some h

theorem lineIn_replaceLine {ls : List Line} {z : Line} (hz : z.upd = false) (hin : (lineIn ls z.key).isSome = true) (k : Nat) :
    lineIn (replaceLine z ls) k = if k = z.key then some z else lineIn ls k := by
  have hp : ((fun x : Line => x.key == k && !x.upd) ∘ fun y => if y.key == z.key && !y.upd then z else y) = fun x => x.key == k && !x.upd := by
    refine funext fun y => ?_
    rw [Function.comp_apply]
    split
    · next e =>
      simp only [Bool.and_eq_true, beq_iff_eq, Bool.not_eq_true'] at e
      rw [hz, e.1, e.2]
    · rfl
  rw [lineIn, replaceLine, List.find?_map, hp, ← lineIn]
  cases hy : lineIn ls k with
  | none => exact (if_neg fun hk => by rw [hk] at hy; simp [hy] at hin).symm
  | some y =>
    obtain ⟨hkey, hupd⟩ := key_of_lineIn hy
    by_cases hk : k = z.key
    · simp [hkey, hupd, hk]
    · simp [hkey, hk]

theorem loadL1_hit {s : State} {p key n : Nat} {x : Line} (who : Requester) (priv : Bool) (h : s.l1dHas p key n x) :
    s.loadL1 who p false key n priv = .ok (vecBytes x.data (key % 128) n) ((s.endRead who (key / 128)).setLine p false x) := by
  obtain ⟨⟨hupd, hin, -⟩, honly, hheld, hpoison, hpriv⟩ := h
  have hclash : ((s.endRead who (key / 128)).setLine p false x).privClash p x (byteMask (key % 128) n) = false := by
    have hd : ((s.plaza p).modL1 false fun ls => replaceLine { x with used := nextUse ls } ls).dirtyMask x.key = (s.plaza p).dirtyMask x.key :=
      dirtyMask_replaceLine (show onlyLine (s.plaza p).l1d x.key x by rwa [(key_of_lineIn hin).1]) rfl rfl rfl
    rw [setLine_eq, privClash_modPlaza _ hd]
    exact hpriv
  simp [State.loadL1, State.mergeOwn, hupd, Plaza.l1, hin, hheld, State.takeFrom, hclash, takeBytes, hpoison]

theorem readData_hit {s : State} {p c n key : Nat} {ea : Word} {x : Line} (hg : s.grants p c ea n .read key) (hx : s.l1dHas p key n x) :
    s.readData p c ea n = .ok (vecBytes x.data (key % 128) n) ((s.endRead (.ctx p c) (key / 128)).setLine p false x) := by
  obtain ⟨priv, hva⟩ := checkVa_of_grants hg
  obtain ⟨-, -, _, -, -, -, -, -, hview, hkept⟩ := hg
  simp [State.readData, State.readAs, hva, Res.andThen, hview, viewRead_plain hview hkept, loadL1_hit _ _ hx, Res.at_]

theorem ctx_modL1 (s : State) (p c : Nat) (lanes : Bool) (f : List Line → List Line) :
    (s.modPlaza p fun q => q.modL1 lanes f).ctx p c = s.ctx p c := by
  cases lanes <;> simp [State.ctx, State.place, Plaza.modL1]
theorem shape_modL1 (s : State) (p n : Nat) (lanes : Bool) (f : List Line → List Line) :
    (s.modPlaza p fun q => q.modL1 lanes f).shape p n = s.shape p n := by
  cases lanes <;> simp [State.shape, State.place, Plaza.modL1]
theorem wakeDue_modL1 (s : State) (p : Nat) (lanes : Bool) (f : List Line → List Line) :
    ((s.modPlaza p fun q => q.modL1 lanes f).plaza p).wakeDue = (s.plaza p).wakeDue := by
  cases lanes <;> simp [Plaza.modL1]

theorem tabGet_map {α : Type} {d : α} {f : α → α} (hd : f d = d) (t : Tab α) (k : Nat) :
    tabGet d (t.map fun x => (x.1, f x.2)) k = f (tabGet d t k) := by
  induction t with
  | nil => exact hd.symm
  | cons x t ih =>
    obtain ⟨j, v⟩ := x
    rw [List.map_cons, tabGet, tabGet, ih, apply_ite f]

theorem ctx_wakeLine (s : State) (p c line : Nat) : (s.wakeLine p line).ctx p c = (s.ctx p c).wokenAt line := by
  by_cases hc : c = 5
  · simp [State.ctx, State.wakeLine, hc]
  · simp only [State.ctx, if_neg hc, State.place, State.wakeLine, plaza_modPlaza_self]
    exact tabGet_map (f := fun x : Ctx => x.wokenAt line) (by simp [Ctx.wokenAt, Ctx.off]) _ c
theorem wokenAt_eq (x : Ctx) (line : Nat) : x.wokenAt line = x ∨ x.wokenAt line = { x with sleep := none } := by
  unfold Ctx.wokenAt
  split
  · exact .inr rfl
  · exact .inl rfl
theorem ending_wokenAt (x : Ctx) (line : Nat) : (x.wokenAt line).ending = x.ending := by
  rcases wokenAt_eq x line with e | e <;> rw [e]
theorem wakeDue_wakeLine (s : State) (p line : Nat) : ((s.wakeLine p line).plaza p).wakeDue = (s.plaza p).wakeDue := by
  simp [State.wakeLine]
theorem l1_wakeLine (s : State) (p q line : Nat) (lanes : Bool) : ((s.wakeLine p line).plaza q).l1 lanes = (s.plaza q).l1 lanes := by
  by_cases hq : q = p
  · subst hq; simp [State.wakeLine, Plaza.l1]
  · rw [State.wakeLine, plaza_modPlaza_ne _ _ hq]
theorem shape_wakeLine (s : State) (p n line : Nat) : (s.wakeLine p line).shape p n = s.shape p n := by
  simp [State.shape, State.place, State.wakeLine]

theorem l1_modCtx (s : State) (p c q : Nat) (lanes : Bool) (f : Ctx → Ctx) : ((s.modCtx p c f).plaza q).l1 lanes = (s.plaza q).l1 lanes := by
  unfold State.modCtx
  by_cases hq : q = p
  · subst hq; split <;> simp [State.modPlace, Plaza.l1]
  · split
    · rw [plaza_modPlaza_ne _ _ hq]
    · rw [State.modPlace, plaza_modPlaza_ne _ _ hq]

/-- The line after a store of n bytes into it (R58, R310). -/
def Line.stored (x : Line) (cycle i n v used : Nat) : Line :=
  { x with
    data := vecPut x.data i n v
    held := x.held ||| byteMask i n
    poison := x.poison &&& ~~~ wholeUnits (byteMask i n)
    dirty := x.dirty ||| byteMask i n
    dirtyAt := if x.dirty = 0 then cycle else x.dirtyAt
    used := used }

theorem byteAt_stored (x : Line) (cycle used v : Nat) {i n j : Nat} (hin : i + n ≤ 128) (hj : j < 128) :
    (x.stored cycle i n v used).byteAt j = if i ≤ j ∧ j < i + n then some (BitVec.ofNat 8 (v / 2 ^ (8 * (j - i)))) else x.byteAt j := by
  have hheld : (x.stored cycle i n v used).held.getLsbD j = (x.held.getLsbD j || decide (i ≤ j ∧ j < i + n)) := by
    rw [Line.stored, BitVec.getLsbD_or, getLsbD_byteMask hj]
  have hdata : (x.stored cycle i n v used).data = vecPut x.data i n v := rfl
  rw [Line.byteAt, hheld, hdata, extractLsb'_byte]
  by_cases hr : i ≤ j ∧ j < i + n
  · rw [vecBytes_vecPut_inside _ hr.1 hr.2 (by omega), if_pos hr]
    rw [decide_eq_true hr, Bool.or_true, if_pos rfl]
    exact congrArg some (BitVec.eq_of_toNat_eq (by simp))
  · rw [vecBytes_vecPut_outside _ (by omega), ← extractLsb'_byte, if_neg hr, decide_eq_false hr, Bool.or_false, Line.byteAt]

theorem modPlaza_congr {s : State} {p : Nat} {f g : Plaza → Plaza} (h : f (s.plaza p) = g (s.plaza p)) : s.modPlaza p f = s.modPlaza p g := by
  rw [State.modPlaza, State.modPlaza, h]

/-- A store into a line that the plaza has in its L1D only (R58). -/
theorem storeL1_hit {s : State} {p key n v : Nat} {x : Line} (priv : Bool) (h : s.l1dOnly p key x) :
    ∃ used, s.storeL1 p false key n v priv =
      (s.wakeLine p (key / 128)).modPlaza p fun q => q.modL1 false (replaceLine (x.stored s.dev.cycle (key % 128) n v used)) := by
  obtain ⟨hupd, hin, hother⟩ := h
  rw [State.storeL1]
  generalize hw : s.wakeLine p (key / 128) = w
  have hl1d : (w.plaza p).l1d = (s.plaza p).l1d := by rw [← hw]; exact l1_wakeLine s p p _ false
  have hl1v : (w.plaza p).l1v = (s.plaza p).l1v := by rw [← hw]; exact l1_wakeLine s p p _ true
  have hm : w.mergeOwn p (key / 128) = w := by rw [State.mergeOwn, Plaza.hasUpdate, hl1d, hl1v, ← Plaza.hasUpdate, hupd]; rfl
  have hkeep : (w.plaza p).l1v.filter (fun y => !(y.key == key / 128 && !y.upd)) = (w.plaza p).l1v := by
    rw [hl1v]
    exact List.filter_eq_self.mpr fun y hy => by simpa [imp_iff_not_or] using List.find?_eq_none.mp hother y hy
  have hor : ∀ {k : Nat} (y : BitVec k), y ||| 0 = y := fun _ => BitVec.or_zero
  have hmix : lineMix 0 0 x.data = x.data := by rw [lineMix, if_pos rfl]
  simp only [hm, Plaza.l1, Bool.not_false, if_true, Bool.false_eq_true, if_false, Plaza.modL1, plaza_modPlaza_self, hl1d, hl1v, hin, hother,
    otherPoison, hmix, hor]
  refine ⟨nextUse (w.plaza p).l1d, ?_⟩
  rw [setLine_eq, modPlaza_modPlaza]
  refine modPlaza_congr ?_
  simp only [Plaza.modL1, Bool.false_eq_true, if_false, hkeep, Line.stored]

theorem cached_congr {s t : State} {q : Nat} {lanes : Bool} {b : Nat} (h : (t.plaza q).l1 lanes = (s.plaza q).l1 lanes) :
    t.cached q lanes b = s.cached q lanes b := by
  rw [State.cached, State.cached, h]

/-- What the L1s hold after a line of plaza p's L1D was replaced. -/
theorem cached_replaceLine {s : State} {p : Nat} {z : Line} (hz : z.upd = false) (hin : (lineIn (s.plaza p).l1d z.key).isSome = true)
    (q : Nat) (lanes : Bool) (b : Nat) :
    (s.modPlaza p fun q => q.modL1 false (replaceLine z)).cached q lanes b =
      if q = p ∧ lanes = false ∧ b / 128 = z.key then z.byteAt (b % 128) else s.cached q lanes b := by
  by_cases hq : q = p
  · subst hq
    cases lanes with
    | false =>
      simp only [State.cached, plaza_modPlaza_self, Plaza.modL1, Plaza.l1, Bool.false_eq_true, if_false, lineIn_replaceLine hz hin, true_and]
      split <;> rfl
    | true =>
      rw [if_neg (by simp)]
      exact cached_congr (by rw [plaza_modPlaza_self]; rfl)
  · rw [if_neg fun h => hq h.1]
    exact cached_congr (by rw [plaza_modPlaza_ne _ _ hq])

/-- What the L1s hold after a store into a line of plaza p's L1D: the bytes stored, and every other byte that any of them held. -/
theorem cached_stored {s : State} {p key n v cycle used : Nat} {x : Line} (hin : lineIn (s.plaza p).l1d (key / 128) = some x)
    (hn : key % 128 + n ≤ 128) (q : Nat) (lanes : Bool) (b : Nat) :
    (s.modPlaza p fun q => q.modL1 false (replaceLine (x.stored cycle (key % 128) n v used))).cached q lanes b =
      if q = p ∧ lanes = false ∧ key ≤ b ∧ b < key + n then some (BitVec.ofNat 8 (v / 2 ^ (8 * (b - key)))) else s.cached q lanes b := by
  obtain ⟨hkey, hupd⟩ := key_of_lineIn hin
  have hk : (x.stored cycle (key % 128) n v used).key = key / 128 := hkey
  rw [cached_replaceLine (show (x.stored cycle (key % 128) n v used).upd = false from hupd) (by rw [hk, hin]; rfl), hk]
  by_cases hline : q = p ∧ lanes = false ∧ b / 128 = key / 128
  · obtain ⟨rfl, rfl, hb⟩ := hline
    rw [if_pos ⟨rfl, rfl, hb⟩, byteAt_stored x cycle used v hn (by omega)]
    refine ite_congr (propext ?_) (fun hr => ?_) fun _ => ?_
    · simp only [true_and]; omega
    · rw [show b % 128 - key % 128 = b - key by omega]
    · rw [State.cached, Plaza.l1, hb, if_neg Bool.false_ne_true, hin]; rfl
  · rw [if_neg hline, if_neg fun h => hline ⟨h.1, h.2.1, by omega⟩]

/-- A store that finds its line in the L1D (R57, R58): the memory and the shape registers stay, and the context is at most awoken. -/
theorem writeData_hit {s : State} {p c n v key : Nat} {ea : Word} {x : Line} (hg : s.grants p c ea n .write key) (hn : key % 128 + n ≤ 128)
    (hx : s.l1dOnly p key x) :
    ∃ t, s.writeData p c ea n v = .ok () t ∧ t.mem = s.mem ∧ (∀ m, t.shape p m = s.shape p m) ∧ (s.noWake p c → t.noWake p c)
      ∧ t.ctx p c = (s.ctx p c).wokenAt (key / 128)
      ∧ ∀ q lanes b, t.cached q lanes b =
          if q = p ∧ lanes = false ∧ key ≤ b ∧ b < key + n then some (BitVec.ofNat 8 (v / 2 ^ (8 * (b - key)))) else s.cached q lanes b := by
  obtain ⟨priv, hva⟩ := checkVa_of_grants hg
  obtain ⟨used, hstore⟩ := storeL1_hit (n := n) (v := v) priv hx
  have hin : lineIn ((s.wakeLine p (key / 128)).plaza p).l1d (key / 128) = some x := by
    rw [← hx.2.1]; exact congrArg (lineIn · _) (l1_wakeLine s p p _ false)
  have hwrite : s.writeData p c ea n v = .ok () (s.storeL1 p false key n v priv) := by rw [State.writeData, hva]; rfl
  rw [hstore] at hwrite
  refine ⟨_, hwrite, rfl, fun m => by rw [shape_modL1, shape_wakeLine], fun hw => ?_,
    by rw [ctx_modL1, ctx_wakeLine], fun q lanes b => by rw [cached_stored hin hn, cached_congr (l1_wakeLine ..)]⟩
  rw [State.noWake, wakeDue_modL1, ctx_modL1, ctx_wakeLine, ending_wokenAt, wakeDue_wakeLine]
  exact hw

end Sys2Proof.Machine
end

section
/-! Shape registers and tokens. -/
namespace Sys2Proof.Machine

theorem shapeInstructions : Claims.ShapeInstructions := by
  intro s p c n a d k ha hc hw
  have hon : ∀ f, onContext s jobCtx f = f p c := fun f => onContext_control ha (mem_jobCtx hc)
  have hshget : ∀ f, exec (.shget d n f) s = .next (s.retireReg p c d (shapeField (shapeRead (s.shape p n)) f)) := fun _ => hon _
  have hshset : ∀ f, exec (.shset n a f) s =
    .next ((s.setShape p n (vecPut (s.shape p n) (4 * fieldWord f) (fieldBytes f) (s.g p c a).toNat)).retire p c id) := fun _ => hon _
  have hshld : exec (.shld n a k) s = onAccess (s.readData p c (s.g p c a) 64) p c (.shld n a k) fun v t =>
    .next ((t.setShape p n (BitVec.ofNat 512 v)).retire p c id) := hon _
  have hshst : exec (.shst n a k) s = onAccess (s.writeData p c (s.g p c a) 64 (shapeRead (s.shape p n)).toNat) p c (.shst n a k) fun _ t =>
    .next (t.retire p c id) := hon _
  refine ⟨fun f hf => ⟨?_, ?_⟩, fun v j hj => getLsbD_shapeRead v hj, fun key x hg hx => ?_, fun key x hg hn hx => ?_,
    fun v t e => ?_, fun t e => ?_⟩
  · exact completesWith_retireReg hw (hshget f) (.inl rfl) fun g => ⟨modCtx_mem .., fun m => shape_modCtx ..⟩
  · refine completesWith_retire (noWake_setShape hw) (hshset f) (.inl (ctx_setShape ..)) fun g => ?_
    simp only [shape_modCtx, shape_setShape, if_true]
    exact ⟨modCtx_mem .., shapeField_vecPut_self _ hf _, fun e _ hef => shapeField_vecPut_ne _ hef _, fun m hm => if_neg hm⟩
  · rw [readData_hit hg hx] at hshld
    have hw' : ((s.endRead (.ctx p c) (key / 128)).setLine p false x).noWake p c := by
      rw [State.noWake, State.setLine, wakeDue_modL1, ctx_modL1]; exact hw
    refine completesWith_retire (noWake_setShape hw') hshld (.inl ?_) fun g => ?_
    · rw [ctx_setShape, State.setLine, ctx_modL1]; rfl
    · simp only [shape_modCtx, shape_setShape, if_true, modCtx_mem]
      exact ⟨rfl, trivial, fun m hm => by rw [if_neg hm, State.setLine, shape_modL1]; rfl⟩
  · obtain ⟨t, hwrite, hmem, hshape, hwake, hctx, hcached⟩ := writeData_hit (v := (shapeRead (s.shape p n)).toNat) hg hn hx
    rw [hwrite] at hshst
    refine completesWith_retire (hwake hw) hshst (hctx ▸ wokenAt_eq _ _) fun g => ?_
    simp only [modCtx_mem, shape_modCtx, cached_congr (l1_modCtx ..), hcached, hmem, hshape, extractLsb'_byte, vecBytes]
    exact ⟨trivial, fun _ => trivial, fun q lanes b => ite_congr rfl (fun _ => congrArg some (BitVec.eq_of_toNat_eq (by simp))) fun _ => rfl⟩
  · rw [hshld, e]; rfl
  · rw [hshst, e]; rfl

/-- Settles O15, by the three claims on the shape registers, the token waits and tests, and the token frees. -/
theorem shapesAndTokens : Obligations.ShapesAndTokens := ⟨shapeInstructions, tokenTests, tokenFrees⟩

end Sys2Proof.Machine
end

section
/-! The memory keeps its canonical form in every step of the module (R4, R310). One lemma per operation of the model, in the order of the model's
files, says that the operation hands on the canonical form; a meaning that branches keeps it because each of its branches ends in an operation
already shown. Only a few operations write the memory itself: a line at its home, the additions of an update line, a word or bytes at a home, the
bytes of a page that moves, a store of the host, a die that goes off. They rest on the laws of the memory; all others leave it to these. -/
namespace Sys2Proof.Machine

/-- Every outcome of an access leaves the memory in canonical form. -/
def Res.memOk {α : Type} : Res α → Prop
  | .ok _ t => t.memOk
  | .wait t => t.memOk
  | .fail _ _ _ t => t.memOk
/-- The state that a meaning answers has its memory in canonical form. -/
def Out.memOk : Out → Prop
  | .next t => t.memOk
  | _ => True
/-- Every outcome of an engine's access leaves the memory in canonical form. -/
def Eng.memOk {α : Type} : Eng α → Prop
  | .ok _ t => t.memOk
  | .wait t => t.memOk
  | .fail _ t => t.memOk
/-- Both answers of a context's fetch leave the memory in canonical form. -/
def Fetch.memOk : Sum (Instr × State) State → Prop
  | .inl x => x.2.memOk
  | .inr t => t.memOk
/-- Both answers of a VAMO's run over the lanes leave the memory in canonical form. -/
def AmoRun.memOk : Sum State (State × Option Faulted) → Prop
  | .inl t => t.memOk
  | .inr x => x.1.memOk
/-- Both answers of a lane group's turn leave the memory in canonical form. -/
def Attempt.memOk : Attempt → Prop
  | .inl t => t.memOk
  | .inr o => Out.memOk o

section
variable {α β : Type} {s t : State}

theorem ite_memOk {c : Prop} [Decidable c] (hs : s.memOk) (ht : t.memOk) : (if c then s else t).memOk := by
  split <;> assumption
theorem Res.ite_memOk {c : Prop} [Decidable c] {r q : Res α} (hr : r.memOk) (hq : q.memOk) : (if c then r else q).memOk := by
  split <;> assumption
theorem Eng.ite_memOk {c : Prop} [Decidable c] {r q : Eng α} (hr : r.memOk) (hq : q.memOk) : (if c then r else q).memOk := by
  split <;> assumption
theorem Out.ite_memOk {c : Prop} [Decidable c] {o q : Out} (ho : Out.memOk o) (hq : Out.memOk q) : Out.memOk (if c then o else q) := by
  split <;> assumption
theorem ite_snd_memOk {c : Prop} [Decidable c] {x y : α × State} (hx : x.2.memOk) (hy : y.2.memOk) : (if c then x else y).2.memOk := by
  split <;> assumption
theorem foldl_memOk {l : List α} {f : State → α → State} (h : s.memOk) (hf : ∀ t x, t.memOk → (f t x).memOk) : (l.foldl f s).memOk :=
  List.foldlRecOn l f h fun t ht x _ => hf t x ht
theorem getD_memOk {o : Option State} (ho : ∀ t, o = some t → t.memOk) (h : s.memOk) : (o.getD s).memOk := by
  cases o with
  | none => exact h
  | some t => exact ho t rfl
theorem map_memOk {o : Option α} {f : α → State} (hf : ∀ x, o = some x → (f x).memOk) : ∀ t, o.map f = some t → t.memOk := by
  cases o with
  | none => rintro t ⟨⟩
  | some x => rintro t ⟨⟩; exact hf x rfl
theorem Res.memOk_of_ok {r : Res α} {a : α} (hr : r.memOk) (e : r = .ok a t) : t.memOk := by rw [e] at hr; exact hr
theorem Res.memOk_of_wait {r : Res α} (hr : r.memOk) (e : r = .wait t) : t.memOk := by rw [e] at hr; exact hr
theorem Res.memOk_of_fail {r : Res α} {c : Cause} {x : Word} {y : Nat} (hr : r.memOk) (e : r = .fail c x y t) : t.memOk := by
  rw [e] at hr; exact hr
end

/-! ### Outcomes of an access, and the updates of the parts of the state -/

theorem Res.andThen_memOk {α β : Type} {r : Res α} {f : α → State → Res β} (h : r.memOk) (hf : ∀ a t, t.memOk → (f a t).memOk) :
    (r.andThen f).memOk := by
  unfold Res.andThen
  grind [Res.memOk]

theorem Res.at_memOk {α : Type} {r : Res α} {va : Word} (h : r.memOk) : (r.at_ va).memOk := by
  unfold Res.at_; split <;> exact h

theorem modPlaza_memOk {s : State} {p : Nat} {f : Plaza → Plaza} (h : s.memOk) : (s.modPlaza p f).memOk := h

theorem modPlace_memOk {s : State} {p : Nat} {f : Place → Place} (h : s.memOk) : (s.modPlace p f).memOk := h

theorem modCtx_memOk {s : State} {p c : Nat} {f : Ctx → Ctx} (h : s.memOk) : (s.modCtx p c f).memOk :=
  ite_memOk (modPlaza_memOk h) (modPlace_memOk h)

theorem modLane_memOk {s : State} {p l : Nat} {f : Lane → Lane} (h : s.memOk) : (s.modLane p l f).memOk := h

theorem modDev_memOk {s : State} {f : Device → Device} (h : s.memOk) : (s.modDev f).memOk := h

theorem modPlacer_memOk {s : State} {f : Placer → Placer} (h : s.memOk) : (s.modPlacer f).memOk := h

theorem modHost_memOk {s : State} {f : HostSide → HostSide} (h : s.memOk) : (s.modHost f).memOk := h

theorem forgetRemotes_memOk {s : State} {who : Requester} (h : s.memOk) : (s.forgetRemotes who).memOk := h

theorem freeWord_memOk {s : State} (h : s.memOk) : (s.freeWord).2.memOk := h

theorem freeDouble_memOk {s : State} (h : s.memOk) : (s.freeDouble).2.memOk := h

theorem newId_memOk {s : State} (h : s.memOk) : (s.newId).2.memOk := h

theorem signal_memOk {s : State} {v : Nat} (h : s.memOk) : (s.signal v).memOk := h

theorem signalOwner_memOk {s : State} {pasid v : Nat} (h : s.memOk) : (s.signalOwner pasid v).memOk := h

/-! ### Lines, homes and views: here the memory is written (R310, R313, R340) -/

theorem emit_memOk {s : State} {l : Nat} {f : Flit} (h : s.memOk) : (s.emit l f).memOk := h

theorem sendFlit_memOk {s : State} {f : Flit} (h : s.memOk) : ∀ t, s.sendFlit f = some t → t.memOk := by
  unfold State.sendFlit
  grind [map_memOk, emit_memOk]

theorem post_memOk {s : State} {f : Flit} (h : s.memOk) : (s.post f).memOk := by
  unfold State.post
  grind [State.memOk, getD_memOk, sendFlit_memOk]

theorem repost_memOk {s : State} (h : s.memOk) : s.repost.memOk :=
  foldl_memOk h (fun _ _ => post_memOk)

theorem addRemote_memOk {s : State} {who : Requester} {kind addr size : Nat} {data : List Byte} (h : s.memOk) :
    (s.addRemote who kind addr size data).2.memOk :=
  h

theorem request_memOk {s : State} {who : Requester} {kind addr size : Nat} {data : List Byte} {f : Flit} (h : s.memOk) :
    (s.request who kind addr size data f).2.memOk := by
  unfold State.request
  grind [addRemote_memOk, post_memOk]

theorem modBlock_memOk {s : State} {id b : Nat} {f : ViewBlock → ViewBlock} (h : s.memOk) : (s.modBlock id b f).memOk := h

theorem sendNotice_memOk {s : State} {who : Option Nat} {m : Master} {v : View} {b g : Nat} (h : s.memOk) :
    (s.sendNotice who m v b g).memOk := by
  unfold State.sendNotice
  grind [State.memOk, request_memOk]

theorem raiseKg_memOk {s : State} {n : Notice} (h : s.memOk) : (s.raiseKg n).memOk := h

theorem noticesEnd_memOk {s : State} {gone : List Notice} (h : s.memOk) : (s.noticesEnd gone).memOk :=
  foldl_memOk h (fun _ _ ht => ite_memOk ht (post_memOk ht))

theorem endNotices_memOk {s : State} {f : Notice → Bool} (h : s.memOk) : (s.endNotices f).memOk :=
  noticesEnd_memOk h

theorem advanceBlock_memOk {s : State} {who : Option Nat} {m : Master} {b : Nat} (h : s.memOk) : (s.advanceBlock who m b).memOk :=
  ite_memOk h (foldl_memOk h (fun _ _ => sendNotice_memOk))

theorem advanceLine_memOk {s : State} {who : Option Nat} {key : Nat} (h : s.memOk) : (s.advanceLine who key).memOk :=
  foldl_memOk h (fun _ _ ht => foldl_memOk ht (fun _ _ => advanceBlock_memOk))

/-- A write at a home of this module: the memory law of a masked line. -/
theorem writeHere_memOk {s : State} {who : Option Nat} {line : Nat} {mask : BitVec 128} {data : Row} {bad : BitVec 2} (h : s.memOk) :
    (s.writeHere who line mask data bad).memOk := by
  unfold State.writeHere
  split
  · exact h
  · exact advanceLine_memOk (memWf_memPutRow s.mem line mask data h)

theorem writeLine_memOk {s : State} {who : Option Nat} {line : Nat} {mask : BitVec 128} {data : Row} {bad : BitVec 2} (h : s.memOk) :
    ∀ t, s.writeLine who line mask data bad = some t → t.memOk := by
  unfold State.writeLine
  grind [request_memOk, writeHere_memOk]

theorem writeBackIn_memOk {s : State} {p : Nat} {lanes : Bool} {line : Nat} (h : s.memOk) : (s.writeBackIn p lanes line).memOk := by
  unfold State.writeBackIn
  grind [writeLine_memOk, modPlaza_memOk]

theorem writeBack_memOk {s : State} {p line : Nat} (h : s.memOk) : (s.writeBack p line).memOk :=
  writeBackIn_memOk (writeBackIn_memOk h)

theorem wakeLine_memOk {s : State} {p line : Nat} (h : s.memOk) : (s.wakeLine p line).memOk := h

/-- The additions of an update-only line are applied at its home one after another (R65). -/
theorem mergeLine_memOk {s : State} {p line : Nat} (h : s.memOk) : (s.mergeLine p line).memOk := by
  unfold State.mergeLine
  split
  · exact h
  · refine modPlaza_memOk (foldl_memOk (writeBack_memOk h) fun t x ht => advanceLine_memOk ?_)
    exact List.foldlRecOn (motive := fun m => memWf m = true) x.sums _ ht fun m hm u _ => memWf_applyUpdate m line u hm

theorem mergeOwn_memOk {s : State} {p line : Nat} (h : s.memOk) : (s.mergeOwn p line).memOk :=
  ite_memOk (mergeLine_memOk h) h

theorem recall_memOk {s : State} {line : Nat} (h : s.memOk) : (s.recall line).memOk :=
  foldl_memOk h (fun _ _ => mergeOwn_memOk)

theorem flushLine_memOk {s : State} {p line : Nat} (h : s.memOk) : (s.flushLine p line).memOk :=
  modPlaza_memOk (mergeOwn_memOk (writeBack_memOk h))

theorem evictLine_memOk {s : State} {p : Nat} {lanes : Bool} {x : Line} (h : s.memOk) : (s.evictLine p lanes x).memOk :=
  ite_memOk (mergeLine_memOk h) (modPlaza_memOk (writeBackIn_memOk h))

theorem makeRoom_memOk {s : State} {p : Nat} {lanes : Bool} {line : Nat} (h : s.memOk) : (s.makeRoom p lanes line).2.memOk := by
  unfold State.makeRoom
  grind [evictLine_memOk]

theorem install_memOk {s : State} {p : Nat} {lanes : Bool} {x : Line} (h : s.memOk) : (s.install p lanes x).memOk := by
  unfold State.install
  grind [makeRoom_memOk, modPlaza_memOk]

theorem setLine_memOk {s : State} {p : Nat} {lanes : Bool} {x : Line} (h : s.memOk) : (s.setLine p lanes x).memOk := h

theorem askRemote_memOk {s : State} {who : Requester} {kind key size op : Nat} {data : List Byte} (h : s.memOk) :
    (s.askRemote who kind key size op data).memOk := by
  unfold State.askRemote
  split
  · split
    · exact h
    · split <;> exact h
  · exact request_memOk h

theorem setStale_memOk {s : State} {p : Nat} {stale : Bool} (h : s.memOk) : (s.setStale p stale).memOk :=
  ite_memOk (modPlace_memOk h) h

theorem viewStatus_memOk {α : Type} {s : State} {who : Requester} {st : Nat} {a : α} (h : s.memOk) : (s.viewStatus who st a).memOk := by
  unfold State.viewStatus
  split
  · exact h
  · split
    · exact h
    · split
      · exact setStale_memOk h
      · exact setStale_memOk h
      · exact h

theorem fetchLine_memOk {s : State} {who : Requester} {line : Nat} (h : s.memOk) : (s.fetchLine who line).memOk :=
  Res.ite_memOk (Res.andThen_memOk (askRemote_memOk h) (fun _ _ => viewStatus_memOk)) (Res.ite_memOk h (recall_memOk h))

theorem gather_memOk {s : State} {who : Requester} {lines : List Nat} (h : s.memOk) : (s.gather who lines).memOk := by
  unfold State.gather
  grind [State.memOk, foldl_memOk, Res.memOk, askRemote_memOk]

theorem gathered_memOk {s : State} {who : Requester} {far : List (Nat × List Byte)} {line : Nat} (h : s.memOk) :
    (s.gathered who far line).memOk := by
  unfold State.gathered
  split
  · exact viewStatus_memOk h
  · exact fetchLine_memOk h

theorem takeBytes_memOk {data : Row} {bad : BitVec 2} {key n : Nat} {s : State} (h : s.memOk) : (takeBytes data bad key n s).memOk :=
  Res.ite_memOk h h

theorem endRead_memOk {s : State} {who : Requester} {line : Nat} (h : s.memOk) : (s.endRead who line).memOk := h

theorem freeBytes_memOk {s : State} {n : Nat} (h : s.memOk) : (s.freeBytes n).2.memOk := h

theorem sharedValue_memOk {s : State} {p key n v : Nat} (h : s.memOk) : (s.sharedValue p key n v).2.memOk := by
  unfold State.sharedValue
  split
  · exact freeBytes_memOk h
  · exact h

theorem takeFrom_memOk {s : State} {p : Nat} {x : Line} {key n : Nat} (h : s.memOk) : (s.takeFrom p x key n).memOk := by
  unfold State.takeFrom
  grind [Res.memOk, freeBytes_memOk, takeBytes_memOk]

theorem loadL1_memOk {s : State} {who : Requester} {p : Nat} {lanes : Bool} {key n : Nat} {priv : Bool} (h : s.memOk) :
    (s.loadL1 who p lanes key n priv).memOk := by
  unfold State.loadL1
  grind [Res.memOk, mergeOwn_memOk, takeFrom_memOk, setLine_memOk, endRead_memOk, fetchLine_memOk, install_memOk]

theorem storeL1_memOk {s : State} {p : Nat} {lanes : Bool} {key n v : Nat} {priv : Bool} (h : s.memOk) :
    (s.storeL1 p lanes key n v priv).memOk := by
  unfold State.storeL1
  grind [mergeOwn_memOk, wakeLine_memOk, modPlaza_memOk, setLine_memOk, install_memOk]

theorem addUpdate_memOk {s : State} {p : Nat} {lanes : Bool} {line : Nat} {u : Update} (h : s.memOk) :
    (s.addUpdate p lanes line u).memOk := by
  unfold State.addUpdate
  grind [wakeLine_memOk, modPlaza_memOk, mergeLine_memOk, install_memOk]

theorem publishLines_memOk {s : State} {p : Nat} (h : s.memOk) : (s.publishLines p).1.memOk :=
  foldl_memOk h (fun _ _ ht => mergeOwn_memOk (writeBack_memOk ht))

theorem cancelReads_memOk {s : State} {f : Remote → Bool} (h : s.memOk) : (s.cancelReads f).memOk := h

theorem selfInvalidate_memOk {s : State} {p : Nat} (h : s.memOk) : (s.selfInvalidate p).memOk := h

theorem sendPublish_memOk {s : State} {id seq : Nat} {who : Requester} (h : s.memOk) : (s.sendPublish id seq who).memOk :=
  ite_memOk h (request_memOk h)

theorem holdRelease_memOk {s : State} {who : Requester} {key : Nat} (h : s.memOk) : (s.holdRelease who key).memOk := by
  unfold State.holdRelease
  split
  · exact h
  · exact ite_memOk h (addRemote_memOk h)

theorem endHold_memOk {s : State} {who : Requester} (h : s.memOk) : (s.endHold who).memOk := h

theorem rrtRoom_memOk {s0 : State} {who : Requester} {key : Nat} (h : s0.memOk) : (s0.rrtRoom who key).memOk := by
  unfold State.rrtRoom
  grind [Res.memOk, endHold_memOk, holdRelease_memOk, sendPublish_memOk]

theorem rrtRecord_memOk {s : State} {p key scope : Nat} (h : s.memOk) : (s.rrtRecord p key scope).memOk :=
  ite_memOk h h

theorem flushBlock_memOk {s : State} {p : Nat} {m : Master} {b : Nat} (h : s.memOk) : (s.flushBlock p m b).memOk :=
  foldl_memOk h (fun _ _ ht => ite_memOk (mergeOwn_memOk (writeBack_memOk ht)) ht)

theorem viewReadOne_memOk {s : State} {p : Nat} {delays : List Delay} {x : View × Master × Nat} (h : s.memOk) :
    (s.viewReadOne p delays x).2.memOk := by
  unfold State.viewReadOne
  grind [flushBlock_memOk]

theorem viewRead_memOk {s : State} {p key n : Nat} {delays : List Delay} {pinned : List (Nat × Nat)} (h : s.memOk) :
    (s.viewRead p key n delays pinned).2.memOk := by
  unfold State.viewRead
  split
  · exact h
  · split
    · exact h
    · refine List.foldlRecOn (motive := fun acc : ViewRead × State => acc.2.memOk) _ _ h fun acc hacc x _ => ?_
      grind [viewReadOne_memOk]

/-! ### Translation and handles (R100-R117) -/

theorem readTable_memOk {s : State} {key n : Nat} (h : s.memOk) : (s.readTable key n).2.memOk :=
  recall_memOk h

theorem walkDevice_memOk {s : State} {va n i : Nat} (h : s.memOk) : (s.walkDevice va n i).2.memOk := by
  induction n generalizing s i with
  | zero => exact ite_snd_memOk h (ite_snd_memOk (recall_memOk h) (recall_memOk h))
  | succ n ih =>
    exact ite_snd_memOk h (ite_snd_memOk (recall_memOk h) (ite_snd_memOk (recall_memOk h)
      (ite_snd_memOk (recall_memOk h) (ih (recall_memOk h)))))

theorem walkHost_memOk {s : State} {host d va n i : Nat} (h : s.memOk) : (s.walkHost host d va n i).2.memOk := by
  induction n generalizing s i with
  | zero => exact ite_snd_memOk h (ite_snd_memOk (recall_memOk h) (recall_memOk h))
  | succ n ih => exact ite_snd_memOk h (ite_snd_memOk (recall_memOk h) (ih (recall_memOk h)))

theorem walk_memOk {s : State} {pasid : Nat} {va : Word} (h : s.memOk) : (s.walk pasid va).2.memOk := by
  unfold State.walk
  grind [readTable_memOk, walkHost_memOk, walkDevice_memOk]

theorem translate_memOk {s : State} {p pasid : Nat} {va : Word} (h : s.memOk) : (s.translate p pasid va).memOk := by
  unfold State.translate
  grind [Res.memOk, walk_memOk, modPlaza_memOk]

theorem checkVa_memOk {s : State} {p pasid : Nat} {ea : Word} {size : Nat} {need : Need} (h : s.memOk) :
    (s.checkVa p pasid ea size need).memOk := by
  unfold State.checkVa
  grind [Res.memOk, translate_memOk]

theorem modHandle_memOk {s : State} {p n : Nat} {f : Handle → Handle} (h : s.memOk) : (s.modHandle p n f).memOk := h

theorem refresh_memOk {s : State} {p n : Nat} (h : s.memOk) : (s.refresh p n).memOk := by
  unfold State.refresh
  grind [Res.memOk, translate_memOk, modHandle_memOk]

theorem shootDown_memOk {s : State} {pasid base len : Nat} (h : s.memOk) : (s.shootDown pasid base len).memOk := h

/-! ### Named operations of the control core -/

theorem putBytes_memOk {s : State} {p key : Nat} {bytes : List Byte} (h : s.memOk) : (s.putBytes p key bytes).memOk := by
  unfold State.putBytes
  grind [foldl_memOk, getD_memOk, flushLine_memOk, writeLine_memOk]

theorem tryWrite_memOk {s : State} {w : HeldWrite} (h : s.memOk) : ∀ t, s.tryWrite w = some t → t.memOk := by
  unfold State.tryWrite
  grind [Res.memOk, translate_memOk, putBytes_memOk]

theorem writeVa_memOk {s : State} {p pasid : Nat} {va : Word} {bytes : List Byte} (h : s.memOk) : (s.writeVa p pasid va bytes).memOk := by
  unfold State.writeVa
  grind [State.memOk, getD_memOk, tryWrite_memOk]

theorem writeRuntime_memOk {s : State} {p : Nat} {va : Word} {bytes : List Byte} (h : s.memOk) : (s.writeRuntime p va bytes).memOk :=
  writeVa_memOk h

theorem wakeSupervisor_memOk {s : State} {p : Nat} (h : s.memOk) : (s.wakeSupervisor p).memOk :=
  ite_memOk (modPlaza_memOk h) (modPlaza_memOk (forgetRemotes_memOk h))

theorem settleWake_memOk {s : State} {p c : Nat} (h : s.memOk) : (s.settleWake p c).memOk := by
  unfold State.settleWake
  split
  · exact wakeSupervisor_memOk h
  · split
    · exact modCtx_memOk h
    · exact h

theorem openRecord_memOk {s : State} {p : Nat} {r : Record} (h : s.memOk) : (s.openRecord p r).memOk :=
  modPlaza_memOk (writeRuntime_memOk h)

theorem openNext_memOk {s : State} {p : Nat} (h : s.memOk) : (s.openNext p).memOk := by
  unfold State.openNext
  split
  · exact ite_memOk h (wakeSupervisor_memOk (openRecord_memOk h))
  · exact h

theorem deliver_memOk {s : State} {p : Nat} {r : Record} (h : s.memOk) : (s.deliver p r).memOk := by
  unfold State.deliver
  split
  · exact h
  · split
    · exact ite_memOk (modPlaza_memOk (openRecord_memOk h)) (modPlaza_memOk h)
    · exact ite_memOk (openNext_memOk (modPlaza_memOk h)) (wakeSupervisor_memOk (modPlaza_memOk (writeRuntime_memOk h)))

theorem supervisorFault_memOk {s : State} {p : Nat} {r : Record} (h : s.memOk) : (s.supervisorFault p r).memOk :=
  signal_memOk (modPlaza_memOk (writeRuntime_memOk h))

theorem takeTrap_memOk {s : State} {p c : Nat} {r : Record} (h : s.memOk) : (s.takeTrap p c r).memOk :=
  ite_memOk (supervisorFault_memOk h) (deliver_memOk (settleWake_memOk (modCtx_memOk h)))

theorem trap_memOk {s : State} {p c : Nat} {cause : Cause} {faddr : Word} (h : s.memOk) : (s.trap p c cause faddr).memOk :=
  takeTrap_memOk h

theorem trapAccess_memOk {s : State} {p c : Nat} {cause : Cause} {faddr : Word} {paddr : Nat} (h : s.memOk) :
    (s.trapAccess p c cause faddr paddr).memOk :=
  takeTrap_memOk h

theorem illegal_memOk {s : State} {p c : Nat} (h : s.memOk) : (s.illegal p c).memOk :=
  trap_memOk h

theorem privileged_memOk {s : State} {p c : Nat} (h : s.memOk) : (s.privileged p c).memOk :=
  trap_memOk h

theorem onContext_memOk {s : State} {legal : List Nat} {f : Nat → Nat → Out} (h : s.memOk) (hf : ∀ a b, Out.memOk (f a b)) :
    Out.memOk (onContext s legal f) := by
  unfold onContext
  split
  · exact Out.ite_memOk (hf _ _) (illegal_memOk h)
  · exact h

theorem retire_memOk {s : State} {p c : Nat} {f : Ctx → Ctx} (h : s.memOk) : (s.retire p c f).memOk :=
  settleWake_memOk (modCtx_memOk h)

theorem retireReg_memOk {s : State} {p c d : Nat} {v : Word} (h : s.memOk) : (s.retireReg p c d v).memOk :=
  retire_memOk h

theorem jump_memOk {s : State} {p c : Nat} {f : Ctx → Ctx} {target : Word} (h : s.memOk) : (s.jump p c f target).memOk :=
  settleWake_memOk (modCtx_memOk h)

theorem block_memOk {s : State} {p c : Nat} {i : Instr} (h : s.memOk) : (s.block p c i).memOk :=
  modCtx_memOk h

theorem onAccess_memOk {α : Type} {r : Res α} {p c : Nat} {i : Instr} {f : α → State → Out} (h : r.memOk)
    (hf : ∀ a t, t.memOk → Out.memOk (f a t)) :
    Out.memOk (onAccess r p c i f) := by
  unfold onAccess
  grind [Res.memOk, Out.memOk, block_memOk, illegal_memOk, trapAccess_memOk]

theorem onward_memOk {f : State → Out} {s : State} (hf : ∀ t, t.memOk → Out.memOk (f t)) (h : s.memOk) : (onward f s).memOk := by
  unfold onward
  grind [Out.memOk]

theorem runAll_memOk_of_mem {fs : List (State → Out)} {s : State} (h : s.memOk) (hfs : ∀ f ∈ fs, ∀ t, t.memOk → Out.memOk (f t)) :
    (runAll fs s).memOk :=
  List.foldlRecOn fs _ h fun _ ht f hf => onward_memOk (hfs f hf) ht
theorem runAll_memOk {fs : List (State → Out)} {s : State} (h : s.memOk) (hfs : fs.Forall fun f => ∀ t, t.memOk → Out.memOk (f t)) :
    (runAll fs s).memOk :=
  runAll_memOk_of_mem h (List.forall_iff_forall_mem.mp hfs)

theorem oldTlb_memOk {s old : State} {p : Nat} (h : s.memOk) : (s.oldTlb old p).memOk := h

theorem readILine_memOk {s : State} {who : Requester} {p pasid line : Nat} (h : s.memOk) : (s.readILine who p pasid line).memOk := by
  unfold State.readILine
  grind [Res.memOk, translate_memOk, oldTlb_memOk, Res.andThen_memOk, fetchLine_memOk]

theorem takeILine_memOk {s : State} {who : Requester} {p pasid line : Nat} (h : s.memOk) : (s.takeILine who p pasid line).memOk := by
  unfold State.takeILine
  grind [Res.memOk, modPlaza_memOk, Res.andThen_memOk, readILine_memOk]

theorem finishIFill_memOk {s : State} {p : Nat} {f : IFill} (h : s.memOk) : (s.finishIFill p f).memOk := by
  unfold State.finishIFill
  grind [State.memOk, Res.memOk, modPlaza_memOk, fetchLine_memOk]

theorem fetchWord_memOk {s : State} {who : Requester} {p pasid : Nat} {va : Word} (h : s.memOk) : (s.fetchWord who p pasid va).memOk := by
  unfold State.fetchWord
  grind [Res.memOk, Res.andThen_memOk, takeILine_memOk]

theorem fetchTrap_memOk {s : State} {p c : Nat} {faddr : Word} (h : s.memOk) : (s.fetchTrap p c faddr).memOk :=
  takeTrap_memOk h

theorem unfetch_memOk {s old : State} {p pasid line : Nat} {hit : Bool} (h : s.memOk) : (s.unfetch old p pasid line hit).memOk := h

theorem fetch_memOk {s : State} {p c : Nat} (h : s.memOk) : Fetch.memOk (s.fetch p c) := by
  unfold State.fetch
  grind [Fetch.memOk, Res.memOk, fetchWord_memOk, modCtx_memOk, illegal_memOk, trapAccess_memOk, fetchTrap_memOk, unfetch_memOk,
    oldTlb_memOk]

/-! ### Operands and results of the lanes -/

theorem onLane_memOk {s : State} {f : Nat → Nat → Out} (h : s.memOk) (hf : ∀ a b, Out.memOk (f a b)) : Out.memOk (onLane s f) := by
  unfold onLane
  split
  · exact hf _ _
  · exact h

theorem freeRow_memOk {s : State} (h : s.memOk) : (s.freeRow).2.memOk := h

theorem readOver_memOk {s : State} {p l row : Nat} {x : Row} (h : s.memOk) : (s.readOver p l row x).2.memOk := by
  unfold State.readOver
  grind [freeRow_memOk]

theorem readUnit_memOk {s : State} {p l row : Nat} (h : s.memOk) : (s.readUnit p l row).2.memOk :=
  readOver_memOk h

theorem tornRow_memOk {s : State} {p l row : Nat} (h : s.memOk) : (s.tornRow p l row).2.memOk := by
  unfold State.tornRow
  split
  · exact h
  · exact freeWord_memOk h

theorem readRow_memOk {s : State} {p l row : Nat} (h : s.memOk) : (s.readRow p l row).2.memOk := by
  unfold State.readRow
  grind [tornRow_memOk, readOver_memOk]

theorem readRing_memOk {s : State} {p l k : Nat} (h : s.memOk) : (s.readRing p l k).2.memOk := by
  unfold State.readRing
  split
  · split
    · exact h
    · exact freeRow_memOk h
  · exact freeRow_memOk h

theorem readScalar_memOk {s : State} {p l n : Nat} (h : s.memOk) : (s.readScalar p l n).2.memOk := by
  unfold State.readScalar
  split
  · exact freeWord_memOk h
  · exact h

theorem readPred_memOk {s : State} {p l n : Nat} (h : s.memOk) : (s.readPred p l n).2.memOk := by
  unfold State.readPred
  split
  · exact freeWord_memOk h
  · exact h

theorem operandW_memOk {s : State} {p l width code : Nat} (h : s.memOk) : (s.operandW p l width code).2.memOk := by
  unfold State.operandW
  grind [readRow_memOk, readRing_memOk, readScalar_memOk]

theorem operand_memOk {s : State} {p l code : Nat} (h : s.memOk) : (s.operand p l code).2.memOk :=
  operandW_memOk h

theorem scalarCode_memOk {s : State} {p l code : Nat} (h : s.memOk) : (s.scalarCode p l code).2.memOk :=
  readScalar_memOk h

theorem effMask_memOk {s : State} {p l n inv : Nat} (h : s.memOk) : (s.effMask p l n inv).2.memOk := by
  unfold State.effMask
  grind [readPred_memOk]

theorem issue_memOk {s : State} {p l bound : Nat} {counted : Bool} {dest : Dest} {ring : Bool} {data : Row} {mask : W32} (h : s.memOk) :
    (s.issue p l bound counted dest ring data mask).memOk :=
  h

theorem issueRow_memOk {s : State} {p l bound d : Nat} {data : Row} {em : W32} (h : s.memOk) : (s.issueRow p l bound d data em).memOk := h

theorem issueScalar_memOk {s : State} {p l bound d : Nat} {v : W32} (h : s.memOk) : (s.issueScalar p l bound d v).memOk := h

theorem issuePred_memOk {s : State} {p l bound d : Nat} {v : W32} (h : s.memOk) : (s.issuePred p l bound d v).memOk := h

theorem landedRow_memOk {s : State} {r : Result} {old : Row} (h : s.memOk) : (s.landedRow r old).2.memOk := by
  unfold State.landedRow
  split
  · exact h
  · exact freeRow_memOk h

theorem landedWord_memOk {s : State} {r : Result} (h : s.memOk) : (s.landedWord r).2.memOk := by
  unfold State.landedWord
  split
  · exact h
  · exact freeWord_memOk h

theorem landResult_memOk {s : State} {p l : Nat} {r : Result} (h : s.memOk) : (s.landResult p l r).memOk := by
  unfold State.landResult
  grind [modLane_memOk, landedRow_memOk, modPlaza_memOk, landedWord_memOk]

theorem land_memOk {s : State} {p l : Nat} {r : Result} (h : s.memOk) : (s.land p l r).memOk :=
  modLane_memOk (landResult_memOk h)

theorem landDue_memOk {s : State} {p l : Nat} (h : s.memOk) : (s.landDue p l).memOk :=
  modLane_memOk (foldl_memOk h (fun _ _ => landResult_memOk))

theorem putMem_memOk {s : State} {p key n v : Nat} {priv : Bool} (h : s.memOk) : (s.putMem p key n v priv).memOk :=
  List.foldlRecOn (motive := fun x : State × Nat => x.1.memOk) _ _ h fun _ hx _ _ => storeL1_memOk hx

theorem performPart_memOk {s : State} {p : Nat} {st : LaneStore} {x : Nat × Nat × Nat} (h : s.memOk) : (s.performPart p st x).memOk := by
  unfold State.performPart
  split
  · split
    · exact putMem_memOk h
    · exact modPlaza_memOk h
    · exact modPlaza_memOk h
    · exact modPlaza_memOk h

theorem performStore_memOk {s : State} {p l : Nat} {st : LaneStore} (h : s.memOk) : (s.performStore p l st).memOk :=
  modLane_memOk (foldl_memOk h (fun _ _ => performPart_memOk))

theorem performAll_memOk {s : State} {p l : Nat} (h : s.memOk) : (s.performAll p l).memOk :=
  foldl_memOk h (fun _ _ => performStore_memOk)

theorem orderStores_memOk {s : State} {p l cls : Nat} {space : StoreSpace} {rs : List (Nat × Nat)} (h : s.memOk) :
    (s.orderStores p l cls space rs).memOk :=
  foldl_memOk h (fun _ _ => performStore_memOk)

theorem issueStore_memOk {s : State} {p l cls : Nat} {space : StoreSpace} {parts : List (Nat × Nat × Nat)} {priv : Bool} (h : s.memOk) :
    (s.issueStore p l cls space parts priv).memOk :=
  h

theorem landAll_memOk {s : State} {p l : Nat} (h : s.memOk) : (s.landAll p l).memOk :=
  performAll_memOk (foldl_memOk h (fun _ _ => landResult_memOk))

theorem laneRetire_memOk {s : State} {p l len wait k : Nat} (h : s.memOk) : (s.laneRetire p l len wait k).memOk := h

theorem releaseLane_memOk {s : State} {p l : Nat} (h : s.memOk) : (s.releaseLane p l).memOk :=
  modLane_memOk (performAll_memOk (forgetRemotes_memOk (modPlace_memOk h)))

theorem freezeAt_memOk {s : State} {p seq : Nat} {r : Record} (h : s.memOk) : (s.freezeAt p seq r).memOk := by
  unfold State.freezeAt
  grind [foldl_memOk, releaseLane_memOk, modLane_memOk, modPlace_memOk]

theorem laneFaultOr_memOk {s : State} {p l : Nat} {r : Record} {on : State} (h : s.memOk) (hon : on.memOk) :
    (s.laneFaultOr p l r on).memOk := by
  unfold State.laneFaultOr
  split
  · exact h
  · exact ite_memOk hon (freezeAt_memOk h)

theorem laneFault_memOk {s : State} {p l : Nat} {r : Record} (h : s.memOk) : (s.laneFault p l r).memOk :=
  laneFaultOr_memOk h (laneRetire_memOk h)

theorem lanePass_memOk {s : State} {p l len : Nat} {r : Record} (h : s.memOk) : (s.lanePass p l len r).memOk :=
  laneFaultOr_memOk h (laneRetire_memOk h)

theorem laneIllegalAt_memOk {s : State} {p l len : Nat} {pc : Word} {w0 w1 : Nat} (h : s.memOk) :
    (s.laneIllegalAt p l len pc w0 w1).memOk :=
  lanePass_memOk h

theorem laneIllegalHere_memOk {s : State} {p l : Nat} (h : s.memOk) : (s.laneIllegalHere p l).memOk :=
  laneFault_memOk h

theorem skipRing_memOk {s : State} {p l : Nat} (h : s.memOk) : (s.skipRing p l).memOk := h

theorem lane1_memOk {bound : Nat} {f : W32 → W32} {d a q v len w k : Nat} {s : State} (h : s.memOk) :
    Out.memOk (lane1 bound f d a q v len w k s) := by
  unfold lane1
  grind [Out.memOk, onLane_memOk, operand_memOk, effMask_memOk, laneRetire_memOk, issueRow_memOk]

theorem lane2_memOk {bound : Nat} {f : W32 → W32 → W32} {d a b q v len w k : Nat} {s : State} (h : s.memOk) :
    Out.memOk (lane2 bound f d a b q v len w k s) := by
  unfold lane2
  grind [Out.memOk, onLane_memOk, operand_memOk, effMask_memOk, laneRetire_memOk, issueRow_memOk]

/-! ### Arithmetic of the shared subset -/

theorem sharedRR_memOk {f : (w : Nat) → BitVec w → BitVec w → BitVec w} {d a b x : Nat} {s : State} (h : s.memOk) :
    Out.memOk (sharedRR f d a b x s) := by
  unfold sharedRR
  grind [Out.memOk, retireReg_memOk, readScalar_memOk, laneRetire_memOk, issueScalar_memOk]

theorem sharedR_memOk {f : (w : Nat) → BitVec w → BitVec w} {d a x : Nat} {s : State} (h : s.memOk) : Out.memOk (sharedR f d a x s) := by
  unfold sharedR
  grind [Out.memOk, retireReg_memOk, readScalar_memOk, laneRetire_memOk, issueScalar_memOk]

theorem controlRR_memOk {f : (w : Nat) → BitVec w → BitVec w → BitVec w} {d a b x : Nat} {s : State} (h : s.memOk) :
    Out.memOk (controlRR f d a b x s) := by
  unfold controlRR
  split
  · exact retireReg_memOk h
  · exact laneIllegalHere_memOk h
  · exact h

theorem execFqry_memOk {d w : Nat} {s : State} (h : s.memOk) : Out.memOk (execFqry d w s) := by
  unfold execFqry
  split
  · exact retireReg_memOk h
  · exact laneRetire_memOk (issueScalar_memOk h)
  · exact h

theorem execFence_memOk {m : Nat} {s : State} (h : s.memOk) : Out.memOk (execFence m s) := by
  unfold execFence
  split
  · exact retire_memOk h
  · exact laneRetire_memOk (modLane_memOk h)
  · exact h

theorem execNop_memOk {s : State} (h : s.memOk) : Out.memOk (execNop s) := by
  unfold execNop
  split
  · exact retire_memOk h
  · exact laneRetire_memOk h
  · exact h

/-! ### Asynchronous traps -/

theorem takeAsync_memOk {s : State} {p c : Nat} {r : Record} (h : s.memOk) : (s.takeAsync p c r).memOk :=
  deliver_memOk (ite_memOk (modCtx_memOk (forgetRemotes_memOk h)) h)

theorem raiseAsync_memOk {s : State} {p c : Nat} {r : Record} (h : s.memOk) : (s.raiseAsync p c r).memOk :=
  ite_memOk (modPlace_memOk h) (takeAsync_memOk h)

theorem takeKept_memOk {s : State} {p c : Nat} (h : s.memOk) : ∀ t, s.takeKept p c = some t → t.memOk := by
  unfold State.takeKept
  grind [takeAsync_memOk, modPlace_memOk]

/-! ### Loads, stores and synchronising accesses (R57-R66) -/

theorem readAs_memOk {s : State} {p c pasid : Nat} {ea : Word} {n align : Nat} (h : s.memOk) : (s.readAs p c pasid ea n align).memOk := by
  unfold State.readAs
  grind [Res.memOk, Res.andThen_memOk, checkVa_memOk, viewRead_memOk, Res.at_memOk, loadL1_memOk, fetchLine_memOk, takeBytes_memOk,
    setStale_memOk, modCtx_memOk]

theorem readData_memOk {s : State} {p c : Nat} {ea : Word} {n : Nat} (h : s.memOk) : (s.readData p c ea n).memOk :=
  readAs_memOk h

theorem writeData_memOk {s : State} {p c : Nat} {ea : Word} {n v : Nat} (h : s.memOk) : (s.writeData p c ea n v).memOk :=
  Res.andThen_memOk (checkVa_memOk h) (fun _ _ => storeL1_memOk)

theorem load_memOk {i : Instr} {n : Nat} {ext : Nat → Word} {d a o : Nat} {s : State} (h : s.memOk) : Out.memOk (load i n ext d a o s) :=
  onContext_memOk h (fun _ _ => onAccess_memOk (readData_memOk h) (fun _ _ => retireReg_memOk))

theorem store_memOk {i : Instr} {n r a o : Nat} {s : State} (h : s.memOk) : Out.memOk (store i n r a o s) :=
  onContext_memOk h (fun _ _ => onAccess_memOk (writeData_memOk h) (fun _ _ => retire_memOk))

theorem foundReply_memOk {who : Requester} {key n : Nat} {bs : List Byte} {s : State} (h : s.memOk) : (foundReply who key n bs s).memOk :=
  Res.ite_memOk h (viewStatus_memOk h)

theorem refreshCopies_memOk {s : State} {p key n v : Nat} (h : s.memOk) : (s.refreshCopies p key n v).memOk := h

theorem readHome_memOk {s : State} {who : Requester} {p key n : Nat} (h : s.memOk) : (s.readHome who p key n).memOk := by
  unfold State.readHome
  grind [Res.memOk, mergeOwn_memOk, sharedValue_memOk, refreshCopies_memOk, Res.andThen_memOk, askRemote_memOk, foundReply_memOk,
    recall_memOk, takeBytes_memOk]

theorem resumeAcquire_memOk {s : State} {p c : Nat} (h : s.memOk) : ∀ r, s.resumeAcquire p c = some r → r.memOk := by
  intro r hr
  obtain ⟨a, -, rfl⟩ := Option.map_eq_some_iff.mp hr
  exact Res.ite_memOk (modCtx_memOk h) (Res.ite_memOk (modCtx_memOk (ite_memOk h (selfInvalidate_memOk h))) h)

theorem acquireWith_memOk {s : State} {p c sc : Nat} {v : Word} {e : Option (Nat × Nat)} (h : s.memOk) :
    (s.acquireWith p c sc v e).memOk := by
  unfold State.acquireWith
  split
  · exact h
  · split
    · exact selfInvalidate_memOk h
    · exact Res.ite_memOk h (Res.ite_memOk (sendPublish_memOk (modCtx_memOk h)) (selfInvalidate_memOk h))

theorem execLda_memOk {d a cl sc z o : Nat} {s : State} (h : s.memOk) : Out.memOk (execLda d a cl sc z o s) := by
  unfold execLda
  grind [Out.memOk, onContext_memOk, resumeAcquire_memOk, Res.andThen_memOk, checkVa_memOk, readData_memOk, acquireWith_memOk,
    readHome_memOk, onAccess_memOk, Res.at_memOk, retireReg_memOk]

theorem tellRemote_memOk {s : State} {who as_ : Requester} {kind key size op : Nat} {data : List Byte} (h : s.memOk) :
    (s.tellRemote who as_ kind key size op data).memOk := by
  unfold State.tellRemote
  extract_lets unsent gone m f send
  have hsend : ∀ t, send = some t → t.memOk := map_memOk fun _ _ => request_memOk h
  split
  · next t _ e => exact Res.ite_memOk h (show (gone t).memOk from hsend t e)
  · exact Res.ite_memOk h h
  · next e => exact hsend _ e
  · exact addRemote_memOk h

theorem writeWord_memOk {s : State} {p key n v : Nat} (h : s.memOk) : (s.writeWord p key n v).memOk :=
  writeHere_memOk (wakeLine_memOk h)

theorem releaseStore_memOk {s : State} {who : Requester} {p sc key n v : Nat} (h : s.memOk) : (s.releaseStore who p sc key n v).memOk :=
  Res.ite_memOk (Res.andThen_memOk (askRemote_memOk (mergeOwn_memOk h)) (fun _ _ ht => modPlaza_memOk (wakeLine_memOk ht)))
    (Res.ite_memOk (mergeOwn_memOk h)
      (Res.andThen_memOk (rrtRoom_memOk (mergeOwn_memOk h)) (fun _ _ ht => rrtRecord_memOk (writeWord_memOk (modPlaza_memOk ht)))))

theorem execStrel_memOk {r a cl sc z o : Nat} {s : State} (h : s.memOk) : Out.memOk (execStrel r a cl sc z o s) :=
  onContext_memOk h
    (fun _ _ => onAccess_memOk (Res.at_memOk (Res.andThen_memOk (checkVa_memOk h) (fun _ _ => releaseStore_memOk)))
      (fun _ _ => retire_memOk))

theorem atomicHere_memOk {s : State} {who : Requester} {p key n order sc : Nat} {f : Nat → Option Nat} (h : s.memOk) :
    (s.atomicHere who p key n order sc f).memOk := by
  unfold State.atomicHere
  grind [Res.memOk, recall_memOk, Res.andThen_memOk, takeBytes_memOk, sharedValue_memOk, rrtRoom_memOk, rrtRecord_memOk, writeWord_memOk]

theorem atomicAt_memOk {s : State} {who : Requester} {p key n op order sc : Nat} {data : List Byte} {f : Nat → Option Nat} (h : s.memOk) :
    (s.atomicAt who p key n op order sc data f).memOk := by
  unfold State.atomicAt
  grind [Res.memOk, flushLine_memOk, Res.andThen_memOk, askRemote_memOk, foundReply_memOk, wakeLine_memOk, sharedValue_memOk,
    atomicHere_memOk]

theorem atomic_memOk {i : Instr} {d a n op order sc : Nat} {data : List Byte} {f : Nat → Option Nat} {s : State} (h : s.memOk) :
    Out.memOk (atomic i d a n op order sc data f s) := by
  unfold atomic
  grind [Res.memOk, Out.memOk, onContext_memOk, resumeAcquire_memOk, Res.andThen_memOk, checkVa_memOk, atomicAt_memOk, acquireWith_memOk,
    onAccess_memOk, Res.at_memOk, retireReg_memOk]

theorem execAmo_memOk {d a b z sc o op : Nat} {s : State} (h : s.memOk) : Out.memOk (execAmo d a b z sc o op s) := by
  unfold execAmo
  split
  · exact atomic_memOk h
  · exact h

theorem execCas_memOk {d a b z sc o c : Nat} {s : State} (h : s.memOk) : Out.memOk (execCas d a b z sc o c s) := by
  unfold execCas
  split
  · exact atomic_memOk h
  · exact h

theorem commute_memOk {s : State} {who : Requester} {p : Nat} {lanes : Bool} {key n op b : Nat} (h : s.memOk) :
    (s.commute who p lanes key n op b).memOk :=
  Res.ite_memOk (addUpdate_memOk h) (Res.andThen_memOk (atomicAt_memOk h) (fun _ _ ht => ht))

theorem commutative_memOk {i : Instr} {a b n op : Nat} {s : State} (h : s.memOk) : Out.memOk (commutative i a b n op s) :=
  onContext_memOk h
    (fun _ _ => onAccess_memOk (Res.at_memOk (Res.andThen_memOk (checkVa_memOk h) (fun _ _ => commute_memOk))) (fun _ _ => retire_memOk))

theorem execAmoAddc_memOk {a b z : Nat} {s : State} (h : s.memOk) : Out.memOk (execAmoAddc a b z s) :=
  commutative_memOk h

theorem execAmoFaddc_memOk {a b : Nat} {s : State} (h : s.memOk) : Out.memOk (execAmoFaddc a b s) := by
  unfold execAmoFaddc
  split
  · exact Out.ite_memOk (commutative_memOk h) (illegal_memOk h)
  · exact h

theorem execWaitm_memOk {d a b z sc cond : Nat} {s0 : State} (h : s0.memOk) : Out.memOk (execWaitm d a b z sc cond s0) := by
  unfold execWaitm
  grind [Res.memOk, Out.memOk, onContext_memOk, modCtx_memOk, resumeAcquire_memOk, Res.andThen_memOk, checkVa_memOk, readData_memOk,
    readHome_memOk, acquireWith_memOk, onAccess_memOk, Res.at_memOk, retireReg_memOk]

theorem execLix_memOk {d i : Nat} {s : State} (h : s.memOk) : Out.memOk (execLix d i s) :=
  onContext_memOk h (fun _ _ => retireReg_memOk h)

theorem execLixh_memOk {d i : Nat} {s : State} (h : s.memOk) : Out.memOk (execLixh d i s) :=
  onContext_memOk h (fun _ _ => retireReg_memOk h)

/-! ### Handles (R106-R116) -/

theorem endXlt_memOk {s : State} {p c n perms : Nat} {va : Word} {r : Option Trans} (h : s.memOk) : (s.endXlt p c n perms va r).memOk := by
  unfold State.endXlt
  split
  · exact trap_memOk (ite_memOk (modHandle_memOk h) h)
  · exact ite_memOk (trap_memOk (ite_memOk (modHandle_memOk h) h))
      (ite_memOk (trap_memOk (ite_memOk (modHandle_memOk h) h)) (retire_memOk (ite_memOk (modHandle_memOk h) h)))

theorem execXlt_memOk {n a perms : Nat} {s : State} (h : s.memOk) : Out.memOk (execXlt n a perms s) := by
  unfold execXlt
  grind [Out.memOk, onContext_memOk, modHandle_memOk, endXlt_memOk, modCtx_memOk, block_memOk]

theorem execTranslationWalkEnd_memOk {p n : Nat} {s : State} (h : s.memOk) : Out.memOk (execTranslationWalkEnd p n s) := by
  unfold execTranslationWalkEnd
  grind [foldl_memOk, Res.memOk, Out.memOk, translate_memOk, endXlt_memOk]

theorem execHinv_memOk {n : Nat} {s : State} (h : s.memOk) : Out.memOk (execHinv n s) :=
  onContext_memOk h (fun _ _ => retire_memOk (modHandle_memOk h))

theorem execHinvAll_memOk {s : State} (h : s.memOk) : Out.memOk (execHinvAll s) :=
  onContext_memOk h (fun _ _ => retire_memOk (modPlace_memOk h))

theorem execHget_memOk {d n : Nat} {s : State} (h : s.memOk) : Out.memOk (execHget d n s) :=
  onContext_memOk h (fun _ _ => retireReg_memOk h)

theorem execHgetva_memOk {d n : Nat} {s : State} (h : s.memOk) : Out.memOk (execHgetva d n s) :=
  onContext_memOk h (fun _ _ => retireReg_memOk h)

theorem refreshFault_memOk {s : State} {p n : Nat} {cause : Cause} (h : s.memOk) : (s.refreshFault p n cause).memOk := by
  unfold State.refreshFault
  grind [modHandle_memOk, modPlace_memOk]

theorem execHandleRefresh_memOk {p n : Nat} {s : State} (h : s.memOk) : Out.memOk (execHandleRefresh p n s) := by
  unfold execHandleRefresh
  grind [Res.memOk, Out.memOk, refresh_memOk, refreshFault_memOk]

/-! ### Shape registers and tokens -/

theorem setShape_memOk {s : State} {p n : Nat} {v : BitVec 512} (h : s.memOk) : (s.setShape p n v).memOk := h

theorem execShld_memOk {n a c : Nat} {s : State} (h : s.memOk) : Out.memOk (execShld n a c s) :=
  onContext_memOk h (fun _ _ => onAccess_memOk (readData_memOk h) (fun _ _ ht => retire_memOk (setShape_memOk ht)))

theorem execShst_memOk {n a c : Nat} {s : State} (h : s.memOk) : Out.memOk (execShst n a c s) :=
  onContext_memOk h (fun _ _ => onAccess_memOk (writeData_memOk h) (fun _ _ => retire_memOk))

theorem execShset_memOk {n a f : Nat} {s : State} (h : s.memOk) : Out.memOk (execShset n a f s) :=
  onContext_memOk h (fun _ _ => retire_memOk (setShape_memOk h))

theorem execShget_memOk {d n f : Nat} {s : State} (h : s.memOk) : Out.memOk (execShget d n f s) :=
  onContext_memOk h (fun _ _ => retireReg_memOk h)

theorem twaitMask_memOk {i : Instr} {mask : Nat → Nat → Nat} {s : State} (h : s.memOk) : Out.memOk (twaitMask i mask s) :=
  onContext_memOk h (fun _ _ => Out.ite_memOk (block_memOk h) (Out.ite_memOk (trap_memOk h) (retire_memOk h)))

theorem execTtest_memOk {d n : Nat} {s : State} (h : s.memOk) : Out.memOk (execTtest d n s) :=
  onContext_memOk h (fun _ _ => retireReg_memOk h)

theorem execTtestOut_memOk {d : Nat} {s : State} (h : s.memOk) : Out.memOk (execTtestOut d s) :=
  onContext_memOk h (fun _ _ => retireReg_memOk h)

theorem execTtestFailed_memOk {d : Nat} {s : State} (h : s.memOk) : Out.memOk (execTtestFailed d s) :=
  onContext_memOk h (fun _ _ => retireReg_memOk h)

theorem freeTokens_memOk {s : State} {p m : Nat} (h : s.memOk) : (s.freeTokens p m).memOk := h

theorem tfreeMask_memOk {i : Instr} {mask : Nat → Nat → Nat} {s : State} (h : s.memOk) : Out.memOk (tfreeMask i mask s) :=
  onContext_memOk h (fun _ _ => Out.ite_memOk (block_memOk (freeTokens_memOk h)) (retire_memOk (freeTokens_memOk h)))

/-! ### The avenue and the alley -/

theorem append_memOk {s : State} {p c : Nat} {desc : Word} {mask : W32} {ops : Word × Word} {entry : Nat} {ordered : Bool} {w : Wait}
    (h : s.memOk) :
    (s.append p c desc mask ops entry ordered w).memOk :=
  h

theorem execEmit_memOk {d a b e o t : Nat} {s : State} (h : s.memOk) : Out.memOk (execEmit d a b e o t s) :=
  onContext_memOk h
    (fun _ _ => Out.ite_memOk (illegal_memOk h)
      (Out.ite_memOk (retireReg_memOk h) (Out.ite_memOk (block_memOk h) (retireReg_memOk (append_memOk h)))))

theorem execSplit_memOk {d a b r e o t f : Nat} {s : State} (h : s.memOk) : Out.memOk (execSplit d a b r e o t f s) := by
  unfold execSplit
  grind [foldl_memOk, Out.memOk, onContext_memOk, illegal_memOk, block_memOk, retireReg_memOk, append_memOk]

theorem pop_memOk {s : State} {p : Nat} (h : s.memOk) : (s.pop p).memOk := h

theorem popEntry_memOk {d b : Nat} {empty : Nat → Nat → Out} {s : State} (hempty : ∀ a b, Out.memOk (empty a b)) (h : s.memOk) :
    Out.memOk (popEntry d b empty s) := by
  unfold popEntry
  grind [Out.memOk, onContext_memOk, retire_memOk, pop_memOk]

theorem execPopp_memOk {d b : Nat} {s : State} (h : s.memOk) : Out.memOk (execPopp d b s) :=
  popEntry_memOk (fun _ _ => block_memOk h) h

theorem execPoppn_memOk {d b : Nat} {s : State} (h : s.memOk) : Out.memOk (execPoppn d b s) :=
  popEntry_memOk (fun _ _ => retire_memOk h) h

theorem execBseq_memOk {d sel : Nat} {s : State} (h : s.memOk) : Out.memOk (execBseq d sel s) :=
  onContext_memOk h (fun _ _ => retireReg_memOk h)

theorem execBwait_memOk {a : Nat} {s : State} (h : s.memOk) : Out.memOk (execBwait a s) :=
  onContext_memOk h (fun _ _ => Out.ite_memOk (block_memOk h) (retire_memOk h))

/-! ### The barrier of a job -/

theorem execJbar_memOk {d m : Nat} {s : State} (h : s.memOk) : Out.memOk (execJbar d m s) := by
  unfold execJbar
  grind [Out.memOk, onContext_memOk, illegal_memOk, modCtx_memOk, block_memOk, sendPublish_memOk, selfInvalidate_memOk, freeDouble_memOk,
    retire_memOk, trapAccess_memOk]

/-! ### Lane memory and VAMO (R161-R167, R225) -/

theorem accessFault_memOk {s : State} {p l n : Nat} {fs : List Faulted} (h : s.memOk) : (s.accessFault p l n fs).memOk := by
  unfold State.accessFault
  split
  · exact h
  · exact ite_memOk (laneIllegalHere_memOk h) (laneFault_memOk h)

theorem withHandle_memOk {p l hn n : Nat} {need : Need} {byAddress : Bool} {offs : List (Nat × Nat)} {gone s : State}
    {go : List Access → List Faulted → State → Out} (h : gone.memOk) (hs : s.memOk) (hgo : ∀ a b t, t.memOk → Out.memOk (go a b t)) :
    Out.memOk (withHandle p l hn n need byAddress offs gone s go) := by
  unfold withHandle
  grind [Out.memOk, modHandle_memOk]

theorem loadPieces_memOk {s : State} {p l : Nat} {priv : Bool} {x : List (Nat × Nat)} (h : s.memOk) : (s.loadPieces p l priv x).memOk := by
  induction x generalizing s with
  | nil => exact h
  | cons y t ih => exact Res.andThen_memOk (loadL1_memOk h) fun _ _ hu => Res.andThen_memOk (ih hu) fun _ _ hy => hy

theorem homePieces_memOk {s : State} {p l : Nat} {far : List (Nat × List Byte)} {x : List (Nat × Nat)} (h : s.memOk) :
    (s.homePieces p l far x).memOk := by
  induction x generalizing s with
  | nil => exact h
  | cons y t ih =>
    exact Res.andThen_memOk (gathered_memOk h) fun _ _ hu => Res.andThen_memOk (takeBytes_memOk hu) fun _ _ hy =>
      Res.andThen_memOk (ih hy) fun _ _ hz => hz

theorem viewLanes_memOk {s : State} {p l n : Nat} {ds : List Delay} {x : List Access} (h : s.memOk) : (s.viewLanes p l n ds x).2.memOk := by
  induction x generalizing s with
  | nil => exact h
  | cons a t ih => unfold State.viewLanes; grind [viewRead_memOk, setStale_memOk]

theorem loadLanes_memOk {s : State} {p l n : Nat} {x : List (Access × LaneRead)} (h : s.memOk) : (s.loadLanes p l n x).memOk := by
  induction x generalizing s with
  | nil => exact h
  | cons a t ih =>
    unfold State.loadLanes
    grind [Res.memOk, Res.andThen_memOk, loadPieces_memOk, homePieces_memOk]

theorem gatherLanes_memOk {s : State} {p l n : Nat} {as : List (Access × LaneRead)} (h : s.memOk) : (s.gatherLanes p l n as).memOk := by
  unfold State.gatherLanes
  grind [Res.memOk, gather_memOk]

theorem dropReads_memOk {s : State} {p l : Nat} (h : s.memOk) : (s.dropReads p l).memOk := h

theorem laneLoad_memOk {d hn n cls : Nat} {byAddress : Bool} {offs : List (Nat × Nat)} {em : W32} {ext : Nat → W32} {w k p l : Nat}
    {s : State} (h : s.memOk) :
    Out.memOk (laneLoad d hn n cls byAddress offs em ext w k p l s) := by
  unfold laneLoad
  grind [Res.memOk, Out.memOk, withHandle_memOk, laneRetire_memOk, skipRing_memOk, orderStores_memOk, viewLanes_memOk, dropReads_memOk,
    modLane_memOk, Res.andThen_memOk, gatherLanes_memOk, loadLanes_memOk, issue_memOk, accessFault_memOk]

theorem laneStore_memOk {hn n cls : Nat} {byAddress : Bool} {offs : List (Nat × Nat)} {data : Row} {w k p l : Nat} {s : State} (h : s.memOk)
    :
    Out.memOk (laneStore hn n cls byAddress offs data w k p l s) :=
  withHandle_memOk (laneRetire_memOk h) h
    (fun _ _ _ ht => ite_memOk (laneRetire_memOk (issueStore_memOk ht)) (accessFault_memOk (issueStore_memOk ht)))

theorem unitOffs_memOk {s : State} {p l a i : Nat} {em : W32} (h : s.memOk) : (s.unitOffs p l a i em).2.memOk := by
  unfold State.unitOffs
  grind [scalarCode_memOk]

theorem gatherOffs_memOk {s : State} {p l a b : Nat} {em : W32} (h : s.memOk) : (s.gatherOffs p l a b em).2.memOk := by
  unfold State.gatherOffs
  grind [operand_memOk]

theorem execVldu_memOk {d a hn i c q v w k : Nat} {s : State} (h : s.memOk) : Out.memOk (execVldu d a hn i c q v w k s) := by
  unfold execVldu
  grind [onLane_memOk, effMask_memOk, unitOffs_memOk, laneLoad_memOk]

theorem execVldg_memOk {d a b hn t c q v w k : Nat} {s : State} (h : s.memOk) : Out.memOk (execVldg d a b hn t c q v w k s) := by
  unfold execVldg
  grind [onLane_memOk, effMask_memOk, gatherOffs_memOk, laneLoad_memOk]

theorem execVstu_memOk {a b hn i c q v w k : Nat} {s : State} (h : s.memOk) : Out.memOk (execVstu a b hn i c q v w k s) := by
  unfold execVstu
  grind [onLane_memOk, effMask_memOk, unitOffs_memOk, operand_memOk, laneStore_memOk]

theorem execVstg_memOk {a b y hn t c q v w k : Nat} {s : State} (h : s.memOk) : Out.memOk (execVstg a b y hn t c q v w k s) := by
  unfold execVstg
  grind [onLane_memOk, effMask_memOk, gatherOffs_memOk, operand_memOk, laneStore_memOk]

theorem scratchRow_memOk {s : State} {p l a i : Nat} (h : s.memOk) : (s.scratchRow p l a i).2.memOk := by
  unfold State.scratchRow
  grind [scalarCode_memOk]

theorem scratchFault_memOk {s : State} {p l : Nat} {o : ℤ} {em : W32} (h : s.memOk) : (s.scratchFault p l o em).memOk :=
  laneFault_memOk h

theorem execVlds_memOk {d a i c q v w k : Nat} {s : State} (h : s.memOk) : Out.memOk (execVlds d a i c q v w k s) := by
  unfold execVlds
  grind [Out.memOk, onLane_memOk, effMask_memOk, scratchRow_memOk, scratchFault_memOk, skipRing_memOk, orderStores_memOk, laneRetire_memOk,
    issueRow_memOk]

theorem execVsts_memOk {a b i c q v w k : Nat} {s : State} (h : s.memOk) : Out.memOk (execVsts a b i c q v w k s) := by
  unfold execVsts
  grind [Out.memOk, onLane_memOk, effMask_memOk, scratchRow_memOk, operand_memOk, scratchFault_memOk, laneRetire_memOk, issueStore_memOk]

theorem execVldb_memOk {d a g z i c q v w k : Nat} {s : State} (h : s.memOk) : Out.memOk (execVldb d a g z i c q v w k s) := by
  unfold execVldb
  grind [Out.memOk, onLane_memOk, effMask_memOk, scalarCode_memOk, orderStores_memOk, readUnit_memOk, laneRetire_memOk, issueRow_memOk]

theorem execVstb_memOk {a b g z i c q v w k : Nat} {s : State} (h : s.memOk) : Out.memOk (execVstb a b g z i c q v w k s) := by
  unfold execVstb
  grind [Out.memOk, onLane_memOk, effMask_memOk, scalarCode_memOk, operand_memOk, laneRetire_memOk, issueStore_memOk, orderStores_memOk,
    modPlaza_memOk, modLane_memOk]

theorem putOld_memOk {s : State} {p l i d old : Nat} (h : s.memOk) : (s.putOld p l i d old).memOk := by
  unfold State.putOld
  split
  · exact modPlaza_memOk h
  · exact h

theorem noteAmo_memOk {s : State} {p l i old : Nat} {e : Option (Nat × Nat)} {acquires : Bool} {sc : Nat} (h : s.memOk) :
    (s.noteAmo p l i old e acquires sc).memOk :=
  h

theorem amoLanes_memOk {s : State} {p l d op order sc : Nat} {data : Row} {as : List Access} (h : s.memOk) :
    AmoRun.memOk (s.amoLanes p l d op order sc data as) := by
  induction as generalizing s with
  | nil => exact h
  | cons a t ih =>
    unfold State.amoLanes
    grind [AmoRun.memOk, Res.memOk, Res.andThen_memOk, commute_memOk, atomicAt_memOk, noteAmo_memOk, putOld_memOk]

theorem amoResult_memOk {s : State} {p l op d : Nat} (h : s.memOk) : (s.amoResult p l op d).memOk :=
  ite_memOk h (issue_memOk h)

theorem endAmo_memOk {s : State} {p l op d w k : Nat} (h : s.memOk) : (s.endAmo p l op d w k).memOk :=
  modLane_memOk (laneRetire_memOk (amoResult_memOk (ite_memOk (selfInvalidate_memOk h) h)))

theorem amoAcquire_memOk {s : State} {p l op d hn w k : Nat} {as : List (Nat × Nat)} (h : s.memOk) :
    (s.amoAcquire p l op d hn w k as).memOk := by
  unfold State.amoAcquire
  split
  · exact endAmo_memOk h
  · split
    · exact sendPublish_memOk (modLane_memOk h)
    · exact ite_memOk (ite_memOk (endAmo_memOk (modLane_memOk h)) (accessFault_memOk (modLane_memOk h))) h

theorem amoNext_memOk {s : State} {p l : Nat} (h : s.memOk) : (s.amoNext p l).memOk := by
  unfold State.amoNext
  split
  · exact ite_memOk (modLane_memOk h) h
  · exact h

theorem amoFault_memOk {s : State} {p l op d hn w k : Nat} {as : List (Nat × Nat)} {fs : List Faulted} (h : s.memOk) :
    (s.amoFault p l op d hn w k as fs).memOk :=
  ite_memOk (amoAcquire_memOk (amoNext_memOk h)) (accessFault_memOk (modLane_memOk h))

theorem amoRun_memOk {s : State} {p l d o hn r sc c w k : Nat} {data : Row} {all : List (Nat × Nat)} {as : List Access} (h : s.memOk) :
    (s.amoRun p l d o hn r sc c w k data all as).memOk := by
  unfold State.amoRun
  grind [AmoRun.memOk, amoLanes_memOk, performAll_memOk, orderStores_memOk, amoFault_memOk, amoNext_memOk, amoAcquire_memOk]

theorem execVamo_memOk {d a b y hn sc r o t c q v w k : Nat} {s : State} (h : s.memOk) :
    Out.memOk (execVamo d a b y hn sc r o t c q v w k s) := by
  unfold execVamo
  grind [Out.memOk, onLane_memOk, laneIllegalHere_memOk, effMask_memOk, gatherOffs_memOk, operand_memOk, modLane_memOk, laneRetire_memOk,
    skipRing_memOk, amoRun_memOk, withHandle_memOk, amoFault_memOk]

/-! ### The life of a block -/

theorem execBlockDispatch_memOk {p : Nat} {s : State} (h : s.memOk) : Out.memOk (execBlockDispatch p s) := by
  unfold execBlockDispatch
  split
  · exact Out.ite_memOk (freezeAt_memOk (modPlace_memOk h)) (modPlace_memOk h)
  · exact h

theorem execLaneResultLands_memOk {p l n : Nat} {s : State} (h : s.memOk) : Out.memOk (execLaneResultLands p l n s) := by
  unfold execLaneResultLands
  split
  · exact ite_memOk h (land_memOk h)
  · exact h

theorem landPart_memOk {s : State} {p l n : Nat} {words : W32} (h : s.memOk) : (s.landPart p l n words).memOk := by
  unfold State.landPart
  split
  · split
    · exact ite_memOk h (modPlaza_memOk h)
    · exact h
  · exact h

theorem execLaneStorePerforms_memOk {p l n : Nat} {s : State} (h : s.memOk) : Out.memOk (execLaneStorePerforms p l n s) := by
  unfold execLaneStorePerforms
  grind [Out.memOk, performStore_memOk]

theorem execRegionMarker_memOk {p l : Nat} {s : State} (h : s.memOk) : Out.memOk (execRegionMarker p l s) :=
  Out.ite_memOk (modLane_memOk h) h

theorem execBlockComplete_memOk {p l : Nat} {s : State} (h : s.memOk) : Out.memOk (execBlockComplete p l s) :=
  Out.ite_memOk (modPlace_memOk h) h

theorem retireBlock_memOk {s : State} {p : Nat} {b : Block} (h : s.memOk) : (s.retireBlock p b).memOk := h

theorem execBlockRetire_memOk {p : Nat} {s : State} (h : s.memOk) : Out.memOk (execBlockRetire p s) := by
  unfold execBlockRetire
  split
  · exact modPlace_memOk h
  · exact Out.ite_memOk (retireBlock_memOk h) (Out.ite_memOk (retireBlock_memOk h) h)

theorem settleBlocks_memOk {s : State} {p : Nat} (h : s.memOk) : (s.settleBlocks p).memOk := by
  refine runAll_memOk_of_mem (runAll_memOk_of_mem h ?_) (List.forall_mem_append.mpr ⟨?_, ?_⟩)
  · exact List.forall_mem_map.mpr fun _ _ _ => execBlockComplete_memOk
  · exact List.forall_mem_map.mpr fun _ _ _ => execBlockRetire_memOk
  · exact List.forall_mem_singleton.mpr fun _ => execBlockDispatch_memOk

theorem execBcancel_memOk {d a : Nat} {s : State} (h : s.memOk) : Out.memOk (execBcancel d a s) :=
  onContext_memOk h (fun _ _ => retireReg_memOk (modPlace_memOk (settleBlocks_memOk h)))

theorem execAlleyEntryPoppable_memOk {p : Nat} {s : State} (h : s.memOk) : Out.memOk (execAlleyEntryPoppable p s) := h

theorem execFreezeSettle_memOk {p : Nat} {s : State} (h : s.memOk) : Out.memOk (execFreezeSettle p s) := by
  unfold execFreezeSettle
  split
  · exact h
  · exact Out.ite_memOk h (raiseAsync_memOk (modPlace_memOk h))

theorem execQdeadlock_memOk {p : Nat} {s : State} (h : s.memOk) : Out.memOk (execQdeadlock p s) := by
  unfold execQdeadlock
  split
  · exact Out.ite_memOk h h
  · exact Out.ite_memOk h (raiseAsync_memOk (modPlace_memOk h))

/-! ### Branches and loops -/

theorem onControl_memOk {s : State} {f : Nat → Nat → Out} (h : s.memOk) (hf : ∀ a b, Out.memOk (f a b)) : Out.memOk (onControl s f) := by
  unfold onControl
  split
  · exact hf _ _
  · exact laneIllegalHere_memOk h
  · exact h

theorem branch_memOk {test : Word → Word → Bool} {a b o : Nat} {s : State} (h : s.memOk) : Out.memOk (branch test a b o s) :=
  onControl_memOk h (fun _ _ => Out.ite_memOk (jump_memOk h) (retire_memOk h))

theorem execJ_memOk {o : Nat} {s : State} (h : s.memOk) : Out.memOk (execJ o s) :=
  onControl_memOk h (fun _ _ => jump_memOk h)

theorem execCall_memOk {o : Nat} {s : State} (h : s.memOk) : Out.memOk (execCall o s) :=
  onControl_memOk h (fun _ _ => jump_memOk h)

theorem execJalr_memOk {d a i : Nat} {s : State} (h : s.memOk) : Out.memOk (execJalr d a i s) :=
  onControl_memOk h (fun _ _ => Out.ite_memOk (trap_memOk h) (jump_memOk h))

theorem readWords_memOk {f : Word → State → Res (Option Nat)} {n : Nat} {x : Word} {s : State} (hf : ∀ a t, t.memOk → (f a t).memOk)
    (h : s.memOk) :
    (readWords f n x s).memOk := by
  induction n generalizing x s with
  | zero => exact h
  | succ n ih =>
    refine Res.andThen_memOk (hf _ _ h) fun w t ht => ?_
    split
    · exact ht
    · exact Res.andThen_memOk (ih ht) fun r u hu => by split <;> exact hu

theorem laneWord_memOk {s : State} {p l : Nat} {va : Word} (h : s.memOk) : (s.laneWord p l va).memOk := by
  unfold State.laneWord
  grind [Res.memOk, translate_memOk, oldTlb_memOk, Res.andThen_memOk, fetchLine_memOk]

theorem peekWord_memOk {s : State} {who : Requester} {p pasid : Nat} {va : Word} (h : s.memOk) : (s.peekWord who p pasid va).memOk := by
  unfold State.peekWord
  grind [Res.memOk, Res.andThen_memOk, readILine_memOk]

theorem loopControl_memOk {i : Instr} {n b l m param p c : Nat} {s : State} (h : s.memOk) :
    Out.memOk (loopControl i n b l m param p c s) := by
  unfold loopControl
  grind [Res.memOk, Out.memOk, peekWord_memOk, onAccess_memOk, readWords_memOk, trap_memOk, illegal_memOk, settleWake_memOk, modCtx_memOk,
    retire_memOk]

theorem loopLane_memOk {n b l m param p g : Nat} {s : State} (h : s.memOk) : Out.memOk (loopLane n b l m param p g s) := by
  unfold loopLane
  grind [Res.memOk, Out.memOk, laneIllegalHere_memOk, readWords_memOk, laneWord_memOk, laneFault_memOk, modLane_memOk, laneRetire_memOk]

theorem execLoop_memOk {c b l m p : Nat} {s : State} (h : s.memOk) : Out.memOk (execLoop c b l m p s) := by
  unfold execLoop
  grind [Out.memOk, loopControl_memOk, readScalar_memOk, loopLane_memOk]

theorem execLoopi_memOk {c b l m p : Nat} {s : State} (h : s.memOk) : Out.memOk (execLoopi c b l m p s) := by
  unfold execLoopi
  split
  · exact loopControl_memOk h
  · exact loopLane_memOk h
  · exact h

/-! ### Control and status registers, cache maintenance -/

theorem setCsr_memOk {s : State} {p c n : Nat} {v : Word} (h : s.memOk) : (s.setCsr p c n v).memOk := by
  have hp : ∀ f : Place → Place, (if s.hasPlace p then s.modPlace p f else s).memOk := fun _ => ite_memOk (modPlace_memOk h) h
  unfold State.setCsr
  extract_lets placed
  refine ite_memOk (modCtx_memOk h)
    (ite_memOk (modCtx_memOk h) (ite_memOk (modCtx_memOk h) (ite_memOk (hp _) (ite_memOk (modCtx_memOk h) ?_))))
  exact ite_memOk h (ite_memOk h (ite_memOk h (ite_memOk h (ite_memOk h (ite_memOk (hp _) h)))))

theorem csrAccess_memOk {n : Nat} {f : Nat → Nat → Out} {s : State} (hf : ∀ a b, Out.memOk (f a b)) (h : s.memOk) :
    Out.memOk (csrAccess n f s) :=
  onContext_memOk h (fun _ _ => Out.ite_memOk (privileged_memOk h) (hf _ _))

theorem csrSwap_memOk {new : Word → Word → Word} {d a n : Nat} {s : State} (h : s.memOk) : Out.memOk (csrSwap new d a n s) :=
  csrAccess_memOk (fun _ _ => retireReg_memOk (setCsr_memOk h)) h

theorem execCsrr_memOk {d n : Nat} {s : State} (h : s.memOk) : Out.memOk (execCsrr d n s) :=
  csrAccess_memOk (fun _ _ => retireReg_memOk h) h

theorem execCsrw_memOk {d a n : Nat} {s : State} (h : s.memOk) : Out.memOk (execCsrw d a n s) :=
  csrSwap_memOk h

theorem execCsrs_memOk {d a n : Nat} {s : State} (h : s.memOk) : Out.memOk (execCsrs d a n s) :=
  csrSwap_memOk h

theorem execCsrc_memOk {d a n : Nat} {s : State} (h : s.memOk) : Out.memOk (execCsrc d a n s) :=
  csrSwap_memOk h

theorem hint_memOk {s : State} {p c : Nat} {ea : Word} {ok : Trans → Bool} (h : s.memOk) : (s.hint p c ea ok).memOk := by
  unfold State.hint
  grind [Res.memOk, translate_memOk, oldTlb_memOk]

theorem execIcpf_memOk {a : Nat} {s : State} (h : s.memOk) : Out.memOk (execIcpf a s) := by
  unfold execIcpf
  grind [Out.memOk, onContext_memOk, onAccess_memOk, hint_memOk, retire_memOk, oldTlb_memOk, modPlaza_memOk]

theorem execDcpf_memOk {a : Nat} {s : State} (h : s.memOk) : Out.memOk (execDcpf a s) := by
  unfold execDcpf
  grind [Out.memOk, onContext_memOk, onAccess_memOk, hint_memOk, retire_memOk, mergeOwn_memOk, oldTlb_memOk, modPlaza_memOk]

theorem dropILines_memOk {s : State} {f : Nat → Nat → Bool} (h : s.memOk) : (s.dropILines f).memOk := h

theorem execIcinv_memOk {a : Nat} {s : State} (h : s.memOk) : Out.memOk (execIcinv a s) :=
  onContext_memOk h (fun _ _ => onAccess_memOk (checkVa_memOk h) (fun _ _ ht => retire_memOk (dropILines_memOk ht)))

theorem execIcinvAll_memOk {s : State} (h : s.memOk) : Out.memOk (execIcinvAll s) :=
  onContext_memOk h (fun _ _ => retire_memOk (dropILines_memOk h))

theorem performTouching_memOk {s : State} {p line : Nat} (h : s.memOk) : (s.performTouching p line).memOk :=
  foldl_memOk h (fun _ _ => orderStores_memOk)

theorem acknowledged_memOk {s : State} {who : Requester} {p line : Nat} (h : s.memOk) : (s.acknowledged who p line).memOk :=
  Res.ite_memOk h (Res.ite_memOk (ite_memOk h (addRemote_memOk h)) h)

theorem maintain_memOk {s : State} {who : Requester} {p line : Nat} {f : State → State} (h : s.memOk) (hf : ∀ t, t.memOk → (f t).memOk) :
    (s.maintain who p line f).memOk :=
  Res.ite_memOk h (acknowledged_memOk (hf _ h))

theorem execDcwb_memOk {a : Nat} {s : State} (h : s.memOk) : Out.memOk (execDcwb a s) := by
  unfold execDcwb
  grind [Out.memOk, onContext_memOk, Res.andThen_memOk, checkVa_memOk, maintain_memOk, mergeOwn_memOk, writeBack_memOk, onAccess_memOk,
    Res.at_memOk, retire_memOk]

theorem execDcinv_memOk {a : Nat} {s : State} (h : s.memOk) : Out.memOk (execDcinv a s) := by
  unfold execDcinv
  grind [Res.memOk, Out.memOk, onContext_memOk, Res.andThen_memOk, checkVa_memOk, maintain_memOk, cancelReads_memOk, flushLine_memOk,
    performTouching_memOk, onAccess_memOk, Res.at_memOk, retire_memOk]

/-! ### System instructions and handler starts -/

theorem startArrival_memOk {s : State} {p c : Nat} {x : Arrival} (h : s.memOk) : (s.startArrival p c x).memOk :=
  modCtx_memOk h

theorem execExit_memOk {a : Nat} {s : State} (h : s.memOk) : Out.memOk (execExit a s) :=
  onContext_memOk h (fun _ _ => modCtx_memOk (retire_memOk h))

theorem trapAfter_memOk {s : State} {p c : Nat} {cause : Cause} {faddr : Word} (h : s.memOk) : (s.trapAfter p c cause faddr).memOk :=
  takeTrap_memOk (retire_memOk h)

theorem execTrap_memOk {code : Nat} {s : State} (h : s.memOk) : Out.memOk (execTrap code s) :=
  onContext_memOk h (fun _ _ => trapAfter_memOk h)

theorem execTbr_memOk {s : State} (h : s.memOk) : Out.memOk (execTbr s) :=
  onContext_memOk h (fun _ _ => trapAfter_memOk h)

theorem execHret_memOk {s : State} (h : s.memOk) : Out.memOk (execHret s) := by
  unfold execHret
  grind [Out.memOk, onContext_memOk, retire_memOk, modCtx_memOk, startArrival_memOk, modPlace_memOk]

theorem execCkpt_memOk {a : Nat} {s : State} (h : s.memOk) : Out.memOk (execCkpt a s) :=
  onContext_memOk h
    (fun _ _ => Out.ite_memOk (illegal_memOk h)
      (onAccess_memOk (Res.at_memOk (Res.andThen_memOk (checkVa_memOk h) (fun _ _ => releaseStore_memOk))) (fun _ _ => retire_memOk)))

theorem haltPlace_memOk {s : State} {p n : Nat} {r : Record} (h : s.memOk) : (s.haltPlace p n r).memOk := by
  unfold State.haltPlace
  grind [State.memOk, releaseLane_memOk, modCtx_memOk, forgetRemotes_memOk, modPlace_memOk, modPlaza_memOk]

theorem unfreeze_memOk {s : State} {p : Nat} (h : s.memOk) : (s.unfreeze p).memOk := by
  unfold State.unfreeze
  split
  · exact h
  · split
    · split
      · exact modPlace_memOk (modLane_memOk (landAll_memOk h))
      · exact modPlace_memOk h
    · exact modPlace_memOk h

theorem sretEffect_memOk {s : State} {p n : Nat} {halt : Bool} {pc : Word} (h : s.memOk) : (s.sretEffect p n halt pc).2.memOk := by
  unfold State.sretEffect
  grind [haltPlace_memOk, unfreeze_memOk, modPlace_memOk, modCtx_memOk]

theorem closeDelivery_memOk {s : State} {p : Nat} (h : s.memOk) : (s.closeDelivery p).memOk := by
  unfold State.closeDelivery
  split
  · exact h
  · exact ite_memOk (modPlace_memOk (modPlaza_memOk h)) (modPlaza_memOk h)

theorem afterSret_memOk {s : State} {p : Nat} (h : s.memOk) : (s.afterSret p).memOk := by
  unfold State.afterSret
  grind [modPlaza_memOk, openRecord_memOk]

theorem execSret_memOk {d a b : Nat} {s : State} (h : s.memOk) : Out.memOk (execSret d a b s) := by
  unfold execSret
  grind [Out.memOk, onContext_memOk, privileged_memOk, illegal_memOk, trap_memOk, sretEffect_memOk, afterSret_memOk, retireReg_memOk,
    closeDelivery_memOk]

/-! ### Publishes, fills, translation invalidations and page moves (R117, R327-R329) -/

theorem rrtAnswered_memOk {s : State} {g n : Nat} {failed : Bool} {word : Option Nat} (h : s.memOk) :
    (s.rrtAnswered g n failed word).memOk :=
  h

theorem sendAck_memOk {s : State} {p number : Nat} {failed : Bool} {x : Requester} (h : s.memOk) : (s.sendAck p number failed x).memOk := by
  unfold State.sendAck
  split
  · exact post_memOk (rrtAnswered_memOk h)
  · exact h

theorem startPublish_memOk {s : State} {p : Nat} {waiting : List (Nat × Requester)} (h : s.memOk) : (s.startPublish p waiting).memOk := by
  unfold State.startPublish
  grind [publishLines_memOk, modPlaza_memOk]

theorem servePublish_memOk {s : State} {p seq : Nat} {x : Requester} (h : s.memOk) : (s.servePublish p seq x).memOk := by
  unfold State.servePublish
  dsimp only
  split
  · exact sendAck_memOk h
  · split
    · exact startPublish_memOk h
    · exact modPlaza_memOk h

theorem execPublishRequest_memOk {p n : Nat} {x : Requester} {s : State} (h : s.memOk) : Out.memOk (execPublishRequest p n x s) := by
  unfold execPublishRequest
  split
  · exact ite_memOk (servePublish_memOk h) h
  · exact Out.ite_memOk (servePublish_memOk h) h

theorem execPublishComplete_memOk {p : Nat} {s : State} (h : s.memOk) : Out.memOk (execPublishComplete p s) := by
  unfold execPublishComplete
  grind [foldl_memOk, Out.memOk, publishLines_memOk, modPlaza_memOk, sendAck_memOk, startPublish_memOk]

theorem answered_memOk {s : State} {g n : Nat} {failed : Bool} {x : Requester} (h : s.memOk) : (s.answered g n failed x).memOk := by
  unfold State.answered
  grind [rrtAnswered_memOk, modPlaza_memOk, modCtx_memOk, modLane_memOk, modHost_memOk]

theorem execPublishAcknowledgement_memOk {g n f : Nat} {x : Requester} {s : State} (h : s.memOk) :
    Out.memOk (execPublishAcknowledgement g n f x s) := by
  unfold execPublishAcknowledgement
  split
  · exact answered_memOk h
  · split
    · exact h
    · split
      · exact answered_memOk h
      · exact h

theorem execSweeperWriteback_memOk {p k n : Nat} {s : State} (h : s.memOk) : Out.memOk (execSweeperWriteback p k n s) := by
  unfold execSweeperWriteback
  split
  · exact ite_memOk (writeBack_memOk h) h
  · exact h

theorem execIcacheFill_memOk {p i : Nat} {s : State} (h : s.memOk) : Out.memOk (execIcacheFill p i s) := by
  unfold execIcacheFill
  split
  · exact finishIFill_memOk h
  · exact h

theorem execL1FillReturn_memOk {p i : Nat} {s : State} (h : s.memOk) : Out.memOk (execL1FillReturn p i s) := by
  unfold execL1FillReturn
  grind [State.memOk, Res.memOk, Out.memOk, modPlaza_memOk, fetchLine_memOk, install_memOk]

theorem invalidate_memOk {s : State} {pasid base len : Nat} {entry : Option Nat} (h : s.memOk) :
    (s.invalidate pasid base len entry).memOk :=
  h

theorem execAtsInvalidation_memOk {n v l : Nat} {s : State} (h : s.memOk) : Out.memOk (execAtsInvalidation n v l s) := h

theorem performPasid_memOk {s : State} {pasid : Nat} (h : s.memOk) : (s.performPasid pasid).memOk :=
  foldl_memOk h (fun _ _ ht => ite_memOk (foldl_memOk ht (fun _ _ => performAll_memOk)) ht)

/-- The mark of a completed invalidation is written into its queue entry (R360). -/
theorem execInvalidationComplete_memOk {i : Nat} {s : State} (h : s.memOk) : Out.memOk (execInvalidationComplete i s) := by
  unfold execInvalidationComplete
  split
  · exact h
  · refine Out.ite_memOk h ?_
    extract_lets s1 s2
    have h1 : s1.memOk := shootDown_memOk (performPasid_memOk h)
    split
    · exact h1
    · exact signal_memOk (modHost_memOk (ite_memOk h1 (advanceLine_memOk (memWf_memWrite _ _ _ _ h1))))

theorem execPagePublish_memOk {o n l : Nat} {s : State} (h : s.memOk) : Out.memOk (execPagePublish o n l s) := by
  unfold execPagePublish
  grind [State.memOk, foldl_memOk, Out.memOk, mergeOwn_memOk, writeBack_memOk]

theorem markPage_memOk {s : State} {old new len : Nat} (h : s.memOk) : (s.markPage old new len).memOk :=
  ite_memOk h h

theorem moveEntries_memOk {s : State} {m : PageMove} (h : s.memOk) : (s.moveEntries m).memOk :=
  foldl_memOk h (fun _ _ ht => ht)

theorem finishMoves_memOk {s : State} (h : s.memOk) : s.finishMoves.memOk :=
  foldl_memOk h (fun _ _ => moveEntries_memOk)

theorem remapped_memOk {s : State} {old : Nat} (h : s.memOk) : (s.remapped old).memOk := by
  unfold State.remapped; split <;> exact h

theorem pageKept_memOk {s : State} {old : Nat} (h : s.memOk) : (s.pageKept old).memOk := by
  unfold State.pageKept
  split
  · exact h
  · exact ite_memOk (moveEntries_memOk h) h

theorem execUncorrectableError_memOk {n : Nat} {s : State} (h : s.memOk) : Out.memOk (execUncorrectableError n s) :=
  Out.ite_memOk (ite_memOk h h) (modPlaza_memOk h)

/-! ### Data that the engines move -/

theorem Eng.andThen_memOk {α β : Type} {r : Eng α} {f : α → State → Eng β} (h : r.memOk) (hf : ∀ a t, t.memOk → (f a t).memOk) :
    (r.andThen f).memOk := by
  unfold Eng.andThen
  grind [Eng.memOk]

theorem engAll_memOk {α β : Type} {f : α → State → Eng β} {x : List α} {s : State} (hf : ∀ a t, t.memOk → (f a t).memOk) (h : s.memOk) :
    (engAll f x s).memOk := by
  induction x generalizing s with
  | nil => exact h
  | cons y t ih => exact Eng.andThen_memOk (hf _ _ h) fun _ _ hu => Eng.andThen_memOk (ih hu) fun _ _ hv => hv

theorem putBank_memOk {s : State} {p : Nat} {wb : IsWb} {x i : Nat} {bs : List Byte} (h : s.memOk) : (s.putBank p wb x i bs).memOk := h

theorem useRow_memOk {s : State} {p : Nat} {wb : IsWb} {x use : Nat} (h : s.memOk) : (s.useRow p wb x use).memOk :=
  ite_memOk h (modPlace_memOk h)

theorem readRowAs_memOk {s : State} {p : Nat} {wb : IsWb} {x use : Nat} (h : s.memOk) : (s.readRowAs p wb x use).2.memOk := by
  unfold State.readRowAs
  grind [freeBytes_memOk]

theorem putScales_memOk {s : State} {p : Nat} {wb : IsWb} {x : Nat} {bs : List Byte} (h : s.memOk) : (s.putScales p wb x bs).memOk := by
  unfold State.putScales
  split
  exact putBank_memOk (useRow_memOk h)

theorem freeBook_memOk {s : State} (h : s.memOk) : (s.freeBook).2.memOk := h

theorem Res.toEng_memOk {α : Type} {r : Res α} {hn : Handle} {n o : Nat} (h : r.memOk) : (r.toEng hn n o).memOk := by
  unfold Res.toEng; split <;> exact h

theorem takeRow_memOk {s : State} {p id i : Nat} {wb : IsWb} {x : Nat} {scales : Option Nat} (h : s.memOk) :
    (s.takeRow p id i wb x scales).memOk := by
  unfold State.takeRow
  grind [Eng.memOk, readRowAs_memOk, modPlace_memOk]

theorem modCmd_memOk {s : State} {p id : Nat} {f : Cmd → Cmd} (h : s.memOk) : (s.modCmd p id f).memOk := h

theorem modPins_memOk {s : State} {view block : Nat} {f : Nat → Nat} (h : s.memOk) : (s.modPins view block f).memOk := h

theorem unpin_memOk {s : State} {p : Nat} {c : Cmd} (h : s.memOk) : (s.unpin p c).memOk :=
  modCmd_memOk (foldl_memOk h (fun _ _ => modPins_memOk))

theorem enginePin_memOk {s : State} {p id : Nat} {hn : Handle} {n o : Nat} {x : Nat × Nat} (h : s.memOk) :
    (s.enginePin p id hn n o x).memOk := by
  unfold State.enginePin
  grind [Eng.memOk, foldl_memOk, viewRead_memOk, writeBack_memOk, mergeOwn_memOk, modPins_memOk, setStale_memOk, modCmd_memOk]

theorem enginePieces_memOk {s : State} {p k id : Nat} {hn : Handle} {n : Nat} {at_ : Nat → Nat} {ps : List (Nat × Nat)} (h : s.memOk) :
    (s.enginePieces p k id hn n at_ ps).memOk := by
  unfold State.enginePieces
  grind [Eng.memOk, Eng.andThen_memOk, engAll_memOk, enginePin_memOk, Res.toEng_memOk, gather_memOk, Res.andThen_memOk, gathered_memOk,
    takeBytes_memOk]

theorem engineWrite_memOk {s : State} {p k id key : Nat} {bs : List Byte} (h : s.memOk) : (s.engineWrite p k id key bs).memOk :=
  List.foldlRecOn (motive := Res.memOk) _ _ h fun _ hr _ _ => Res.andThen_memOk hr fun _ _ ht =>
    Res.ite_memOk (tellRemote_memOk (flushLine_memOk ht))
      (Res.ite_memOk (flushLine_memOk ht) (writeWord_memOk (flushLine_memOk ht)))

theorem engineUse_memOk {s : State} {p id hn o n : Nat} {need : Need} (h : s.memOk) : (s.engineUse p id hn o n need).memOk := by
  unfold State.engineUse
  grind [Eng.memOk, modCmd_memOk, modHandle_memOk]

theorem readGlobal_memOk {s : State} {p k id hn o n el : Nat} {zfill : Bool} (h : s.memOk) : (s.readGlobal p k id hn o n el zfill).memOk :=
  Eng.ite_memOk h (Eng.andThen_memOk (engineUse_memOk h) (fun _ _ ht => Eng.andThen_memOk (enginePieces_memOk ht) (fun _ _ hu => hu)))

theorem writeGlobal_memOk {s : State} {p k id hn o : Nat} {bs : List Byte} (h : s.memOk) : (s.writeGlobal p k id hn o bs).memOk :=
  Eng.andThen_memOk (engineUse_memOk h) (fun _ _ ht => Res.toEng_memOk (engineWrite_memOk ht))

theorem putScratch_memOk {s : State} {p o : Nat} {bs : List Byte} (h : s.memOk) : (s.putScratch p o bs).memOk := h

theorem readScratch_memOk {s : State} {p o n el : Nat} {zfill : Bool} (h : s.memOk) : (s.readScratch p o n el zfill).memOk :=
  Eng.ite_memOk h (Eng.ite_memOk h h)

/-! ### The copy engine -/

theorem setStage_memOk {s : State} {p n st : Nat} {x : StageState} (h : s.memOk) : (s.setStage p n st x).memOk := h

theorem unitAt_memOk {s : State} {p : Nat} {c : Cmd} {i : Nat} (h : s.memOk) : (s.unitAt p c i).memOk :=
  Eng.ite_memOk (Eng.andThen_memOk (readScratch_memOk h) (fun _ _ ht => ht)) h

theorem readBytes_memOk {s : State} {p k id : Nat} {x : Side} {off n el : Nat} (h : s.memOk) : (s.readBytes p k id x off n el).memOk :=
  Eng.ite_memOk (readScratch_memOk h) (readGlobal_memOk h)

theorem putRemote_memOk {s : State} {r job space off : Nat} {bs : List Byte} (h : s.memOk) :
    ∀ t, s.putRemote r job space off bs = some t → t.memOk := by
  unfold State.putRemote
  grind [putBank_memOk, putScratch_memOk]

theorem sendRest_memOk {s : State} {p id key r op : Nat} {bs : List Byte} (h : s.memOk) : (s.sendRest p id key r op bs).memOk :=
  foldl_memOk h (fun _ _ => request_memOk)

theorem writeRemote_memOk {s : State} {p k : Nat} {c : Cmd} {space off : Nat} {bs : List Byte} (h : s.memOk) :
    (s.writeRemote p k c space off bs).memOk := by
  unfold State.writeRemote
  grind [Res.memOk, Eng.memOk, putRemote_memOk, tellRemote_memOk, sendRest_memOk]

theorem toWrite_memOk {s : State} {p id : Nat} {w : RowWrite} (h : s.memOk) : (s.toWrite p id w).memOk := h

theorem writeNext_memOk {s : State} {p id : Nat} (h : s.memOk) : (s.writeNext p id).memOk := by
  unfold State.writeNext
  split
  · exact h
  · exact modCmd_memOk (ite_memOk (putScales_memOk h) (putBank_memOk (useRow_memOk h)))

theorem writeUnit_memOk {s : State} {p k : Nat} {c : Cmd} {x : Side} {y : Layout} {off : Nat} {bs : List Byte} (h : s.memOk) :
    (s.writeUnit p k c x y off bs).memOk := by
  unfold State.writeUnit
  split
  · exact toWrite_memOk h
  · exact Eng.ite_memOk (writeGlobal_memOk h) (Eng.ite_memOk (Eng.ite_memOk (putScratch_memOk h) h) (writeRemote_memOk h))

theorem readRows_memOk {s : State} {p k i : Nat} {c : Cmd} {x : Side} {y : Layout} {axis : Bool} {offs : List (Option Nat)} (h : s.memOk) :
    (s.readRows p k i c x y axis offs).memOk := by
  unfold State.readRows
  grind [Eng.memOk, engAll_memOk, Eng.andThen_memOk, takeRow_memOk, readBytes_memOk]

theorem writeRows_memOk {s : State} {p k : Nat} {c : Cmd} {x : Side} {y : Layout} {axis : Bool} {offs : List Nat} {rows : List RowUnit}
    (h : s.memOk) :
    (s.writeRows p k c x y axis offs rows).memOk := by
  unfold State.writeRows
  grind [Eng.memOk, Eng.andThen_memOk, foldl_memOk, toWrite_memOk, engAll_memOk, writeUnit_memOk]

theorem readItem_memOk {s : State} {p k i : Nat} {c : Cmd} {x : Side} {n : Nat} {book : Book} {o : Option Nat} (h : s.memOk) :
    (s.readItem p k i c x n book o).memOk := by
  unfold State.readItem
  grind [Eng.memOk, Eng.andThen_memOk, takeRow_memOk, readBytes_memOk]

theorem moveBatch_memOk {s : State} {p k : Nat} {c : Cmd} {i : Nat} (h : s.memOk) : (s.moveBatch p k c i).memOk := by
  unfold State.moveBatch
  refine Eng.andThen_memOk (unitAt_memOk h) fun u0 s0 hs => ?_
  dsimp only
  split
  · exact hs
  · refine Eng.ite_memOk hs (Eng.andThen_memOk (engAll_memOk (fun _ _ => unitAt_memOk) hs) fun us t ht => ?_)
    refine Eng.ite_memOk ht
      (Eng.ite_memOk ht (Eng.ite_memOk ht (Eng.ite_memOk ht (Eng.ite_memOk ht (Eng.ite_memOk ?_ (Eng.ite_memOk ?_ ?_))))))
    · exact Eng.andThen_memOk (readRows_memOk ht) fun _ _ hu => Eng.andThen_memOk (writeRows_memOk hu) fun _ _ hv => hv
    · refine Eng.andThen_memOk (engAll_memOk (fun o v hv => ?_) ht) fun _ _ hu =>
        Eng.andThen_memOk (engAll_memOk (fun _ _ => writeUnit_memOk) hu) fun _ _ hv => hv
      split
      · exact hv
      · split
        · exact Eng.andThen_memOk (takeRow_memOk hv) fun _ _ hw => Eng.andThen_memOk (takeRow_memOk hw) fun _ _ hz => hz
        · exact readBytes_memOk hv
    · refine Eng.andThen_memOk
        (Eng.ite_memOk (Eng.andThen_memOk (readRows_memOk ?book) fun _ _ hu => ?_) (engAll_memOk (fun _ _ => readItem_memOk) ?book)) fun is
        u hu => Eng.ite_memOk ?_ ?_
      case book => exact ite_snd_memOk ht (ite_snd_memOk ht (ite_snd_memOk ht (ite_snd_memOk (freeBook_memOk ht) ht)))
      · exact hu
      · exact Eng.andThen_memOk (writeRows_memOk hu) fun _ _ hv => hv
      · exact Eng.andThen_memOk (engAll_memOk (fun _ _ => writeUnit_memOk) hu) fun _ _ hv => hv

/-! ### Engine commands and PUTH arrivals -/

theorem endCmd_memOk {s : State} {p : Nat} {c : Cmd} {ok : Bool} (h : s.memOk) : (s.endCmd p c ok).memOk := h

theorem opcOf_memOk {s : State} {c : Cmd} (h : s.memOk) : (s.opcOf c).2.memOk := by
  unfold State.opcOf
  split
  · exact h
  · exact freeDouble_memOk h

theorem failCmd_memOk {s : State} {p engine : Nat} {c : Cmd} {f : Failure} (h : s.memOk) :
    ∀ t, s.failCmd p engine c f = some t → t.memOk := by
  unfold State.failCmd
  grind [endCmd_memOk, opcOf_memOk, writeRuntime_memOk, modPlaza_memOk, raiseAsync_memOk]

theorem newCmd_memOk {s : State} {p c major : Nat} {shape : BitVec 512} {opa opb : Word} {arg t u v w : Nat} (h : s.memOk) :
    (s.newCmd p c major shape opa opb arg t u v w).2.memOk :=
  h

theorem issueCopy_memOk {i : Instr} {major : Nat} {check : Nat → Nat → State → Option State} {shape : Nat → State → BitVec 512}
    {opa opb arg t u v w : Nat} {s : State} (hcheck : ∀ p c, ∀ s : State, s.memOk → ∀ z, check p c s = some z → z.memOk) (h : s.memOk) :
    Out.memOk (issueCopy i major check shape opa opb arg t u v w s) := by
  refine onContext_memOk h fun p c => Out.ite_memOk (block_memOk h) ?_
  split
  · next e => exact hcheck p c s h _ e
  · exact retire_memOk (modPlace_memOk h)

theorem copyCheck_memOk {puth : Bool} {n p c : Nat} {s : State} (h : s.memOk) : ∀ t, copyCheck puth n p c s = some t → t.memOk := by
  unfold copyCheck
  grind [illegal_memOk, trap_memOk]

theorem execCpy_memOk {a b n t u v w : Nat} {s : State} (h : s.memOk) : Out.memOk (execCpy a b n t u v w s) :=
  issueCopy_memOk (fun _ _ _ ht => copyCheck_memOk ht) h

theorem execCpyg_memOk {a b n t u v w : Nat} {s : State} (h : s.memOk) : Out.memOk (execCpyg a b n t u v w s) :=
  issueCopy_memOk (fun _ _ _ ht => copyCheck_memOk ht) h

theorem execPuth_memOk {a b n t u v w : Nat} {s : State} (h : s.memOk) : Out.memOk (execPuth a b n t u v w s) :=
  issueCopy_memOk (fun _ _ _ ht => copyCheck_memOk ht) h

theorem execBfset_memOk {n a t u v w : Nat} {s : State} (h : s.memOk) : Out.memOk (execBfset n a t u v w s) := by
  refine issueCopy_memOk (fun p c x hx z hz => ?_) h
  dsimp only at hz
  split at hz
  · cases hz
  · cases hz; exact illegal_memOk hx

theorem execCbld_memOk {n a hn t u v w : Nat} {s : State} (h : s.memOk) : Out.memOk (execCbld n a hn t u v w s) := by
  refine issueCopy_memOk (fun p c x hx z hz => ?_) h
  split at hz
  · cases hz
  · cases hz; exact illegal_memOk hx

theorem startCmd_memOk {s : State} {p id : Nat} {st : Option (Nat × Nat)} (h : s.memOk) : (s.startCmd p id st).memOk := h

theorem execCopyStart_memOk {p : Nat} {s : State} (h : s.memOk) : Out.memOk (execCopyStart p s) := by
  unfold execCopyStart
  split
  · exact h
  · split
    · exact h
    · exact Out.ite_memOk h
        (Out.ite_memOk (endCmd_memOk h)
          (Out.ite_memOk h
            (Out.ite_memOk (ite_memOk (startCmd_memOk h) h)
              (Out.ite_memOk (startCmd_memOk h) (Out.ite_memOk h (Out.ite_memOk h (startCmd_memOk (modPlace_memOk h))))))))

theorem execBankFormatWrite_memOk {p : Nat} {s : State} (h : s.memOk) : Out.memOk (execBankFormatWrite p s) := by
  unfold execBankFormatWrite
  split
  · exact h
  · exact Out.ite_memOk h (endCmd_memOk (modPlace_memOk h))

theorem bookUnit_memOk {s : State} {p : Nat} {c : Cmd} {t : Nat} (h : s.memOk) : (s.bookUnit p c t).memOk :=
  Eng.andThen_memOk (readGlobal_memOk h) (fun _ _ => modPlace_memOk)

theorem unpinDone_memOk {s : State} {p id : Nat} (h : s.memOk) : (s.unpinDone p id).memOk := by
  unfold State.unpinDone
  split
  · exact h
  · exact modCmd_memOk (foldl_memOk h (fun _ _ => modPins_memOk))

theorem settleUnits_memOk {s : State} {p id : Nat} (h : s.memOk) : (s.settleUnits p id).memOk := by
  unfold State.settleUnits
  split
  · exact h
  · split
    · exact h
    · split
      · exact modCmd_memOk (forgetRemotes_memOk h)
      · exact ite_memOk h (unpinDone_memOk (modCmd_memOk h))

theorem writeRow_memOk {s : State} {p id : Nat} (h : s.memOk) : (s.writeRow p id).memOk :=
  settleUnits_memOk (writeNext_memOk h)

theorem copyUnit_memOk {s : State} {p id i : Nat} (h : s.memOk) : (s.copyUnit p id i).memOk := by
  unfold State.copyUnit
  grind [Eng.memOk, writeRow_memOk, Eng.andThen_memOk, bookUnit_memOk, moveBatch_memOk, modCmd_memOk]

theorem copyNext_memOk {s : State} {p : Nat} (h : s.memOk) : (s.copyNext p).memOk := by
  unfold State.copyNext
  split
  · exact ite_memOk (foldl_memOk (copyUnit_memOk h) (fun _ _ => copyUnit_memOk)) (copyUnit_memOk h)
  · exact h

theorem execCodebookWrite_memOk {p : Nat} {s : State} (h : s.memOk) : Out.memOk (execCodebookWrite p s) := by
  unfold execCodebookWrite
  grind [foldl_memOk, Out.memOk, copyUnit_memOk, endCmd_memOk, unpin_memOk]

theorem execCopyComplete_memOk {p : Nat} {s : State} (h : s.memOk) : Out.memOk (execCopyComplete p s) := by
  unfold execCopyComplete
  split
  · exact h
  · split
    · exact h
    · split
      · exact endCmd_memOk (unpin_memOk (setStage_memOk h))
      · exact endCmd_memOk (unpin_memOk h)

theorem execCopyFailure_memOk {p : Nat} {s : State} (h : s.memOk) : Out.memOk (execCopyFailure p s) := by
  unfold execCopyFailure
  grind [Out.memOk, failCmd_memOk, forgetRemotes_memOk, unpin_memOk, modPlace_memOk, endCmd_memOk]

theorem acceptArrival_memOk {s : State} {p : Nat} {x : Arrival} (h : s.memOk) : ∀ t, s.acceptArrival p x = some t → t.memOk := by
  unfold State.acceptArrival
  grind [startArrival_memOk, modPlace_memOk]

theorem putPayload_memOk {s : State} {p : Nat} {x : Arrival} (h : s.memOk) : (s.putPayload p x).memOk := by
  unfold State.putPayload
  grind [getD_memOk, putRemote_memOk]

theorem execPuthArrival_memOk {p : Nat} {x : Arrival} {s : State} (h : s.memOk) : Out.memOk (execPuthArrival p x s) := by
  unfold execPuthArrival
  grind [Out.memOk, acceptArrival_memOk, modCmd_memOk, putPayload_memOk, post_memOk]

theorem offerPuth_memOk {s : State} {p : Nat} (h : s.memOk) : (s.offerPuth p).memOk := by
  unfold State.offerPuth
  grind [Res.memOk, Out.memOk, execPuthArrival_memOk, modCmd_memOk, askRemote_memOk]

theorem arrivalsFirst_memOk {s : State} {p : Nat} (h : s.memOk) : (s.arrivalsFirst p).memOk :=
  foldl_memOk h (fun _ _ ht => ite_memOk (offerPuth_memOk ht) ht)

theorem execWake_memOk {d a b : Nat} {s0 : State} (h : s0.memOk) : Out.memOk (execWake d a b s0) :=
  onContext_memOk h
    (fun _ _ => Out.ite_memOk (illegal_memOk h)
      (Out.ite_memOk (trap_memOk h)
        (Out.ite_memOk (retireReg_memOk (modPlaza_memOk (modCtx_memOk (arrivalsFirst_memOk h))))
          (retireReg_memOk (arrivalsFirst_memOk h)))))

/-! ### Views (R294-R301, R335-R351) -/

theorem walked_memOk {s : State} {pasid : Nat} {rs : List (Nat × Nat)} (h : s.memOk) : (s.walked pasid rs).memOk :=
  foldl_memOk h (fun _ _ ht => ite_memOk ht (foldl_memOk ht (fun _ _ => walk_memOk)))

theorem homeBytes_memOk {s : State} {who : Requester} {ps : List (Nat × Nat)} (h : s.memOk) : (s.homeBytes who ps).memOk := by
  unfold State.homeBytes
  refine Res.ite_memOk h (Res.andThen_memOk (gather_memOk h) fun far t ht => ?_)
  exact List.foldlRecOn (motive := fun acc : (List Byte × Option Nat) × State => acc.2.memOk) _ _ ht fun _ hacc _ _ => recall_memOk hacc

theorem putHome_memOk {s : State} {who : Option Nat} {ps : List (Nat × Nat)} {bs : List Byte} (h : s.memOk) :
    ∀ t, s.putHome who ps bs = some t → t.memOk := by
  unfold State.putHome
  refine List.foldlRecOn (motive := fun acc : Option State × List Byte => ∀ t, acc.1 = some t → t.memOk) _ _ ?_ fun acc hacc x _ t ht => ?_
  · rintro t ⟨⟩; exact h
  · obtain ⟨u, hu, hw⟩ := Option.bind_eq_some_iff.mp ht
    exact writeLine_memOk (hacc u hu) t hw

theorem putStatus_memOk {s : State} {p pasid va v : Nat} (h : s.memOk) : (s.putStatus p pasid va v).memOk :=
  writeVa_memOk h

theorem addView_memOk {s : State} {p : Nat} {m : Master} {v : View} (h : s.memOk) : (s.addView p m v).2.memOk :=
  putStatus_memOk h

theorem onView_memOk {s : State} {f : Nat → Nat → Out} (h : s.memOk) (hf : ∀ a b, Out.memOk (f a b)) : Out.memOk (onView s f) := by
  unfold onView
  split
  · exact Out.ite_memOk (onContext_memOk h hf) (illegal_memOk h)
  · exact h

theorem readBases_memOk {s : State} {p c : Nat} {va : Word} {n : Nat} (h : s.memOk) : (s.readBases p c va n).memOk := by
  induction n generalizing s va with
  | zero => exact h
  | succ n ih => exact Res.andThen_memOk (readData_memOk h) fun _ _ ht => Res.andThen_memOk (ih ht) fun _ _ hu => hu

theorem execViewreg_memOk {d a : Nat} {s : State} (h : s.memOk) : Out.memOk (execViewreg d a s) := by
  unfold execViewreg
  grind [Res.memOk, Out.memOk, onView_memOk, Res.andThen_memOk, readData_memOk, readBases_memOk, onAccess_memOk, walked_memOk, illegal_memOk,
    block_memOk, retireReg_memOk, addView_memOk]

theorem dropView_memOk {s : State} {v : View} (h : s.memOk) : (s.dropView v).memOk :=
  endNotices_memOk (modHost_memOk h)

theorem execViewdrop_memOk {d a : Nat} {s : State} (h : s.memOk) : Out.memOk (execViewdrop d a s) := by
  unfold execViewdrop
  grind [Out.memOk, onView_memOk, retireReg_memOk, freeDouble_memOk, block_memOk, putStatus_memOk, dropView_memOk]

theorem execViewpol_memOk {d a n : Nat} {s : State} (h : s.memOk) : Out.memOk (execViewpol d a n s) := by
  unfold execViewpol
  grind [State.memOk, Out.memOk, onView_memOk, retireReg_memOk]

theorem viewTag_memOk {s : State} {pasid va key sel : Nat} (h : s.memOk) : (s.viewTag pasid va key sel).2.memOk := by
  unfold State.viewTag
  grind [freeWord_memOk]

theorem execViewtag_memOk {d a n : Nat} {s : State} (h : s.memOk) : Out.memOk (execViewtag d a n s) := by
  unfold execViewtag
  grind [Out.memOk, onView_memOk, onAccess_memOk, checkVa_memOk, viewTag_memOk, retireReg_memOk]

theorem execViewsync_memOk {d a : Nat} {s : State} (h : s.memOk) : Out.memOk (execViewsync d a s) := by
  unfold execViewsync
  grind [Out.memOk, onView_memOk, modCtx_memOk, trapAccess_memOk, retireReg_memOk, selfInvalidate_memOk, block_memOk, sendPublish_memOk]

theorem tryAppend_memOk {s0 : State} {pasid : Nat} {va : Word} {bytes : List Byte} (h : s0.memOk) :
    (s0.tryAppend pasid va bytes).memOk := by
  have hs : (s0.walked pasid [(va.toNat, 64)]).memOk := walked_memOk h
  have hput : ∀ {u : State} {ps bs}, u.memOk → ((u.putHome none ps bs).getD u).memOk := fun hu => getD_memOk (putHome_memOk hu) hu
  rw [State.tryAppend]
  split
  · exact hs
  · exact hs
  · split
    · next e => exact Res.memOk_of_wait (homeBytes_memOk hs) e
    · next e => exact Res.memOk_of_fail (homeBytes_memOk hs) e
    · next t e =>
      have ht : t.memOk := Res.memOk_of_ok (homeBytes_memOk hs) e
      extract_lets word put n entry t'
      have hw : t'.memOk := walked_memOk ht
      split
      · exact hput ht
      · split
        · exact hw
        · exact hw
        · exact getD_memOk (map_memOk fun u hu => signalOwner_memOk (putHome_memOk (hput hw) u hu)) hw

theorem appendFault_memOk {s : State} {pasid : Nat} {va : Word} {bytes : List Byte} (h : s.memOk) :
    (s.appendFault pasid va bytes).memOk := by
  unfold State.appendFault
  split
  · exact h
  · split
    · next e => exact Res.memOk_of_ok (tryAppend_memOk h) e
    · next t e =>
      have ht : t.memOk := Res.memOk_of_wait (tryAppend_memOk h) e
      exact ht
    · next e => exact Res.memOk_of_fail (tryAppend_memOk h) e

theorem retryWrites_memOk {s : State} (h : s.memOk) : s.retryWrites.memOk :=
  foldl_memOk h (fun _ _ ht => ite_memOk (appendFault_memOk ht) (writeVa_memOk ht))

theorem poisonBlock_memOk {s : State} {v : View} {m : Master} {b g detail paddr : Nat} {record : Bool} (h : s.memOk) :
    (s.poisonBlock v m b g detail paddr record).memOk := by
  have h1 : ((s.modBlock v.id b fun x => { x with poison := true, tag := g }).walked v.pasid
      [(v.blockVa m.across b + viewStride v.tfmt - 128, 128)]).memOk := walked_memOk (modBlock_memOk h)
  rw [State.poisonBlock]
  generalize (s.modBlock v.id b fun x => { x with poison := true, tag := g }).walked v.pasid _ = s1 at h1 ⊢
  refine ite_memOk (appendFault_memOk ?_) ?_
  all_goals
    split
    · exact ite_memOk h1 (getD_memOk (putHome_memOk h1) h1)
    · exact h1

theorem execKgNotice_memOk {i : Nat} {s : State} (h : s.memOk) : Out.memOk (execKgNotice i s) := by
  unfold execKgNotice
  split
  · exact h
  · exact Out.ite_memOk h (noticesEnd_memOk (ite_memOk h (raiseKg_memOk h)))

theorem execViewDerivation_memOk {e : Nat} {s : State} (h : s.memOk) : Out.memOk (execViewDerivation e s) := by
  unfold execViewDerivation
  dsimp only
  split
  · split
    · exact h
    · split
      · exact walked_memOk h
      · exact walked_memOk h
      · split
        · next e => exact Res.memOk_of_wait (homeBytes_memOk (walked_memOk h)) e
        · next e => have ht := Res.memOk_of_fail (homeBytes_memOk (walked_memOk h)) e; exact ht
        · next e => have ht := Res.memOk_of_ok (homeBytes_memOk (walked_memOk h)) e; exact ht
        · next e => have ht := Res.memOk_of_ok (homeBytes_memOk (walked_memOk h)) e; exact ht
  · exact h

theorem viewBook_memOk {s : State} {e : Nat} {v : View} (h : s.memOk) : (s.viewBook e v).memOk := by
  unfold State.viewBook
  grind [Res.memOk, walked_memOk, homeBytes_memOk]

theorem dropOrphans_memOk {s : State} (h : s.memOk) : s.dropOrphans.memOk :=
  foldl_memOk h (fun _ _ => dropView_memOk)

theorem deriveView_memOk {s : State} {e : Nat} {w : Derivation} {m : Master} {v : View} (h : s.memOk) : (s.deriveView e w m v).memOk := by
  unfold State.deriveView
  split
  · exact poisonBlock_memOk h
  · refine Res.andThen_memOk (viewBook_memOk h) fun r t ht => ?_
    split
    · exact poisonBlock_memOk ht
    · dsimp only
      split
      · exact walked_memOk ht
      · exact poisonBlock_memOk (walked_memOk ht)
      · split
        · next e => exact modBlock_memOk (putHome_memOk (walked_memOk ht) _ e)
        · exact poisonBlock_memOk (walked_memOk ht)

theorem execViewBlockWrite_memOk {e : Nat} {s : State} (h : s.memOk) : Out.memOk (execViewBlockWrite e s) := by
  unfold execViewBlockWrite
  extract_lets x idle
  split
  · exact h
  · split
    · exact dropOrphans_memOk h
    · extract_lets on_
      have hon : ∀ t, t.memOk → (on_ t).memOk := fun _ ht => dropOrphans_memOk ht
      split
      · refine Out.ite_memOk h ?_
        split
        · next e => exact hon _ (Res.memOk_of_ok (deriveView_memOk h) e)
        · next e => exact Res.memOk_of_wait (deriveView_memOk h) e
        · next e => exact Res.memOk_of_fail (deriveView_memOk h) e
      · exact hon s h

/-! ### Flits from other modules (R352-R357) -/

theorem modLink_memOk {s : State} {l : Nat} {f : Link → Link} (h : s.memOk) : (s.modLink l f).memOk := h

theorem linkFails_memOk {s : State} {l : Nat} (h : s.memOk) : (s.linkFails l).memOk :=
  ite_memOk (signal_memOk (modLink_memOk h)) h

theorem receive_memOk {kind : Nat} {f : Flit} {s : State} {go : State → Out} (h : s.memOk) (hgo : ∀ t, t.memOk → Out.memOk (go t)) :
    Out.memOk (receive kind f s go) :=
  Out.ite_memOk h
    (Out.ite_memOk (ite_memOk (linkFails_memOk (modLink_memOk h)) (modLink_memOk h))
      (Out.ite_memOk (modLink_memOk (modLink_memOk h)) (Out.ite_memOk (hgo _ (modLink_memOk h)) h)))

theorem answer_memOk {s : State} {kind : Nat} {f : Flit} {bs : List Byte} (h : s.memOk) : (s.answer kind f bs).memOk :=
  ite_memOk h (post_memOk h)

theorem wordFor_memOk {s : State} {key n : Nat} (h : s.memOk) : (s.wordFor key n).2.memOk :=
  recall_memOk h

theorem execReadRequest_memOk {f : Flit} {s : State} (h : s.memOk) : Out.memOk (execReadRequest f s) := by
  unfold execReadRequest
  grind [Out.memOk, receive_memOk, wordFor_memOk, answer_memOk, recall_memOk]

theorem wakeFor_memOk {s : State} {r : Remote} (h : s.memOk) : (s.wakeFor r).memOk := by
  unfold State.wakeFor
  split
  · exact ite_memOk (wakeLine_memOk h) h
  · exact ite_memOk (wakeLine_memOk h) h
  · exact h

theorem performed_memOk {s : State} {bs : List Byte} {r : Remote} (h : s.memOk) : (s.performed bs r).memOk :=
  ite_memOk (wakeFor_memOk h) (foldl_memOk (wakeFor_memOk h) (fun _ _ => advanceLine_memOk))

theorem replied_memOk {s : State} {f : Flit} (h : s.memOk) : (s.replied f).memOk :=
  endNotices_memOk (foldl_memOk (foldl_memOk h (fun _ _ => performed_memOk)) (fun _ _ => raiseKg_memOk))

theorem execReadData_memOk {f : Flit} {s : State} (h : s.memOk) : Out.memOk (execReadData f s) :=
  receive_memOk h (fun _ => replied_memOk)

theorem execAtomicResponse_memOk {f : Flit} {s : State} (h : s.memOk) : Out.memOk (execAtomicResponse f s) :=
  receive_memOk h (fun _ => replied_memOk)

theorem rrtFor_memOk {s : State} {key id sc seq : Nat} (h : s.memOk) : (s.rrtFor key id sc seq).memOk := h

theorem writeAt_memOk {s : State} {key n v : Nat} (h : s.memOk) : (s.writeAt key n v).memOk :=
  writeHere_memOk h

theorem writeBytes_memOk {s : State} {key : Nat} {bs : List Byte} (h : s.memOk) : (s.writeBytes key bs).memOk :=
  foldl_memOk h (fun _ _ => writeAt_memOk)

theorem answerWrite_memOk {s old : State} {f : Flit} {bs : List Byte} (h : s.memOk) : (s.answerWrite old f bs).memOk := by
  unfold State.answerWrite
  split
  exact ite_memOk (answer_memOk h) h

theorem execRemoteWrite_memOk {f : Flit} {s : State} (h : s.memOk) : Out.memOk (execRemoteWrite f s) := by
  unfold execRemoteWrite
  grind [Res.memOk, Out.memOk, receive_memOk, rrtRoom_memOk, answerWrite_memOk, rrtFor_memOk, writeAt_memOk, writeHere_memOk]

theorem execRemoteAtomic_memOk {f : Flit} {s : State} (h : s.memOk) : Out.memOk (execRemoteAtomic f s) := by
  unfold execRemoteAtomic
  grind [Res.memOk, Out.memOk, receive_memOk, wordFor_memOk, answer_memOk, answerWrite_memOk, writeAt_memOk, rrtRoom_memOk, rrtFor_memOk]

theorem execCopyData_memOk {f : Flit} {s : State} (h : s.memOk) : Out.memOk (execCopyData f s) := by
  refine receive_memOk h fun t ht => ?_
  extract_lets r parts u answers
  have hu : u.memOk := ht
  have ha : ∀ v bs, v.memOk → Out.memOk (answers v bs) := fun _ _ hv => foldl_memOk hv fun _ _ hw => answer_memOk hw
  refine Out.ite_memOk (ite_memOk ht (answerWrite_memOk (writeBytes_memOk ht))) (Out.ite_memOk ht (Out.ite_memOk (ha u _ hu) ?_))
  split
  · next e => exact ha _ _ (putRemote_memOk hu _ e)
  · exact ha u _ hu

theorem noticeArrives_memOk {s : State} {f : Flit} (h : s.memOk) : Out.memOk (s.noticeArrives f) :=
  receive_memOk h (fun _ ht => ht)

theorem execCredit_memOk {l v n : Nat} {s : State} (h : s.memOk) : Out.memOk (execCredit l v n s) :=
  Out.ite_memOk (modLink_memOk h) h

theorem execTimebaseExchange_memOk {t : Nat} {s : State} (h : s.memOk) : Out.memOk (execTimebaseExchange t s) :=
  Out.ite_memOk h (modDev_memOk h)

theorem exchange_memOk {s : State} {m : Nat} (h : s.memOk) : (s.exchange m).memOk :=
  ite_memOk (post_memOk h) h

theorem execLinkDown_memOk {l : Nat} {s : State} (h : s.memOk) : Out.memOk (execLinkDown l s) :=
  linkFails_memOk h

theorem writeFailed_memOk {s : State} {p : Nat} {r : Remote} (h : s.memOk) : (s.writeFailed p r).memOk := by
  unfold State.writeFailed
  grind [State.memOk, setLine_memOk, install_memOk, modPlaza_memOk]

theorem blockLost_memOk {s : State} {view block : Nat} (h : s.memOk) : (s.blockLost view block).memOk := by
  unfold State.blockLost
  grind [modBlock_memOk, appendFault_memOk]

theorem noticeLost_memOk {s : State} {tag : Nat} (h : s.memOk) : (s.noticeLost tag).memOk :=
  endNotices_memOk (foldl_memOk h (fun _ _ => blockLost_memOk))

theorem giveUp_memOk {s : State} {f : Remote → Bool} (h : s.memOk) : (s.giveUp f).memOk := h

theorem deviceWriteLost_memOk {s : State} {key : Nat} (h : s.memOk) : (s.deviceWriteLost key).memOk :=
  foldl_memOk h (fun _ _ ht => blockLost_memOk (giveUp_memOk ht))

theorem execPathTimeout_memOk {i : Nat} {s : State} (h : s.memOk) : Out.memOk (execPathTimeout i s) := by
  unfold execPathTimeout
  grind [State.memOk, Out.memOk, giveUp_memOk, noticeLost_memOk, answered_memOk, writeFailed_memOk, deviceWriteLost_memOk]

theorem execLinkRekey_memOk {l : Nat} {s : State} (h : s.memOk) : Out.memOk (execLinkRekey l s) := h

theorem execSecondTierPortDown_memOk {n : Nat} {s : State} (h : s.memOk) : Out.memOk (execSecondTierPortDown n s) := h

/-! ### The host ports (R359-R364) -/

theorem answerHost_memOk {s : State} {hn a : Nat} {x : HostAnswer} (h : s.memOk) : (s.answerHost hn a x).memOk := h

theorem hostRead_memOk {s : State} {hn pa n : Nat} {delays : List Delay} (h : s.memOk) : (s.hostRead hn pa n delays).memOk := by
  unfold State.hostRead
  split
  · exact answerHost_memOk h
  · split
    · exact answerHost_memOk (foldl_memOk h (fun _ _ => recall_memOk))
    · exact ite_memOk (answerHost_memOk (foldl_memOk h (fun _ _ => recall_memOk)))
        (ite_memOk (modHost_memOk (foldl_memOk h (fun _ _ => recall_memOk)))
          (ite_memOk (answerHost_memOk (foldl_memOk h (fun _ _ => recall_memOk)))
            (modHost_memOk (foldl_memOk (foldl_memOk h (fun _ _ => recall_memOk)) (fun _ _ => sendPublish_memOk)))))

theorem hostRetry_memOk {s : State} (h : s.memOk) : s.hostRetry.memOk :=
  foldl_memOk (modHost_memOk h) (fun _ _ => hostRead_memOk)

theorem hostWrite_memOk {s : State} {hn pa : Nat} {bs : List Byte} (h : s.memOk) : (s.hostWrite hn pa bs).memOk :=
  ite_memOk h (ite_memOk (answerHost_memOk h) (ite_memOk (answerHost_memOk h) (writeBytes_memOk h)))

theorem execBar2Read_memOk {hn o n : Nat} {s : State} (h : s.memOk) : Out.memOk (execBar2Read hn o n s) :=
  ite_memOk h (hostRead_memOk h)

theorem execBar2Write_memOk {hn o : Nat} {x : List Byte} {s : State} (h : s.memOk) : Out.memOk (execBar2Write hn o x s) :=
  ite_memOk (hostWrite_memOk h) h

theorem execCxlHostAccess_memOk {hn a n : Nat} {x : List Byte} {s : State} (h : s.memOk) : Out.memOk (execCxlHostAccess hn a n x s) :=
  ite_memOk (ite_memOk h (hostRead_memOk h)) (hostWrite_memOk h)

theorem execPartmodeWrite_memOk {hn v : Nat} {s : State} (h : s.memOk) : Out.memOk (execPartmodeWrite hn v s) :=
  Out.ite_memOk h (signal_memOk (modHost_memOk h))

theorem execTakeover_memOk {hn v : Nat} {s : State} (h : s.memOk) : Out.memOk (execTakeover hn v s) :=
  Out.ite_memOk (signal_memOk (modHost_memOk h)) h

theorem execHostPortLinkDown_memOk {hn : Nat} {s : State} (h : s.memOk) : Out.memOk (execHostPortLinkDown hn s) :=
  Out.ite_memOk (signal_memOk (modHost_memOk h)) h

theorem takeEntry_memOk {s : State} {k : Nat} (h : s.memOk) : (s.takeEntry k).memOk :=
  ite_memOk h (invalidate_memOk (recall_memOk h))

theorem execInvqtailWrite_memOk {w : HostWrite} {s : State} (h : s.memOk) : Out.memOk (execInvqtailWrite w s) :=
  Out.ite_memOk h (Out.ite_memOk (modHost_memOk h) (foldl_memOk (modHost_memOk h) (fun _ _ => takeEntry_memOk)))

theorem execRegisterWrite_memOk {hn o : Nat} {x : List Byte} {s : State} (h : s.memOk) : Out.memOk (execRegisterWrite hn o x s) :=
  Out.ite_memOk h (Out.ite_memOk (answerHost_memOk h) (Out.ite_memOk h (modDev_memOk (modHost_memOk (modPlacer_memOk h)))))

/-! ### Single-word lane instructions -/

theorem execVfadd_memOk {d a b p w k : Nat} {s : State} (h : s.memOk) : Out.memOk (execVfadd d a b p w k s) :=
  lane2_memOk h

theorem execVfsub_memOk {d a b p w k : Nat} {s : State} (h : s.memOk) : Out.memOk (execVfsub d a b p w k s) :=
  lane2_memOk h

theorem execVfmul_memOk {d a b p w k : Nat} {s : State} (h : s.memOk) : Out.memOk (execVfmul d a b p w k s) :=
  lane2_memOk h

theorem execVfmin_memOk {d a b p w k : Nat} {s : State} (h : s.memOk) : Out.memOk (execVfmin d a b p w k s) :=
  lane2_memOk h

theorem execVfmax_memOk {d a b p w k : Nat} {s : State} (h : s.memOk) : Out.memOk (execVfmax d a b p w k s) :=
  lane2_memOk h

theorem execViadd_memOk {d a b p w k : Nat} {s : State} (h : s.memOk) : Out.memOk (execViadd d a b p w k s) :=
  lane2_memOk h

theorem execVisub_memOk {d a b p w k : Nat} {s : State} (h : s.memOk) : Out.memOk (execVisub d a b p w k s) :=
  lane2_memOk h

theorem execVimul_memOk {d a b p w k : Nat} {s : State} (h : s.memOk) : Out.memOk (execVimul d a b p w k s) :=
  lane2_memOk h

theorem execVimin_memOk {d a b p w k : Nat} {s : State} (h : s.memOk) : Out.memOk (execVimin d a b p w k s) :=
  lane2_memOk h

theorem execVimax_memOk {d a b p w k : Nat} {s : State} (h : s.memOk) : Out.memOk (execVimax d a b p w k s) :=
  lane2_memOk h

theorem execVnmin_memOk {d a b p w k : Nat} {s : State} (h : s.memOk) : Out.memOk (execVnmin d a b p w k s) :=
  lane2_memOk h

theorem execVnmax_memOk {d a b p w k : Nat} {s : State} (h : s.memOk) : Out.memOk (execVnmax d a b p w k s) :=
  lane2_memOk h

theorem execVand_memOk {d a b p w k : Nat} {s : State} (h : s.memOk) : Out.memOk (execVand d a b p w k s) :=
  lane2_memOk h

theorem execVor_memOk {d a b p w k : Nat} {s : State} (h : s.memOk) : Out.memOk (execVor d a b p w k s) :=
  lane2_memOk h

theorem execVxor_memOk {d a b p w k : Nat} {s : State} (h : s.memOk) : Out.memOk (execVxor d a b p w k s) :=
  lane2_memOk h

theorem execVshl_memOk {d a b p w k : Nat} {s : State} (h : s.memOk) : Out.memOk (execVshl d a b p w k s) :=
  lane2_memOk h

theorem execVshr_memOk {d a b p w k : Nat} {s : State} (h : s.memOk) : Out.memOk (execVshr d a b p w k s) :=
  lane2_memOk h

theorem execVsra_memOk {d a b p w k : Nat} {s : State} (h : s.memOk) : Out.memOk (execVsra d a b p w k s) :=
  lane2_memOk h

theorem execVmov_memOk {d a p w k : Nat} {s : State} (h : s.memOk) : Out.memOk (execVmov d a p w k s) :=
  lane1_memOk h

theorem moveScalar_memOk {n d p w k : Nat} {s : State} (h : s.memOk) : Out.memOk (moveScalar n d p w k s) := by
  unfold moveScalar
  grind [Out.memOk, onLane_memOk, readScalar_memOk, effMask_memOk, laneRetire_memOk, issueRow_memOk]

theorem execVmovScalar_memOk {d a p w k : Nat} {s : State} (h : s.memOk) : Out.memOk (execVmovScalar d a p w k s) :=
  moveScalar_memOk h

theorem execVmovScalarHigh_memOk {d a p w k : Nat} {s : State} (h : s.memOk) : Out.memOk (execVmovScalarHigh d a p w k s) :=
  moveScalar_memOk h

theorem execVlid_memOk {d b p w k : Nat} {s : State} (h : s.memOk) : Out.memOk (execVlid d b p w k s) := by
  unfold execVlid
  grind [Out.memOk, onLane_memOk, operand_memOk, effMask_memOk, laneRetire_memOk, issueRow_memOk]

theorem moveWindow_memOk {f : Nat → W32 → Nat} {a w k : Nat} {s : State} (h : s.memOk) : Out.memOk (moveWindow f a w k s) := by
  unfold moveWindow
  grind [Out.memOk, onLane_memOk, scalarCode_memOk, newId_memOk, laneRetire_memOk, modLane_memOk]

theorem execVwin_memOk {a w k : Nat} {s : State} (h : s.memOk) : Out.memOk (execVwin a w k s) :=
  moveWindow_memOk h

theorem execVwinadd_memOk {a w k : Nat} {s : State} (h : s.memOk) : Out.memOk (execVwinadd a w k s) :=
  moveWindow_memOk h

theorem execVwait_memOk {c l st : Nat} {s : State} (h : s.memOk) : Out.memOk (execVwait c l st s) :=
  onLane_memOk h (fun _ _ => modLane_memOk (laneRetire_memOk h))

theorem execVbend_memOk {s : State} (h : s.memOk) : Out.memOk (execVbend s) :=
  onLane_memOk h (fun _ _ => modLane_memOk h)

theorem execVrgn_memOk {s : State} (h : s.memOk) : Out.memOk (execVrgn s) :=
  onLane_memOk h (fun _ _ => modLane_memOk (laneRetire_memOk h))

theorem predOp_memOk {f : W32 → W32 → W32} {d a b w k : Nat} {s : State} (h : s.memOk) : Out.memOk (predOp f d a b w k s) := by
  unfold predOp
  grind [Out.memOk, onLane_memOk, readPred_memOk, laneRetire_memOk, issuePred_memOk]

theorem execPand_memOk {d a b w k : Nat} {s : State} (h : s.memOk) : Out.memOk (execPand d a b w k s) :=
  predOp_memOk h

theorem execPor_memOk {d a b w k : Nat} {s : State} (h : s.memOk) : Out.memOk (execPor d a b w k s) :=
  predOp_memOk h

theorem execPxor_memOk {d a b w k : Nat} {s : State} (h : s.memOk) : Out.memOk (execPxor d a b w k s) :=
  predOp_memOk h

theorem execPandn_memOk {d a b w k : Nat} {s : State} (h : s.memOk) : Out.memOk (execPandn d a b w k s) :=
  predOp_memOk h

theorem maskOf_memOk {s : State} {p l a b : Nat} (h : s.memOk) : (s.maskOf p l a b).2.memOk := by
  unfold State.maskOf
  grind [readPred_memOk]

theorem maskScalar_memOk {f : Nat → W32 → W32} {d a b w k : Nat} {s : State} (h : s.memOk) : Out.memOk (maskScalar f d a b w k s) := by
  unfold maskScalar
  grind [Out.memOk, onLane_memOk, maskOf_memOk, laneRetire_memOk, issueScalar_memOk]

theorem execPbal_memOk {d a b w k : Nat} {s : State} (h : s.memOk) : Out.memOk (execPbal d a b w k s) :=
  maskScalar_memOk h

theorem execPset_memOk {d b n w k : Nat} {s : State} (h : s.memOk) : Out.memOk (execPset d b n w k s) := by
  unfold execPset
  grind [Out.memOk, onLane_memOk, readScalar_memOk, readPred_memOk, laneRetire_memOk, issuePred_memOk]

theorem execPpopc_memOk {d a b w k : Nat} {s : State} (h : s.memOk) : Out.memOk (execPpopc d a b w k s) :=
  maskScalar_memOk h

theorem execPfirst_memOk {d a b w k : Nat} {s : State} (h : s.memOk) : Out.memOk (execPfirst d a b w k s) :=
  maskScalar_memOk h

theorem execPushp_memOk {a b n w k : Nat} {s : State} (h : s.memOk) : Out.memOk (execPushp a b n w k s) := by
  unfold execPushp
  grind [Out.memOk, onLane_memOk, maskOf_memOk, readScalar_memOk, laneIllegalHere_memOk, laneRetire_memOk, modLane_memOk]

/-! ### Typed and cross-lane instructions -/

theorem execValu_memOk {d a b o t q v w k : Nat} {s : State} (h : s.memOk) : Out.memOk (execValu d a b o t q v w k s) := by
  unfold execValu
  grind [Out.memOk, onLane_memOk, operandW_memOk, effMask_memOk, laneRetire_memOk, issueRow_memOk]

theorem execVfma_memOk {d a b c n t q v w k : Nat} {s : State} (h : s.memOk) : Out.memOk (execVfma d a b c n t q v w k s) := by
  unfold execVfma
  grind [Out.memOk, onLane_memOk, operandW_memOk, effMask_memOk, laneRetire_memOk, issueRow_memOk]

theorem execVcvt_memOk {d a c t g r st f q v w k : Nat} {s : State} (h : s.memOk) : Out.memOk (execVcvt d a c t g r st f q v w k s) := by
  unfold execVcvt
  grind [Out.memOk, onLane_memOk, operandW_memOk, effMask_memOk, laneRetire_memOk, issueRow_memOk]

theorem execVcmp_memOk {d a b c t q v w k : Nat} {s : State} (h : s.memOk) : Out.memOk (execVcmp d a b c t q v w k s) := by
  unfold execVcmp
  grind [Out.memOk, onLane_memOk, operand_memOk, effMask_memOk, laneRetire_memOk, issuePred_memOk]

theorem execVsel_memOk {d a b g i q v w k : Nat} {s : State} (h : s.memOk) : Out.memOk (execVsel d a b g i q v w k s) := by
  unfold execVsel
  grind [Out.memOk, onLane_memOk, operand_memOk, readPred_memOk, effMask_memOk, laneRetire_memOk, issueRow_memOk]

theorem execVsfn_memOk {d a f q v w k : Nat} {s : State} (h : s.memOk) : Out.memOk (execVsfn d a f q v w k s) :=
  lane1_memOk h

theorem execVred_memOk {d a o g t q v w k : Nat} {s : State} (h : s.memOk) : Out.memOk (execVred d a o g t q v w k s) := by
  unfold execVred
  grind [Out.memOk, onLane_memOk, operandW_memOk, effMask_memOk, laneRetire_memOk, issueRow_memOk]

theorem execVscan_memOk {d a o x g t q v w k : Nat} {s : State} (h : s.memOk) : Out.memOk (execVscan d a o x g t q v w k s) := by
  unfold execVscan
  grind [Out.memOk, onLane_memOk, operandW_memOk, effMask_memOk, laneRetire_memOk, issueRow_memOk]

theorem execVshfl_memOk {d a b m g o q v w k : Nat} {s : State} (h : s.memOk) : Out.memOk (execVshfl d a b m g o q v w k s) := by
  unfold execVshfl
  grind [Out.memOk, onLane_memOk, operand_memOk, effMask_memOk, laneRetire_memOk, issueRow_memOk]

theorem execVperm_memOk {d a b c z t q v w k : Nat} {s : State} (h : s.memOk) : Out.memOk (execVperm d a b c z t q v w k s) := by
  unfold execVperm
  grind [Out.memOk, onLane_memOk, operandW_memOk, effMask_memOk, laneRetire_memOk, issueRow_memOk]

theorem execVrotm_memOk {d a b c z o q v w k : Nat} {s : State} (h : s.memOk) : Out.memOk (execVrotm d a b c z o q v w k s) := by
  unfold execVrotm
  grind [Out.memOk, onLane_memOk, operand_memOk, scalarCode_memOk, effMask_memOk, laneRetire_memOk, issueRow_memOk]

theorem execVdot_memOk {d a b c t g q v w k : Nat} {s : State} (h : s.memOk) : Out.memOk (execVdot d a b c t g q v w k s) := by
  unfold execVdot
  grind [Out.memOk, onLane_memOk, operandW_memOk, operand_memOk, effMask_memOk, laneRetire_memOk, issueRow_memOk]

theorem execVmxq_memOk {d a c x f m q v w k : Nat} {s : State} (h : s.memOk) : Out.memOk (execVmxq d a c x f m q v w k s) := by
  unfold execVmxq
  grind [Out.memOk, onLane_memOk, laneIllegalHere_memOk, operand_memOk, operandW_memOk, effMask_memOk, laneRetire_memOk, issueScalar_memOk,
    issueRow_memOk]

theorem execVbit_memOk {d a b c o q v w k : Nat} {s : State} (h : s.memOk) : Out.memOk (execVbit d a b c o q v w k s) := by
  unfold execVbit
  grind [Out.memOk, onLane_memOk, operand_memOk, effMask_memOk, laneRetire_memOk, issueRow_memOk]

theorem execVbcast_memOk {d a b z i t q v w k : Nat} {s : State} (h : s.memOk) : Out.memOk (execVbcast d a b z i t q v w k s) := by
  unfold execVbcast
  grind [Out.memOk, onLane_memOk, operandW_memOk, scalarCode_memOk, effMask_memOk, laneRetire_memOk, issueRow_memOk]

theorem execVgetl_memOk {d a b i q v w k : Nat} {s : State} (h : s.memOk) : Out.memOk (execVgetl d a b i q v w k s) := by
  unfold execVgetl
  grind [Out.memOk, onLane_memOk, operand_memOk, scalarCode_memOk, effMask_memOk, laneRetire_memOk, issueScalar_memOk]

/-! ### The matrix engine -/

theorem modActive_memOk {s : State} {p : Nat} {f : Active → Active} (h : s.memOk) : (s.modActive p f).memOk := h

theorem execNestActivate_memOk {p : Nat} {s : State} (h : s.memOk) : Out.memOk (execNestActivate p s) := by
  unfold execNestActivate
  split
  · exact Out.ite_memOk h (Out.ite_memOk (endCmd_memOk (modPlace_memOk h)) (modPlace_memOk (modPlace_memOk h)))
  · exact h

theorem takeStage_memOk {s : State} {p ring : Nat} {need : Bool} {held : Option Nat} (h : s.memOk) :
    ∀ r, s.takeStage p ring need held = some r → r.2.memOk := by
  unfold State.takeStage
  grind [modPlace_memOk]

theorem dropNest_memOk {s : State} {p : Nat} {a : Active} (h : s.memOk) : (s.dropNest p a).memOk := h

theorem nestTake_memOk {s : State} {p : Nat} {a : Active} (h : s.memOk) : (s.nestTake p a).memOk := by
  have hwait : ∀ t : State, t.memOk → (if (t.place p).halted then t.dropNest p a else t).memOk := fun _ ht => ite_memOk (dropNest_memOk ht)
    ht
  unfold State.nestTake
  extract_lets wait
  split
  · exact h
  · split
    · exact hwait s h
    · next t e =>
      extract_lets t1
      have ht : t1.memOk := modActive_memOk (takeStage_memOk h _ e)
      split
      · exact hwait _ ht
      · next e' => exact modActive_memOk (takeStage_memOk ht _ e')

theorem execNestStageTake_memOk {p : Nat} {s : State} (h : s.memOk) : Out.memOk (execNestStageTake p s) := by
  unfold execNestStageTake
  split
  · exact ite_memOk (nestTake_memOk h) h
  · exact h

theorem nestReadOne_memOk {s : State} {p : Nat} {a : Active} {k : Nat} (h : s.memOk) : (s.nestReadOne p a k).memOk := by
  unfold State.nestReadOne
  grind [readRowAs_memOk, modActive_memOk]

theorem nestSum_memOk {s : State} {p : Nat} {a : Active} (h : s.memOk) : (s.nestSum p a).memOk := by
  unfold State.nestSum
  grind [setStage_memOk, modPlace_memOk]

theorem drainRows_memOk {s : State} {p : Nat} {n : Nest} {d : Drain} {j : Nat} {rs : List Nat} (h : s.memOk) :
    (s.drainRows p n d j rs).memOk :=
  h

theorem nestDrainOne_memOk {s : State} {p k : Nat} (h : s.memOk) : (s.nestDrainOne p k).memOk := by
  unfold State.nestDrainOne
  split
  · exact h
  · split
    · exact h
    · split
      · exact h
      · exact modPlace_memOk (drainRows_memOk h)

theorem drainSub_memOk {s : State} {p : Nat} (h : s.memOk) : (s.drainSub p).memOk := by
  unfold State.drainSub
  split
  · exact h
  · split
    · exact h
    · exact modPlace_memOk (drainRows_memOk h)

theorem nestStep_memOk {s : State} {p k : Nat} (h : s.memOk) : (s.nestStep p k).memOk := by
  unfold State.nestStep
  split
  · exact h
  · split
    · exact nestTake_memOk h
    · exact ite_memOk (nestSum_memOk h) (nestReadOne_memOk h)
    · exact modPlace_memOk h
    · exact h
    · exact h

theorem nestMoves_memOk {s : State} {p n : Nat} (h : s.memOk) : (s.nestMoves p n).memOk := by
  induction n generalizing s with
  | zero => exact h
  | succ n ih => exact ih (nestStep_memOk h)

theorem execNestDrain_memOk {p : Nat} {s : State} (h : s.memOk) : Out.memOk (execNestDrain p s) :=
  foldl_memOk h (fun _ _ => drainSub_memOk)

theorem execNestComplete_memOk {p : Nat} {s : State} (h : s.memOk) : Out.memOk (execNestComplete p s) := by
  unfold execNestComplete
  split
  · exact ite_memOk (endCmd_memOk (modPlace_memOk h)) h
  · exact h

/-! ### The matrix-engine instructions -/

theorem setShadow_memOk {ok : Word → Word → Bool} {f : Word → Word → Nest → Nest} {a b : Nat} {s : State} (h : s.memOk) :
    Out.memOk (setShadow ok f a b s) :=
  onContext_memOk h (fun _ _ => Out.ite_memOk (retire_memOk (modPlace_memOk h)) (illegal_memOk h))

theorem execMnsetLvl_memOk {n a f : Nat} {s : State} (h : s.memOk) : Out.memOk (execMnsetLvl n a f s) :=
  setShadow_memOk h

theorem execMnsetBase_memOk {a r q : Nat} {s : State} (h : s.memOk) : Out.memOk (execMnsetBase a r q s) :=
  setShadow_memOk h

theorem execMnsetCtl_memOk {a b : Nat} {s : State} (h : s.memOk) : Out.memOk (execMnsetCtl a b s) :=
  setShadow_memOk h

theorem execMgo_memOk {t u v w : Nat} {s : State} (h : s.memOk) : Out.memOk (execMgo t u v w s) := by
  unfold execMgo
  grind [Out.memOk, onContext_memOk, block_memOk, trap_memOk, newCmd_memOk, retire_memOk, modPlace_memOk]

theorem execRset_memOk {n a : Nat} {s : State} (h : s.memOk) : Out.memOk (execRset n a s) :=
  onContext_memOk h (fun _ _ => Out.ite_memOk (illegal_memOk h) (Out.ite_memOk (trap_memOk h) (retire_memOk (modPlace_memOk h))))

theorem execRwait_memOk {d n k : Nat} {s : State} (h : s.memOk) : Out.memOk (execRwait d n k s) :=
  onContext_memOk h (fun _ _ => Out.ite_memOk (trap_memOk h) (Out.ite_memOk (retireReg_memOk h) (block_memOk h)))

theorem execRmark_memOk {n a : Nat} {s : State} (h : s.memOk) : Out.memOk (execRmark n a s) :=
  onContext_memOk h
    (fun _ _ => Out.ite_memOk (trap_memOk h)
      (Out.ite_memOk (illegal_memOk h) (Out.ite_memOk (trap_memOk h) (retire_memOk (modPlace_memOk h)))))

theorem execMstat_memOk {d sel a : Nat} {s : State} (h : s.memOk) : Out.memOk (execMstat d sel a s) :=
  onContext_memOk h (fun _ _ => Out.ite_memOk (illegal_memOk h) (Out.ite_memOk (illegal_memOk h) (retireReg_memOk h)))

/-! ### Issue on the lanes -/

theorem laneInstr_memOk {s : State} {p l : Nat} {va : Word} (h : s.memOk) : (s.laneInstr p l va).memOk := by
  unfold State.laneInstr
  grind [Res.memOk, Res.andThen_memOk, laneWord_memOk, oldTlb_memOk]

theorem runAs_memOk {s : State} {p l : Nat} {f : Fetched} (h : s.memOk) : (s.runAs p l f).memOk := h

theorem holdLane_memOk {s old : State} {p l : Nat} (h : s.memOk) : (s.holdLane old p l).memOk := h

theorem beginPacket_memOk {s : State} {p l : Nat} (h : s.memOk) : (s.beginPacket p l).memOk := h

theorem runOne_memOk {ex : Instr → State → Out} {p l : Nat} {f : Fetched} {i : Instr} {s : State} {k : State → Attempt}
    (hex : ∀ a t, t.memOk → Out.memOk (ex a t)) (h : s.memOk) (hk : ∀ t, t.memOk → Attempt.memOk (k t)) :
    Attempt.memOk (runOne ex p l f i s k) := by
  unfold runOne
  grind [Attempt.memOk, Out.memOk, runAs_memOk]

theorem secondHeld_memOk {ex : Instr → State → Out} {p l : Nat} {a b : Fetched} {j : Instr} {s : State}
    (hex : ∀ a t, t.memOk → Out.memOk (ex a t)) (h : s.memOk) :
    ∀ t, secondHeld ex p l a b j s = some t → t.memOk := by
  unfold secondHeld
  grind [Out.memOk, modLane_memOk, runAs_memOk]

theorem laneFetchFault_memOk {s : State} {p l : Nat} {pc va : Word} {r : Record} (h : s.memOk) : (s.laneFetchFault p l pc va r).memOk :=
  lanePass_memOk h

theorem onFetched_memOk {r : Res (Word ⊕ Fetched)} {p l : Nat} {pc : Word} {k : Fetched → State → Attempt} (h : r.memOk)
    (hk : ∀ a t, t.memOk → Attempt.memOk (k a t)) :
    Attempt.memOk (onFetched r p l pc k) := by
  unfold onFetched
  grind [Attempt.memOk, Out.memOk, Res.memOk, laneFetchFault_memOk, laneIllegalAt_memOk]

theorem attempt_memOk {ex : Instr → State → Out} {p l : Nat} {s : State} (hex : ∀ a t, t.memOk → Out.memOk (ex a t)) (h : s.memOk) :
    Attempt.memOk (attempt ex p l s) := by
  unfold attempt
  refine onFetched_memOk (laneInstr_memOk h) fun a s1 h1 => ?_
  split
  · exact laneIllegalAt_memOk h1
  · split
    · exact runOne_memOk hex (beginPacket_memOk h1) fun _ ht => ht
    · refine onFetched_memOk (laneInstr_memOk h1) fun b s2 h2 => ?_
      split
      · exact laneIllegalAt_memOk h2
      · split
        · exact laneIllegalAt_memOk h2
        · extract_lets s3
          split
          · next e => exact secondHeld_memOk hex (beginPacket_memOk h2) _ e
          · refine runOne_memOk hex (beginPacket_memOk h2) fun t ht => ?_
            split
            · exact ht
            · exact runOne_memOk hex ht fun _ hu => hu

theorem runLane_memOk {ex : Instr → State → Out} {p l : Nat} {s : State} (hex : ∀ a t, t.memOk → Out.memOk (ex a t)) (h : s.memOk) :
    Out.memOk (runLane ex p l s) := by
  unfold runLane
  split
  · exact h
  · have ha := attempt_memOk (p := p) (l := l) hex h
    split
    · next e => rw [e] at ha; exact holdLane_memOk ha
    · next e => rw [e] at ha; exact ha

/-! ### LAUNCH and JWAIT -/

theorem need_memOk {α β : Type} {r : Found? α} {f : α → State → Found? β} (h : Res.memOk r) (hf : ∀ a t, t.memOk → Res.memOk (f a t)) :
    Res.memOk (need r f) := by
  refine Res.andThen_memOk h fun x t ht => ?_
  split
  · exact hf _ t ht
  · exact ht

theorem readRange_memOk {s : State} {p c pasid : Nat} {x : List (Nat × Nat)} (h : s.memOk) : (s.readRange p c pasid x).memOk := by
  induction x generalizing s with
  | nil => exact h
  | cons y t ih => exact Res.andThen_memOk (readAs_memOk h) fun _ _ ht => Res.andThen_memOk (ih ht) fun _ _ hu => hu

theorem objBytes_memOk {s : State} {o : Source} {off n : Nat} (h : s.memOk) : (s.objBytes o off n).memOk :=
  readRange_memOk h

theorem readHeader_memOk {s : State} {o : Source} (h : s.memOk) : (s.readHeader o).memOk :=
  Res.andThen_memOk (objBytes_memOk h) (fun _ _ ht => Res.ite_memOk ht (Res.andThen_memOk (objBytes_memOk ht) (fun _ _ hu => hu)))

theorem sitesOk_memOk {s : State} {o : Source} {text : Nat} {x : List Nat} (h : s.memOk) : (s.sitesOk o text x).memOk := by
  induction x generalizing s with
  | nil => exact h
  | cons y t ih =>
    refine Res.andThen_memOk (objBytes_memOk h) fun bs u hu => ?_
    split
    · exact ih hu
    · exact hu

theorem readImage_memOk {s : State} {o : Source} {size : Nat} {v : Variant} (h : s.memOk) : Res.memOk (s.readImage o size v) := by
  refine Res.andThen_memOk (objBytes_memOk h) fun _ _ ht => Res.ite_memOk ht ?_
  refine Res.andThen_memOk (objBytes_memOk ht) fun _ _ h1 => Res.andThen_memOk (objBytes_memOk h1) fun _ _ h2 => ?_
  exact Res.andThen_memOk (objBytes_memOk h2) fun _ _ h3 => Res.ite_memOk h3 (Res.andThen_memOk (sitesOk_memOk h3) fun _ _ h4 => h4)

theorem readImages_memOk {s : State} {o : Source} {size : Nat} {vs : List Variant} (h : s.memOk) : Res.memOk (s.readImages o size vs) := by
  induction vs generalizing s with
  | nil => exact h
  | cons v vs ih => exact need_memOk (readImage_memOk h) fun _ _ ht => need_memOk (ih ht) fun _ _ hu => hu

/-- The text of a portable image is written to the frame of the rewriter cache (R256). -/
theorem rewrite_memOk {s : State} {o : Source} {size idx : Nat} {x : Image} (h : s.memOk) : Res.memOk (s.rewrite o size idx x) := by
  refine Res.andThen_memOk (objBytes_memOk h) fun obj t ht => Res.ite_memOk ht ?_
  split
  · exact ht
  · dsimp only
    split
    · exact ht
    · exact memWf_memPutBytes _ _ _ ht

theorem judge_memOk {s : State} {o : Source} {r : List Byte} {size dies : Nat} {xs : List Image} (h : s.memOk) :
    (s.judge o r size dies xs).memOk := by
  unfold State.judge
  grind [Res.memOk, Res.andThen_memOk, rewrite_memOk]

theorem readObject_memOk {s : State} {o : Source} {r : List Byte} (h : s.memOk) : (s.readObject o r).memOk := by
  unfold State.readObject
  split
  · exact h
  · refine Res.andThen_memOk (readHeader_memOk h) fun x u hu => ?_
    split
    · exact hu
    · refine Res.andThen_memOk (readImages_memOk hu) fun xs v hv => ?_
      split
      · exact hv
      · exact judge_memOk hv

theorem readLaunch_memOk {s : State} {p c : Nat} {ea : Word} (h : s.memOk) : (s.readLaunch p c ea).memOk :=
  Res.andThen_memOk (checkVa_memOk h) (fun _ _ ht => Res.andThen_memOk (readRange_memOk ht) (fun _ _ => readObject_memOk))

theorem dropRequest_memOk {s : State} {p c : Nat} (h : s.memOk) : (s.dropRequest p c).memOk := h

theorem execLaunch_memOk {d a : Nat} {s : State} (h : s.memOk) : Out.memOk (execLaunch d a s) := by
  unfold execLaunch
  grind [Out.memOk, onContext_memOk, block_memOk, dropRequest_memOk, onAccess_memOk, readLaunch_memOk, retireReg_memOk, modPlacer_memOk]

theorem writeCompletion_memOk {s : State} {p c pasid : Nat} {donewa value : Word} (h : s.memOk) :
    (s.writeCompletion p c pasid donewa value).memOk := by
  unfold State.writeCompletion
  grind [Res.memOk, Res.andThen_memOk, checkVa_memOk, releaseStore_memOk]

theorem endJob_memOk {s : State} {j : Job} {p : Nat} {value : Word} {written : Bool} (h : s.memOk) :
    (s.endJob j p value written).memOk := by
  unfold State.endJob; split <;> exact h

/-- The data sections of a portable image are copied to pages of their own (R257). -/
theorem mapCode_memOk {s : State} {id : Nat} {l : Launch} (h : s.memOk) : (s.mapCode id l).memOk := by
  unfold State.mapCode
  split
  · exact h
  · exact ite_memOk h (memWf_memPutBytes _ _ _ h)

theorem moveIn_memOk {s : State} {m : Move} (h : s.memOk) : (s.moveIn m).memOk := by
  unfold State.moveIn
  grind [Res.memOk, readObject_memOk, modPlacer_memOk, mapCode_memOk]

theorem checkpointKeys_memOk {s : State} {job pasid : Nat} {x : List Word} (h : s.memOk) : (s.checkpointKeys job pasid x).memOk := by
  induction x generalizing s with
  | nil => exact h
  | cons ea t ih =>
    unfold State.checkpointKeys
    grind [Res.memOk, Res.andThen_memOk, walk_memOk]

theorem checkpointAt_memOk {s : State} {who : Requester} {far : List (Nat × List Byte)} {k : Option Nat} (h : s.memOk) :
    (s.checkpointAt who far k).2.memOk := by
  unfold State.checkpointAt
  grind [Res.memOk, gathered_memOk]

theorem checkpoints_memOk {s : State} {p job pasid : Nat} {eas : List Word} (h : s.memOk) : (s.checkpoints p job pasid eas).memOk := by
  refine Res.andThen_memOk (checkpointKeys_memOk h) fun ks t ht => Res.andThen_memOk (gather_memOk ht) fun far u hu => ?_
  exact List.foldlRecOn (motive := fun acc : List Word × State => acc.2.memOk) _ _ hu fun _ hacc _ _ => checkpointAt_memOk hacc

theorem moveJob_memOk {s : State} {id p : Nat} (h : s.memOk) : (s.moveJob id p).memOk := by
  unfold State.moveJob
  grind [Res.memOk, checkpoints_memOk, moveIn_memOk, modPlacer_memOk]

theorem execLaunchAccept_memOk {s : State} (h : s.memOk) : Out.memOk (execLaunchAccept s) := by
  unfold execLaunchAccept
  grind [Res.memOk, Out.memOk, retireReg_memOk, modPlacer_memOk, mapCode_memOk, dropRequest_memOk, writeCompletion_memOk, endJob_memOk]

theorem execJwait_memOk {d a i : Nat} {s : State} (h : s.memOk) : Out.memOk (execJwait d a i s) := by
  unfold execJwait
  grind [Out.memOk, onContext_memOk, resumeAcquire_memOk, onAccess_memOk, retireReg_memOk, block_memOk, selfInvalidate_memOk,
    acquireWith_memOk]

theorem execJwaitTimeout_memOk {p c : Nat} {s : State} (h : s.memOk) : Out.memOk (execJwaitTimeout p c s) := by
  unfold execJwaitTimeout
  grind [Out.memOk, retireReg_memOk]

/-! ### The Job Placer (R234-R249) -/

theorem modJob_memOk {s : State} {id : Nat} {f : Job → Job} (h : s.memOk) : (s.modJob id f).memOk := h

theorem assign_memOk {s : State} {j : Job} {q idx : Nat} {resume : Bool} (h : s.memOk) : (s.assign j q idx resume).memOk := h

theorem placeNext_memOk {s : State} {id : Nat} (h : s.memOk) : ∀ t, s.placeNext id = some t → t.memOk := by
  unfold State.placeNext
  grind [map_memOk, assign_memOk]

theorem placeMany_memOk {s : State} {id n : Nat} (h : s.memOk) : (s.placeMany id n).1.memOk := by
  induction n generalizing s with
  | zero => exact h
  | succ n ih => unfold State.placeMany; grind [placeNext_memOk]

theorem settleJob_memOk {s : State} {id : Nat} (h : s.memOk) : (s.settleJob id).memOk := by
  unfold State.settleJob
  split
  · exact h
  · exact ite_memOk (modPlacer_memOk (modJob_memOk h)) h

theorem tryPlace_memOk {s : State} {j : Job} (h : s.memOk) : ∀ t, s.tryPlace j = some t → t.memOk := by
  unfold State.tryPlace
  grind [placeMany_memOk, settleJob_memOk]

theorem preempt_memOk {s : State} {v : Victim} (h : s.memOk) : (s.preempt v).memOk := by
  unfold State.preempt
  grind [foldl_memOk, modPlaza_memOk, modPlacer_memOk, modJob_memOk]

theorem tryPreempt_memOk {s : State} {head : Job} (h : s.memOk) : ∀ t, s.tryPreempt head = some t → t.memOk := by
  unfold State.tryPreempt
  grind [foldl_memOk, preempt_memOk]

theorem settleQueue_memOk {s : State} (h : s.memOk) : s.settleQueue.memOk :=
  foldl_memOk h (fun _ _ => settleJob_memOk)

theorem execJobPlace_memOk {s0 : State} (h : s0.memOk) : Out.memOk (execJobPlace s0) := by
  unfold execJobPlace
  grind [Out.memOk, settleQueue_memOk, tryPlace_memOk, tryPreempt_memOk, getD_memOk, List.findSome?_eq_some_iff]

theorem ageLevel_memOk {s : State} {level : Nat} (h : s.memOk) : (s.ageLevel level).memOk :=
  modPlacer_memOk (foldl_memOk h (fun _ _ => modJob_memOk))

theorem execAging_memOk {s : State} (h : s.memOk) : Out.memOk (execAging s) :=
  Out.ite_memOk h (ageLevel_memOk (ageLevel_memOk (ageLevel_memOk h)))

theorem keptTrap_memOk {s : State} {p : Nat} (h : s.memOk) : ∀ t, s.keptTrap p = some t → t.memOk := by
  intro t ht
  obtain ⟨c, _, hc⟩ := List.exists_of_findSome?_eq_some ht
  exact takeKept_memOk h t hc

theorem execSaveComplete_memOk {p : Nat} {s : State} (h : s.memOk) : Out.memOk (execSaveComplete p s) := by
  unfold execSaveComplete
  grind [foldl_memOk, Out.memOk, keptTrap_memOk, forgetRemotes_memOk, landAll_memOk, modPlaza_memOk, modPlacer_memOk, modJob_memOk]

theorem changeTenant_memOk {s : State} {p : Nat} {key : Nat × Nat} (h : s.memOk) : (s.changeTenant p key).2.memOk := by
  unfold State.changeTenant
  grind [publishLines_memOk, modPlaza_memOk]

theorem leaveL1_memOk {s : State} {p size : Nat} {key : Nat × Nat} (h : s.memOk) : (s.leaveL1 p size key).2.memOk := by
  unfold State.leaveL1
  grind [foldl_memOk, changeTenant_memOk, modPlaza_memOk, evictLine_memOk]

theorem prepare_memOk {s : State} {p size : Nat} {key : Nat × Nat} (h : s.memOk) : (s.prepare p size key).2.memOk := by
  unfold State.prepare
  grind [modPlaza_memOk, leaveL1_memOk]

theorem acquirePlaza_memOk {s : State} {p from_ seq : Nat} (h : s.memOk) : (s.acquirePlaza p from_ seq).2.memOk := by
  unfold State.acquirePlaza
  grind [modPlaza_memOk, selfInvalidate_memOk, sendPublish_memOk]

theorem execPlacementStart_memOk {p : Nat} {s : State} (h : s.memOk) : Out.memOk (execPlacementStart p s) := by
  unfold execPlacementStart
  grind [Out.memOk, prepare_memOk, acquirePlaza_memOk, modPlaza_memOk]

theorem reseat_memOk {s : State} {p : Nat} {lanes : Tab Lane} {blocks : List Block} (h : s.memOk) : (s.reseat p lanes blocks).memOk := by
  unfold State.reseat
  grind [foldl_memOk, modPlace_memOk]

theorem redeliver_memOk {s : State} {p : Nat} {rs : List Record} (h : s.memOk) : (s.redeliver p rs).memOk :=
  openNext_memOk (modPlaza_memOk h)

theorem execPlacementResume_memOk {p : Nat} {s : State} (h : s.memOk) : Out.memOk (execPlacementResume p s) := by
  unfold execPlacementResume
  grind [Out.memOk, prepare_memOk, acquirePlaza_memOk, modPlaza_memOk, modJob_memOk, settleJob_memOk, redeliver_memOk, reseat_memOk]

theorem vacate_memOk {s : State} {p : Nat} (h : s.memOk) : (s.vacate p).memOk := h

theorem execPlacementEnd_memOk {p : Nat} {s : State} (h : s.memOk) : Out.memOk (execPlacementEnd p s) := by
  unfold execPlacementEnd
  grind [foldl_memOk, Res.memOk, Out.memOk, landAll_memOk, writeCompletion_memOk, vacate_memOk, endJob_memOk, settleJob_memOk, modJob_memOk,
    modPlaza_memOk, sendPublish_memOk]

/-! ### Power, start-up and protection: a die that goes off loses its bytes (R368) -/

theorem modDie_memOk {s : State} {d : Nat} {f : Die → Die} (h : s.memOk) : (s.modDie d f).memOk := h

theorem rehome_memOk {s : State} (h : s.memOk) : s.rehome.memOk := h

theorem moveHomes_memOk {s : State} {d : Nat} (h : s.memOk) : (s.moveHomes d).memOk := h

/-- A die that goes off loses its bytes (R368). -/
theorem dieOff_memOk {s : State} {d : Nat} (h : s.memOk) : (s.dieOff d).memOk := memWf_filter _ _ (modDie_memOk (moveHomes_memOk h))

theorem startDispatcher_memOk {s : State} {d : Nat} (h : s.memOk) : (s.startDispatcher d).memOk := h

theorem execDiepwrWrite_memOk {d : Nat} {w : HostWrite} {s : State} (h : s.memOk) : Out.memOk (execDiepwrWrite d w s) :=
  Out.ite_memOk h
    (Out.ite_memOk (modDie_memOk h)
      (Out.ite_memOk h
        (Out.ite_memOk (ite_memOk (startDispatcher_memOk (rehome_memOk (modDie_memOk h))) (modDie_memOk h))
          (Out.ite_memOk h (dieOff_memOk h)))))

theorem execDiePowerOnComplete_memOk {d : Nat} {s : State} (h : s.memOk) : Out.memOk (execDiePowerOnComplete d s) :=
  Out.ite_memOk (startDispatcher_memOk (rehome_memOk (modDie_memOk h))) h

theorem execPasidbind_memOk {w : HostWrite} {s : State} (h : s.memOk) : Out.memOk (execPasidbind w s) :=
  Out.ite_memOk h (modDev_memOk h)

theorem setKey_memOk {s : State} {n : Nat} {loaded : Bool} {masked : Nat} (h : s.memOk) : (s.setKey n loaded masked).memOk := h

theorem execKeyLoad_memOk {n f m : Nat} {s : State} (h : s.memOk) : Out.memOk (execKeyLoad n f m s) :=
  Out.ite_memOk h (Out.ite_memOk (modDev_memOk h) (Out.ite_memOk h (setKey_memOk h)))

theorem execJournalclr_memOk {w : HostWrite} {s : State} (h : s.memOk) : Out.memOk (execJournalclr w s) :=
  ite_memOk (modDev_memOk h) h

theorem execAlarmack_memOk {w : HostWrite} {s : State} (h : s.memOk) : Out.memOk (execAlarmack w s) :=
  ite_memOk (modDev_memOk h) h

theorem execPowerHold_memOk {n : Nat} {s : State} (h : s.memOk) : Out.memOk (execPowerHold n s) := h

/-- A cold start keeps of the memory only what lies at other modules. -/
theorem cold_memOk {s : State} {ph : Phase} (h : s.memOk) : (s.cold ph).memOk := memWf_filter s.mem _ h

theorem execPowerRemoval_memOk {s : State} (h : s.memOk) : Out.memOk (execPowerRemoval s) :=
  cold_memOk h

theorem startDone_memOk {s : State} (h : s.memOk) : s.startDone.memOk :=
  ite_memOk (foldl_memOk (modDev_memOk h) (fun _ _ => startDispatcher_memOk)) h

theorem startBegin_memOk {s : State} (h : s.memOk) : s.startBegin.memOk :=
  modDev_memOk (cold_memOk h)

theorem execStartUp_memOk {x : StartUp} {s : State} (h : s.memOk) : Out.memOk (execStartUp x s) :=
  Out.ite_memOk (startDone_memOk (modDev_memOk h)) (Out.ite_memOk (startDone_memOk (modDev_memOk (startBegin_memOk h))) h)

theorem execPlazaRestart_memOk {p : Nat} {s : State} (h : s.memOk) : Out.memOk (execPlazaRestart p s) := h

/-! ### Link schedules (R304-R306) -/

theorem issueLink_memOk {i : Instr} {major n opa opb t u v w : Nat} {s : State} (h : s.memOk) :
    Out.memOk (issueLink i major n opa opb t u v w s) := by
  unfold issueLink
  grind [Out.memOk, illegal_memOk, onContext_memOk, block_memOk, newCmd_memOk, retire_memOk, modPlace_memOk]

theorem modSlot_memOk {s : State} {d n : Nat} {f : Slot → Slot} (h : s.memOk) : (s.modSlot d n f).memOk := h

theorem engineKeys_memOk {s : State} {p : Nat} {x : List (Nat × Nat)} (h : s.memOk) : (s.engineKeys p x).memOk := by
  induction x generalizing s with
  | nil => exact h
  | cons y t ih => exact Res.andThen_memOk (checkVa_memOk h) fun _ _ ht => Res.andThen_memOk (ih ht) fun _ _ hu => hu

theorem takeVa_memOk {s : State} {p : Nat} {far : List (Nat × List Byte)} {x : List (Nat × Nat × Nat)} (h : s.memOk) :
    (s.takeVa p far x).memOk := by
  induction x generalizing s with
  | nil => exact h
  | cons y t ih =>
    exact Res.andThen_memOk (Res.at_memOk (Res.andThen_memOk (gathered_memOk h) fun _ _ hv => takeBytes_memOk hv)) fun _ _ ht =>
      Res.andThen_memOk (ih ht) fun _ _ hu => hu

theorem engineVa_memOk {s : State} {p : Nat} {ps : List (Nat × Nat)} (h : s.memOk) : (s.engineVa p ps).memOk := by
  unfold State.engineVa
  grind [foldl_memOk, Res.andThen_memOk, engineKeys_memOk, mergeOwn_memOk, writeBack_memOk, gather_memOk, takeVa_memOk]

theorem failLink_memOk {s : State} {p : Nat} {c : Cmd} {f : Failure} (h : s.memOk) : (s.failLink p c f).memOk := by
  unfold State.failLink
  grind [failCmd_memOk, modPlace_memOk, endCmd_memOk]

theorem retryLink_memOk {s : State} {p : Nat} (h : s.memOk) : (s.retryLink p).memOk := by
  unfold State.retryLink
  grind [getD_memOk, failCmd_memOk]

theorem loadSchedule_memOk {s : State} {p : Nat} {c : Cmd} (h : s.memOk) : (s.loadSchedule p c).memOk := by
  unfold State.loadSchedule
  grind [Res.memOk, failLink_memOk, engineVa_memOk, endCmd_memOk, modSlot_memOk]

theorem execScheduleLoad_memOk {p : Nat} {s : State} (h : s.memOk) : Out.memOk (execScheduleLoad p s) := by
  unfold execScheduleLoad
  split
  · exact h
  · split
    · exact retryLink_memOk h
    · exact Out.ite_memOk h (Out.ite_memOk (endCmd_memOk h) (loadSchedule_memOk h))

theorem startSchedule_memOk {s : State} {p : Nat} {c : Cmd} (h : s.memOk) : (s.startSchedule p c).memOk := by
  unfold State.startSchedule
  grind [failLink_memOk, modSlot_memOk, modCmd_memOk, modPlace_memOk]

theorem execScheduleStart_memOk {p : Nat} {s : State} (h : s.memOk) : Out.memOk (execScheduleStart p s) := by
  unfold execScheduleStart
  split
  · exact h
  · split
    · exact retryLink_memOk h
    · exact Out.ite_memOk h (Out.ite_memOk (endCmd_memOk h) (startSchedule_memOk h))

theorem sendOn_memOk {s : State} {l : Nat} {f : Flit} (h : s.memOk) : ∀ t, s.sendOn l f = some t → t.memOk := by
  unfold State.sendOn
  grind [emit_memOk]

theorem giveCredit_memOk {s : State} {l v n : Nat} (h : s.memOk) : (s.giveCredit l v n).memOk := by
  unfold State.giveCredit
  grind [getD_memOk, sendOn_memOk]

theorem sendRun_memOk {s : State} {d n i l dmod ddie : Nat} {bs : List Byte} (h : s.memOk) : (s.sendRun d n i l dmod ddie bs).memOk := by
  refine List.foldlRecOn (motive := Eng.memOk) _ _ h fun r hr j _ => Eng.andThen_memOk hr fun _ t ht => ?_
  grind [Eng.memOk, sendOn_memOk]

theorem keepResult_memOk {s : State} {d n : Nat} {bs : List Byte} (h : s.memOk) : (s.keepResult d n bs).memOk := h

theorem stepEffect_memOk {s : State} {d n : Nat} (h : s.memOk) : (s.stepEffect d n).memOk := by
  unfold State.stepEffect
  grind [Eng.memOk, freeBook_memOk, readGlobal_memOk, writeGlobal_memOk, keepResult_memOk, Eng.andThen_memOk, sendRun_memOk]

theorem refreshSource_memOk {s : State} {x : Slot} (h : s.memOk) : (s.refreshSource x).memOk := by
  unfold State.refreshSource
  grind [Eng.memOk, engineUse_memOk]

theorem unpinSlot_memOk {s : State} {x : Slot} (h : s.memOk) : (s.unpinSlot x).memOk := by
  unfold State.unpinSlot
  split
  · exact h
  · split
    · exact unpin_memOk h
    · exact h

theorem dropHeld_memOk {s : State} {x : Slot} (h : s.memOk) : (s.dropHeld x).memOk := by
  unfold State.dropHeld
  split
  · exact modCmd_memOk h
  · exact h

theorem execScheduleStep_memOk {d n : Nat} {s : State} (h : s.memOk) : Out.memOk (execScheduleStep d n s) := by
  unfold execScheduleStep
  grind [Out.memOk, Eng.memOk, modSlot_memOk, refreshSource_memOk, stepEffect_memOk, unpinSlot_memOk, dropHeld_memOk]

theorem flood_memOk {s : State} {d n t : Nat} (h : s.memOk) : (s.flood d n t).memOk := by
  unfold State.flood
  grind [foldl_memOk, getD_memOk, sendOn_memOk]

theorem execPause_memOk {d n t g : Nat} {s : State} (h : s.memOk) : Out.memOk (execPause d n t g s) :=
  Out.ite_memOk (Out.ite_memOk (flood_memOk (modSlot_memOk h)) h) (Out.ite_memOk h (flood_memOk (modSlot_memOk h)))

theorem pauseSlot_memOk {s : State} {k ns : Nat} (h : s.memOk) : (s.pauseSlot k ns).memOk :=
  foldl_memOk h (fun _ _ ht => onward_memOk (fun _ => execPause_memOk) ht)

theorem execScheduleData_memOk {d n i : Nat} {x : List Byte} {s : State} (h : s.memOk) : Out.memOk (execScheduleData d n i x s) := h

theorem execScheduleComplete_memOk {d n : Nat} {s : State} (h : s.memOk) : Out.memOk (execScheduleComplete d n s) := by
  unfold execScheduleComplete
  grind [Out.memOk, modSlot_memOk, forgetRemotes_memOk, modPlace_memOk, failLink_memOk, endCmd_memOk]

/-! ### What ends a wait -/

/-- A blocking instruction runs again as it ran; no other instruction waits. -/
theorem retry_memOk {i : Instr} {st : State} (h : st.memOk) : Out.memOk (retry i st) := by
  cases i with
  | ldb | ldbn | ldh | ldhn | ldw | ldwn | ldd => exact load_memOk h
  | stb | sth | stw | std => exact store_memOk h
  | lda => exact execLda_memOk h
  | strel => exact execStrel_memOk h
  | amo => exact execAmo_memOk h
  | amoAddc => exact execAmoAddc_memOk h
  | amoFaddc => exact execAmoFaddc_memOk h
  | cas => exact execCas_memOk h
  | waitm => exact execWaitm_memOk h
  | loop => exact execLoop_memOk h
  | loopi => exact execLoopi_memOk h
  | ckpt => exact execCkpt_memOk h
  | icpf => exact execIcpf_memOk h
  | icinv => exact execIcinv_memOk h
  | dcpf => exact execDcpf_memOk h
  | dcwb => exact execDcwb_memOk h
  | dcinv => exact execDcinv_memOk h
  | shld => exact execShld_memOk h
  | shst => exact execShst_memOk h
  | popp => exact execPopp_memOk h
  | poppn => exact execPoppn_memOk h
  | emit => exact execEmit_memOk h
  | split => exact execSplit_memOk h
  | bwait => exact execBwait_memOk h
  | twait | twaitm => exact twaitMask_memOk h
  | tfree | tfreem => exact tfreeMask_memOk h
  | cpy => exact execCpy_memOk h
  | cpyg => exact execCpyg_memOk h
  | puth => exact execPuth_memOk h
  | bfset => exact execBfset_memOk h
  | cbld => exact execCbld_memOk h
  | mgo => exact execMgo_memOk h
  | rwait => exact execRwait_memOk h
  | launch => exact execLaunch_memOk h
  | jwait => exact execJwait_memOk h
  | jbar => exact execJbar_memOk h
  | viewreg => exact execViewreg_memOk h
  | viewdrop => exact execViewdrop_memOk h
  | viewtag => exact execViewtag_memOk h
  | viewsync => exact execViewsync_memOk h
  | lsched | lgo => exact issueLink_memOk h
  | _ => exact h

theorem retryCtx_memOk {p c : Nat} {s : State} (h : s.memOk) : Out.memOk (retryCtx p c s) := by
  unfold retryCtx
  grind [State.memOk, Out.memOk, retry_memOk]

theorem execConditionMet_memOk {p c : Nat} {s : State} (h : s.memOk) : Out.memOk (execConditionMet p c s) :=
  retryCtx_memOk h

theorem execWaitmWake_memOk {p c : Nat} {s : State} (h : s.memOk) : Out.memOk (execWaitmWake p c s) := by
  unfold execWaitmWake
  split
  · exact retryCtx_memOk h
  · exact h

theorem execWatchdog_memOk {p c : Nat} {s : State} (h : s.memOk) : Out.memOk (execWatchdog p c s) := by
  unfold execWatchdog
  grind [Out.memOk, trap_memOk]

theorem execEngineTrap_memOk {p c : Nat} {s : State} (h : s.memOk) : Out.memOk (execEngineTrap p c s) := by
  unfold execEngineTrap
  grind [getD_memOk, Out.memOk, takeKept_memOk]

theorem execDelayedReadRecheck_memOk {p : Nat} {x : Reader} {s : State} (h : s.memOk) : Out.memOk (execDelayedReadRecheck p x s) := by
  unfold execDelayedReadRecheck
  split
  · exact retryCtx_memOk h
  · exact modLane_memOk h
  · exact copyNext_memOk h
  · exact hostRetry_memOk h

theorem execWritebackAcknowledgement_memOk {p c : Nat} {s : State} (h : s.memOk) : Out.memOk (execWritebackAcknowledgement p c s) := by
  unfold execWritebackAcknowledgement
  grind [Out.memOk, finishMoves_memOk, execPlacementStart_memOk, execPlacementResume_memOk, retryCtx_memOk]

/-! ### Every instruction and event -/

/-- Every instruction and every event: those that share an operation by its lemma, the others each by its own. -/
theorem exec_memOk {i : Instr} {s : State} (h : s.memOk) : Out.memOk (exec i s) := by
  cases i with
  | add | sub | and | or | xor | andn | shl | shr | sra | mul | mulhs | mulhn | min | max | minn | maxn | slt | sltn |
    seq | sh1add | sh2add | sh3add | sne => exact sharedRR_memOk h
  | divs | divn | rems | remn => exact controlRR_memOk h
  | clz | popc | addi | andi | ori | xori | shli | shri | srai | slti | sltni | li | lih => exact sharedR_memOk h
  | beq | bne | blt | bge | bltn | bgen => exact branch_memOk h
  | j => exact execJ_memOk h
  | call => exact execCall_memOk h
  | jalr => exact execJalr_memOk h
  | loop => exact execLoop_memOk h
  | loopi => exact execLoopi_memOk h
  | fence => exact execFence_memOk h
  | fqry => exact execFqry_memOk h
  | nop => exact execNop_memOk h
  | ldb | ldbn | ldh | ldhn | ldw | ldwn | ldd => exact load_memOk h
  | stb | sth | stw | std => exact store_memOk h
  | lda => exact execLda_memOk h
  | strel => exact execStrel_memOk h
  | amo => exact execAmo_memOk h
  | amoAddc => exact execAmoAddc_memOk h
  | amoFaddc => exact execAmoFaddc_memOk h
  | waitm => exact execWaitm_memOk h
  | csrr => exact execCsrr_memOk h
  | csrw => exact execCsrw_memOk h
  | csrs => exact execCsrs_memOk h
  | csrc => exact execCsrc_memOk h
  | icpf => exact execIcpf_memOk h
  | icinv => exact execIcinv_memOk h
  | icinvAll => exact execIcinvAll_memOk h
  | dcpf => exact execDcpf_memOk h
  | dcwb => exact execDcwb_memOk h
  | dcinv => exact execDcinv_memOk h
  | xlt => exact execXlt_memOk h
  | hinv => exact execHinv_memOk h
  | hinvAll => exact execHinvAll_memOk h
  | hget => exact execHget_memOk h
  | hgetva => exact execHgetva_memOk h
  | shld => exact execShld_memOk h
  | shst => exact execShst_memOk h
  | shset => exact execShset_memOk h
  | shget => exact execShget_memOk h
  | popp => exact execPopp_memOk h
  | poppn => exact execPoppn_memOk h
  | bcancel => exact execBcancel_memOk h
  | bseq => exact execBseq_memOk h
  | bwait => exact execBwait_memOk h
  | twait | twaitm => exact twaitMask_memOk h
  | ttest => exact execTtest_memOk h
  | ttestOut => exact execTtestOut_memOk h
  | ttestFailed => exact execTtestFailed_memOk h
  | tfree | tfreem => exact tfreeMask_memOk h
  | exit => exact execExit_memOk h
  | trap => exact execTrap_memOk h
  | sret => exact execSret_memOk h
  | hret => exact execHret_memOk h
  | wake => exact execWake_memOk h
  | ckpt => exact execCkpt_memOk h
  | tbr => exact execTbr_memOk h
  | lix => exact execLix_memOk h
  | lixh => exact execLixh_memOk h
  | cas => exact execCas_memOk h
  | emit => exact execEmit_memOk h
  | split => exact execSplit_memOk h
  | cpy => exact execCpy_memOk h
  | cpyg => exact execCpyg_memOk h
  | puth => exact execPuth_memOk h
  | mnsetLvl => exact execMnsetLvl_memOk h
  | mnsetBase => exact execMnsetBase_memOk h
  | mnsetCtl => exact execMnsetCtl_memOk h
  | mgo => exact execMgo_memOk h
  | rset => exact execRset_memOk h
  | rwait => exact execRwait_memOk h
  | rmark => exact execRmark_memOk h
  | bfset => exact execBfset_memOk h
  | cbld => exact execCbld_memOk h
  | launch => exact execLaunch_memOk h
  | jwait => exact execJwait_memOk h
  | jbar => exact execJbar_memOk h
  | viewreg => exact execViewreg_memOk h
  | viewdrop => exact execViewdrop_memOk h
  | viewpol => exact execViewpol_memOk h
  | viewtag => exact execViewtag_memOk h
  | viewsync => exact execViewsync_memOk h
  | lsched | lgo => exact issueLink_memOk h
  | mstat => exact execMstat_memOk h
  | vfadd => exact execVfadd_memOk h
  | vfsub => exact execVfsub_memOk h
  | vfmul => exact execVfmul_memOk h
  | vfmin => exact execVfmin_memOk h
  | vfmax => exact execVfmax_memOk h
  | viadd => exact execViadd_memOk h
  | visub => exact execVisub_memOk h
  | vimul => exact execVimul_memOk h
  | vimin => exact execVimin_memOk h
  | vimax => exact execVimax_memOk h
  | vnmin => exact execVnmin_memOk h
  | vnmax => exact execVnmax_memOk h
  | vand => exact execVand_memOk h
  | vor => exact execVor_memOk h
  | vxor => exact execVxor_memOk h
  | vshl => exact execVshl_memOk h
  | vshr => exact execVshr_memOk h
  | vsra => exact execVsra_memOk h
  | vmov => exact execVmov_memOk h
  | vmovScalar => exact execVmovScalar_memOk h
  | vmovScalarHigh => exact execVmovScalarHigh_memOk h
  | vlid => exact execVlid_memOk h
  | vwin => exact execVwin_memOk h
  | vwinadd => exact execVwinadd_memOk h
  | vwait => exact execVwait_memOk h
  | vbend => exact execVbend_memOk h
  | vrgn => exact execVrgn_memOk h
  | pand => exact execPand_memOk h
  | por => exact execPor_memOk h
  | pxor => exact execPxor_memOk h
  | pandn => exact execPandn_memOk h
  | pbal => exact execPbal_memOk h
  | pset => exact execPset_memOk h
  | ppopc => exact execPpopc_memOk h
  | pfirst => exact execPfirst_memOk h
  | pushp => exact execPushp_memOk h
  | valu => exact execValu_memOk h
  | vfma => exact execVfma_memOk h
  | vcvt => exact execVcvt_memOk h
  | vcmp => exact execVcmp_memOk h
  | vsel => exact execVsel_memOk h
  | vsfn => exact execVsfn_memOk h
  | vred => exact execVred_memOk h
  | vscan => exact execVscan_memOk h
  | vshfl => exact execVshfl_memOk h
  | vperm => exact execVperm_memOk h
  | vrotm => exact execVrotm_memOk h
  | vdot => exact execVdot_memOk h
  | vmxq => exact execVmxq_memOk h
  | vbit => exact execVbit_memOk h
  | vbcast => exact execVbcast_memOk h
  | vgetl => exact execVgetl_memOk h
  | vlds => exact execVlds_memOk h
  | vsts => exact execVsts_memOk h
  | vldg => exact execVldg_memOk h
  | vstg => exact execVstg_memOk h
  | vldu => exact execVldu_memOk h
  | vstu => exact execVstu_memOk h
  | vamo => exact execVamo_memOk h
  | vldb => exact execVldb_memOk h
  | vstb => exact execVstb_memOk h
  | conditionMet => exact execConditionMet_memOk h
  | waitmWake => exact execWaitmWake_memOk h
  | watchdog => exact execWatchdog_memOk h
  | engineTrap => exact execEngineTrap_memOk h
  | icacheFill => exact execIcacheFill_memOk h
  | l1FillReturn => exact execL1FillReturn_memOk h
  | translationWalkEnd => exact execTranslationWalkEnd_memOk h
  | handleRefresh => exact execHandleRefresh_memOk h
  | atsInvalidation => exact execAtsInvalidation_memOk h
  | invalidationComplete => exact execInvalidationComplete_memOk h
  | pagePublish => exact execPagePublish_memOk h
  | copyStart => exact execCopyStart_memOk h
  | copyComplete => exact execCopyComplete_memOk h
  | copyFailure => exact execCopyFailure_memOk h
  | bankFormatWrite => exact execBankFormatWrite_memOk h
  | codebookWrite => exact execCodebookWrite_memOk h
  | puthArrival => exact execPuthArrival_memOk h
  | blockDispatch => exact execBlockDispatch_memOk h
  | laneResultLands => exact execLaneResultLands_memOk h
  | laneStorePerforms => exact execLaneStorePerforms_memOk h
  | regionMarker => exact execRegionMarker_memOk h
  | blockComplete => exact execBlockComplete_memOk h
  | blockRetire => exact execBlockRetire_memOk h
  | alleyEntryPoppable => exact execAlleyEntryPoppable_memOk h
  | freezeSettle => exact execFreezeSettle_memOk h
  | qdeadlock => exact execQdeadlock_memOk h
  | nestActivate => exact execNestActivate_memOk h
  | nestStageTake => exact execNestStageTake_memOk h
  | nestDrain => exact execNestDrain_memOk h
  | nestComplete => exact execNestComplete_memOk h
  | scheduleLoad => exact execScheduleLoad_memOk h
  | scheduleStart => exact execScheduleStart_memOk h
  | scheduleStep => exact execScheduleStep_memOk h
  | pause => exact execPause_memOk h
  | scheduleComplete => exact execScheduleComplete_memOk h
  | sweeperWriteback => exact execSweeperWriteback_memOk h
  | publishRequest => exact execPublishRequest_memOk h
  | publishComplete => exact execPublishComplete_memOk h
  | publishAcknowledgement => exact execPublishAcknowledgement_memOk h
  | kgNotice => exact execKgNotice_memOk h
  | viewDerivation => exact execViewDerivation_memOk h
  | viewBlockWrite => exact execViewBlockWrite_memOk h
  | delayedReadRecheck => exact execDelayedReadRecheck_memOk h
  | launchAccept => exact execLaunchAccept_memOk h
  | jobPlace => exact execJobPlace_memOk h
  | aging => exact execAging_memOk h
  | saveComplete => exact execSaveComplete_memOk h
  | placementStart => exact execPlacementStart_memOk h
  | placementResume => exact execPlacementResume_memOk h
  | placementEnd => exact execPlacementEnd_memOk h
  | readRequest => exact execReadRequest_memOk h
  | readData => exact execReadData_memOk h
  | remoteWrite => exact execRemoteWrite_memOk h
  | remoteAtomic => exact execRemoteAtomic_memOk h
  | atomicResponse => exact execAtomicResponse_memOk h
  | copyData => exact execCopyData_memOk h
  | scheduleData => exact execScheduleData_memOk h
  | credit => exact execCredit_memOk h
  | timebaseExchange => exact execTimebaseExchange_memOk h
  | linkDown => exact execLinkDown_memOk h
  | pathTimeout => exact execPathTimeout_memOk h
  | linkRekey => exact execLinkRekey_memOk h
  | bar2Read => exact execBar2Read_memOk h
  | bar2Write => exact execBar2Write_memOk h
  | partmodeWrite => exact execPartmodeWrite_memOk h
  | takeover => exact execTakeover_memOk h
  | invqtailWrite => exact execInvqtailWrite_memOk h
  | diepwrWrite => exact execDiepwrWrite_memOk h
  | diePowerOnComplete => exact execDiePowerOnComplete_memOk h
  | pasidbind => exact execPasidbind_memOk h
  | keyLoad => exact execKeyLoad_memOk h
  | journalclr => exact execJournalclr_memOk h
  | alarmack => exact execAlarmack_memOk h
  | registerWrite => exact execRegisterWrite_memOk h
  | secondTierPortDown => exact execSecondTierPortDown_memOk h
  | powerHold => exact execPowerHold_memOk h
  | powerRemoval => exact execPowerRemoval_memOk h
  | startUp => exact execStartUp_memOk h
  | securityAlarm => exact Out.ite_memOk h (modDev_memOk h)
  | jwaitTimeout => exact execJwaitTimeout_memOk h
  | uncorrectableError => exact execUncorrectableError_memOk h
  | hostPortLinkDown => exact execHostPortLinkDown_memOk h
  | plazaRestart => exact execPlazaRestart_memOk h
  | writebackAcknowledgement => exact execWritebackAcknowledgement_memOk h
  | cxlHostAccess => exact execCxlHostAccess_memOk h

/-! ### One move of the module (log 1) -/

theorem runControl_memOk {ex : Instr → State → Out} {p c : Nat} {s : State} (hex : ∀ a t, t.memOk → Out.memOk (ex a t)) (h : s.memOk) :
    Out.memOk (runControl ex p c s) := by
  unfold runControl
  have hf := fetch_memOk (p := p) (c := c) h
  grind [State.memOk, Out.memOk, Fetch.memOk, takeKept_memOk]

theorem runGroup_memOk {ex : Instr → State → Out} {p l : Nat} {s : State} (hex : ∀ a t, t.memOk → Out.memOk (ex a t)) (h : s.memOk) :
    Out.memOk (runGroup ex p l s) :=
  Out.ite_memOk h (runLane_memOk hex h)

theorem endCycle_memOk {s : State} {p : Nat} (h : s.memOk) : (s.endCycle p).memOk :=
  ite_memOk h
    (onward_memOk (fun _ => execQdeadlock_memOk) (modPlaza_memOk (onward_memOk (fun _ => execFreezeSettle_memOk) (settleBlocks_memOk h))))

theorem startCycle_memOk {s : State} {p : Nat} (h : s.memOk) : (s.startCycle p).memOk :=
  foldl_memOk
    (foldl_memOk (onward_memOk (fun _ => execAlleyEntryPoppable_memOk) (foldl_memOk h (fun _ _ => landDue_memOk)))
      (fun _ _ => finishIFill_memOk)) (fun _ _ => writeBack_memOk)

theorem nextCycle_memOk {s : State} (h : s.memOk) : s.nextCycle.memOk :=
  foldl_memOk (modDev_memOk (foldl_memOk h (fun _ _ => endCycle_memOk))) (fun _ _ => startCycle_memOk)

theorem cycles_memOk {n : Nat} {s : State} (h : s.memOk) : (s.cycles n).memOk := by
  induction n generalizing s with
  | zero => exact h
  | succ n ih => exact ih (nextCycle_memOk h)

theorem tick_memOk {s : State} {cycles ns : Nat} (h : s.memOk) : (s.tick cycles ns).memOk :=
  foldl_memOk (repost_memOk (rehome_memOk (retryWrites_memOk (foldl_memOk (modDev_memOk (cycles_memOk h)) (fun _ _ => pauseSlot_memOk)))))
    (fun _ _ => openNext_memOk)

theorem landCounted_memOk {s : State} {p l : Nat} (h : s.memOk) : (s.landCounted p l).memOk := by
  unfold State.landCounted
  split
  · exact land_memOk h
  · exact h

theorem autoLanes_memOk {s : State} {p : Nat} (h : s.memOk) : (s.autoLanes p).memOk :=
  runAll_memOk
    (foldl_memOk h fun _ _ ht => runAll_memOk (landCounted_memOk ht)
      ⟨fun _ => execLaneStorePerforms_memOk, fun _ => execRegionMarker_memOk, fun _ => execBlockComplete_memOk⟩)
    ⟨fun _ => execAlleyEntryPoppable_memOk, fun _ => execBlockRetire_memOk, fun _ => execBlockDispatch_memOk, fun _ =>
        execFreezeSettle_memOk,
      fun _ => execQdeadlock_memOk⟩

theorem autoEngines_memOk {s : State} {p : Nat} (h : s.memOk) : (s.autoEngines p).memOk := by
  unfold State.autoEngines
  extract_lets s1 s2 s3 s4
  have h1 : s1.memOk := copyNext_memOk (runAll_memOk h fun _ => execCopyStart_memOk)
  have h2 : s2.memOk := runAll_memOk (offerPuth_memOk h1)
    ⟨fun _ => execCodebookWrite_memOk, fun _ => execBankFormatWrite_memOk, fun _ => execCopyFailure_memOk⟩
  have h3 : s3.memOk := runAll_memOk h2 ⟨fun _ => execCopyComplete_memOk, fun _ => execNestActivate_memOk, fun _ => execNestStageTake_memOk⟩
  have h4 : s4.memOk := ite_memOk h3 (nestMoves_memOk h3)
  exact runAll_memOk h4
    ⟨fun _ => execNestDrain_memOk, fun _ => execNestComplete_memOk, fun _ => execScheduleLoad_memOk, fun _ => execScheduleStart_memOk⟩

theorem autoCore_memOk {s : State} {p : Nat} (h : s.memOk) : (s.autoCore p).memOk := by
  unfold State.autoCore
  extract_lets s1 s2 s3
  have h1 : s1.memOk := runAll_memOk h
    ⟨fun _ => execIcacheFill_memOk, fun _ => execL1FillReturn_memOk, fun _ => execPlacementStart_memOk, fun _ => execPlacementResume_memOk⟩
  have h2 : s2.memOk := foldl_memOk h1 fun _ _ ht => runAll_memOk ht
    ⟨fun _ => execTranslationWalkEnd_memOk, fun _ => execHandleRefresh_memOk⟩
  have h3 : s3.memOk := foldl_memOk h2 fun _ _ ht =>
    runAll_memOk ht ⟨fun _ => execConditionMet_memOk, fun _ => execWatchdog_memOk, fun _ => execJwaitTimeout_memOk⟩
  exact runAll_memOk h3 ⟨fun _ => execSaveComplete_memOk, fun _ => execPlacementEnd_memOk⟩

theorem autoCaches_memOk {s : State} {p : Nat} (h : s.memOk) : (s.autoCaches p).memOk :=
  runAll_memOk (foldl_memOk h fun _ _ ht => writeBack_memOk ht) fun _ => execPublishComplete_memOk

theorem autoPlaza_memOk {s : State} {p : Nat} (h : s.memOk) : (s.autoPlaza p).memOk :=
  autoCaches_memOk (ite_memOk (autoLanes_memOk (autoEngines_memOk (ite_memOk (autoCore_memOk h) h))) (ite_memOk (autoCore_memOk h) h))

theorem autoSlot_memOk {s : State} {k : Nat} (h : s.memOk) : (s.autoSlot k).memOk :=
  runAll_memOk (runAll_memOk h fun _ => execScheduleStep_memOk) ⟨fun _ => execPause_memOk, fun _ => execScheduleComplete_memOk⟩

theorem autoModule_memOk {s : State} (h : s.memOk) : s.autoModule.memOk := by
  unfold State.autoModule
  extract_lets s1 s2 s3 s4 s5 s6
  have h1 : s1.memOk := foldl_memOk h fun _ _ ht => onward_memOk (fun _ => execPublishRequest_memOk) ht
  have h2 : s2.memOk := foldl_memOk h1 fun _ _ ht => onward_memOk (fun _ => execPublishAcknowledgement_memOk) ht
  have h3 : s3.memOk := foldl_memOk h2 fun _ _ ht => onward_memOk (fun _ => execKgNotice_memOk) ht
  have h4 : s4.memOk := foldl_memOk h3 fun _ _ ht => runAll_memOk ht ⟨fun _ => execViewDerivation_memOk, fun _ => execViewBlockWrite_memOk⟩
  have h5 : s5.memOk := foldl_memOk h4 fun _ _ ht => autoSlot_memOk ht
  have h6 : s6.memOk := foldl_memOk h5 fun _ _ ht => onward_memOk (fun _ => execDiePowerOnComplete_memOk) ht
  exact hostRetry_memOk (finishMoves_memOk (runAll_memOk h6
    ⟨fun _ => execInvalidationComplete_memOk, fun _ => execLaunchAccept_memOk, fun _ => execAging_memOk, fun _ => execJobPlace_memOk⟩))

theorem refetch_memOk {s : State} {p pasid line word : Nat} (h : s.memOk) : (s.refetch p pasid line word).memOk := by
  unfold State.refetch
  grind [Res.memOk, readILine_memOk, modPlaza_memOk]

theorem loseView_memOk {s : State} {v : View} (h : s.memOk) : (s.loseView v).memOk := by
  unfold State.loseView
  grind [getD_memOk, putHome_memOk, walked_memOk, dropView_memOk]

theorem setPasid_memOk {s : State} {n : Nat} {a : Option Nat} {owner : Nat} (h : s.memOk) : (s.setPasid n a owner).memOk := by
  unfold State.setPasid
  split
  · exact modHost_memOk h
  · exact modHost_memOk (foldl_memOk h (fun _ _ => loseView_memOk))

/-- Every choice of the agenda; a store of the host writes one byte of the memory. -/
theorem runChoice_memOk {ex : Instr → State → Out} {c : Choice} {s : State} (hex : ∀ a t, t.memOk → Out.memOk (ex a t)) (h : s.memOk) :
    Out.memOk (runChoice ex c s) := by
  unfold runChoice
  refine Out.ite_memOk h ?_
  cases c with
  | control => exact runControl_memOk hex h
  | lane => exact runGroup_memOk hex h
  | event i => exact hex i _ h
  | tick => exact ite_memOk (tick_memOk h) h
  | nestStep => exact ite_memOk (nestStep_memOk h) h
  | nestDrain => exact ite_memOk (nestDrainOne_memOk h) h
  | copyUnit => exact ite_memOk (copyUnit_memOk h) h
  | evictLine =>
    show State.memOk _
    split
    · exact ite_memOk (evictLine_memOk h) h
    · exact h
  | evictTlb => exact modPlaza_memOk h
  | refetch => exact ite_memOk (refetch_memOk h) h
  | hostStore key x => exact ite_memOk (show memWf (memPut s.mem key x) = true from memWf_memPut _ _ _ h) h
  | pasidEntry => exact setPasid_memOk h
  | bar2Window => exact ite_memOk (modHost_memOk h) h
  | markPage => exact markPage_memOk h
  | remap => exact remapped_memOk h
  | keepPage => exact pageKept_memOk h
  | notice => exact Out.ite_memOk (noticeArrives_memOk h) h
  | exchange => exact ite_memOk (exchange_memOk h) h
  | giveCredit => exact ite_memOk (giveCredit_memOk h) h
  | landPart => exact ite_memOk (landPart_memOk h) h
  | jobIn => exact ite_memOk (moveIn_memOk h) h
  | moveJob => exact ite_memOk (moveJob_memOk h) h
  | boot => exact execStartUp_memOk h
  | auto => exact ite_memOk (autoPlaza_memOk h) h
  | autoModule => exact ite_memOk (autoModule_memOk h) h

theorem runAgenda_memOk {ex : Instr → State → Out} {s : State} (hex : ∀ a t, t.memOk → Out.memOk (ex a t)) (h : s.memOk) :
    Out.memOk (runAgenda ex s) := by
  unfold runAgenda
  split
  · exact runChoice_memOk hex h
  · exact h

theorem runStep_memOk {ex : Instr → State → Out} {s : State} (hex : ∀ a t, t.memOk → Out.memOk (ex a t)) (h : s.memOk) :
    Out.memOk (runStep ex s) := by
  unfold runStep
  split
  · exact runAgenda_memOk hex h
  · split
    · exact trivial
    · exact trivial
    · exact trivial
    · exact runAgenda_memOk hex h

/-! ### The step -/

theorem step_memOk {s : State} (h : s.memOk) : Out.memOk (step s) :=
  runStep_memOk (fun _ _ => exec_memOk) h

/-- Settles O55: every meaning that a step can run hands on the canonical form. -/
theorem everyStepKeepsMemory : Obligations.EveryStepKeepsMemory := fun s t h e => by
  have ht := step_memOk h
  rw [e] at ht
  exact ht

end Sys2Proof.Machine
end

section
/-! The layout of each encoding, as the encoding figures write it: the fields of a word from its high bits down, each with its width. A word is
determined by its fields (R9, R11), so decoder and encoder agree as soon as both follow the layout. -/
namespace Sys2Proof

/-- Fields of a word from the high bits down: the width and the value of each. -/
abbrev Fields := List (Nat × Nat)

/-- The fields fill exactly the low n bits, each value within its width. -/
def Fields.Fit : Nat → Fields → Prop
  | n, [] => n = 0
  | n, (k, v) :: fs => 0 < k ∧ k ≤ n ∧ v < 2 ^ k ∧ Fields.Fit (n - k) fs

/-- The number whose low n bits the fields write. -/
def Fields.pack : Nat → Fields → Nat
  | _, [] => 0
  | n, (k, v) :: fs => v * 2 ^ (n - k) + Fields.pack (n - k) fs

/-- The low n bits of word w hold the fields. -/
def Fields.Hold (w : Nat) : Nat → Fields → Prop
  | _, [] => True
  | n, (k, v) :: fs => fld w (n - 1) (n - k) = v ∧ Fields.Hold w (n - k) fs

theorem Fields.pack_lt {n : Nat} {fs : Fields} (h : fs.Fit n) : fs.pack n < 2 ^ n := by
  induction fs generalizing n with
  | nil => exact Nat.two_pow_pos n
  | cons f fs ih =>
    obtain ⟨-, hkn, hv, hfs⟩ := h
    calc f.2 * 2 ^ (n - f.1) + Fields.pack (n - f.1) fs
      _ < f.2 * 2 ^ (n - f.1) + 2 ^ (n - f.1) := Nat.add_lt_add_left (ih hfs) _
      _ = (f.2 + 1) * 2 ^ (n - f.1) := by ring
      _ ≤ 2 ^ f.1 * 2 ^ (n - f.1) := Nat.mul_le_mul_right _ hv
      _ = 2 ^ n := by rw [← pow_add, Nat.add_sub_cancel' hkn]

/-- The low bits of a word are its highest field over the bits below it. -/
theorem fld_over_low {w n k : Nat} (hk : 0 < k) (hkn : k ≤ n) : w % 2 ^ n = fld w (n - 1) (n - k) * 2 ^ (n - k) + w % 2 ^ (n - k) := by
  have hpow : 2 ^ n = 2 ^ (n - k) * 2 ^ k := by rw [← pow_add, Nat.sub_add_cancel hkn]
  have hwidth : n - 1 + 1 - (n - k) = k := by omega
  rw [fld, hwidth, hpow, Nat.mod_mul]
  ring

/-- Quotient and remainder of a sum of two digits are the digits. -/
theorem mul_add_eq_iff {m a b c d : Nat} (hb : b < m) (hd : d < m) : a * m + b = c * m + d ↔ a = c ∧ b = d := by
  have hm : 0 < m := Nat.zero_lt_of_lt hb
  refine ⟨fun h => ?_, fun ⟨ha, hb⟩ => by rw [ha, hb]⟩
  have hdiv := congrArg (· / m) h
  have hmod := congrArg (· % m) h
  simp only [Nat.mul_comm _ m, Nat.mul_add_div hm, Nat.div_eq_of_lt, Nat.mul_add_mod, Nat.mod_eq_of_lt, hb, hd] at hdiv hmod
  exact ⟨hdiv, hmod⟩

/-- A word holds fields that fill its low bits exactly if these bits are the number that the fields write. -/
theorem Fields.hold_iff {w n : Nat} {fs : Fields} (h : fs.Fit n) : fs.Hold w n ↔ w % 2 ^ n = fs.pack n := by
  induction fs generalizing n with
  | nil =>
    obtain rfl : n = 0 := h
    simp [Fields.Hold, Fields.pack, Nat.mod_one]
  | cons f fs ih =>
    obtain ⟨hk, hkn, -, hfs⟩ := h
    rw [Fields.Hold, Fields.pack, fld_over_low hk hkn, mul_add_eq_iff (Nat.mod_lt _ (Nat.two_pow_pos _)) (Fields.pack_lt hfs), ih hfs]

/-- The layout of an instruction: its major opcode, the fields of the first word below it, and those of the extension word, if it has one. -/
structure Layout where
  major  : Nat
  first  : Fields
  second : Fields

namespace Layout

/-- All fields of the first word (R11). -/
def word (x : Layout) : Fields := (7, x.major) :: x.first
/-- The layout describes words: its fields fill the first word, its major opcode is not the reserved 0, and the double-word classes, no others, have an
extension word (R11, R12). -/
def Fit (x : Layout) : Prop :=
  x.major ≠ 0 ∧ x.word.Fit 32 ∧ if 0x60 ≤ x.major then x.second.Fit 32 else x.second = []
/-- The words that the layout writes. -/
def words (x : Layout) : List Nat :=
  if 0x60 ≤ x.major then [x.word.pack 32, x.second.pack 32] else [x.word.pack 32]
/-- First word w and extension word e hold the fields. -/
def Hold (x : Layout) (w e : Nat) : Prop := x.word.Hold w 32 ∧ x.second.Hold e 32

variable {x : Layout} {w e : Nat}

theorem major_of_hold (h : x.Hold w e) : Sys2Proof.major w = x.major := h.1.1

theorem isDouble_of_hold (h : x.Hold w e) : isDouble w = decide (0x60 ≤ x.major) := by rw [isDouble, major_of_hold h]

/-- The words that hold a layout are the words it writes. -/
theorem words_of_hold (hx : x.Fit) (hw : w < 2 ^ 32) (he : e < 2 ^ 32) (h : x.Hold w e) : x.words = if isDouble w then [w, e] else [w] := by
  obtain ⟨-, hfirst, hsecond⟩ := hx
  have hw' := (Fields.hold_iff hfirst).1 h.1
  rw [Nat.mod_eq_of_lt hw] at hw'
  by_cases hd : 0x60 ≤ x.major
  · rw [if_pos hd] at hsecond
    have he' := (Fields.hold_iff hsecond).1 h.2
    rw [Nat.mod_eq_of_lt he] at he'
    simp [words, isDouble_of_hold h, hd, ← hw', ← he']
  · simp [words, isDouble_of_hold h, hd, ← hw']

/-- A layout has words that hold it. -/
theorem exists_hold (hx : x.Fit) : ∃ w e, w < 2 ^ 32 ∧ e < 2 ^ 32 ∧ x.Hold w e ∧ (isDouble w = false → e = 0) := by
  obtain ⟨-, hfirst, hsecond⟩ := hx
  have hw := (Fields.hold_iff (w := x.word.pack 32) hfirst).2 (Nat.mod_eq_of_lt (Fields.pack_lt hfirst))
  by_cases hd : 0x60 ≤ x.major
  · rw [if_pos hd] at hsecond
    have he := (Fields.hold_iff (w := x.second.pack 32) hsecond).2 (Nat.mod_eq_of_lt (Fields.pack_lt hsecond))
    exact ⟨_, _, Fields.pack_lt hfirst, Fields.pack_lt hsecond, ⟨hw, he⟩, fun hs => by simp [isDouble_of_hold ⟨hw, he⟩, hd] at hs⟩
  · rw [if_neg hd] at hsecond
    exact ⟨_, 0, Fields.pack_lt hfirst, by decide, ⟨hw, by rw [hsecond]; trivial⟩, fun _ => rfl⟩

end Layout

/-- The layout of each encoded instruction; the steps without an encoding have the empty one. -/
def Instr.layout : Instr → Layout
  | .add d a b x => ⟨0x01, [(8, d), (8, a), (8, b), (1, x)], []⟩
  | .sub d a b x => ⟨0x02, [(8, d), (8, a), (8, b), (1, x)], []⟩
  | .and d a b x => ⟨0x03, [(8, d), (8, a), (8, b), (1, x)], []⟩
  | .or d a b x => ⟨0x04, [(8, d), (8, a), (8, b), (1, x)], []⟩
  | .xor d a b x => ⟨0x05, [(8, d), (8, a), (8, b), (1, x)], []⟩
  | .andn d a b x => ⟨0x06, [(8, d), (8, a), (8, b), (1, x)], []⟩
  | .shl d a b x => ⟨0x07, [(8, d), (8, a), (8, b), (1, x)], []⟩
  | .shr d a b x => ⟨0x08, [(8, d), (8, a), (8, b), (1, x)], []⟩
  | .sra d a b x => ⟨0x09, [(8, d), (8, a), (8, b), (1, x)], []⟩
  | .mul d a b x => ⟨0x0a, [(8, d), (8, a), (8, b), (1, x)], []⟩
  | .mulhs d a b x => ⟨0x0b, [(8, d), (8, a), (8, b), (1, x)], []⟩
  | .mulhn d a b x => ⟨0x0c, [(8, d), (8, a), (8, b), (1, x)], []⟩
  | .divs d a b x => ⟨0x0d, [(8, d), (8, a), (8, b), (1, x)], []⟩
  | .divn d a b x => ⟨0x0e, [(8, d), (8, a), (8, b), (1, x)], []⟩
  | .rems d a b x => ⟨0x0f, [(8, d), (8, a), (8, b), (1, x)], []⟩
  | .remn d a b x => ⟨0x10, [(8, d), (8, a), (8, b), (1, x)], []⟩
  | .min d a b x => ⟨0x11, [(8, d), (8, a), (8, b), (1, x)], []⟩
  | .max d a b x => ⟨0x12, [(8, d), (8, a), (8, b), (1, x)], []⟩
  | .minn d a b x => ⟨0x13, [(8, d), (8, a), (8, b), (1, x)], []⟩
  | .maxn d a b x => ⟨0x14, [(8, d), (8, a), (8, b), (1, x)], []⟩
  | .slt d a b x => ⟨0x15, [(8, d), (8, a), (8, b), (1, x)], []⟩
  | .sltn d a b x => ⟨0x16, [(8, d), (8, a), (8, b), (1, x)], []⟩
  | .seq d a b x => ⟨0x17, [(8, d), (8, a), (8, b), (1, x)], []⟩
  | .sh1add d a b x => ⟨0x18, [(8, d), (8, a), (8, b), (1, x)], []⟩
  | .sh2add d a b x => ⟨0x19, [(8, d), (8, a), (8, b), (1, x)], []⟩
  | .sh3add d a b x => ⟨0x1a, [(8, d), (8, a), (8, b), (1, x)], []⟩
  | .clz d a x => ⟨0x1b, [(8, d), (8, a), (8, 0), (1, x)], []⟩
  | .popc d a x => ⟨0x1c, [(8, d), (8, a), (8, 0), (1, x)], []⟩
  | .sne d a b x => ⟨0x1d, [(8, d), (8, a), (8, b), (1, x)], []⟩
  | .addi d a i => ⟨0x1e, [(8, d), (8, a), (9, i)], []⟩
  | .andi d a i => ⟨0x1f, [(8, d), (8, a), (9, i)], []⟩
  | .ori d a i => ⟨0x20, [(8, d), (8, a), (9, i)], []⟩
  | .xori d a i => ⟨0x21, [(8, d), (8, a), (9, i)], []⟩
  | .shli d a i => ⟨0x22, [(8, d), (8, a), (9, i)], []⟩
  | .shri d a i => ⟨0x23, [(8, d), (8, a), (9, i)], []⟩
  | .srai d a i => ⟨0x24, [(8, d), (8, a), (9, i)], []⟩
  | .slti d a i => ⟨0x25, [(8, d), (8, a), (9, i)], []⟩
  | .sltni d a i => ⟨0x26, [(8, d), (8, a), (9, i)], []⟩
  | .li d i => ⟨0x27, [(8, d), (17, i)], []⟩
  | .lih d i => ⟨0x28, [(8, d), (1, 0), (16, i)], []⟩
  | .beq a b o => ⟨0x29, [(8, a), (8, b), (9, o)], []⟩
  | .bne a b o => ⟨0x2a, [(8, a), (8, b), (9, o)], []⟩
  | .blt a b o => ⟨0x2b, [(8, a), (8, b), (9, o)], []⟩
  | .bge a b o => ⟨0x2c, [(8, a), (8, b), (9, o)], []⟩
  | .bltn a b o => ⟨0x2d, [(8, a), (8, b), (9, o)], []⟩
  | .bgen a b o => ⟨0x2e, [(8, a), (8, b), (9, o)], []⟩
  | .j o => ⟨0x2f, [(25, o)], []⟩
  | .call o => ⟨0x30, [(25, o)], []⟩
  | .jalr d a i => ⟨0x31, [(8, d), (8, a), (9, i)], []⟩
  | .loop c b l m p => ⟨0x32, [(8, c), (9, b), (2, l), (2, m), (4, p)], []⟩
  | .loopi c b l m p => ⟨0x33, [(8, c), (9, b), (2, l), (2, m), (4, p)], []⟩
  | .fence m => ⟨0x34, [(9, 0), (16, m)], []⟩
  | .fqry d w => ⟨0x35, [(8, d), (9, 0), (8, w)], []⟩
  | .nop => ⟨0x3f, [(25, 0)], []⟩
  | .ldb d a c i => ⟨0x40, [(5, d), (5, a), (4, c), (11, i)], []⟩
  | .ldbn d a c i => ⟨0x41, [(5, d), (5, a), (4, c), (11, i)], []⟩
  | .ldh d a c i => ⟨0x42, [(5, d), (5, a), (4, c), (11, i)], []⟩
  | .ldhn d a c i => ⟨0x43, [(5, d), (5, a), (4, c), (11, i)], []⟩
  | .ldw d a c i => ⟨0x44, [(5, d), (5, a), (4, c), (11, i)], []⟩
  | .ldwn d a c i => ⟨0x45, [(5, d), (5, a), (4, c), (11, i)], []⟩
  | .ldd d a c i => ⟨0x46, [(5, d), (5, a), (4, c), (11, i)], []⟩
  | .stb r a c i => ⟨0x47, [(5, r), (5, a), (4, c), (11, i)], []⟩
  | .sth r a c i => ⟨0x48, [(5, r), (5, a), (4, c), (11, i)], []⟩
  | .stw r a c i => ⟨0x49, [(5, r), (5, a), (4, c), (11, i)], []⟩
  | .std r a c i => ⟨0x4a, [(5, r), (5, a), (4, c), (11, i)], []⟩
  | .lda d a c s z o => ⟨0x4b, [(5, d), (5, a), (4, c), (2, s), (1, z), (8, o)], []⟩
  | .strel r a c s z o => ⟨0x4c, [(5, r), (5, a), (4, c), (2, s), (1, z), (8, o)], []⟩
  | .amo d a b z s o p => ⟨0x4d, [(5, d), (5, a), (5, b), (1, 0), (1, z), (2, s), (2, o), (4, p)], []⟩
  | .amoAddc a b z => ⟨0x4d, [(5, 0), (5, a), (5, b), (1, 0), (1, z), (8, 9)], []⟩
  | .amoFaddc a b => ⟨0x4d, [(5, 0), (5, a), (5, b), (10, 266)], []⟩
  | .waitm d a b z s c => ⟨0x4e, [(5, d), (5, a), (5, b), (4, 0), (1, z), (2, s), (3, c)], []⟩
  | .csrr d c => ⟨0x4f, [(5, d), (12, 0), (8, c)], []⟩
  | .csrw d a c => ⟨0x4f, [(5, d), (5, a), (7, 1), (8, c)], []⟩
  | .csrs d a c => ⟨0x4f, [(5, d), (5, a), (7, 2), (8, c)], []⟩
  | .csrc d a c => ⟨0x4f, [(5, d), (5, a), (7, 3), (8, c)], []⟩
  | .icpf a => ⟨0x50, [(5, 0), (5, a), (15, 0)], []⟩
  | .icinv a => ⟨0x50, [(5, 0), (5, a), (15, 1)], []⟩
  | .icinvAll => ⟨0x50, [(25, 9)], []⟩
  | .dcpf a => ⟨0x50, [(5, 0), (5, a), (15, 2)], []⟩
  | .dcwb a => ⟨0x50, [(5, 0), (5, a), (15, 3)], []⟩
  | .dcinv a => ⟨0x50, [(5, 0), (5, a), (15, 4)], []⟩
  | .xlt n a p => ⟨0x51, [(5, n), (5, a), (12, 0), (3, p)], []⟩
  | .hinv n => ⟨0x52, [(5, n), (20, 0)], []⟩
  | .hinvAll => ⟨0x52, [(25, 1)], []⟩
  | .hget d n => ⟨0x53, [(5, d), (5, n), (15, 0)], []⟩
  | .hgetva d n => ⟨0x53, [(5, d), (5, n), (15, 1)], []⟩
  | .shld n a c => ⟨0x54, [(5, n), (5, a), (11, 0), (4, c)], []⟩
  | .shst n a c => ⟨0x55, [(5, n), (5, a), (11, 0), (4, c)], []⟩
  | .shset n a f => ⟨0x56, [(5, n), (5, a), (5, 0), (10, f)], []⟩
  | .shget d n f => ⟨0x57, [(5, d), (5, n), (5, 0), (10, f)], []⟩
  | .popp d b => ⟨0x58, [(5, d), (5, 0), (5, b), (10, 0)], []⟩
  | .poppn d b => ⟨0x58, [(5, d), (5, 0), (5, b), (10, 1)], []⟩
  | .bcancel d a => ⟨0x59, [(5, d), (5, a), (15, 0)], []⟩
  | .bseq d s => ⟨0x5a, [(5, d), (18, 0), (2, s)], []⟩
  | .bwait a => ⟨0x5b, [(5, 0), (5, a), (15, 0)], []⟩
  | .twait n => ⟨0x5c, [(19, 0), (6, n)], []⟩
  | .twaitm a => ⟨0x5c, [(5, 0), (5, a), (15, 64)], []⟩
  | .ttest d n => ⟨0x5d, [(5, d), (14, 0), (6, n)], []⟩
  | .ttestOut d => ⟨0x5d, [(5, d), (20, 64)], []⟩
  | .ttestFailed d => ⟨0x5d, [(5, d), (20, 128)], []⟩
  | .tfree n => ⟨0x5e, [(19, 0), (6, n)], []⟩
  | .tfreem a => ⟨0x5e, [(5, 0), (5, a), (15, 64)], []⟩
  | .exit a => ⟨0x5f, [(5, 0), (5, a), (15, 0)], []⟩
  | .trap c => ⟨0x5f, [(15, 0), (6, c), (4, 1)], []⟩
  | .sret d a b => ⟨0x5f, [(5, d), (5, a), (5, b), (10, 2)], []⟩
  | .hret => ⟨0x5f, [(25, 3)], []⟩
  | .wake d a b => ⟨0x5f, [(5, d), (5, a), (5, b), (10, 4)], []⟩
  | .ckpt a => ⟨0x5f, [(5, 0), (5, a), (15, 5)], []⟩
  | .tbr => ⟨0x5f, [(25, 6)], []⟩
  | .lix d i => ⟨0x60, [(5, d), (20, 0)], [(32, i)]⟩
  | .lixh d i => ⟨0x60, [(5, d), (20, 1)], [(32, i)]⟩
  | .cas d a b z s o c => ⟨0x61, [(5, d), (5, a), (5, b), (10, 0)], [(22, 0), (1, z), (2, s), (2, o), (5, c)]⟩
  | .emit d a b e o t => ⟨0x62, [(5, d), (5, a), (5, b), (10, 0)], [(8, e), (1, o), (1, 0), (7, t), (15, 0)]⟩
  | .split d a b p e o t f => ⟨0x63, [(5, d), (5, a), (5, b), (5, 0), (5, p)], [(8, e), (1, o), (1, 0), (7, t), (8, f), (7, 0)]⟩
  | .cpy a b n t u v w => ⟨0x64, [(5, 0), (5, a), (5, b), (10, 0)], [(4, n), (6, t), (7, u), (7, v), (7, w), (1, 0)]⟩
  | .cpyg a b n t u v w => ⟨0x65, [(5, 0), (5, a), (5, b), (10, 0)], [(4, n), (6, t), (7, u), (7, v), (7, w), (1, 0)]⟩
  | .puth a b n t u v w => ⟨0x66, [(5, 0), (5, a), (5, b), (10, 0)], [(4, n), (6, t), (7, u), (7, v), (7, w), (1, 0)]⟩
  | .mnsetLvl n a f => ⟨0x67, [(5, 0), (5, a), (12, 0), (3, n)], [(28, 0), (4, f)]⟩
  | .mnsetBase a r q => ⟨0x67, [(5, 0), (5, a), (15, 6)], [(24, 0), (4, q), (4, r)]⟩
  | .mnsetCtl a b => ⟨0x67, [(5, 0), (5, a), (5, b), (10, 7)], [(32, 0)]⟩
  | .mgo t u v w => ⟨0x68, [(25, 0)], [(4, 0), (6, t), (7, u), (7, v), (7, w), (1, 0)]⟩
  | .rset n a => ⟨0x69, [(5, 0), (5, a), (12, 0), (3, n)], [(32, 0)]⟩
  | .rwait d n c => ⟨0x6a, [(5, d), (15, 0), (2, c), (3, n)], [(32, 0)]⟩
  | .rmark n a => ⟨0x6b, [(5, 0), (5, a), (12, 0), (3, n)], [(32, 0)]⟩
  | .bfset n a t u v w => ⟨0x6c, [(5, 0), (5, a), (11, 0), (4, n)], [(4, 0), (6, t), (7, u), (7, v), (7, w), (1, 0)]⟩
  | .cbld n a h t u v w => ⟨0x6d, [(5, n), (5, a), (10, 0), (5, h)], [(4, 0), (6, t), (7, u), (7, v), (7, w), (1, 0)]⟩
  | .launch d a => ⟨0x6e, [(5, d), (5, a), (15, 0)], [(32, 0)]⟩
  | .jwait d a i => ⟨0x6f, [(5, d), (5, a), (15, 0)], [(32, i)]⟩
  | .jbar d m => ⟨0x70, [(5, d), (17, 0), (3, m)], [(32, 0)]⟩
  | .viewreg d a => ⟨0x71, [(5, d), (5, a), (15, 0)], [(32, 0)]⟩
  | .viewdrop d a => ⟨0x72, [(5, d), (5, a), (15, 0)], [(32, 0)]⟩
  | .viewpol d a p => ⟨0x73, [(5, d), (5, a), (13, 0), (2, p)], [(32, 0)]⟩
  | .viewtag d a s => ⟨0x74, [(5, d), (5, a), (13, 0), (2, s)], [(32, 0)]⟩
  | .viewsync d a => ⟨0x75, [(5, d), (5, a), (15, 0)], [(32, 0)]⟩
  | .lsched n a b t u v w => ⟨0x76, [(5, 0), (5, a), (5, b), (8, 0), (2, n)], [(4, 0), (6, t), (7, u), (7, v), (7, w), (1, 0)]⟩
  | .lgo n a t u v w => ⟨0x77, [(5, 0), (5, a), (13, 0), (2, n)], [(4, 0), (6, t), (7, u), (7, v), (7, w), (1, 0)]⟩
  | .mstat d s a => ⟨0x78, [(5, d), (5, a), (12, 0), (3, s)], [(32, 0)]⟩
  | .vfadd d a b p w k => ⟨0x40, [(6, d), (7, a), (7, b), (2, p), (2, w), (1, k)], []⟩
  | .vfsub d a b p w k => ⟨0x41, [(6, d), (7, a), (7, b), (2, p), (2, w), (1, k)], []⟩
  | .vfmul d a b p w k => ⟨0x42, [(6, d), (7, a), (7, b), (2, p), (2, w), (1, k)], []⟩
  | .vfmin d a b p w k => ⟨0x43, [(6, d), (7, a), (7, b), (2, p), (2, w), (1, k)], []⟩
  | .vfmax d a b p w k => ⟨0x44, [(6, d), (7, a), (7, b), (2, p), (2, w), (1, k)], []⟩
  | .viadd d a b p w k => ⟨0x45, [(6, d), (7, a), (7, b), (2, p), (2, w), (1, k)], []⟩
  | .visub d a b p w k => ⟨0x46, [(6, d), (7, a), (7, b), (2, p), (2, w), (1, k)], []⟩
  | .vimul d a b p w k => ⟨0x47, [(6, d), (7, a), (7, b), (2, p), (2, w), (1, k)], []⟩
  | .vimin d a b p w k => ⟨0x48, [(6, d), (7, a), (7, b), (2, p), (2, w), (1, k)], []⟩
  | .vimax d a b p w k => ⟨0x49, [(6, d), (7, a), (7, b), (2, p), (2, w), (1, k)], []⟩
  | .vnmin d a b p w k => ⟨0x4a, [(6, d), (7, a), (7, b), (2, p), (2, w), (1, k)], []⟩
  | .vnmax d a b p w k => ⟨0x4b, [(6, d), (7, a), (7, b), (2, p), (2, w), (1, k)], []⟩
  | .vand d a b p w k => ⟨0x4c, [(6, d), (7, a), (7, b), (2, p), (2, w), (1, k)], []⟩
  | .vor d a b p w k => ⟨0x4d, [(6, d), (7, a), (7, b), (2, p), (2, w), (1, k)], []⟩
  | .vxor d a b p w k => ⟨0x4e, [(6, d), (7, a), (7, b), (2, p), (2, w), (1, k)], []⟩
  | .vshl d a b p w k => ⟨0x4f, [(6, d), (7, a), (7, b), (2, p), (2, w), (1, k)], []⟩
  | .vshr d a b p w k => ⟨0x50, [(6, d), (7, a), (7, b), (2, p), (2, w), (1, k)], []⟩
  | .vsra d a b p w k => ⟨0x51, [(6, d), (7, a), (7, b), (2, p), (2, w), (1, k)], []⟩
  | .vmov d a p w k => ⟨0x52, [(6, d), (7, a), (7, 0), (2, p), (2, w), (1, k)], []⟩
  | .vmovScalar d a p w k => ⟨0x52, [(6, d), (7, a), (7, 1), (2, p), (2, w), (1, k)], []⟩
  | .vmovScalarHigh d a p w k => ⟨0x52, [(6, d), (7, a), (7, 2), (2, p), (2, w), (1, k)], []⟩
  | .vlid d b p w k => ⟨0x53, [(6, d), (7, 0), (7, b), (2, p), (2, w), (1, k)], []⟩
  | .vwin a w k => ⟨0x54, [(6, 0), (7, a), (9, 0), (2, w), (1, k)], []⟩
  | .vwinadd a w k => ⟨0x54, [(6, 0), (7, a), (9, 4), (2, w), (1, k)], []⟩
  | .vwait c l s => ⟨0x55, [(6, c), (7, l), (7, s), (5, 0)], []⟩
  | .vbend => ⟨0x56, [(25, 0)], []⟩
  | .vrgn => ⟨0x57, [(25, 0)], []⟩
  | .pand d a b w k => ⟨0x58, [(5, 0), (3, d), (3, a), (3, b), (8, 0), (2, w), (1, k)], []⟩
  | .por d a b w k => ⟨0x58, [(5, 0), (3, d), (3, a), (3, b), (8, 1), (2, w), (1, k)], []⟩
  | .pxor d a b w k => ⟨0x58, [(5, 0), (3, d), (3, a), (3, b), (8, 2), (2, w), (1, k)], []⟩
  | .pandn d a b w k => ⟨0x58, [(5, 0), (3, d), (3, a), (3, b), (8, 3), (2, w), (1, k)], []⟩
  | .pbal d a b w k => ⟨0x59, [(8, d), (3, a), (3, b), (8, 0), (2, w), (1, k)], []⟩
  | .pset d b s w k => ⟨0x5a, [(5, 0), (3, d), (3, 0), (3, b), (8, s), (2, w), (1, k)], []⟩
  | .ppopc d a b w k => ⟨0x5b, [(8, d), (3, a), (3, b), (8, 0), (2, w), (1, k)], []⟩
  | .pfirst d a b w k => ⟨0x5c, [(8, d), (3, a), (3, b), (8, 0), (2, w), (1, k)], []⟩
  | .pushp a b s w k => ⟨0x5d, [(8, 0), (3, a), (3, b), (8, s), (2, w), (1, k)], []⟩
  | .valu d a b o t q v w k => ⟨0x60, [(6, d), (7, a), (7, b), (2, 0), (2, w), (1, k)], [(7, 0), (3, q), (1, v), (4, t), (12, 0), (5, o)]⟩
  | .vfma d a b c n t q v w k => ⟨0x61, [(6, d), (7, a), (7, b), (2, 0), (2, w), (1, k)], [(7, c), (3, q), (1, v), (4, t), (15, 0), (2, n)]⟩
  | .vcvt d a c t g r s f q v w k =>
    ⟨0x62, [(6, d), (7, a), (9, 0), (2, w), (1, k)],
      [(7, c), (3, q), (1, v), (4, t), (7, 0), (3, f), (1, s), (2, r), (4, g)]⟩
  | .vcmp d a b c t q v w k => ⟨0x63, [(3, 0), (3, d), (7, a), (7, b), (2, 0), (2, w), (1, k)], [(7, 0), (3, q), (1, v), (4, t), (14, 0), (3, c)]⟩
  | .vsel d a b g i q v w k => ⟨0x64, [(6, d), (7, a), (7, b), (2, 0), (2, w), (1, k)], [(7, 0), (3, q), (1, v), (17, 0), (1, i), (3, g)]⟩
  | .vsfn d a f q v w k => ⟨0x65, [(6, d), (7, a), (9, 0), (2, w), (1, k)], [(7, 0), (3, q), (1, v), (18, 0), (3, f)]⟩
  | .vred d a o g t q v w k => ⟨0x66, [(6, d), (7, a), (9, 0), (2, w), (1, k)], [(7, 0), (3, q), (1, v), (4, t), (9, 0), (3, g), (2, 0), (3, o)]⟩
  | .vscan d a o x g t q v w k =>
    ⟨0x67, [(6, d), (7, a), (9, 0), (2, w), (1, k)],
      [(7, 0), (3, q), (1, v), (4, t), (9, 0), (3, g), (1, 0), (1, x), (3, o)]⟩
  | .vshfl d a b m g o q v w k =>
    ⟨0x68, [(6, d), (7, a), (7, b), (2, 0), (2, w), (1, k)],
      [(7, 0), (3, q), (1, v), (8, 0), (2, m), (3, 0), (3, g), (5, o)]⟩
  | .vperm d a b c z t q v w k => ⟨0x69, [(6, d), (7, a), (7, b), (2, 0), (2, w), (1, k)], [(7, c), (3, q), (1, v), (4, t), (16, 0), (1, z)]⟩
  | .vrotm d a b c z o q v w k => ⟨0x6a, [(6, d), (7, a), (7, b), (2, 0), (2, w), (1, k)], [(7, c), (3, q), (1, v), (13, 0), (1, z), (7, o)]⟩
  | .vdot d a b c t g q v w k => ⟨0x6b, [(6, d), (7, a), (7, b), (2, 0), (2, w), (1, k)], [(7, c), (3, q), (1, v), (4, t), (13, 0), (4, g)]⟩
  | .vmxq d a c x f m q v w k => ⟨0x6c, [(6, d), (7, a), (9, 0), (2, w), (1, k)], [(7, c), (3, q), (1, v), (8, 0), (8, x), (3, f), (2, m)]⟩
  | .vbit d a b c o q v w k => ⟨0x6d, [(6, d), (7, a), (7, b), (2, 0), (2, w), (1, k)], [(7, c), (3, q), (1, v), (17, 0), (4, o)]⟩
  | .vbcast d a b z i t q v w k => ⟨0x6e, [(6, d), (7, a), (7, b), (2, 0), (2, w), (1, k)], [(7, 0), (3, q), (1, v), (4, t), (9, 0), (1, z), (7, i)]⟩
  | .vgetl d a b i q v w k => ⟨0x6f, [(6, 0), (7, a), (7, b), (2, 0), (2, w), (1, k)], [(7, 0), (3, q), (1, v), (8, 0), (5, i), (8, d)]⟩
  | .vlds d a i c q v w k => ⟨0x70, [(6, d), (7, a), (9, 0), (2, w), (1, k)], [(7, 0), (3, q), (1, v), (4, 0), (4, c), (5, 0), (8, i)]⟩
  | .vsts a b i c q v w k => ⟨0x71, [(6, 0), (7, a), (7, b), (2, 0), (2, w), (1, k)], [(7, 0), (3, q), (1, v), (4, 0), (4, c), (5, 0), (8, i)]⟩
  | .vldg d a b h t c q v w k => ⟨0x72, [(6, d), (7, a), (7, b), (2, 0), (2, w), (1, k)], [(7, 0), (3, q), (1, v), (4, t), (4, c), (5, h), (8, 0)]⟩
  | .vstg a b y h t c q v w k => ⟨0x73, [(6, 0), (7, a), (7, b), (2, 0), (2, w), (1, k)], [(7, y), (3, q), (1, v), (4, t), (4, c), (5, h), (8, 0)]⟩
  | .vldu d a h i c q v w k => ⟨0x74, [(6, d), (7, a), (9, 0), (2, w), (1, k)], [(7, 0), (3, q), (1, v), (4, 0), (4, c), (5, h), (8, i)]⟩
  | .vstu a b h i c q v w k => ⟨0x75, [(6, 0), (7, a), (7, b), (2, 0), (2, w), (1, k)], [(7, 0), (3, q), (1, v), (4, 0), (4, c), (5, h), (8, i)]⟩
  | .vamo d a b y h s r o t c q v w k =>
    ⟨0x76, [(6, d), (7, a), (7, b), (2, 0), (2, w), (1, k)],
      [(7, y), (3, q), (1, v), (4, t), (4, c), (5, h), (2, s), (2, r), (4, o)]⟩
  | .vldb d a g z i c q v w k =>
    ⟨0x77, [(6, d), (7, a), (9, 0), (2, w), (1, k)],
      [(7, 0), (3, q), (1, v), (4, 0), (4, c), (2, g), (1, z), (2, 0), (8, i)]⟩
  | .vstb a b g z i c q v w k =>
    ⟨0x78, [(6, 0), (7, a), (7, b), (2, 0), (2, w), (1, k)],
      [(7, 0), (3, q), (1, v), (4, 0), (4, c), (2, g), (1, z), (2, 0), (8, i)]⟩
  | _ => ⟨0, [], []⟩

/-! ## Encoder, well-formed terms and decoders against the layouts -/

/-- The encoder writes the layout. -/
theorem encode_eq_words (i : Instr) (h : i.layout.major ≠ 0) : encode i = i.layout.words := by
  cases i
  all_goals try exact absurd rfl h
  all_goals
    clear h
    dsimp only [encode, Instr.layout]
    simp only [Layout.words, Layout.word, Fields.pack, reduceIte, Nat.reduceLeDiff, Nat.reduceSub, List.cons.injEq, and_true]
  all_goals omega

theorem fit_of_wfControl (i : Instr) (h : i.wfControl = true) : i.layout.Fit := by
  cases i
  all_goals try exact absurd h Bool.false_ne_true
  all_goals
    dsimp only [Instr.wfControl, Instr.layout] at h ⊢
    simp only [Bool.and_eq_true, decide_eq_true_eq] at h
    simp only [Layout.Fit, Layout.word, Fields.Fit, Nat.reduceSub, Nat.reduceLeDiff, reduceIte, and_true, true_and, Nat.reducePow]
  all_goals omega

theorem fit_of_wfLane (i : Instr) (h : i.wfLane = true) : i.layout.Fit := by
  cases i
  all_goals try exact absurd h Bool.false_ne_true
  all_goals
    dsimp only [Instr.wfLane, Instr.layout] at h ⊢
    simp only [Bool.and_eq_true, decide_eq_true_eq] at h
    simp only [Layout.Fit, Layout.word, Fields.Fit, Nat.reduceSub, Nat.reduceLeDiff, reduceIte, and_true, true_and, Nat.reducePow]
  all_goals omega

/-- The control core reads an instruction from the words that hold its layout. Where one major opcode has several encodings, the sub-operation in the
low bits of the word rules out those that the decoder tries before. -/
theorem decodeControl_of_hold {i : Instr} {w e : Nat} (hi : i.wfControl = true) (h : i.layout.Hold w e) : decodeControl w e = some i := by
  cases i
  all_goals try exact absurd hi Bool.false_ne_true
  all_goals
    dsimp only [Instr.wfControl, Instr.layout, Layout.Hold, Layout.word, Fields.Hold] at hi h
    simp only [Nat.reduceSub, and_true, Bool.and_eq_true] at hi h
    simp [decodeControl, major, sharedControl0, sharedControl1, sharedControl2, sharedControl3, sharedControl4, sharedControl5, sharedControl6,
      sharedControl7, privateControl8, privateControl9, privateControla, privateControlb, privateControlc, privateControld, privateControle,
      privateControlf, h, hi]
  all_goals simp only [fld, decide_eq_true_eq] at h hi ⊢
  case amoFaddc | icinvAll | sret | hret | wake | ckpt | tbr | mnsetCtl =>
    repeat refine (if_neg (by omega)).trans ?_
    rfl
  all_goals omega

/-- A lane group reads an instruction from the words that hold its layout. -/
theorem decodeLane_of_hold {i : Instr} {w e : Nat} (hi : i.wfLane = true) (h : i.layout.Hold w e) : decodeLane w e = some i := by
  cases i
  all_goals try exact absurd hi Bool.false_ne_true
  all_goals
    dsimp only [Instr.wfLane, Instr.layout, Layout.Hold, Layout.word, Fields.Hold] at hi h
    simp only [Nat.reduceSub, and_true, Bool.and_eq_true] at hi h
    simp [decodeLane, major, sharedLane0, sharedLane1, sharedLane2, sharedLane3, sharedLane4, sharedLane5, sharedLane6, sharedLane7, privateLane8,
      privateLane9, privateLanea, privateLaneb, privateLanec, privateLaned, privateLanee, privateLanef, h, hi]
  case li => exact of_decide_eq_true hi.2
  case vldb =>
    obtain ⟨-, -, hz⟩ := hi
    simp only [Bool.or_eq_true, decide_eq_true_eq, beq_iff_eq] at hz
    omega

/-- Every instruction that a reading of words answers has the property. -/
def Reads (P : Instr → Prop) (o : Option Instr) : Prop := ∀ i, o = some i → P i

section
variable {P : Instr → Prop}

theorem reads_none : Reads P none := fun _ h => nomatch h
theorem reads_some {i : Instr} (h : P i) : Reads P (some i) := fun _ e => Option.some.inj e ▸ h
theorem reads_ite {c : Prop} [Decidable c] {a b : Option Instr} (ha : c → Reads P a) (hb : Reads P b) : Reads P (if c then a else b) := by
  split
  · exact ha ‹_›
  · exact hb

end

theorem fld_lt {w hi lo n : Nat} (h : 2 ^ (hi + 1 - lo) ≤ n) : fld w hi lo < n :=
  lt_of_lt_of_le (Nat.mod_lt _ (Nat.two_pow_pos _)) h

/-- The control core answers well-formed terms only, and the words it reads hold their layouts: arm by arm of its tables, the major opcode and the
arm's check are what the layout fixes. -/
theorem decodeControl_reads (w e : Nat) : Reads (fun i => i.wfControl = true ∧ i.layout.Hold w e) (decodeControl w e) := by
  dsimp only [decodeControl, sharedControl0, sharedControl1, sharedControl2, sharedControl3, sharedControl4, sharedControl5, sharedControl6,
    sharedControl7, privateControl8, privateControl9, privateControla, privateControlb, privateControlc, privateControld, privateControle,
    privateControlf]
  repeat' first | exact reads_none | refine reads_ite (fun _ => ?_) ?_ | refine reads_some ⟨?_, ?_⟩
  all_goals
    rename_i hmajor hcheck
    simp only [major, beq_iff_eq, Bool.and_eq_true] at hmajor hcheck
    dsimp only [Instr.wfControl, Instr.layout, Layout.Hold, Layout.word, Fields.Hold]
  all_goals
    simp only [hmajor, hcheck, fld_lt, Nat.reduceSub, Nat.reduceAdd, Nat.reducePow, Nat.reduceLeDiff, Nat.reduceLT, Bool.and_eq_true, decide_true,
      beq_iff_eq, and_self]

/-- The same of a lane group. -/
theorem decodeLane_reads (w e : Nat) : Reads (fun i => i.wfLane = true ∧ i.layout.Hold w e) (decodeLane w e) := by
  dsimp only [decodeLane, sharedLane0, sharedLane1, sharedLane2, sharedLane3, sharedLane4, sharedLane5, sharedLane6, sharedLane7, privateLane8,
    privateLane9, privateLanea, privateLaneb, privateLanec, privateLaned, privateLanee, privateLanef]
  repeat' first | exact reads_none | refine reads_ite (fun _ => ?_) ?_ | refine reads_some ⟨?_, ?_⟩
  all_goals
    rename_i hmajor hcheck
    simp only [major, beq_iff_eq, Bool.and_eq_true] at hmajor hcheck
    dsimp only [Instr.wfLane, Instr.layout, Layout.Hold, Layout.word, Fields.Hold]
  all_goals
    simp only [hmajor, hcheck, fld_lt, Nat.reduceSub, Nat.reduceAdd, Nat.reducePow, Nat.reduceLeDiff, Nat.reduceLT, Bool.and_eq_true, decide_true,
      beq_iff_eq, and_self]

/-! ## The round trips -/

/-- A decoder that reads each well-formed term from the words that hold its layout, and nothing else, agrees with the encoder both ways. -/
theorem encode_decode_agree {wf : Instr → Bool} {decode : Nat → Nat → Option Instr} (hfit : ∀ i, wf i = true → i.layout.Fit)
    (hdecode : ∀ i w e, wf i = true → i.layout.Hold w e → decode w e = some i)
    (hreads : ∀ w e, Reads (fun i => wf i = true ∧ i.layout.Hold w e) (decode w e)) :
    (∀ i, wf i = true → ∃ w e : Nat, w < 2 ^ 32 ∧ e < 2 ^ 32 ∧ encode i = (if isDouble w then [w, e] else [w])
      ∧ (isDouble w = false → e = 0) ∧ decode w e = some i)
    ∧ ∀ w e i, w < 2 ^ 32 → e < 2 ^ 32 → decode w e = some i → wf i = true ∧ encode i = (if isDouble w then [w, e] else [w]) := by
  have hencode (i : Instr) (w e : Nat) (hi : wf i = true) (hw : w < 2 ^ 32) (he : e < 2 ^ 32) (hold : i.layout.Hold w e) :
      encode i = if isDouble w then [w, e] else [w] :=
    (encode_eq_words i (hfit i hi).1).trans (Layout.words_of_hold (hfit i hi) hw he hold)
  refine ⟨fun i hi => ?_, fun w e i hw he h => ?_⟩
  · obtain ⟨w, e, hw, he, hold, hsingle⟩ := Layout.exists_hold (hfit i hi)
    exact ⟨w, e, hw, he, hencode i w e hi hw he hold, hsingle, hdecode i w e hi hold⟩
  · obtain ⟨hi, hold⟩ := hreads w e i h
    exact ⟨hi, hencode i w e hi hw he hold⟩

/-- Settles O59: the control core's decoder and the encoder follow one layout. -/
theorem encodingControl : Obligations.EncodingControl :=
  encode_decode_agree fit_of_wfControl (fun _ _ _ => decodeControl_of_hold) decodeControl_reads

/-- Settles O60: the lanes' decoder and the encoder follow one layout. -/
theorem encodingLanes : Obligations.EncodingLanes :=
  encode_decode_agree fit_of_wfLane (fun _ _ _ => decodeLane_of_hold) decodeLane_reads

end Sys2Proof
end

section
namespace Sys2Proof

/-- Settles O58: the decoders compute, so each word's decoding is checked by running it. -/
theorem decodeWords : Obligations.DecodeWords := by
  unfold Obligations.DecodeWords Claims.DecodeWords
  and_intros <;> rfl

end Sys2Proof
end

section
/-! What leaves every plaza's placement as it is: accesses to the memory and the caches, walks, and the delivery of a record (R89, R103, R310). -/
namespace Sys2Proof.Machine

/-- s has the placements of r. -/
def SamePlaces (r s : State) : Prop := ∀ q, s.place q = r.place q

section
variable {r s : State} {α : Type}

theorem modPlaza_samePlaces {p : Nat} {f : Plaza → Plaza} (h : SamePlaces r s) (hf : ∀ q : Plaza, (f q).place = q.place) :
    SamePlaces r (s.modPlaza p f) := fun q => by
  rw [← h q, State.place, State.place]
  by_cases hq : q = p
  · rw [hq, plaza_modPlaza_self, hf]
  · rw [plaza_modPlaza_ne _ _ hq]
theorem foldl_samePlaces {l : List α} {f : State → α → State} (h : SamePlaces r s) (hf : ∀ t x, SamePlaces r t → SamePlaces r (f t x)) :
    SamePlaces r (l.foldl f s) :=
  List.foldlRecOn l f h fun t ht x _ => hf t x ht
theorem ite_samePlaces {c : Prop} [Decidable c] {t : State} (hs : SamePlaces r s) (ht : SamePlaces r t) : SamePlaces r (if c then s else t) := by
  split <;> assumption
theorem getD_samePlaces {o : Option State} (h : SamePlaces r s) (ho : ∀ t, o = some t → SamePlaces r t) : SamePlaces r (o.getD s) := by
  cases o with
  | none => exact h
  | some t => exact ho t rfl

/-! Flits and notices do not touch a plaza. -/

theorem post_samePlaces {f : Flit} (h : SamePlaces r s) : SamePlaces r (s.post f) := by
  refine ite_samePlaces h (getD_samePlaces h fun t e => ?_)
  obtain ⟨l, -, rfl⟩ := Option.map_eq_some_iff.1 e
  exact h
theorem request_samePlaces {who : Requester} {kind addr size : Nat} {data : List Byte} {f : Flit} (h : SamePlaces r s) :
    SamePlaces r (s.request who kind addr size data f).2 :=
  post_samePlaces h
theorem sendNotice_samePlaces {who : Option Nat} {m : Master} {v : View} {b g : Nat} (h : SamePlaces r s) :
    SamePlaces r (s.sendNotice who m v b g) := by
  unfold State.sendNotice
  split
  · split
    · exact request_samePlaces h
    · exact h
  · exact h
theorem advanceLine_samePlaces {who : Option Nat} {key : Nat} (h : SamePlaces r s) : SamePlaces r (s.advanceLine who key) :=
  foldl_samePlaces h fun _ _ ht => foldl_samePlaces ht fun _ _ hu => ite_samePlaces hu (foldl_samePlaces hu fun _ _ => sendNotice_samePlaces)

/-! Lines of the L1s. -/

theorem writeLine_samePlaces {who : Option Nat} {line : Nat} {mask : BitVec 128} {data : Row} {bad : BitVec 2} {t : State} (h : SamePlaces r s)
    (e : s.writeLine who line mask data bad = some t) : SamePlaces r t := by
  unfold State.writeLine at e
  split at e
  · cases e; exact h
  · split at e
    · split at e
      · cases e; exact request_samePlaces h
      · cases e
    · split at e
      · cases e
      · cases e; exact ite_samePlaces h (advanceLine_samePlaces h)
theorem place_modL1 (q : Plaza) (lanes : Bool) (f : List Line → List Line) : (q.modL1 lanes f).place = q.place := by
  cases lanes <;> rfl
theorem writeBackIn_samePlaces {p : Nat} {lanes : Bool} {line : Nat} (h : SamePlaces r s) : SamePlaces r (s.writeBackIn p lanes line) := by
  unfold State.writeBackIn
  split
  · exact h
  · split
    · exact h
    · split
      · next e => exact modPlaza_samePlaces (writeLine_samePlaces h e) fun q => place_modL1 q _ _
      · exact h
theorem writeBack_samePlaces {p line : Nat} (h : SamePlaces r s) : SamePlaces r (s.writeBack p line) :=
  writeBackIn_samePlaces (writeBackIn_samePlaces h)
theorem mergeOwn_samePlaces {p line : Nat} (h : SamePlaces r s) : SamePlaces r (s.mergeOwn p line) :=
  ite_samePlaces (ite_samePlaces h (modPlaza_samePlaces (foldl_samePlaces (writeBack_samePlaces h) fun _ _ ht => advanceLine_samePlaces ht)
    fun _ => rfl)) h
theorem recall_samePlaces {line : Nat} (h : SamePlaces r s) : SamePlaces r (s.recall line) :=
  foldl_samePlaces h fun _ _ => mergeOwn_samePlaces
theorem flushLine_samePlaces {p line : Nat} (h : SamePlaces r s) : SamePlaces r (s.flushLine p line) :=
  modPlaza_samePlaces (mergeOwn_samePlaces (writeBack_samePlaces h)) fun _ => rfl

/-! Walks. -/

theorem walk_ite_samePlaces {c : Prop} [Decidable c] {a b : Walk × State} (ha : SamePlaces r a.2) (hb : SamePlaces r b.2) :
    SamePlaces r (if c then a else b).2 := by
  split <;> assumption
/-- A table of the last level: its entry is absent or a leaf (R103). -/
theorem walkDevice_zero (s : State) (va table : Nat) :
    let a := table + 8 * bits va (levelShift 0 + 8) (levelShift 0)
    let e := (s.readTable a 8).1
    let t := (s.readTable a 8).2
    s.walkDevice va 0 table = if s.absent a then (.none, s) else if !bit e 0 then (.none, t) else (deviceLeaf e 0, t) := rfl
/-- A table above the last level: its entry is absent, a leaf, malformed, or the next table (R103). -/
theorem walkDevice_succ (s : State) (va k table : Nat) :
    let a := table + 8 * if k + 1 = 3 then bits va 56 39 else bits va (levelShift (k + 1) + 8) (levelShift (k + 1))
    let e := (s.readTable a 8).1
    let t := (s.readTable a 8).2
    s.walkDevice va (k + 1) table =
      if s.absent a then (.none, s)
      else if !bit e 0 then (.none, t)
      else if bit e 4 then (if k + 1 = 3 then .none else deviceLeaf e (k + 1), t)
      else if bits e 63 45 != 0 || bits e 11 9 != 0 || bit e 5 then (.none, t)
      else t.walkDevice va k (bits e 44 12 * 4096) := rfl
theorem walkDevice_samePlaces {va l table : Nat} (h : SamePlaces r s) : SamePlaces r (s.walkDevice va l table).2 := by
  induction l generalizing s table with
  | zero =>
    rw [walkDevice_zero]
    dsimp only [State.readTable]
    exact walk_ite_samePlaces h (walk_ite_samePlaces (recall_samePlaces h) (recall_samePlaces h))
  | succ k ih =>
    rw [walkDevice_succ]
    dsimp only [State.readTable]
    exact walk_ite_samePlaces h (walk_ite_samePlaces (recall_samePlaces h) (walk_ite_samePlaces (recall_samePlaces h)
      (walk_ite_samePlaces (recall_samePlaces h) (ih (recall_samePlaces h)))))
theorem walkHost_samePlaces {host d va l table : Nat} (h : SamePlaces r s) : SamePlaces r (s.walkHost host d va l table).2 := by
  induction l generalizing s table with
  | zero =>
    unfold State.walkHost
    dsimp only [State.readTable]
    exact walk_ite_samePlaces h (walk_ite_samePlaces (recall_samePlaces h) (recall_samePlaces h))
  | succ k ih =>
    unfold State.walkHost
    dsimp only [State.readTable]
    exact walk_ite_samePlaces h (walk_ite_samePlaces (recall_samePlaces h) (ih (recall_samePlaces h)))
theorem walk_samePlaces {pasid : Nat} {va : Word} (h : SamePlaces r s) : SamePlaces r (s.walk pasid va).2 := by
  unfold State.walk
  dsimp only [State.readTable]
  have hr := fun a b => recall_samePlaces (line := b) (recall_samePlaces (line := a) h)
  split
  · exact h
  · split
    · exact hr _ _
    · split
      · exact walk_ite_samePlaces (hr _ _) (walkHost_samePlaces (hr _ _))
      · exact walk_ite_samePlaces (hr _ _) (walkDevice_samePlaces (hr _ _))
theorem translate_samePlaces {p pasid : Nat} {va : Word} {x : Option Trans} {t : State} (h : SamePlaces r s)
    (e : s.translate p pasid va = .ok x t) : SamePlaces r t := by
  have hw := walk_samePlaces (pasid := pasid) (va := va) h
  unfold State.translate at e
  split at e
  · cases e; exact h
  · split at e
    · cases e; exact h
    · split at e <;> cases e
      · next heq => exact modPlaza_samePlaces (by rw [heq] at hw; exact hw) fun _ => rfl
      · next heq => rw [heq] at hw; exact hw

/-! The write of a record and the delivery it opens. -/

theorem putBytes_samePlaces {p key : Nat} {bytes : List Byte} (h : SamePlaces r s) : SamePlaces r (s.putBytes p key bytes) :=
  foldl_samePlaces h fun _ _ ht => getD_samePlaces (flushLine_samePlaces ht) fun _ => writeLine_samePlaces (flushLine_samePlaces ht)
theorem tryWrite_samePlaces {w : HeldWrite} {t : State} (h : SamePlaces r s) (e : s.tryWrite w = some t) : SamePlaces r t := by
  unfold State.tryWrite at e
  split at e
  · cases e; exact h
  · split at e
    · next heq =>
      cases e
      exact ite_samePlaces (translate_samePlaces h heq) (putBytes_samePlaces (translate_samePlaces h heq))
    · cases e
    · cases e; exact h
theorem writeRuntime_samePlaces {p : Nat} {va : Word} {bytes : List Byte} (h : SamePlaces r s) : SamePlaces r (s.writeRuntime p va bytes) :=
  ite_samePlaces h (getD_samePlaces h fun _ => tryWrite_samePlaces h)
theorem openRecord_samePlaces {p : Nat} {x : Record} (h : SamePlaces r s) : SamePlaces r (s.openRecord p x) :=
  modPlaza_samePlaces (writeRuntime_samePlaces h) fun _ => rfl
theorem wakeSupervisor_samePlaces {p : Nat} (h : SamePlaces r s) : SamePlaces r (s.wakeSupervisor p) :=
  ite_samePlaces (modPlaza_samePlaces h fun _ => rfl) (modPlaza_samePlaces (s := s.forgetRemotes (.ctx p 5)) h fun _ => rfl)
theorem openNext_samePlaces {p : Nat} (h : SamePlaces r s) : SamePlaces r (s.openNext p) := by
  unfold State.openNext
  split
  · exact ite_samePlaces h (wakeSupervisor_samePlaces (openRecord_samePlaces h))
  · exact h
theorem deliver_samePlaces {p : Nat} {x : Record} (h : SamePlaces r s) : SamePlaces r (s.deliver p x) := by
  unfold State.deliver
  split
  · exact h
  · split
    · exact ite_samePlaces (modPlaza_samePlaces (openRecord_samePlaces h) fun _ => rfl) (modPlaza_samePlaces h fun _ => rfl)
    · exact ite_samePlaces (openNext_samePlaces (modPlaza_samePlaces h fun _ => rfl))
        (wakeSupervisor_samePlaces (modPlaza_samePlaces (writeRuntime_samePlaces h) fun _ => rfl))
end
end Sys2Proof.Machine
end

section
namespace Sys2Proof.Machine

/-! ### The turn that the head of the agenda gives -/

/-- While the module is up, the head of the agenda is a context's turn. -/
theorem step_control {s : State} {p c : Nat} {rest : List Choice} (hup : s.dev.phase = .up) (ha : s.agenda = .control p c :: rest) :
    step s = runControl exec p c { s with agenda := rest } := by
  simp [step, runStep, runAgenda, runChoice, takes, ha, hup]

/-- While the module is up, the head of the agenda is a lane group's turn. -/
theorem step_lane {s : State} {p l : Nat} {rest : List Choice} (hup : s.dev.phase = .up) (ha : s.agenda = .lane p l :: rest) :
    step s = runGroup exec p l { s with agenda := rest } := by
  simp [step, runStep, runAgenda, runChoice, takes, ha, hup]

/-- A running context with no kept trap runs what it fetches. -/
theorem runControl_of_fetch {ex : Instr → State → Out} {u t : State} {p c : Nat} {i : Instr} (hruns : u.runs p c = true)
    (hissue : u.issueHeld = false) (hkept : u.takeKept p c = none) (hst : (u.ctx p c).state = .running) (hf : u.fetch p c = .inl (i, t)) :
    runControl ex p c u = ex i { t with cur := ⟨.control p c, (t.ctx p c).pc, (t.ctx p c).w0, (t.ctx p c).w1, (t.ctx p c).len⟩ } := by
  simp [runControl, hruns, hissue, hkept, hst, hf]

/-- A lane group whose turn it is, with no rival of its pipe before it, attempts its packet. -/
theorem runGroup_of_attempt {ex : Instr → State → Out} {u : State} {p l : Nat} (hp : u.powered p = true) (hl : u.lanesRun p = true)
    (hissue : u.issueHeld = false) (hmay : (u.place p).mayIssue u.dev.cycle l = true)
    (hrivals : ∀ j ∈ (u.place p).rivals u.dev.cycle l, canIssue ex p j u = false) :
    (∀ t, attempt ex p l u = .inl t → runGroup ex p l u = .next (t.holdLane u p l)) ∧ ∀ o, attempt ex p l u = .inr o → runGroup ex p l u = o := by
  have hany : ((u.place p).rivals u.dev.cycle l).any (fun j => canIssue ex p j u) = false := by simpa using hrivals
  refine ⟨fun t h => ?_, fun o h => ?_⟩ <;> simp [runGroup, runLane, hp, hl, hissue, hmay, hany, h]

/-- A packet of one instruction runs that instruction (R28). -/
theorem attempt_single {ex : Instr → State → Out} {u s1 : State} {p l : Nat} {a : Fetched} {i : Instr}
    (hf : u.laneInstr p l (u.lane p l).pc = .ok (.inr a) s1) (hi : a.i = some i) (hpair : paired a.w0 = false) :
    attempt ex p l u = runOne ex p l a i (s1.beginPacket p l) fun t => .inr (.next t) := by
  simp [attempt, onFetched, hf, hi, hpair]

/-! ### Fetch of words in a resident instruction line -/

/-- The plaza's instruction cache after a hit on a line: the line counts as used (R85). -/
def touchLine (ls : List ILine) (pasid line : Nat) : List ILine :=
  let n := 1 + listMax (ls.map fun y => y.used)
  ls.map fun y => if y.pasid == pasid && y.line == line then { y with used := n } else y
/-- The state after a hit on an instruction line. -/
def State.touched (s : State) (p pasid line : Nat) : State := s.modPlaza p fun q => { q with icache := touchLine q.icache pasid line }

theorem takeILine_hit {s : State} {who : Requester} {p pasid line : Nat} {x : ILine} (h : s.iline p pasid line = some x) :
    s.takeILine who p pasid line = .ok (some (x.data, x.bad, x.home)) (s.touched p pasid line) := by
  rw [State.takeILine, h]
  rfl

/-- A hit leaves the lines' words as they are. -/
theorem iline_touched {s : State} {p pasid line : Nat} {x : ILine} (h : s.iline p pasid line = some x) :
    ∃ n, (s.touched p pasid line).iline p pasid line = some { x with used := n } := by
  refine ⟨1 + listMax ((s.plaza p).icache.map fun y => y.used), ?_⟩
  have hx := List.find?_some h
  rw [State.iline, State.touched, plaza_modPlaza_self, touchLine, List.find?_map]
  have hkey : ((fun y : ILine => y.pasid == pasid && y.line == line) ∘ fun y =>
      if y.pasid == pasid && y.line == line then { y with used := 1 + listMax ((s.plaza p).icache.map fun z => z.used) } else y)
      = fun y => y.pasid == pasid && y.line == line := by
    funext y
    by_cases hy : (y.pasid == pasid && y.line == line) = true <;> simp [Function.comp, hy]
  rw [hkey, show List.find? _ _ = some x from h, Option.map_some, if_pos hx]

/-- A word of a resident line that is not poisoned. -/
theorem fetchWord_hit {s : State} {who : Requester} {p pasid : Nat} {va : Word} {x : ILine} (h : s.iline p pasid (va.toNat / 64) = some x)
    (hbad : x.bad = false) :
    s.fetchWord who p pasid va = .ok (some (vecBytes x.data (va.toNat % 64) 4)) (s.touched p pasid (va.toNat / 64)) := by
  simp [State.fetchWord, takeILine_hit h, Res.andThen, hbad]

@[simp] theorem ctx_touched (s : State) (p pasid line q c : Nat) : (s.touched p pasid line).ctx q c = s.ctx q c := by
  unfold State.ctx State.place State.touched
  by_cases hq : q = p
  · subst hq; simp
  · simp [plaza_modPlaza_ne _ _ hq]

/-- A context with the words that it fetched from one line, its line access counted (R13, R70). -/
def Ctx.withWords (x : Ctx) (hit : Bool) (w0 w1 : Nat) : Ctx :=
  { ({ x with counting := none } : Ctx).countLine hit with w0 := w0, w1 := w1, asked := [] }

theorem withWords_keeps (x : Ctx) (hit : Bool) (w0 w1 : Nat) :
    (x.withWords hit w0 w1).pc = x.pc ∧ (x.withWords hit w0 w1).g = x.g ∧ (x.withWords hit w0 w1).ending = x.ending := by
  unfold Ctx.withWords Ctx.countLine
  grind

/-- What a fetch answers once the context has its words: the instruction that they decode to, or ILLEGAL (R14). -/
def State.decoded (s : State) (p c w0 w1 : Nat) : Sum (Instr × State) State :=
  match decodeControl w0 w1 with
  | some i => .inl (i, s)
  | none => .inr (s.illegal p c)

/-- t is s, but for the context's words and the uses of instruction lines. -/
def State.hasFetched (s t : State) (p c w0 w1 : Nat) : Prop :=
  t.mem = s.mem ∧ ∃ hit, t.ctx p c = (s.ctx p c).withWords hit w0 w1

section
variable {s : State} {p c : Nat} {x : ILine}

/-- A single word in a resident line (R12, R46). -/
theorem fetch_single (hc : canonical (s.ctx p c).pc = true) (hx : s.iline p (s.ctxPasid p c) ((s.ctx p c).pc.toNat / 64) = some x)
    (hbad : x.bad = false) {w0 : Nat} (hw0 : vecBytes x.data ((s.ctx p c).pc.toNat % 64) 4 = w0) (hd : isDouble w0 = false) :
    ∃ v, s.hasFetched v p c w0 0 ∧ s.fetch p c = v.decoded p c w0 0 := by
  let hit := (s.ctx p c).hitAt ((s.ctx p c).pc.toNat / 64) (s.iline p (s.ctxPasid p c) ((s.ctx p c).pc.toNat / 64)).isSome
  refine ⟨(s.touched p (s.ctxPasid p c) ((s.ctx p c).pc.toNat / 64)).modCtx p c fun y => y.withWords hit w0 0, ⟨?_, hit, ?_⟩, ?_⟩
  · simp [State.touched]
  · rw [ctx_modCtx_self, ctx_touched]
  · simp only [State.fetch, hc, fetchWord_hit hx hbad, hw0, hd, Bool.not_true, Bool.false_eq_true, if_false]
    rfl

/-- A double-word in a resident line (R12, R13, R46). -/
theorem fetch_double (hc : canonical (s.ctx p c).pc = true) (hx : s.iline p (s.ctxPasid p c) ((s.ctx p c).pc.toNat / 64) = some x)
    (hbad : x.bad = false) (hend : (s.ctx p c).pc.toNat % 64 ≤ 56) {w0 w1 : Nat} (hw0 : vecBytes x.data ((s.ctx p c).pc.toNat % 64) 4 = w0)
    (hw1 : vecBytes x.data ((s.ctx p c).pc.toNat % 64 + 4) 4 = w1) (hd : isDouble w0 = true) :
    ∃ v, s.hasFetched v p c w0 w1 ∧ s.fetch p c = v.decoded p c w0 w1 := by
  have hpc : ((s.ctx p c).pc + 4).toNat = (s.ctx p c).pc.toNat + 4 := by
    have := (s.ctx p c).pc.isLt
    rw [BitVec.toNat_add, Nat.mod_eq_of_lt (by simp; omega)]; simp
  have hline : ((s.ctx p c).pc + 4).toNat / 64 = (s.ctx p c).pc.toNat / 64 := by omega
  have hbyte : ((s.ctx p c).pc + 4).toNat % 64 = (s.ctx p c).pc.toNat % 64 + 4 := by omega
  obtain ⟨n, hx'⟩ := iline_touched hx
  let hit := (s.ctx p c).hitAt ((s.ctx p c).pc.toNat / 64) (s.iline p (s.ctxPasid p c) ((s.ctx p c).pc.toNat / 64)).isSome
  let line := (s.ctx p c).pc.toNat / 64
  refine ⟨((s.touched p (s.ctxPasid p c) line).touched p (s.ctxPasid p c) line).modCtx p c fun y => y.withWords hit w0 w1, ⟨?_, hit, ?_⟩, ?_⟩
  · simp [State.touched]
  · rw [ctx_modCtx_self, ctx_touched, ctx_touched]
  · have hsecond := fetchWord_hit (who := .fetch p c) (va := (s.ctx p c).pc + 4) (x := { x with used := n }) (by rw [hline]; exact hx') hbad
    rw [hline, hbyte, hw1] at hsecond
    simp only [State.fetch, hc, fetchWord_hit hx hbad, hsecond, hline, hw0, hd, Bool.not_true, Bool.false_eq_true, if_false, if_true,
      bne_self_eq_false, Bool.and_false]
    rfl

end

end Sys2Proof.Machine
end

section
namespace Sys2Proof.Machine

theorem ctx_of_samePlaces {r s : State} {p c : Nat} (hc : c ≠ 5) (h : SamePlaces r s) : s.ctx p c = r.ctx p c := by
  simp [State.ctx, hc, h p]

/-- A trap stops the context, but for context 5 (R89, R92). -/
theorem state_takeTrap {s : State} {p c : Nat} {r : Record} (hc : c ≠ 5) (hend : (s.ctx p c).ending = none) :
    ((s.takeTrap p c r).ctx p c).state = .trapped := by
  have huncount : (s.ctx p c).uncount.ending = none := by
    unfold Ctx.uncount
    grind
  rw [State.takeTrap, if_neg hc, ctx_of_samePlaces hc (deliver_samePlaces fun _ => rfl),
    settleWake_modCtx _ _ _ _ (by simp [State.noWake, hc, hend]) (by simpa using huncount), ctx_modCtx_self]

/-- Words that decode to an instruction are fetched as it. -/
theorem decoded_of_some {v : State} {p c w0 w1 : Nat} {i : Instr} (h : decodeControl w0 w1 = some i) : v.decoded p c w0 w1 = .inl (i, v) := by
  simp [State.decoded, h]
/-- Words that decode to none are ILLEGAL. -/
theorem decoded_of_none {v : State} {p c w0 w1 : Nat} (h : decodeControl w0 w1 = none) : v.decoded p c w0 w1 = .inr (v.illegal p c) := by
  simp [State.decoded, h]

/-- What a fetch that finds its words keeps of the context. -/
theorem State.hasFetched.keeps {s v : State} {p c w0 w1 : Nat} (h : s.hasFetched v p c w0 w1) :
    v.mem = s.mem ∧ (v.ctx p c).pc = (s.ctx p c).pc ∧ (v.ctx p c).g = (s.ctx p c).g ∧ (v.ctx p c).ending = (s.ctx p c).ending
      ∧ (v.ctx p c).w0 = w0 ∧ (v.ctx p c).w1 = w1 := by
  obtain ⟨hmem, hit, hctx⟩ := h
  obtain ⟨hpc, hg, hending⟩ := withWords_keeps (s.ctx p c) hit w0 w1
  rw [hctx]
  exact ⟨hmem, hpc, hg, hending, rfl, rfl⟩

/-- A fetch of words that decode to none traps the context. -/
theorem trapped_of_decoded {s v : State} {p c w0 w1 : Nat} (hv : s.hasFetched v p c w0 w1) (h : decodeControl w0 w1 = none)
    (hend : (s.ctx p c).ending = none) : ∃ t, v.decoded p c w0 w1 = .inr t ∧ (c = 5 ∨ (t.ctx p c).state = .trapped) := by
  obtain ⟨-, -, -, hending, -, -⟩ := hv.keeps
  exact ⟨_, decoded_of_none h, or_iff_not_imp_left.2 fun hc => state_takeTrap hc (hending.trans hend)⟩

/-- The turn of a lane group whose packet is one instruction: it waits for a result, or it issues (R28, R30). -/
theorem attempt_runOne {u v : State} {p l : Nat} {a : Fetched} {i : Instr} (h : attempt exec p l u = runOne exec p l a i v fun t => .inr (.next t)) :
    ((v.lane p l).full i = true → attempt exec p l u = .inl v)
    ∧ ((v.lane p l).full i = false → ∀ t, exec i (v.runAs p l a) = .next t →
      ((t.lane p l).held a.pc v.dev.cycle = false → attempt exec p l u = .inr (.next t))
      ∧ ((t.lane p l).held a.pc v.dev.cycle = true → attempt exec p l u = .inl t)) := by
  rw [h, runOne]
  refine ⟨fun hfull => by simp [hfull], fun hfull t ht => ⟨fun hheld => ?_, fun hheld => ?_⟩⟩ <;> simp [hfull, ht, hheld]

/-- Settles O57: a turn at the head of the agenda fetches, and what it fetches is run by `exec`. -/
theorem stepRunsDecoded : Obligations.StepRunsDecoded := by
  unfold Obligations.StepRunsDecoded Claims.StepRunsDecoded
  constructor
  · intro s p c rest i t hup ha u hruns hissue hkept hst
    refine ⟨fun hf => (step_control hup ha).trans (runControl_of_fetch hruns hissue hkept hst hf), ?_⟩
    intro x pc hc hx hbad w0
    constructor
    · intro hd
      obtain ⟨v, hv, hf⟩ := fetch_single hc hx hbad rfl hd
      rw [hf]
      obtain ⟨hmem, hpc, hg, -, hw0, -⟩ := hv.keeps
      exact ⟨fun h => ⟨v, decoded_of_some h, hmem, hpc, hg, hw0⟩, fun h hend => trapped_of_decoded hv h hend⟩
    · intro hd hend w1 h
      obtain ⟨v, hv, hf⟩ := fetch_double hc hx hbad hend rfl rfl hd
      rw [hf]
      obtain ⟨hmem, hpc, hg, -, hw0, hw1⟩ := hv.keeps
      exact ⟨v, decoded_of_some h, hmem, hpc, hg, hw0, hw1⟩
  · intro s p l rest a i s1 hup ha u hp hl hissue hmay hrivals hf hi hpair v
    obtain ⟨hheld, hdone⟩ := runGroup_of_attempt hp hl hissue hmay hrivals
    obtain ⟨hfull, hrun⟩ := attempt_runOne (attempt_single hf hi hpair)
    rw [step_lane hup ha]
    refine ⟨fun h => hheld _ (hfull h), fun h t ht => ?_⟩
    obtain ⟨hnext, hwait⟩ := hrun h t ht
    exact ⟨fun h => hdone _ (hnext h), fun h => hheld _ (hwait h)⟩

end Sys2Proof.Machine
end

section
/-! A row result's issue and its landing (R28-R32, R146). -/
namespace Sys2Proof.Machine

/-! ### Issue -/

/-- No level ends at an address that none of them has as its last word (R50). -/
theorem laneLoopEnd_none {pc : Word} {ls : List Nat} {x : Lane}
    (h : ∀ l ∈ ls, (levelOf x.levels l).active = true → (levelOf x.levels l).last ≠ pc) : laneLoopEnd pc ls x = (x, none) := by
  induction ls with
  | nil => rfl
  | cons l rest ih =>
    have hl : ((levelOf x.levels l).active && (levelOf x.levels l).last == pc) = false := by
      simpa using h l (by simp)
    simp [laneLoopEnd, hl, ih fun j hj => h j (by simp [hj])]

/-- An instruction at which no level ends falls through, and its wait holds the next packet (R28, R30). -/
theorem Lane.retire_of_noLoopEnd {x : Lane} (now len wait : Nat) (h : x.noLoopEnd) :
    x.retire now len wait 0
      = { x with pc := x.pc + BitVec.ofNat 64 len, nextAt := now + 1 + Nat.max x.packetWait wait, packetWait := 0 } := by
  have hend : laneLoopEnd x.pc [3, 2, 1, 0] x = (x, none) := laneLoopEnd_none fun l hl => h l (by simp at hl; omega)
  simp [Lane.retire, hend]

/-- A lane group with a row result on its way to `dest`, which takes ring position id (R31, R32). -/
def Lane.withRow (x : Lane) (now id bound : Nat) (dest : Dest) (half : W32) (data : Row) (em : W32) : Lane :=
  { x with
    ring := (⟨id, 0, false⟩ :: x.ring).take 8
    results := markClash now dest half x.results ++
      [⟨id, now, bound, false, dest, id, data, em, if dest != .none && x.undef now dest then half else 0, false⟩] }

section
variable {s : State} {p l bound d len w : Nat} {data : Row} {em : W32}

theorem issueRow_eq : s.issueRow p l bound d data em
    = s.newId.2.modLane p l fun x => x.withRow s.dev.cycle (s.fresh + 1) bound ((s.lane p l).vdest d) (s.halfMask p l) data em := rfl

theorem issueRow_laneRetire {k : Nat} : (s.issueRow p l bound d data em).laneRetire p l len w k = s.newId.2.modLane p l fun x =>
    (x.withRow s.dev.cycle (s.fresh + 1) bound ((s.lane p l).vdest d) (s.halfMask p l) data em).retire s.dev.cycle len w k := by
  rw [issueRow_eq, State.laneRetire, modLane_modLane]
  rfl

theorem lane_issueRow_laneRetire (h : (s.lane p l).noLoopEnd) : ((s.issueRow p l bound d data em).laneRetire p l len w 0).lane p l =
    { (s.lane p l).withRow s.dev.cycle (s.fresh + 1) bound ((s.lane p l).vdest d) (s.halfMask p l) data em with
      pc := (s.lane p l).pc + BitVec.ofNat 64 len, nextAt := s.dev.cycle + 1 + Nat.max (s.lane p l).packetWait w, packetWait := 0 } := by
  rw [issueRow_laneRetire, lane_modLane_self]
  exact Lane.retire_of_noLoopEnd _ _ _ h

theorem sameButLane_issueRow_laneRetire {k : Nat} : s.sameButLane ((s.issueRow p l bound d data em).laneRetire p l len w k) p l := by
  rw [issueRow_laneRetire, State.sameButLane, lane_modLane_self]
  rfl

end

theorem issueEffect : Claims.IssueEffect := by
  intro s p l bound d data em len w hloop x t y
  have hy : y = _ := lane_issueRow_laneRetire hloop
  rw [hy]
  refine ⟨sameButLane_issueRow_laneRetire, rfl, rfl, rfl, rfl, rfl, rfl, rfl, rfl, s.fresh + 1, rfl, _, _, rfl, List.length_map _, ?_⟩
  and_intros <;> rfl

/-! ### Landing -/

/-- A lane group whose result r has landed, with its words over `row` in its ring entry (R29, R31). -/
def Lane.landed (x : Lane) (r : Result) (row : Row) : Lane :=
  { x with
    ring := x.ring.map fun e => if e.id == r.ring then { e with data := rowMix r.mask r.data row, written := true } else e
    results := x.results.map fun y => if y.id == r.id then { y with landed := true } else y }

@[simp] theorem Lane.draining_landed (x : Lane) (r : Result) (row : Row) : (x.landed r row).draining = x.draining := rfl
@[simp] theorem Lane.scalar_landed (x : Lane) (r : Result) (row : Row) (n : Nat) : (x.landed r row).scalar n = x.scalar n := rfl
@[simp] theorem Lane.pred_landed (x : Lane) (r : Result) (row : Row) (n : Nat) : (x.landed r row).pred n = x.pred n := rfl
@[simp] theorem Lane.draining_setPred (x : Lane) (n : Nat) (v : W32) : (x.setPred n v).draining = x.draining := rfl
@[simp] theorem Lane.scalar_setPred (x : Lane) (n m : Nat) (v : W32) : (x.setPred n v).scalar m = x.scalar m := rfl

/-- The state with a CB row written. -/
def State.putRow (s : State) (p n : Nat) (row : Row) : State := s.modPlaza p fun q => { q with cb := tabPut 0 q.cb n row }

@[simp] theorem lane_putRow (s : State) (p n l : Nat) (row : Row) : (s.putRow p n row).lane p l = s.lane p l := by
  simp [State.lane, State.place, State.putRow]
theorem cbRow_putRow (s : State) (p n m : Nat) (row : Row) : (s.putRow p n row).cbRow p m = if m = n then row else s.cbRow p m := by
  rw [State.cbRow, State.putRow, plaza_modPlaza_self]
  split
  · next h => rw [h, tabGet_tabPut_self]
  · next h => exact tabGet_tabPut_ne _ _ _ h
@[simp] theorem cbRow_modLane (s : State) (p l n : Nat) (f : Lane → Lane) : (s.modLane p l f).cbRow p n = s.cbRow p n := by
  simp [State.cbRow, State.modLane, State.modPlace]

theorem Lane.settle_of_not_draining {x : Lane} {now : Nat} (h : x.draining = false) :
    x.settle now = { x with results := settleResults now false x.results } := by
  simp [Lane.settle, h]
@[simp] theorem Lane.draining_setScalar (x : Lane) (n : Nat) (v : W32) : (x.setScalar n v).draining = x.draining := by
  unfold Lane.setScalar; split <;> rfl
@[simp] theorem Lane.results_setScalar (x : Lane) (n : Nat) (v : W32) : (x.setScalar n v).results = x.results := by
  unfold Lane.setScalar; split <;> rfl
@[simp] theorem Lane.pred_setScalar (x : Lane) (n m : Nat) (v : W32) : (x.setScalar n v).pred m = x.pred m := by
  unfold Lane.setScalar; split <;> rfl
theorem Lane.pred_setPred (x : Lane) (n m : Nat) (v : W32) : (x.setPred n v).pred m = if m = n then v else x.pred m := by
  rw [Lane.pred, Lane.setPred]
  split
  · next h => rw [h, tabGet_tabPut_self]
  · next h => exact tabGet_tabPut_ne _ _ _ h

section
variable {s u : State} {p l n : Nat} {r : Result} {g : Lane → Lane}

/-! What a result without a clash does, by its destination. -/

theorem landResult_row (hdest : r.dest = .row n) (hclash : r.clash = 0) :
    s.landResult p l r = (s.putRow p n (rowMix r.mask r.data (s.cbRow p n))).modLane p l fun x => x.landed r (rowMix r.mask r.data (s.cbRow p n)) := by
  simp only [State.landResult, hdest, State.landedRow, hclash, if_true]; rfl
theorem landResult_pred (hdest : r.dest = .pred n) (hclash : r.clash = 0) :
    s.landResult p l r = s.modLane p l fun x => (x.setPred n (rowWord r.data 0 &&& s.halfMask p l)).landed r 0 := by
  simp only [State.landResult, hdest, State.landedWord, hclash, if_true, modLane_modLane]; rfl
theorem landResult_scalar (hdest : r.dest = .scalar n) (hclash : r.clash = 0) :
    s.landResult p l r = s.modLane p l fun x => (x.setScalar n (rowWord r.data 0)).landed r 0 := by
  simp only [State.landResult, hdest, State.landedWord, hclash, if_true, modLane_modLane]; rfl
theorem landResult_none (hdest : r.dest = .none) : s.landResult p l r = s.modLane p l fun x => x.landed r 0 := by
  simp only [State.landResult, hdest]; rfl

/-- What has landed leaves, and nothing else of the lane group changes (R29). -/
theorem land_keeps (h : s.landResult p l r = u.modLane p l g) (hdraining : (g (u.lane p l)).draining = false) :
    (s.land p l r).mem = u.mem ∧ (∀ m, (s.land p l r).cbRow p m = u.cbRow p m)
    ∧ (∀ m, ((s.land p l r).lane p l).scalar m = (g (u.lane p l)).scalar m) ∧ ∀ m, ((s.land p l r).lane p l).pred m = (g (u.lane p l)).pred m := by
  have hlane : (s.land p l r).lane p l = { g (u.lane p l) with results := settleResults s.dev.cycle false (g (u.lane p l)).results } := by
    rw [State.land, lane_modLane_self, h, lane_modLane_self, Lane.settle_of_not_draining hdraining]
  refine ⟨?_, fun m => ?_, fun m => by rw [hlane]; rfl, fun m => by rw [hlane]; rfl⟩
  · rw [State.land, h]; rfl
  · rw [State.land, h, cbRow_modLane, cbRow_modLane]

end

theorem resultLands : Claims.ResultLands := by
  intro s p l i r hr hlanded hclash hat hdraining
  refine ⟨s.land p l r, ?_, ?_⟩
  · show execLaneResultLands p l i s = _
    simp [execLaneResultLands, hr, hlanded, hat]
  · cases hdest : r.dest with
    | row n =>
      obtain ⟨hmem, hrow, hscalar, hpred⟩ := land_keeps (landResult_row (s := s) (p := p) (l := l) hdest hclash) (by simpa using hdraining)
      refine ⟨hmem, fun k hk => ?_, fun hne => absurd rfl (hne n), fun m => by simp [hscalar], fun m => by simp [hpred]⟩
      cases hk
      exact ⟨by simp [hrow, cbRow_putRow], fun m hm => by simp [hrow, cbRow_putRow, hm]⟩
    | pred n =>
      obtain ⟨hmem, hrow, hscalar, hpred⟩ := land_keeps (landResult_pred (s := s) (p := p) (l := l) hdest hclash) hdraining
      refine ⟨hmem, nofun, fun _ => hrow, fun m => by simp [hscalar], fun m => ?_⟩
      by_cases hm : n = m
      · simp [hpred, Lane.pred_setPred, hm]
      · simp [hpred, Lane.pred_setPred, hm, Ne.symm hm]
    | scalar n =>
      obtain ⟨hmem, hrow, hscalar, hpred⟩ := land_keeps (landResult_scalar (s := s) (p := p) (l := l) hdest hclash) (by simpa using hdraining)
      refine ⟨hmem, nofun, fun _ => hrow, fun m => ?_, fun m => by simp [hpred]⟩
      by_cases hm : n = m
      · simp [hscalar, Lane.scalar_setScalar, hm]
      · simp [hscalar, Lane.scalar_setScalar, hm, Ne.symm hm]
    | none =>
      obtain ⟨hmem, hrow, hscalar, hpred⟩ := land_keeps (landResult_none (s := s) (p := p) (l := l) hdest) hdraining
      exact ⟨hmem, nofun, fun _ => hrow, fun m => by simp [hscalar], fun m => by simp [hpred]⟩

/-! ### Landing by the bound -/

/-- A result once those of a list have landed. -/
def Result.afterLanding (due : List Result) (y : Result) : Result := if due.any (fun r => y.id == r.id) then { y with landed := true } else y

theorem Result.afterLanding_keeps (due : List Result) (y : Result) :
    (y.afterLanding due).id = y.id ∧ (y.afterLanding due).at_ = y.at_ ∧ (y.afterLanding due).bound = y.bound
      ∧ (y.afterLanding due).counted = y.counted := by
  unfold Result.afterLanding
  split <;> exact ⟨rfl, rfl, rfl, rfl⟩
theorem Result.afterLanding_cons (r : Result) (due : List Result) (y : Result) :
    (y.afterLanding [r]).afterLanding due = y.afterLanding (r :: due) := by
  by_cases hr : y.id = r.id <;> by_cases hd : due.any (fun x => y.id == x.id) = true <;> simp [Result.afterLanding, hr, hd]

/-! The undefined words of a clash use up a fresh number and nothing else (R32). -/

theorem lane_landedRow (s : State) (p l : Nat) (r : Result) (row : Row) : (s.landedRow r row).2.lane p l = s.lane p l := by
  rw [State.landedRow]; split <;> rfl
theorem dev_landedRow (s : State) (r : Result) (row : Row) : (s.landedRow r row).2.dev = s.dev := by
  rw [State.landedRow]; split <;> rfl
theorem lane_landedWord (s : State) (p l : Nat) (r : Result) : (s.landedWord r).2.lane p l = s.lane p l := by
  rw [State.landedWord]; split <;> rfl
theorem dev_landedWord (s : State) (r : Result) : (s.landedWord r).2.dev = s.dev := by
  rw [State.landedWord]; split <;> rfl

/-- A landing as a change of the plaza's rows and of the lane group, clashes or not. -/
theorem landResult_eq (s : State) (p l : Nat) (r : Result) :
    ∃ (u : State) (g : Lane → Lane) (row : Row), s.landResult p l r = u.modLane p l (fun x => (g x).landed r row)
      ∧ u.lane p l = s.lane p l ∧ u.dev = s.dev ∧ ∀ x, (g x).results = x.results ∧ (g x).draining = x.draining := by
  cases hdest : r.dest with
  | row n =>
    refine ⟨(s.landedRow r (s.cbRow p n)).2.putRow p n (s.landedRow r (s.cbRow p n)).1, id, (s.landedRow r (s.cbRow p n)).1, ?_,
      (lane_putRow ..).trans (lane_landedRow ..), dev_landedRow .., fun x => ⟨rfl, rfl⟩⟩
    simp only [State.landResult, hdest]
    rfl
  | pred n =>
    refine ⟨(s.landedWord r).2, fun x => x.setPred n ((s.landedWord r).1 &&& s.halfMask p l), 0, ?_, lane_landedWord .., dev_landedWord ..,
      fun x => ⟨rfl, rfl⟩⟩
    simp only [State.landResult, hdest, modLane_modLane]
    rfl
  | scalar n =>
    refine ⟨(s.landedWord r).2, fun x => x.setScalar n (s.landedWord r).1, 0, ?_, lane_landedWord .., dev_landedWord ..,
      fun x => ⟨by simp, by simp⟩⟩
    simp only [State.landResult, hdest, modLane_modLane]
    rfl
  | none => exact ⟨s, id, 0, landResult_none hdest, rfl, rfl, fun x => ⟨rfl, rfl⟩⟩

/-- A landing marks the results of its number, whatever its destination and its clashes. -/
theorem lane_landResult (s : State) (p l : Nat) (r : Result) :
    ((s.landResult p l r).lane p l).results = (s.lane p l).results.map (Result.afterLanding [r])
    ∧ ((s.landResult p l r).lane p l).draining = (s.lane p l).draining ∧ (s.landResult p l r).dev = s.dev := by
  obtain ⟨u, g, row, h, hlane, hdev, hg⟩ := landResult_eq s p l r
  obtain ⟨hresults, hdraining⟩ := hg (s.lane p l)
  rw [h, lane_modLane_self, hlane, modLane_dev]
  refine ⟨?_, hdraining, hdev⟩
  show (g (s.lane p l)).results.map _ = _
  rw [hresults]
  simp [Result.afterLanding]

theorem lane_landAll (due : List Result) (s : State) (p l : Nat) :
    let t := due.foldl (fun t r => t.landResult p l r) s
    (t.lane p l).results = (s.lane p l).results.map (Result.afterLanding due) ∧ (t.lane p l).draining = (s.lane p l).draining ∧ t.dev = s.dev := by
  induction due generalizing s with
  | nil => exact ⟨(List.map_id _).symm, rfl, rfl⟩
  | cons r due ih =>
    obtain ⟨hresults, hdraining, hdev⟩ := lane_landResult s p l r
    obtain ⟨hresults', hdraining', hdev'⟩ := ih (s.landResult p l r)
    refine ⟨?_, hdraining'.trans hdraining, hdev'.trans hdev⟩
    rw [List.foldl_cons, hresults', hresults, List.map_map]
    exact List.map_congr_left fun y _ => Result.afterLanding_cons r due y

/-- What stays after settling was there, and is not a bounded result that has landed by its bound (R30). -/
theorem of_mem_settleResults {now : Nat} {older : Bool} {rs : List Result} {r : Result} (h : r ∈ settleResults now older rs) :
    r ∈ rs ∧ (r.counted = false → r.landed = true → now < r.at_ + r.bound) := by
  induction rs generalizing older with
  | nil => cases h
  | cons x rs ih =>
    have htail {o : Bool} (h : r ∈ settleResults now o rs) := And.imp_left (List.mem_cons_of_mem x) (ih h)
    unfold settleResults at h
    split at h
    · next hcounted =>
      split at h
      · exact htail h
      · obtain rfl | h := List.mem_cons.1 h
        · exact ⟨List.mem_cons_self, fun hc => by simp [hc] at hcounted⟩
        · exact htail h
    · split at h
      · exact htail h
      · next hkept =>
        obtain rfl | h := List.mem_cons.1 h
        · exact ⟨List.mem_cons_self, fun _ hl => by simpa [hl] using hkept⟩
        · exact htail h

/-- The results whose bound has come (R29). -/
def State.dueResults (s : State) (p l : Nat) : List Result :=
  (s.lane p l).results.filter fun r => !r.landed && !r.counted && r.at_ + r.bound ≤ s.dev.cycle

theorem landDue_eq (s : State) (p l : Nat) :
    s.landDue p l = ((s.dueResults p l).foldl (fun t r => t.landResult p l r) s).modLane p l fun x => x.settle s.dev.cycle := rfl

theorem results_landDue {s : State} {p l : Nat} (hdraining : (s.lane p l).draining = false) :
    ((s.landDue p l).lane p l).results = settleResults s.dev.cycle false ((s.lane p l).results.map (Result.afterLanding (s.dueResults p l))) := by
  obtain ⟨hresults, hd, -⟩ := lane_landAll (s.dueResults p l) s p l
  rw [landDue_eq, lane_modLane_self, Lane.settle_of_not_draining (hd.trans hdraining)]
  exact congrArg (settleResults _ false) hresults

theorem resultsByBound : Claims.ResultsByBound := by
  intro s p l hdraining r hr hcounted
  rw [results_landDue hdraining] at hr
  obtain ⟨hmem, hsettled⟩ := of_mem_settleResults hr
  obtain ⟨y, hy, rfl⟩ := List.mem_map.1 hmem
  obtain ⟨-, hat, hbound, hc⟩ := Result.afterLanding_keeps (s.dueResults p l) y
  by_contra hpast
  refine hpast (hsettled hcounted ?_)
  rw [hat, hbound] at hpast
  rw [hc] at hcounted
  unfold Result.afterLanding
  split
  · rfl
  · next hdue =>
    by_contra hl
    simp [State.dueResults] at hdue hl
    exact hdue y hy hl hcounted (by omega) rfl

/-- Settles O35: issue, landing, and that nothing due is in flight. -/
theorem laneIssue : Obligations.LaneIssue := ⟨issueEffect, resultLands, resultsByBound⟩

end Sys2Proof.Machine
end

section
/-! Hardware loops: the start of a level and the end of its body, on the control core and on the lanes (R48-R53). -/
namespace Sys2Proof.Machine

/-! ### Levels of a table -/

/-- Level l ends at address pc (R50). -/
def EndsAt (t : Tab Level) (pc : Word) (l : Nat) : Prop := (levelOf t l).active = true ∧ (levelOf t l).last = pc

theorem levelOf_tabSet (t : Tab Level) (l j : Nat) (v : Level) : levelOf (tabSet t l v) j = if j = l then v else levelOf t j := by
  split
  · next h => rw [h, levelOf, tabGet_tabSet_self]
  · next h => exact tabGet_tabSet_ne _ _ _ h
theorem endsAt_tabSet_ne {t : Tab Level} {pc : Word} {l j : Nat} {v : Level} (h : j ≠ l) : EndsAt (tabSet t l v) pc j ↔ EndsAt t pc j := by
  rw [EndsAt, EndsAt, levelOf_tabSet, if_neg h]

/-- The levels below n, highest first: the order of end detection (R50). -/
def downLevels (n : Nat) : List Nat := (List.range n).reverse
theorem downLevels_succ (n : Nat) : downLevels (n + 1) = n :: downLevels n := by simp [downLevels, List.range_succ]

/-- A body of 1 to 511 words does not end where its loop instruction stands. -/
theorem bodyEnd_ne {pc : Word} {b : Nat} (hb : 1 ≤ b) (hb' : b < 512) : pc + 4 * BitVec.ofNat 64 b ≠ pc := by
  bv_omega

/-- A level that starts ends nowhere at its loop instruction, nor does one that did not before. -/
theorem not_endsAt_newLevel {t : Tab Level} {pc : Word} {n b l m param : Nat} (hb : 1 ≤ b) (hb' : b < 512)
    (h : ∀ j, j < 4 → j ≠ l → ¬EndsAt t pc j) {j : Nat} (hj : j < 4) : ¬EndsAt (tabSet t l (newLevel pc n b m param)) pc j := by
  by_cases hjl : j = l
  · rintro ⟨-, hlast⟩
    rw [levelOf_tabSet, if_pos hjl] at hlast
    exact bodyEnd_ne hb hb' hlast
  · rw [endsAt_tabSet_ne hjl]
    exact h j hj hjl

/-! ### The control core -/

section
variable {pc : Word} {t : Tab Level} {l n : Nat}

/-- End detection passes over the levels that do not end. -/
theorem loopEnd_down (hln : l ≤ n) (h : ∀ j, l ≤ j → j < n → ¬EndsAt t pc j) : loopEnd pc (downLevels n) t = loopEnd pc (downLevels l) t := by
  induction n, hln using Nat.le_induction with
  | base => rfl
  | succ n hln ih =>
    have hn : ((levelOf t n).active && (levelOf t n).last == pc) = false := by simpa [EndsAt] using h n hln n.lt_succ_self
    rw [downLevels_succ, loopEnd]
    simpa [hn] using ih fun j hj hjn => h j hj (by omega)
theorem loopEnd_below (h : ∀ j, j < n → ¬EndsAt t pc j) : loopEnd pc (downLevels n) t = (t, none) :=
  loopEnd_down n.zero_le fun j _ => h j

/-- The only level that ends goes back to its first word, or ends (R50). -/
theorem loopEnd_only (hl : l < n) (hend : EndsAt t pc l) (h : ∀ j, j < n → j ≠ l → ¬EndsAt t pc j) :
    loopEnd pc (downLevels n) t = if 1 < (levelOf t l).remaining
      then (tabSet t l { levelOf t l with remaining := (levelOf t l).remaining - 1, iteration := (levelOf t l).iteration + 1 }, some (levelOf t l).first)
      else (tabSet t l { levelOf t l with remaining := (levelOf t l).remaining - 1, active := false }, none) := by
  have hl' : ((levelOf t l).active && (levelOf t l).last == pc) = true := by simpa [EndsAt] using hend
  rw [loopEnd_down (l := l + 1) hl fun j hj hjn => h j hjn (by omega), downLevels_succ, loopEnd,
    loopEnd_below fun j hj => by rw [endsAt_tabSet_ne (by omega)]; exact h j (by omega) (by omega)]
  dsimp only
  rw [if_pos hl']
end

/-- The context after a fall-through, with what end detection found (R50). -/
theorem fallThrough_of_loopEnd {x : Ctx} {t : Tab Level} {back : Option Word} (h : loopEnd x.pc (downLevels 4) x.levels = (t, back)) :
    x.fallThrough.levels = t ∧ x.fallThrough.pc = back.getD (x.pc + BitVec.ofNat 64 x.len) ∧ x.fallThrough.g = x.g
      ∧ x.fallThrough.insret = x.insret + 1 := by
  unfold Ctx.fallThrough
  rw [show loopEnd x.pc [3, 2, 1, 0] x.levels = (t, back) from h]
  exact ⟨rfl, rfl, rfl, rfl⟩

theorem sameButCtx_modCtx (s : State) (p c : Nat) (f : Ctx → Ctx) : s.sameButCtx (s.modCtx p c f) p c := by
  rw [State.sameButCtx, ctx_modCtx_self]
  exact modCtx_const s p c f

theorem exec_nop_control {s : State} {p c : Nat} (ha : s.cur.agent = .control p c) (hw : s.noWake p c) :
    exec .nop s = .next (s.modCtx p c fun x => x.fallThrough) := by
  show execNop s = _
  simp only [execNop, ha]
  rw [retire_eq s p c id hw hw.2]
  rfl

theorem loopEnds : Claims.LoopEnds := by
  intro s p c l v ha hw hl hv hactive hlast hothers
  subst hv
  have hloop := loopEnd_only (t := (s.ctx p c).levels) hl ⟨hactive, hlast⟩ fun j hj hjl he => hothers j hj hjl he.1 he.2
  refine ⟨_, exec_nop_control ha hw, sameButCtx_modCtx .., ?_⟩
  rw [ctx_modCtx_self]
  by_cases hmore : 1 < (levelOf (s.ctx p c).levels l).remaining
  · rw [if_pos hmore] at hloop
    obtain ⟨hlevels, hpc, -, -⟩ := fallThrough_of_loopEnd hloop
    exact ⟨fun j hj => by rw [hlevels, levelOf_tabSet, if_neg hj], fun _ => ⟨hpc, by rw [hlevels, levelOf_tabSet, if_pos rfl]⟩,
      fun h => absurd hmore (by omega)⟩
  · rw [if_neg hmore] at hloop
    obtain ⟨hlevels, hpc, -, -⟩ := fallThrough_of_loopEnd hloop
    exact ⟨fun j hj => by rw [hlevels, levelOf_tabSet, if_neg hj], fun h => absurd h hmore,
      fun _ => ⟨hpc, by rw [hlevels, levelOf_tabSet, if_pos rfl]⟩⟩

/-- A level starts where nothing ends: the loop instruction falls through to the body (R49, R50). -/
theorem fallThrough_newLevel {x : Ctx} {n b l : Nat} (hb : 1 ≤ b) (hb' : b < 512) (h : ∀ j, j < 4 → j ≠ l → ¬EndsAt x.levels x.pc j) :
    let y := { x with levels := tabSet x.levels l (newLevel x.pc n b 0 0) }.fallThrough
    y.levels = tabSet x.levels l (newLevel x.pc n b 0 0) ∧ y.pc = x.pc + BitVec.ofNat 64 x.len ∧ y.g = x.g ∧ y.insret = x.insret + 1 :=
  fallThrough_of_loopEnd (back := none) (loopEnd_below fun _ => not_endsAt_newLevel hb hb' h)

/-- A loop on the control core, of no iterations or of some, whose body can be read and ends well (R17, R49). -/
theorem loopControl_eq {i : Instr} {s t : State} {p c n b l : Nat} {ws : List Nat} (hw : t.noWake p c)
    (hread : readWords (fun va u => if !canonical va then .ok none u else u.peekWord (.ctx p c) p (s.ctxPasid p c) va) b ((s.ctx p c).pc + 4) s
      = .ok (.inr ws) t) (hbody : badBody false ws = false) :
    ∃ u, loopControl i n b l 0 0 p c s = .next u ∧ t.sameButCtx u p c 
      ∧ if n = 0 then (u.ctx p c).pc = (s.ctx p c).pc + 4 + 4 * BitVec.ofNat 64 b ∧ (u.ctx p c).levels = (t.ctx p c).levels
          ∧ (u.ctx p c).g = (t.ctx p c).g ∧ (u.ctx p c).insret = (t.ctx p c).insret + 1
        else u.ctx p c = { t.ctx p c with levels := tabSet (t.ctx p c).levels l (newLevel (s.ctx p c).pc n b 0 0) }.fallThrough := by
  simp only [loopControl, hread, onAccess, hbody]
  by_cases hn : n = 0
  · simp only [hn, if_true, Bool.false_eq_true, if_false]
    rw [settleWake_modCtx _ _ _ _ hw hw.2]
    refine ⟨_, rfl, sameButCtx_modCtx .., ?_⟩
    rw [ctx_modCtx_self]
    exact ⟨rfl, rfl, rfl, rfl⟩
  · simp only [hn, Bool.false_eq_true, if_false]
    rw [retire_eq _ _ _ _ hw hw.2]
    exact ⟨_, rfl, sameButCtx_modCtx .., ctx_modCtx_self ..⟩

theorem loopStarts : Claims.LoopStarts := by
  intro s p c n a b l ws t ha hw hb hb' hl pc hread hbody ht hlen hwt hothers starts
  have hstart (i : Instr) (n : Nat) (hi : exec i s = loopControl i n b l 0 0 p c s) : starts i n := by
    obtain ⟨u, hu, hsame, heffect⟩ := loopControl_eq (i := i) (n := n) (l := l) hwt hread hbody
    refine ⟨u, hi.trans hu, hsame, ?_⟩
    rw [ht] at heffect
    split at heffect
    · next hn =>
      obtain ⟨hpc, hlevels, hg, hinsret⟩ := heffect
      rw [if_pos hn]
      exact ⟨hinsret, hg, hpc, hlevels⟩
    · next hn =>
      obtain ⟨hlevels, hpc, hg, hinsret⟩ := fallThrough_newLevel (x := s.ctx p c) (n := n) hb hb' fun j hj hjl he => hothers j hj he.1 hjl he.2
      rw [if_neg hn, heffect, hlevels, hpc, hg, hinsret, hlen]
      exact ⟨rfl, rfl, rfl, fun j => levelOf_tabSet ..⟩
  constructor
  · exact hstart _ _ (by show execLoopi n b l 0 0 s = _; simp only [execLoopi, ha])
  · exact hstart _ _ (by show execLoop a b l 0 0 s = _; simp only [execLoop, ha])

end Sys2Proof.Machine
end

section
/-! Hardware loops on the lanes (R48-R53). -/
namespace Sys2Proof.Machine

/-! ### Stage predicates and end detection -/

/-- Predicates p4 and on written by the loop hardware: those predicates, and the results that no longer land in them (R53). -/
theorem foldl_loopPred (f : Nat → W32) (n : Nat) (x : Lane) :
    let y := (List.range n).foldl (fun y j => y.loopPred (4 + j) (f j)) x
    y = { x with p := y.p, results := y.results } ∧ ∀ k, y.pred k = if 4 ≤ k ∧ k < 4 + n then f (k - 4) else x.pred k := by
  induction n with
  | zero => exact ⟨rfl, fun k => by simp [show ¬(4 ≤ k ∧ k < 4) by omega]⟩
  | succ n ih =>
    obtain ⟨hsame, hpred⟩ := ih
    simp only [List.range_succ, List.foldl_append, List.foldl_cons, List.foldl_nil]
    generalize (List.range n).foldl (fun y j => y.loopPred (4 + j) (f j)) x = y at *
    refine ⟨?_, fun k => ?_⟩
    · rw [hsame]; rfl
    · have hset : (y.loopPred (4 + n) (f n)).pred k = if k = 4 + n then f n else y.pred k := Lane.pred_setPred ..
      rw [hset, hpred]
      grind

theorem Lane.setStages_eq (x : Lane) (v : Level) : x.setStages v = { x with p := (x.setStages v).p, results := (x.setStages v).results } :=
  (foldl_loopPred _ _ x).1
theorem Lane.pred_setStages (x : Lane) (v : Level) (k : Nat) : (x.setStages v).pred k = if 4 ≤ k ∧ k < 4 + v.stages then
    (if k - 4 ≤ v.iteration ∧ v.iteration < v.remaining + v.iteration + 1 - v.stages + (k - 4) then x.pred 0 else 0) else x.pred k := by
  rw [Lane.setStages, (foldl_loopPred _ _ x).2 k]
  simp
theorem Lane.clearStages_eq (x : Lane) (v : Level) :
    x.clearStages v = { x with p := (x.clearStages v).p, results := (x.clearStages v).results } :=
  (foldl_loopPred _ _ x).1
theorem Lane.pred_clearStages (x : Lane) (v : Level) (k : Nat) :
    (x.clearStages v).pred k = if 4 ≤ k ∧ k < 4 + v.stages then 0 else x.pred k :=
  (foldl_loopPred _ _ x).2 k

/-- Level v in its next iteration (R50). -/
def Level.next (v : Level) : Level := { v with remaining := v.remaining - 1, iteration := v.iteration + 1 }
/-- The lane group as level l goes back to its first word: the window advances, the stage predicates are the next iteration's (R50, R52, R53). -/
def Lane.nextIteration (x : Lane) (l : Nat) : Lane :=
  { x.advance (levelOf x.levels l).step with levels := tabSet x.levels l (levelOf x.levels l).next }.setStages (levelOf x.levels l).next
/-- The lane group as level l ends: the window advances, the stage predicates are cleared (R50, R52, R53). -/
def Lane.endLevel (x : Lane) (l : Nat) : Lane :=
  { x.advance (levelOf x.levels l).step with
    levels := tabSet x.levels l { levelOf x.levels l with remaining := (levelOf x.levels l).remaining - 1, active := false } }.clearStages
    (levelOf x.levels l)

theorem nextIteration_keeps (x : Lane) (l : Nat) :
    (∀ j, levelOf (x.nextIteration l).levels j = if j = l then (levelOf x.levels l).next else levelOf x.levels j)
    ∧ (x.nextIteration l).window = (x.window + (levelOf x.levels l).step) % 16384 ∧ (x.nextIteration l).s = x.s := by
  rw [Lane.nextIteration, Lane.setStages_eq]
  exact ⟨fun j => levelOf_tabSet .., rfl, rfl⟩
theorem endLevel_keeps (x : Lane) (l : Nat) :
    (levelOf (x.endLevel l).levels l).active = false ∧ (∀ j, j ≠ l → levelOf (x.endLevel l).levels j = levelOf x.levels j)
    ∧ (x.endLevel l).window = (x.window + (levelOf x.levels l).step) % 16384 ∧ (x.endLevel l).s = x.s := by
  rw [Lane.endLevel, Lane.clearStages_eq]
  exact ⟨congrArg Level.active (tabGet_tabSet_self ..), fun j hj => tabGet_tabSet_ne _ _ _ hj, rfl, rfl⟩
theorem pred_nextIteration {x : Lane} {l : Nat} (hmore : 1 < (levelOf x.levels l).remaining) (k : Nat) :
    let v := levelOf x.levels l
    (x.nextIteration l).pred k = if 4 ≤ k ∧ k < 4 + v.stages then
      (if k - 4 ≤ v.iteration + 1 ∧ v.iteration + 1 < v.remaining + v.iteration + 1 - v.stages + (k - 4) then x.pred 0 else 0) else x.pred k := by
  intro v
  have hv : 1 < v.remaining := hmore
  have htrip : v.next.remaining + v.next.iteration = v.remaining + v.iteration := by
    show v.remaining - 1 + (v.iteration + 1) = _
    omega
  rw [Lane.nextIteration, Lane.pred_setStages, htrip]
  rfl
theorem pred_endLevel (x : Lane) (l k : Nat) :
    (x.endLevel l).pred k = if 4 ≤ k ∧ k < 4 + (levelOf x.levels l).stages then 0 else x.pred k :=
  Lane.pred_clearStages ..

section
variable {pc : Word} {x : Lane} {l n : Nat}

/-- End detection passes over the levels that do not end. -/
theorem laneLoopEnd_down (hln : l ≤ n) (h : ∀ j, l ≤ j → j < n → ¬EndsAt x.levels pc j) :
    laneLoopEnd pc (downLevels n) x = laneLoopEnd pc (downLevels l) x := by
  induction n, hln using Nat.le_induction with
  | base => rfl
  | succ n hln ih =>
    have hn : ((levelOf x.levels n).active && (levelOf x.levels n).last == pc) = false := by simpa [EndsAt] using h n hln n.lt_succ_self
    rw [downLevels_succ, laneLoopEnd]
    simpa [hn] using ih fun j hj hjn => h j hj (by omega)
theorem laneLoopEnd_below (h : ∀ j, j < n → ¬EndsAt x.levels pc j) : laneLoopEnd pc (downLevels n) x = (x, none) :=
  laneLoopEnd_down n.zero_le fun j _ => h j
/-- The highest level that ends goes back to its first word, or ends (R50). -/
theorem laneLoopEnd_at (hend : EndsAt x.levels pc l) : laneLoopEnd pc (downLevels (l + 1)) x =
    if 1 < (levelOf x.levels l).remaining then (x.nextIteration l, some (levelOf x.levels l).first)
    else laneLoopEnd pc (downLevels l) (x.endLevel l) := by
  have hl : ((levelOf x.levels l).active && (levelOf x.levels l).last == pc) = true := by simpa [EndsAt] using hend
  rw [downLevels_succ, laneLoopEnd, if_pos hl]
  rfl
end

theorem Lane.retire_of_loopEnd {x y : Lane} {now len wait : Nat} {back : Option Word} (h : laneLoopEnd x.pc (downLevels 4) x = (y, back)) :
    x.retire now len wait 0 = { y with
      pc := back.getD (x.pc + BitVec.ofNat 64 len), nextAt := now + 1 + Nat.max x.packetWait wait, packetWait := 0 } := by
  simp only [Lane.retire, show laneLoopEnd x.pc [3, 2, 1, 0] x = (y, back) from h]
  rfl

/-- What a completed instruction leaves of what end detection did (R50). -/
theorem Lane.retire_keeps {x y : Lane} {now len wait : Nat} {back : Option Word} (h : laneLoopEnd x.pc (downLevels 4) x = (y, back)) :
    let z := x.retire now len wait 0
    z.pc = back.getD (x.pc + BitVec.ofNat 64 len) ∧ z.window = y.window ∧ z.levels = y.levels ∧ ∀ k, z.pred k = y.pred k := by
  intro z
  rw [show z = _ from Lane.retire_of_loopEnd h]
  exact ⟨rfl, rfl, rfl, fun _ => rfl⟩

theorem exec_nop_lane {s : State} {p l : Nat} (ha : s.cur.agent = .lane p l) : exec .nop s = .next (s.laneRetire p l 4 0 0) := by
  show execNop s = _
  simp only [execNop, ha]

theorem s_laneLoopEnd (pc : Word) (ls : List Nat) (x : Lane) : (laneLoopEnd pc ls x).1.s = x.s := by
  induction ls generalizing x with
  | nil => rfl
  | cons l rest ih =>
    unfold laneLoopEnd
    dsimp only
    split
    · split
      · exact (nextIteration_keeps x l).2.2
      · exact (ih (x.endLevel l)).trans (endLevel_keeps x l).2.2.2
    · exact ih x
theorem Lane.s_retire (x : Lane) (now len wait : Nat) : (x.retire now len wait 0).s = x.s :=
  s_laneLoopEnd x.pc [3, 2, 1, 0] x

theorem laneLoopEnds : Claims.LaneLoopEnds := by
  intro s p g l v ha hl x ends hv
  subst hv
  intro hend hothers step stages trip
  have hloop : laneLoopEnd x.pc (downLevels 4) x = _ :=
    (laneLoopEnd_down (l := l + 1) hl fun j hj hj4 he => hothers j hj hj4 he).trans (laneLoopEnd_at hend)
  obtain ⟨hinactive, hlevels, hwindow, -⟩ := endLevel_keeps x l
  have hbelow (j : Nat) (hj : j < l) : EndsAt (x.endLevel l).levels x.pc j ↔ ends j := by
    rw [EndsAt, hlevels j (by omega)]
  refine ⟨_, exec_nop_lane ha, by rw [State.laneRetire, lane_modLane_self]; exact modLane_const .., ?_⟩
  rw [State.laneRetire, lane_modLane_self]
  refine ⟨Lane.s_retire .., fun hmore => ?_, fun hlast hnone => ?_, fun o w hlast hol hw hendo hmid hmore => ?_⟩
  · obtain ⟨hlevels, hwindow, -⟩ := nextIteration_keeps x l
    rw [if_pos hmore] at hloop
    obtain ⟨hpc, hwindowEq, hlevelsEq, hpredEq⟩ := Lane.retire_keeps hloop
    rw [hpc, hwindowEq, hlevelsEq]
    exact ⟨rfl, hwindow, hlevels, fun k => (hpredEq k).trans (pred_nextIteration hmore k)⟩
  · rw [if_neg (by omega), laneLoopEnd_below (n := l) fun j hj => by rw [hbelow j hj]; exact hnone j hj] at hloop
    obtain ⟨hpc, hwindowEq, hlevelsEq, hpredEq⟩ := Lane.retire_keeps hloop
    rw [hpc, hwindowEq, hlevelsEq]
    exact ⟨rfl, hwindow, hinactive, hlevels, fun k => (hpredEq k).trans (pred_endLevel x l k)⟩
  · have hwo : levelOf (x.endLevel l).levels o = w := (hlevels o (by omega)).trans hw
    obtain ⟨hlevels', hwindow', -⟩ := nextIteration_keeps (x.endLevel l) o
    rw [if_neg (by omega), laneLoopEnd_down (n := l) (l := o + 1) hol fun j hj hjl => by rw [hbelow j hjl]; exact hmid j hj hjl,
      laneLoopEnd_at ((hbelow o hol).2 hendo), hwo, if_pos hmore] at hloop
    obtain ⟨hpc, hwindowEq, hlevelsEq, -⟩ := Lane.retire_keeps hloop
    rw [hwo] at hlevels' hwindow'
    rw [hpc, hwindowEq, hlevelsEq, hwindow', hwindow, hlevels' l, if_neg (by omega), hlevels' o, if_pos rfl]
    exact ⟨rfl, rfl, hinactive, rfl⟩

end Sys2Proof.Machine
end

section
namespace Sys2Proof.Machine

/-! ### The start of a level on the lanes -/

/-- Another stage level than l is active (R17). -/
def StageClash (t : Tab Level) (l : Nat) : Prop := ∃ j, j < 4 ∧ j ≠ l ∧ (levelOf t j).active = true ∧ 2 ≤ (levelOf t j).mode

theorem any_stageLevel (t : Tab Level) (l : Nat) :
    ([0, 1, 2, 3].any fun j => j != l && (levelOf t j).active && 2 ≤ (levelOf t j).mode) = true ↔ StageClash t l := by
  rw [List.any_eq_true]
  constructor
  · rintro ⟨j, hj, h⟩
    simp only [Bool.and_eq_true, bne_iff_ne, decide_eq_true_eq] at h
    obtain ⟨⟨hjl, hactive⟩, hmode⟩ := h
    exact ⟨j, by simp at hj; omega, hjl, hactive, hmode⟩
  · rintro ⟨j, hj, hjl, hactive, hmode⟩
    exact ⟨j, by simp; omega, by simp [hjl, hactive, hmode]⟩

/-- The lane group with a level started: a level of no stages sets no predicates (R49, R53). -/
def Lane.startLevel (x : Lane) (l : Nat) (v : Level) : Lane := { x with levels := tabSet x.levels l v }.setStages v

theorem startLevel_of_no_stages {x : Lane} {l : Nat} {v : Level} (h : v.stages = 0) : x.startLevel l v = { x with levels := tabSet x.levels l v } := by
  rw [Lane.startLevel, Lane.setStages, h]
  rfl

theorem startLevel_keeps (x : Lane) (l : Nat) (v : Level) : (x.startLevel l v).levels = tabSet x.levels l v ∧ (x.startLevel l v).pc = x.pc
    ∧ (x.startLevel l v).window = x.window ∧ (x.startLevel l v).s = x.s := by
  rw [Lane.startLevel, Lane.setStages_eq]
  exact ⟨rfl, rfl, rfl, rfl⟩

/-- A level outside the stage modes has no stages (R48). -/
theorem stages_newLevel {pc : Word} {n b m param : Nat} (hm : m < 2) : (newLevel pc n b m param).stages = 0 := by
  have h2 : m ≠ 2 := by omega
  have h3 : m ≠ 3 := by omega
  simp [Level.stages, newLevel, h2, h3]

/-- In the first iteration of n > 0 the first stage runs, and no other (R53). -/
theorem pred_startLevel {x : Lane} {l n b m param : Nat} (pc : Word) (hn : n ≠ 0) (k : Nat) :
    let v := newLevel pc n b m param
    (x.startLevel l v).pred k = if 4 ≤ k ∧ k < 4 + v.stages then (if k = 4 then x.pred 0 else 0) else x.pred k := by
  intro v
  have hiter : v.iteration = 0 := rfl
  have htrip : 0 < v.remaining + 0 + 1 - v.stages := by
    show 0 < (if 2 ≤ m then n + v.stages - 1 else n) + 0 + 1 - v.stages
    split
    · omega
    · next hm =>
      have hstages : v.stages = 0 := stages_newLevel (by omega)
      omega
  rw [Lane.startLevel, Lane.pred_setStages, hiter]
  refine ite_congr rfl (fun hk => if_congr ?_ rfl rfl) fun _ => rfl
  omega

section
variable {s t : State} {p g n b l m param : Nat} {ws : List Nat}

theorem loopLane_of_clash (hm : 2 ≤ m) (h : StageClash (s.lane p g).levels l) : loopLane n b l m param p g s = .next (s.laneIllegalHere p g) := by
  simp only [loopLane, (any_stageLevel _ _).2 h, hm, decide_true, Bool.and_self, if_true]

/-- A loop whose body's words can be read (R17, R49). -/
theorem loopLane_of_words (h : ¬(2 ≤ m ∧ StageClash (s.lane p g).levels l))
    (hread : readWords (fun va u => u.laneWord p g va) b ((s.lane p g).pc + 4) s = .ok (.inr ws) t) :
    loopLane n b l m param p g s =
      if badBody true ws then .next (t.laneIllegalHere p g)
      else if n = 0 then .next (t.modLane p g fun y => { y with pc := y.pc + 4 + 4 * BitVec.ofNat 64 b, nextAt := t.dev.cycle + 1 })
      else .next ((t.modLane p g fun y => y.startLevel l (newLevel (s.lane p g).pc n b m param)).laneRetire p g 4 0 0) := by
  have hclash : (decide (2 ≤ m) && [0, 1, 2, 3].any fun j => j != l && (levelOf (s.lane p g).levels j).active
      && decide (2 ≤ (levelOf (s.lane p g).levels j).mode)) = false := by
    rw [Bool.eq_false_iff, ne_eq, Bool.and_eq_true, any_stageLevel, decide_eq_true_iff]
    exact h
  have hstart (y : Lane) : (if 2 ≤ m then { y with levels := tabSet y.levels l (newLevel (s.lane p g).pc n b m param) }.setStages
        (newLevel (s.lane p g).pc n b m param) else { y with levels := tabSet y.levels l (newLevel (s.lane p g).pc n b m param) })
      = y.startLevel l (newLevel (s.lane p g).pc n b m param) := by
    split
    · rfl
    · exact (startLevel_of_no_stages (stages_newLevel (by omega))).symm
  simp only [loopLane, hclash, hread, hstart, Bool.false_eq_true, if_false]
end

/-- A level starts where nothing ends: the loop instruction falls through to the body (R49, R50). -/
theorem retire_startLevel {x : Lane} {now n b l m param : Nat} (hb : 1 ≤ b) (hb' : b < 512) (h : ∀ j, j < 4 → j ≠ l → ¬EndsAt x.levels x.pc j) :
    let v := newLevel x.pc n b m param
    (x.startLevel l v).retire now 4 0 0
      = { x.startLevel l v with pc := x.pc + 4, nextAt := now + 1 + Nat.max (x.startLevel l v).packetWait 0, packetWait := 0 } := by
  intro v
  obtain ⟨hlevels, hpc, -, -⟩ := startLevel_keeps x l v
  have hloop : laneLoopEnd (x.startLevel l v).pc (downLevels 4) (x.startLevel l v) = (x.startLevel l v, none) :=
    laneLoopEnd_below fun j hj => by
      rw [hlevels, hpc]
      exact not_endsAt_newLevel hb hb' h hj
  rw [Lane.retire_of_loopEnd hloop, hpc]
  rfl

/-- A loop of some iterations whose body can be read and ends well (R17, R49, R53). -/
theorem lane_laneRetire_startLevel {t : State} {p g n b l m param : Nat} (hb : 1 ≤ b) (hb' : b < 512) (hn : n ≠ 0)
    (h : ∀ j, j < 4 → j ≠ l → ¬EndsAt (t.lane p g).levels (t.lane p g).pc j) :
    let v := newLevel (t.lane p g).pc n b m param
    let u := (t.modLane p g fun y => y.startLevel l v).laneRetire p g 4 0 0
    u = t.modLane p g (fun _ => u.lane p g) ∧ (u.lane p g).s = (t.lane p g).s ∧ (u.lane p g).window = (t.lane p g).window
      ∧ (u.lane p g).pc = (t.lane p g).pc + 4 ∧ (∀ j, levelOf (u.lane p g).levels j = if j = l then v else levelOf (t.lane p g).levels j)
      ∧ ∀ k, (u.lane p g).pred k = if 4 ≤ k ∧ k < 4 + v.stages then (if k = 4 then (t.lane p g).pred 0 else 0) else (t.lane p g).pred k := by
  intro v u
  have hu : u = t.modLane p g fun y => (y.startLevel l v).retire t.dev.cycle 4 0 0 := modLane_modLane ..
  have hlane : u.lane p g = { (t.lane p g).startLevel l v with
      pc := (t.lane p g).pc + 4, nextAt := t.dev.cycle + 1 + Nat.max ((t.lane p g).startLevel l v).packetWait 0, packetWait := 0 } := by
    rw [hu, lane_modLane_self]
    exact retire_startLevel hb hb' h
  obtain ⟨hlevels, -, hwindow, hs⟩ := startLevel_keeps (t.lane p g) l v
  refine ⟨?_, ?_⟩
  · rw [hu, lane_modLane_self]
    exact modLane_const ..
  · rw [hlane]
    refine ⟨hs, hwindow, rfl, fun j => ?_, pred_startLevel _ hn⟩
    dsimp only
    rw [hlevels, levelOf_tabSet]

theorem laneLoops : Claims.LaneLoops := by
  intro s p g n a b l m prm ws t ha hready hb hb' hl hm hprm hrotate hstage x clash stages
  have hloopi : exec (.loopi n b l m prm) s = loopLane n b l m prm p g s := by
    show execLoopi n b l m prm s = _
    simp only [execLoopi, ha]
  have hloop : exec (.loop a b l m prm) s = loopLane (x.scalar a).toNat b l m prm p g s := by
    show execLoop a b l m prm s = _
    simp only [execLoop, ha, readScalar_of s p g a hready]
    rfl
  rw [hloopi, hloop]
  refine ⟨fun h => ⟨loopLane_of_clash h.1 h.2, loopLane_of_clash h.1 h.2⟩, fun hclash hread ht => ?_⟩
  rw [loopLane_of_words hclash hread, loopLane_of_words hclash hread]
  refine ⟨fun hbad => by simp only [hbad, if_true, and_self], ?_⟩
  intro hgood hothers starts
  have hstart (i : Instr) (n : Nat) (hi : exec i s = loopLane n b l m prm p g s) : starts i n := by
    rw [loopLane_of_words hclash hread, hgood] at hi
    by_cases hn : n = 0
    · refine ⟨_, hi.trans (by simp only [hn, Bool.false_eq_true, if_true, if_false]; rfl), ?_⟩
      rw [lane_modLane_self, ht, if_pos hn]
      exact ⟨(modLane_const ..).trans (by rw [ht]), rfl, rfl, rfl, rfl, rfl⟩
    · refine ⟨_, hi.trans (by simp only [hn, Bool.false_eq_true, if_false]; rfl), ?_⟩
      have hends : ∀ j, j < 4 → j ≠ l → ¬EndsAt (t.lane p g).levels (t.lane p g).pc j := by
        rw [ht]
        exact fun j hj hjl he => hothers j hj hjl he.1 he.2
      have hu := lane_laneRetire_startLevel (m := m) (param := prm) hb hb' hn hends
      rw [ht] at hu
      obtain ⟨hsame, hs, hwindow, hpc, hlevels, hpred⟩ := hu
      rw [if_neg hn]
      exact ⟨hsame, hs, hwindow, hpc, hlevels, hpred⟩
  exact ⟨hstart _ _ hloopi, hstart _ _ hloop⟩

/-- Settles O5: starts and ends of levels on the control core and on the lanes. -/
theorem loops : Obligations.Loops := ⟨loopStarts, loopEnds, laneLoops, laneLoopEnds⟩

end Sys2Proof.Machine
end

section
/-! The shared operations on registers (R37-R41): what each form does on the control core and on the lanes, and the functions of its table. -/
namespace Sys2Proof.Machine

/-! ### The forms of the shared subset -/

section
variable {s : State} {p c l : Nat}

theorem sharedRR_control (f : (w : Nat) → BitVec w → BitVec w → BitVec w) (d a b x : Nat) (ha : s.cur.agent = .control p c) :
    sharedRR f d a b x s = .next (s.retireReg p c d (atWidth f x (s.g p c a) (s.g p c b))) := by
  simp only [sharedRR, ha]
theorem sharedRR_lane (f : (w : Nat) → BitVec w → BitVec w → BitVec w) (d x : Nat) {a b : Nat} (ha : s.cur.agent = .lane p l)
    (hra : s.scalarReady p l a) (hrb : s.scalarReady p l b) :
    sharedRR f d a b x s = .next ((s.issueScalar p l 1 d (f 32 ((s.lane p l).scalar a) ((s.lane p l).scalar b))).laneRetire p l 4 0 0) := by
  simp only [sharedRR, ha, readScalar_of s p l _ hra, readScalar_of s p l _ hrb]
theorem sharedR_control (f : (w : Nat) → BitVec w → BitVec w) (d a x : Nat) (ha : s.cur.agent = .control p c) :
    sharedR f d a x s = .next (s.retireReg p c d (atWidth (fun w u _ => f w u) x (s.g p c a) 0)) := by
  simp only [sharedR, ha]
theorem sharedR_lane (f : (w : Nat) → BitVec w → BitVec w) (d x : Nat) {a : Nat} (ha : s.cur.agent = .lane p l) (hra : s.scalarReady p l a) :
    sharedR f d a x s = .next ((s.issueScalar p l 1 d (f 32 ((s.lane p l).scalar a))).laneRetire p l 4 0 0) := by
  simp only [sharedR, ha, readScalar_of s p l _ hra]
theorem controlRR_control (f : (w : Nat) → BitVec w → BitVec w → BitVec w) (d a b x : Nat) (ha : s.cur.agent = .control p c) :
    controlRR f d a b x s = .next (s.retireReg p c d (atWidth f x (s.g p c a) (s.g p c b))) := by
  simp only [controlRR, ha]
theorem controlRR_lane (f : (w : Nat) → BitVec w → BitVec w → BitVec w) (d a b x : Nat) (ha : s.cur.agent = .lane p l) :
    controlRR f d a b x s = .next (s.laneIllegalHere p l) := by
  simp only [controlRR, ha]
end

section
variable {mk : Nat → Nat → Nat → Nat → Instr} {f g : (w : Nat) → BitVec w → BitVec w → BitVec w}

theorem computes2_of_sharedRR (hexec : ∀ d a b x s, exec (mk d a b x) s = sharedRR f d a b x s) : computes2 mk f := by
  refine ⟨fun s p c d a b ha hw => ?_, fun s p l d a b x ha hra hrb => (hexec ..).trans (sharedRR_lane f d x ha hra hrb)⟩
  have hwrites (x : Nat) : writesG (mk d a b x) s p c d (atWidth f x (s.g p c a) (s.g p c b)) :=
    writesG_retireReg _ s p c d _ hw ((hexec ..).trans (sharedRR_control f d a b x ha))
  exact ⟨hwrites 0, hwrites 1⟩
theorem computes2_congr (hg : computes2 mk g) (h : ∀ w u v, g w u v = f w u v) : computes2 mk f := by
  obtain rfl : g = f := by funext w u v; exact h w u v
  exact hg

theorem computes2Control_of_controlRR (hexec : ∀ d a b x s, exec (mk d a b x) s = controlRR f d a b x s) : computes2Control mk f := by
  refine ⟨fun s p c d a b ha hw => ?_, fun s p l d a b x ha => (hexec ..).trans (controlRR_lane f d a b x ha)⟩
  have hwrites (x : Nat) : writesG (mk d a b x) s p c d (atWidth f x (s.g p c a) (s.g p c b)) :=
    writesG_retireReg _ s p c d _ hw ((hexec ..).trans (controlRR_control f d a b x ha))
  exact ⟨hwrites 0, hwrites 1⟩
theorem computes2Control_congr (hg : computes2Control mk g) (h : ∀ w u v, g w u v = f w u v) : computes2Control mk f := by
  obtain rfl : g = f := by funext w u v; exact h w u v
  exact hg
end

theorem computes1_of_sharedR {mk : Nat → Nat → Nat → Instr} {f : (w : Nat) → BitVec w → BitVec w}
    (hexec : ∀ d a x s, exec (mk d a x) s = sharedR f d a x s) : computes1 mk f := by
  refine ⟨fun s p c d a ha hw => ?_, fun s p l d a x ha hra => (hexec ..).trans (sharedR_lane f d x ha hra)⟩
  have hwrites (x : Nat) : writesG (mk d a x) s p c d (atWidth (fun w u _ => f w u) x (s.g p c a) 0) :=
    writesG_retireReg _ s p c d _ hw ((hexec ..).trans (sharedR_control f d a x ha))
  exact ⟨hwrites 0, hwrites 1⟩

section
variable {mk : Nat → Nat → Nat → Instr} {f g : (w : Nat) → BitVec w → BitVec 9 → BitVec w}

theorem computesImm_of_sharedR (hexec : ∀ d a i s, exec (mk d a i) s = sharedR (fun w u => f w u (BitVec.ofNat 9 i)) d a 0 s) : computesImm mk f :=
  ⟨fun s p c d a _ ha hw => writesG_retireReg _ s p c d _ hw ((hexec ..).trans (sharedR_control _ d a 0 ha)),
    fun _ _ _ d _ _ ha hra => (hexec ..).trans (sharedR_lane _ d 0 ha hra)⟩
theorem computesImm_congr (hg : computesImm mk g) (h : ∀ w u i, g w u i = f w u i) : computesImm mk f := by
  obtain rfl : g = f := by funext w u i; exact h w u i
  exact hg
end

/-! ### The functions of the table (R38) -/

section
variable {w : Nat} {α : Type} (a b : BitVec w) (x y : α)

theorem ite_slt : (if a.slt b then x else y) = if a.toInt < b.toInt then x else y := if_congr BitVec.slt_iff_toInt_lt rfl rfl
theorem ite_ult : (if a.ult b then x else y) = if a.toNat < b.toNat then x else y := if_congr BitVec.ult_iff_toNat_lt rfl rfl
/-- The larger of two values, told by their order in either direction. -/
theorem ite_lt_swap {β : Type} [LinearOrder β] {f : BitVec w → β} (hf : ∀ {u v}, f u = f v → u = v) :
    (if f a < f b then b else a) = if f b < f a then a else b := by
  rcases lt_trichotomy (f a) (f b) with h | h | h
  · rw [if_pos h, if_neg h.not_gt]
  · rw [hf h, if_neg (lt_irrefl _)]
  · rw [if_neg h.not_gt, if_pos h]
theorem max_slt : (if a.slt b then b else a) = if b.toInt < a.toInt then a else b := (ite_slt ..).trans (ite_lt_swap a b BitVec.eq_of_toInt_eq)
theorem max_ult : (if a.ult b then b else a) = if b.toNat < a.toNat then a else b := (ite_ult ..).trans (ite_lt_swap a b BitVec.eq_of_toNat_eq)
theorem bv1_slt : (bv1 (a.slt b) : BitVec w) = if a.toInt < b.toInt then 1 else 0 := ite_slt a b 1 0
theorem bv1_ult : (bv1 (a.ult b) : BitVec w) = if a.toNat < b.toNat then 1 else 0 := ite_ult a b 1 0
theorem bv1_beq : (bv1 (a == b) : BitVec w) = if a = b then 1 else 0 := if_congr beq_iff_eq rfl rfl
theorem bv1_bne : (bv1 (a != b) : BitVec w) = if a = b then 0 else 1 := by
  rw [bv1, if_congr bne_iff_ne rfl rfl, ite_not]
end

/-- The one bits of a number below its width, counted. -/
theorem popCount_eq (v n : Nat) : popCount v n = ((List.range n).filter v.testBit).length := by
  induction n with
  | zero => rfl
  | succ n ih =>
    have hbit : ([n].filter v.testBit).length = v / 2 ^ n % 2 := by
      rcases Nat.mod_two_eq_zero_or_one (v / 2 ^ n) with h | h <;> simp [Nat.testBit_eq_decide_div_mod_eq, h]
    rw [List.range_succ, List.filter_append, List.length_append, hbit, ← ih, popCount, popCount, List.range_succ, List.foldl_append]
    rfl

theorem toNat_popcAt {w : Nat} (a : BitVec w) : (popcAt a).toNat = ((List.range w).filter fun i => a.getLsbD i).length := by
  have hle : popCount a.toNat w ≤ w := by
    rw [popCount_eq]
    exact (List.length_filter_le _ _).trans_eq List.length_range
  rw [popcAt, BitVec.toNat_ofNat, Nat.mod_eq_of_lt (hle.trans_lt w.lt_two_pow_self), popCount_eq]
  rfl

theorem toNat_clzAt {w : Nat} (a : BitVec w) : (clzAt a).toNat = if a = 0 then w else w - 1 - Nat.log2 a.toNat := by
  rw [clzAt, BitVec.toNat_ofNat]
  refine Nat.mod_eq_of_lt (lt_of_le_of_lt ?_ w.lt_two_pow_self)
  split <;> omega

/-- The bits above the highest one bit are counted: below width w a value other than zero lies from 2^(w - 1 - n) to 2^(w - n). -/
theorem clzAt_spec {w : Nat} (a : BitVec w) : (clzAt a).toNat ≤ w ∧ a.toNat < 2 ^ (w - (clzAt a).toNat)
    ∧ (a = 0 ∨ 2 ^ (w - 1 - (clzAt a).toNat) ≤ a.toNat) ∧ (a = 0 → (clzAt a).toNat = w) := by
  rw [toNat_clzAt]
  by_cases hz : a = 0
  · subst hz
    simp
  · have hne : a.toNat ≠ 0 := fun h => hz (BitVec.eq_of_toNat_eq h)
    have hlog : Nat.log2 a.toNat < w := (Nat.log2_lt hne).2 a.isLt
    rw [if_neg hz, show w - (w - 1 - Nat.log2 a.toNat) = Nat.log2 a.toNat + 1 by omega,
      show w - 1 - (w - 1 - Nat.log2 a.toNat) = Nat.log2 a.toNat by omega]
    exact ⟨by omega, Nat.lt_log2_self, .inr (Nat.log2_self_le hne), fun h => absurd h hz⟩

/-! ### The table -/

theorem logicAndAdd : Claims.LogicAndAdd := by
  refine ⟨?_, ?_, ?_, ?_, ?_, ?_, ?_, ?_, ?_⟩ <;> exact computes2_of_sharedRR fun _ _ _ _ _ => rfl
theorem shifts : Claims.Shifts :=
  ⟨computes2_of_sharedRR fun _ _ _ _ _ => rfl, computes2_of_sharedRR fun _ _ _ _ _ => rfl, computes2_of_sharedRR fun _ _ _ _ _ => rfl,
    computesImm_of_sharedR fun _ _ _ _ => rfl, computesImm_of_sharedR fun _ _ _ _ => rfl, computesImm_of_sharedR fun _ _ _ _ => rfl⟩
theorem products : Claims.Products := by
  refine ⟨?_, ?_, ?_⟩ <;> exact computes2_of_sharedRR fun _ _ _ _ _ => rfl

theorem comparisons : Claims.Comparisons :=
  ⟨computes2_congr (computes2_of_sharedRR fun _ _ _ _ _ => rfl) fun _ u v => ite_slt u v u v,
    computes2_congr (computes2_of_sharedRR fun _ _ _ _ _ => rfl) fun _ => max_slt,
    computes2_congr (computes2_of_sharedRR fun _ _ _ _ _ => rfl) fun _ u v => ite_ult u v u v,
    computes2_congr (computes2_of_sharedRR fun _ _ _ _ _ => rfl) fun _ => max_ult,
    computes2_congr (computes2_of_sharedRR fun _ _ _ _ _ => rfl) fun _ => bv1_slt,
    computes2_congr (computes2_of_sharedRR fun _ _ _ _ _ => rfl) fun _ => bv1_ult,
    computes2_congr (computes2_of_sharedRR fun _ _ _ _ _ => rfl) fun _ => bv1_beq,
    computes2_congr (computes2_of_sharedRR fun _ _ _ _ _ => rfl) fun _ => bv1_bne,
    computesImm_congr (g := fun w u i => bv1 (u.slt (i.signExtend w))) (computesImm_of_sharedR fun _ _ _ _ => rfl)
      fun w u i => bv1_slt u (i.signExtend w),
    computesImm_congr (g := fun w u i => bv1 (u.ult (i.signExtend w))) (computesImm_of_sharedR fun _ _ _ _ => rfl)
      fun w u i => bv1_ult u (i.signExtend w)⟩

theorem bitCounts : Claims.BitCounts :=
  ⟨fun _ u => clzAt u, fun _ u => popcAt u, computes1_of_sharedR fun _ _ _ _ => rfl, computes1_of_sharedR fun _ _ _ _ => rfl,
    fun _ _ a => clzAt_spec a, fun _ _ a => toNat_popcAt a⟩

/-- Settles O1: each operation of the table is a shared form, and its function is the one the table gives. -/
theorem sharedArithmetic : Obligations.SharedArithmetic := ⟨logicAndAdd, shifts, products, comparisons, bitCounts⟩

/-! ### Division (R39) -/

section
variable {w : Nat} (a b : BitVec w)

theorem fst_divSigned : (divSigned a b).1 =
    if b = 0 then BitVec.allOnes w else if a = BitVec.intMin w ∧ b = BitVec.allOnes w then a else BitVec.ofInt w (a.toInt.tdiv b.toInt) := by
  simp only [divSigned, apply_ite Prod.fst]
theorem snd_divSigned : (divSigned a b).2 =
    if b = 0 then a else if a = BitVec.intMin w ∧ b = BitVec.allOnes w then 0
    else BitVec.ofInt w (a.toInt - a.toInt.tdiv b.toInt * b.toInt) := by
  simp only [divSigned, apply_ite Prod.snd, Int.tmod_def, Int.mul_comm]
theorem fst_divUnsigned : (divUnsigned a b).1 = if b = 0 then BitVec.allOnes w else BitVec.ofNat w (a.toNat / b.toNat) := by
  simp only [divUnsigned, apply_ite Prod.fst]
theorem snd_divUnsigned : (divUnsigned a b).2 = if b = 0 then a else BitVec.ofNat w (a.toNat - a.toNat / b.toNat * b.toNat) := by
  simp only [divUnsigned, apply_ite Prod.snd, Nat.mod_eq_sub_div_mul]
end

/-- Settles O2: the quotient and the remainder of each pair, a zero divisor and the overflow among them. -/
theorem division : Obligations.Division :=
  ⟨computes2Control_congr (computes2Control_of_controlRR fun _ _ _ _ _ => rfl) fun _ => fst_divSigned,
    computes2Control_congr (computes2Control_of_controlRR fun _ _ _ _ _ => rfl) fun _ => fst_divUnsigned,
    computes2Control_congr (computes2Control_of_controlRR fun _ _ _ _ _ => rfl) fun _ => snd_divSigned,
    computes2Control_congr (computes2Control_of_controlRR fun _ _ _ _ _ => rfl) fun _ => snd_divUnsigned⟩

end Sys2Proof.Machine
end

section
/-! The immediates and the constants (R40, R41, R67). -/
namespace Sys2Proof.Machine

theorem mem_allCtx {c : Nat} (h : c ≤ 5) : c ∈ allCtx := by
  simp only [allCtx, List.mem_cons, List.not_mem_nil, or_false]
  omega

/-- LIH's word: a half from the immediate over the low half of the register (R41). -/
theorem lih_word {w : Nat} (a : BitVec w) (i : Nat) :
    BitVec.ofNat 32 (i % 65536 * 65536) ||| (a.setWidth 32 &&& 0xFFFF) = BitVec.ofNat 32 (i % 2 ^ 16 * 2 ^ 16 + a.toNat % 2 ^ 16) := by
  have hlow : a.toNat % 2 ^ 16 < 2 ^ 16 := Nat.mod_lt _ (by decide)
  have hmask : (a.setWidth 32 &&& 0xFFFF : W32).toNat = a.toNat % 2 ^ 16 := by
    rw [BitVec.toNat_and, BitVec.toNat_setWidth, show (0xFFFF : W32).toNat = 2 ^ 16 - 1 from rfl, Nat.and_two_pow_sub_one_eq_mod]
    omega
  have hhigh : i % 2 ^ 16 * 2 ^ 16 + a.toNat % 2 ^ 16 < 2 ^ 32 := by omega
  apply BitVec.eq_of_toNat_eq
  change (BitVec.ofNat 32 (i % 2 ^ 16 * 2 ^ 16) ||| _).toNat = _
  rw [BitVec.toNat_or, hmask, BitVec.toNat_ofNat, BitVec.toNat_ofNat, Nat.mod_eq_of_lt hhigh,
    Nat.mod_eq_of_lt (Nat.lt_of_le_of_lt (Nat.le_add_right ..) hhigh), Nat.mul_comm (i % 2 ^ 16), Nat.two_pow_add_eq_or_of_lt hlow]

theorem exec_li (d i : Nat) (s : State) : exec (.li d i) s = sharedR (fun w _ => (BitVec.ofNat 17 i).signExtend w) d 0 0 s := rfl
theorem exec_lih (d i : Nat) (s : State) : exec (.lih d i) s =
    sharedR (fun w a => (BitVec.ofNat 32 (i % 2 ^ 16 * 2 ^ 16 + a.toNat % 2 ^ 16)).signExtend w) d d 0 s := by
  show execLih d i s = _
  simp only [execLih, lih_word]

/-- Settles O3: the immediate forms as the table gives them, and each constant by the width of its slice. -/
theorem immediates : Obligations.Immediates := by
  refine ⟨computesImm_of_sharedR fun _ _ _ _ => rfl, computesImm_of_sharedR fun _ _ _ _ => rfl, computesImm_of_sharedR fun _ _ _ _ => rfl,
    computesImm_of_sharedR fun _ _ _ _ => rfl, fun s p c d i ha hw _ => ⟨?li, ?lih⟩, fun s p l d i ha h0 => ?liLane,
    fun s p l d i ha hd => ?lihLane, fun s p c d e ha hc hw _ => ⟨?lix, ?lixh⟩⟩
  case li => exact writesG_retireReg _ s p c d _ hw ((exec_li d i s).trans (sharedR_control _ d 0 0 ha))
  case lih => exact writesG_retireReg _ s p c d _ hw ((exec_lih d i s).trans (sharedR_control _ d d 0 ha))
  case liLane => exact (exec_li d i s).trans (sharedR_lane _ d 0 ha h0)
  case lihLane =>
    rw [issuesS, exec_lih, sharedR_lane _ d 0 ha hd, BitVec.signExtend_eq]
  case lix => exact writesG_retireReg _ s p c d _ hw (onContext_control ha (mem_allCtx hc))
  case lixh => exact writesG_retireReg _ s p c d _ hw (onContext_control ha (mem_allCtx hc))

end Sys2Proof.Machine
end

section
/-! Transfers of control: branches, J, CALL and JALR on the control core, and their ILLEGAL on the lanes (R42-R47). -/
namespace Sys2Proof.Machine

section
variable {s : State} {p c l : Nat}

theorem onControl_control (f : Nat → Nat → Out) (ha : s.cur.agent = .control p c) : onControl s f = f p c := by
  simp only [onControl, ha]
theorem onControl_lane (f : Nat → Nat → Out) (ha : s.cur.agent = .lane p l) : onControl s f = .next (s.laneIllegalHere p l) := by
  simp only [onControl, ha]

/-- A register write leaves the rest of the context. -/
theorem setReg_eq (x : Ctx) (d : Nat) (v : Word) : x.setReg d v = { x with g := (x.setReg d v).g } := by
  unfold Ctx.setReg
  split <;> rfl

/-- A taken transfer that writes no register. -/
theorem jumpsTo_of_jump {i : Instr} {t : Word} (hw : s.noWake p c) (h : exec i s = .next (s.jump p c id t)) : jumpsTo i s p c t 0 0 :=
  jumpsTo_jump i s p c id t 0 0 hw h ⟨rfl, rfl, rfl, rfl⟩ fun n => by simp
/-- A taken transfer that links in a register, and that the return-address predictor follows (R43-R45). -/
theorem jumpsTo_of_link {i : Instr} {f : Ctx → Ctx} {t v : Word} {d : Nat} (hw : s.noWake p c)
    (h : exec i s = .next (s.jump p c f t)) (hf : ∃ ras, f (s.ctx p c) = { (s.ctx p c).setReg d v with ras := ras }) :
    jumpsTo i s p c t d v := by
  obtain ⟨ras, hf⟩ := hf
  refine jumpsTo_jump i s p c f t d v hw h ?_ fun n => ?_
  · rw [hf, setReg_eq]
    exact ⟨rfl, rfl, rfl, rfl⟩
  · rw [hf]
    exact Ctx.reg_setReg ..

/-- A conditional branch goes to its target where its test holds, and falls through where not (R42). -/
theorem branch_does {i : Instr} {test : Word → Word → Bool} {a b o : Nat} {taken : Prop} (ha : s.cur.agent = .control p c) (hw : s.noWake p c)
    (hexec : exec i s = branch test a b o s) (htest : test (s.g p c a) (s.g p c b) = true ↔ taken) :
    (taken → jumpsTo i s p c ((s.ctx p c).pc + 4 * (BitVec.ofNat 9 o).signExtend 64) 0 0) ∧ (¬taken → writesG i s p c 0 0) := by
  rw [branch, onControl_control _ ha] at hexec
  refine ⟨fun h => ?_, fun h => ?_⟩
  · rw [if_pos (htest.2 h)] at hexec
    exact jumpsTo_of_jump hw hexec
  · rw [if_neg (mt htest.1 h)] at hexec
    exact writesG_retire i s p c 0 hw hexec
end

theorem branches : Claims.Branches := fun _ _ _ _ _ _ ha hw =>
  ⟨branch_does ha hw rfl beq_iff_eq, branch_does ha hw rfl bne_iff_ne, branch_does ha hw rfl BitVec.slt_iff_toInt_lt,
    branch_does ha hw rfl BitVec.sle_iff_toInt_le, branch_does ha hw rfl BitVec.ult_iff_toNat_lt, branch_does ha hw rfl BitVec.ule_iff_toNat_le⟩

theorem jumps : Claims.Jumps := by
  intro s p c ha hw pc
  refine ⟨fun o => ?j, fun o => ?call, fun d a i => ⟨fun haligned => ?jalr, fun hmisaligned => ?trap⟩⟩
  case j => exact jumpsTo_of_jump hw (onControl_control _ ha)
  case call => exact jumpsTo_of_link hw (onControl_control _ ha) ⟨_, rfl⟩
  case jalr =>
    refine jumpsTo_of_link hw ((onControl_control _ ha).trans (if_neg fun h => bne_iff_ne.1 h haligned)) ?_
    dsimp only
    split_ifs <;> exact ⟨_, rfl⟩
  case trap => exact (onControl_control _ ha).trans (if_pos (bne_iff_ne.2 hmisaligned))

theorem transfersOnLanes : Claims.TransfersOnLanes := by
  intro s p l a b o ha i hi
  simp only [List.mem_cons, List.not_mem_nil, or_false] at hi
  rcases hi with rfl | rfl | rfl | rfl | rfl | rfl | rfl | rfl | rfl <;> exact onControl_lane _ ha

/-- Settles O4: the control core by the branch's test and the jump's target, the lanes by what every control-only transfer raises there. -/
theorem transfersOfControl : Obligations.TransfersOfControl := ⟨branches, jumps, transfersOnLanes⟩

end Sys2Proof.Machine
end

section
/-! What retiring does, and FENCE, NOP and FQRY (R46, R54-R56). -/
namespace Sys2Proof.Machine

/-! ### Retiring -/

theorem retireReg_eq {s : State} {p c : Nat} (d : Nat) (v : Word) (hw : s.noWake p c) :
    s.retireReg p c d v = s.modCtx p c fun x => (x.setReg d v).fallThrough :=
  retire_eq s p c _ hw ((ending_setReg ..).trans hw.2)

theorem retireEffect : Claims.RetireEffect := by
  intro s p c d v hw
  rw [retireReg_eq d v hw, ctx_modCtx_self]
  refine ⟨sameButCtx_modCtx .., completed_setReg _ d v, fun n => ?_⟩
  rw [State.g, ctx_modCtx_self, reg_fallThrough, Ctx.reg_setReg]
  rfl

/-! ### FENCE, NOP and FQRY -/

theorem exec_fence_control {s : State} {p c : Nat} (m : Nat) (ha : s.cur.agent = .control p c) : exec (.fence m) s = .next (s.retire p c id) := by
  show execFence m s = _
  simp only [execFence, ha]
theorem exec_fence_lane {s : State} {p l : Nat} (m : Nat) (ha : s.cur.agent = .lane p l) :
    exec (.fence m) s = .next ((s.modLane p l fun x => { x with fence := m }).laneRetire p l 4 0 0) := by
  show execFence m s = _
  simp only [execFence, ha]
theorem exec_fqry_control {s : State} {p c : Nat} (d w : Nat) (ha : s.cur.agent = .control p c) :
    exec (.fqry d w) s = .next (s.retireReg p c d ((s.feature (if c = 5 then 0xFF else (s.place p).features) w).setWidth 64)) := by
  show execFqry d w s = _
  simp only [execFqry, ha]
theorem exec_fqry_lane {s : State} {p l : Nat} (d w : Nat) (ha : s.cur.agent = .lane p l) :
    exec (.fqry d w) s = .next ((s.issueScalar p l 1 d (s.feature (s.place p).features w)).laneRetire p l 4 0 0) := by
  show execFqry d w s = _
  simp only [execFqry, ha]

/-! The feature words (R55). -/

theorem feature_enabledPlazas (s : State) (en : W32) : s.feature en 2 = BitVec.ofNat 32 ((List.range 192).filter fun q =>
    (tabGet Die.off s.dev.dies (q / 24)).enabled && !s.dev.disabled.contains q).length := by
  refine congrArg (fun n => BitVec.ofNat 32 (List.length n)) (List.filter_congr fun q hq => ?_)
  rw [State.plazaEnabled, decide_eq_true (List.mem_range.1 hq)]
  rfl
theorem feature_of_five_le (s : State) (en : W32) {w : Nat} (hw : 5 ≤ w) : s.feature en w = 0 := by
  have h (k : Nat) (hk : k < 5) : w ≠ k := by omega
  simp only [State.feature, h, Nat.reduceLT, if_false]

/-- A sum of the powers of two that f selects has as its low bits what f selects. -/
theorem foldl_bits (f : Nat → Bool) (n : Nat) : let m := (List.range n).foldl (fun m i => m + b2n (f i) * 2 ^ i) 0
    m < 2 ^ n ∧ ∀ i, i < n → m.testBit i = f i := by
  induction n with
  | zero => exact ⟨Nat.one_pos, fun i hi => absurd hi i.not_lt_zero⟩
  | succ n ih =>
    obtain ⟨hlt, hbits⟩ := ih
    simp only [List.range_succ, List.foldl_append, List.foldl_cons, List.foldl_nil]
    generalize (List.range n).foldl (fun m i => m + b2n (f i) * 2 ^ i) 0 = m at *
    rw [Nat.add_comm, Nat.mul_comm]
    refine ⟨?_, fun i hi => ?_⟩
    · cases f n <;> simp [b2n] <;> omega
    · rw [Nat.testBit_two_pow_mul_add _ hlt]
      split
      · next hin => exact hbits i hin
      · next hin =>
        obtain rfl : i = n := by omega
        cases f i <;> simp [b2n]

theorem feature_dies (s : State) (en : W32) {k : Nat} (hk : k < 8) : (s.feature en 3).getLsbD k = (tabGet Die.off s.dev.dies k).enabled := by
  show (BitVec.ofNat 32 _).getLsbD k = _
  rw [BitVec.getLsbD_ofNat, decide_eq_true (show k < 32 by omega), Bool.true_and]
  exact (foldl_bits (fun d => (tabGet Die.off s.dev.dies d).enabled) 8).2 k hk

theorem fenceNopFqry : Claims.FenceNopFqry := by
  refine ⟨fun s p c m ha hw => ⟨?fence, ?nop⟩, fun s p l m ha => ⟨exec_nop_lane ha, exec_fence_lane m ha⟩, fun s p c d ha hw => ?fqry,
    fun s p l d ha => ?fqryLane⟩
  case fence => exact writesG_retire _ s p c 0 hw (exec_fence_control m ha)
  case nop => exact writesG_retire _ s p c 0 hw ((exec_nop_control ha hw).trans (congrArg _ (retire_eq s p c id hw hw.2).symm))
  case fqry =>
    have hwrites (w : Nat) {v : W32} (hv : s.feature (if c = 5 then 0xFF else (s.place p).features) w = v) :
        writesG (.fqry d w) s p c d (v.setWidth 64) :=
      hv ▸ writesG_retireReg _ s p c d _ hw (exec_fqry_control d w ha)
    exact ⟨hwrites 0 rfl, fun hc => hwrites 1 (if_neg hc), fun hc => hwrites 1 (if_pos hc), hwrites 2 (feature_enabledPlazas ..),
      fun w hw5 _ => hwrites w (feature_of_five_le s _ hw5), ⟨_, hwrites 3 rfl, fun k hk => feature_dies s _ hk⟩, hwrites 4 rfl⟩
  case fqryLane =>
    refine ⟨exec_fqry_lane d 0 ha, exec_fqry_lane d 4 ha, exec_fqry_lane d 1 ha, fun w hw5 _ => ?_⟩
    rw [issuesS, exec_fqry_lane d w ha, feature_of_five_le s _ hw5]

/-! ### The fence of a lane group (R54) -/

theorem bit_eq_testBit (v i : Nat) : bit v i = v.testBit i := by
  rw [bit, Nat.testBit_eq_decide_div_mod_eq]
  rfl
theorem fenceMet_iff (x : Lane) : x.fenceMet = true ↔ ∀ st ∈ x.stores, x.fence.testBit st.cls = false := by
  simp [Lane.fenceMet, bit_eq_testBit]

/-- A lane group that is not ready makes no move (R179). -/
theorem runGroup_of_not_ready {ex : Instr → State → Out} {s : State} {p l : Nat} (h : (s.lane p l).ready s.dev.cycle = false) :
    runGroup ex p l s = .next s := by
  have hmay : (s.place p).mayIssue s.dev.cycle l = false := by
    rw [Place.mayIssue, show tabGet Lane.off (s.place p).lanes l = s.lane p l from rfl, h, Bool.and_false]
  rw [runGroup, runLane, hmay]
  split <;> rfl

theorem fenceHolds : Claims.FenceHolds := by
  refine ⟨fun s p l rest hup hagenda ⟨st, hst, hmasked⟩ => ?_, fun x now hstores => ?_⟩
  · have hunmet : (s.lane p l).fenceMet = false := Bool.eq_false_iff.2 fun h => by simp [(fenceMet_iff _).1 h st hst] at hmasked
    rw [step_lane hup hagenda]
    exact runGroup_of_not_ready ((congrArg (_ && ·) hunmet).trans (Bool.and_false _))
  · have hmet : x.fenceMet = true := (fenceMet_iff x).2 hstores
    have hmet0 : Lane.fenceMet { x with fence := 0 } = true := (fenceMet_iff _).2 fun st _ => Nat.zero_testBit _
    exact congrArg (_ && ·) (hmet.trans hmet0.symm)

/-- Settles O6: retiring in general, the three instructions on both slices, and the fence by the readiness of its group. -/
theorem retiringAndQueries : Obligations.RetiringAndQueries := ⟨retireEffect, fenceNopFqry, fenceHolds⟩

end Sys2Proof.Machine
end

section
/-! The checks of an access (R57): their order, and the trap that each takes in a load or a store. -/
namespace Sys2Proof.Machine

theorem canonical_iff (ea : Word) : canonical ea = true ↔ ea.toNat / 2 ^ 57 = if ea.getLsbD 56 then 127 else 0 := by
  have hbit : bit ea.toNat 56 = ea.getLsbD 56 := by rw [bit_eq_testBit, BitVec.testBit_toNat]
  have hlt : ea.toNat / 2 ^ 57 < 2 ^ 7 := by have := ea.isLt; omega
  rw [canonical, beq_iff_eq, hbit, show bits ea.toNat 63 57 = ea.toNat / 2 ^ 57 from Nat.mod_eq_of_lt hlt]

theorem checksInOrder : Claims.AccessChecks := by
  intro s p pasid ea n need hn
  have hn0 : (n != 0) = true := bne_iff_ne.2 (by omega)
  refine ⟨fun hmis => ?misaligned, fun hal hcan => ?page, fun hal hcan => ⟨fun t htr => ?unmapped, fun x t htr habs => ⟨fun hgr => ?protect,
    fun hgr hview hrem => ?ok⟩⟩, canonical_iff ea, fun x => ⟨Iff.rfl, Iff.rfl, ?atomic⟩⟩
  case misaligned => simp [State.checkVa, hn0, hmis]
  case page => simp [State.checkVa, hal, hcan]
  case unmapped => simp [State.checkVa, hal, hcan, htr]
  case protect => simp [State.checkVa, hal, hcan, htr, habs, hgr]
  case ok => simp [State.checkVa, hal, hcan, htr, habs, hgr, hview, hrem]
  case atomic => simp [Trans.grants, and_assoc]

/-! ### Loads and stores -/

section
variable {s t : State} {p c d a o n : Nat} {i : Instr} {cause : Cause} {fa : Word} {pa : Nat}

theorem load_control (ext : Nat → Word) (ha : s.cur.agent = .control p c) (hc : c ≤ 5) :
    load i n ext d a o s = onAccess (s.readData p c (s.ea p c a o n) n) p c i fun v t => .next (t.retireReg p c d (ext v)) :=
  onContext_control ha (mem_allCtx hc)
theorem store_control (ha : s.cur.agent = .control p c) (hc : c ≤ 5) :
    store i n d a o s = onAccess (s.writeData p c (s.ea p c a o n) n ((s.g p c d).toNat % 2 ^ (8 * n))) p c i fun _ t => .next (t.retire p c id) :=
  onContext_control ha (mem_allCtx hc)

/-- An access that fails but by ILLEGAL takes its trap. -/
theorem onAccess_fail {α : Type} {r : Res α} (f : α → State → Out) (hr : r = .fail cause fa pa t) (hne : cause ≠ .illegal) :
    onAccess r p c i f = .next (t.trapAccess p c cause fa pa) := by
  rw [hr, onAccess, if_neg hne]

theorem load_fails (ext : Nat → Word) (ha : s.cur.agent = .control p c) (hc : c ≤ 5) (hne : cause ≠ .illegal)
    (hva : s.checkVa p (s.ctxPasid p c) (s.ea p c a o n) n .read = .fail cause fa pa t) :
    load i n ext d a o s = .next (t.trapAccess p c cause fa pa) := by
  rw [load_control ext ha hc]
  exact onAccess_fail _ (by rw [State.readData, State.readAs, hva]; rfl) hne
theorem store_fails (ha : s.cur.agent = .control p c) (hc : c ≤ 5) (hne : cause ≠ .illegal)
    (hva : s.checkVa p (s.ctxPasid p c) (s.ea p c a o n) n .write = .fail cause fa pa t) :
    store i n d a o s = .next (t.trapAccess p c cause fa pa) := by
  rw [store_control ha hc]
  exact onAccess_fail _ (by rw [State.writeData, hva]; rfl) hne
end

theorem accessFails : Claims.AccessFails := by
  intro s p c r a k o cause fa pa t ha hc hne
  simp only [List.forall_mem_cons]
  exact ⟨load_fails _ ha hc hne, load_fails _ ha hc hne, load_fails _ ha hc hne, load_fails _ ha hc hne, load_fails _ ha hc hne,
    load_fails _ ha hc hne, load_fails _ ha hc hne, store_fails ha hc hne, store_fails ha hc hne, store_fails ha hc hne, store_fails ha hc hne,
    List.forall_mem_nil _⟩

/-- Settles O7: the checks in their order, and each load and store by the form it has. -/
theorem accessChecks : Obligations.AccessChecks := ⟨checksInOrder, accessFails⟩

end Sys2Proof.Machine
end

section
/-! Loads and stores of bytes that the L1D holds (R58, R310). -/
namespace Sys2Proof.Machine

/-- Marking a line of plaza p's L1D as used changes no byte that any L1 holds. -/
theorem cached_setLine {s : State} {p line : Nat} {x : Line} (hin : lineIn (s.plaza p).l1d line = some x) (q : Nat) (lanes : Bool) (b : Nat) :
    (s.setLine p false x).cached q lanes b = s.cached q lanes b := by
  obtain ⟨rfl, hupd⟩ := key_of_lineIn hin
  have hsome : (lineIn (s.plaza p).l1d x.key).isSome = true := by rw [hin]; rfl
  rw [setLine_eq]
  refine (congrArg (fun t : State => t.cached q lanes b) (modPlaza_congr (g := fun q => q.modL1 false
    (replaceLine { x with used := nextUse (s.plaza p).l1d })) rfl)).trans ?_
  rw [cached_replaceLine (z := { x with used := nextUse (s.plaza p).l1d }) hupd hsome]
  split
  · next h =>
    obtain ⟨rfl, rfl, hb⟩ := h
    rw [State.cached, Plaza.l1, hb, if_neg Bool.false_ne_true, hin]
    rfl
  · rfl

theorem noWake_setLine {s : State} {p c : Nat} {lanes : Bool} {x : Line} (h : s.noWake p c) : (s.setLine p lanes x).noWake p c := by
  rw [State.noWake, State.setLine, wakeDue_modL1, ctx_modL1]
  exact h
theorem ctx_setLine (s : State) (p c : Nat) (lanes : Bool) (x : Line) : (s.setLine p lanes x).ctx p c = s.ctx p c :=
  ctx_modL1 ..

section
variable {s : State} {p c d a o n key : Nat} {i : Instr} {x : Line}

/-- A load that finds its bytes in the L1D completes and changes its register only. -/
theorem load_hit (ext : Nat → Word) (he : exec i s = load i n ext d a o s) (ha : s.cur.agent = .control p c) (hc : c ≤ 5) (hw : s.noWake p c)
    (hg : s.grants p c (s.ea p c a o n) n .read key) (hx : s.l1dHas p key n x) :
    completesWith i s p c d (ext (vecBytes x.data (key % 128) n)) fun t => t.mem = s.mem ∧ ∀ q lanes b, t.cached q lanes b = s.cached q lanes b := by
  rw [load_control ext ha hc, readData_hit hg hx] at he
  have hin : lineIn (((s.endRead (.ctx p c) (key / 128)).plaza p).l1d) (key / 128) = some x := hx.1.2.1
  have hw' : (s.endRead (.ctx p c) (key / 128)).noWake p c := hw
  refine completesWith_retireReg (noWake_setLine hw') he (.inl (ctx_setLine ..)) fun f => ⟨modCtx_mem .., fun q lanes b => ?_⟩
  rw [cached_congr (l1_modCtx ..), cached_setLine hin]
  rfl

/-- A store that finds its line in the L1D completes and changes its bytes there only. -/
theorem store_hit (he : exec i s = store i n d a o s) (ha : s.cur.agent = .control p c) (hc : c ≤ 5) (hw : s.noWake p c)
    (hg : s.grants p c (s.ea p c a o n) n .write key) (hn : key % 128 + n ≤ 128) (hx : s.l1dOnly p key x) :
    completesWith i s p c 0 0 fun t => t.mem = s.mem ∧ ∀ q lanes b, t.cached q lanes b =
      if q = p ∧ lanes = false ∧ key ≤ b ∧ b < key + n then some (BitVec.ofNat 8 ((s.g p c d).toNat / 2 ^ (8 * (b - key))))
      else s.cached q lanes b := by
  obtain ⟨t, hwrite, hmem, -, hwake, hctx, hcached⟩ := writeData_hit (v := (s.g p c d).toNat % 2 ^ (8 * n)) hg hn hx
  rw [store_control ha hc, hwrite] at he
  refine completesWith_retire (hwake hw) he (hctx ▸ wokenAt_eq _ _) fun f => ⟨(modCtx_mem ..).trans hmem, fun q lanes b => ?_⟩
  rw [cached_congr (l1_modCtx ..), hcached]
  refine ite_congr rfl (fun hb => congrArg some (BitVec.eq_of_toNat_eq ?_)) fun _ => rfl
  -- byte b - key of the low n bytes is that byte of the register
  obtain ⟨-, -, hlo, hhi⟩ := hb
  rw [BitVec.toNat_ofNat, BitVec.toNat_ofNat, show 8 * n = 8 * (b - key) + 8 * (n - (b - key)) by omega, Nat.pow_add,
    Nat.mod_mul_right_div_self, Nat.mod_mod_of_dvd]
  exact Nat.pow_dvd_pow 2 (by omega)
end

theorem loadsOnHit : Claims.LoadsOnHit := by
  intro s p c d a k o key x ha hc hw
  have hload : ∀ i n ext, exec i s = load i n ext d a o s → s.grants p c (s.ea p c a o n) n .read key → s.l1dHas p key n x →
      ∃ t, exec i s = .next t ∧ (s.ctx p c).completed (t.ctx p c)
        ∧ (∀ m, t.g p c m = if m = d ∧ d ≠ 0 then ext (vecBytes x.data (key % 128) n) else s.g p c m)
        ∧ t.mem = s.mem ∧ ∀ q lanes b, t.cached q lanes b = s.cached q lanes b :=
    fun i n ext he hg hx => load_hit ext he ha hc hw hg hx
  simp only [List.forall_mem_cons]
  exact ⟨hload _ _ (sext64 8) rfl, hload _ _ _ rfl, hload _ _ (sext64 16) rfl, hload _ _ _ rfl, hload _ _ (sext64 32) rfl, hload _ _ _ rfl,
    hload _ _ _ rfl, List.forall_mem_nil _⟩

theorem storesOnHit : Claims.StoresOnHit := by
  intro s p c r a k o key x ha hc hw
  have hstore : ∀ i n, exec i s = store i n r a o s → s.grants p c (s.ea p c a o n) n .write key → key % 128 + n ≤ 128 → s.l1dOnly p key x →
      ∃ t, exec i s = .next t ∧ (s.ctx p c).completed (t.ctx p c) ∧ (∀ m, t.g p c m = s.g p c m) ∧ t.mem = s.mem
        ∧ ∀ q lanes b, t.cached q lanes b =
          if q = p ∧ lanes = false ∧ key ≤ b ∧ b < key + n then some (BitVec.ofNat 8 ((s.g p c r).toNat / 2 ^ (8 * (b - key))))
          else s.cached q lanes b := fun i n he hg hn hx => by
    obtain ⟨t, hexec, hdone, hregs, hmem, hcached⟩ := store_hit he ha hc hw hg hn hx
    exact ⟨t, hexec, hdone, fun m => (hregs m).trans (if_neg fun h => h.2 rfl), hmem, hcached⟩
  simp only [List.forall_mem_cons]
  exact ⟨hstore _ _ rfl, hstore _ _ rfl, hstore _ _ rfl, hstore _ _ rfl, List.forall_mem_nil _⟩

/-- Settles O8: each load and store by the form it has, on a line of the L1D. -/
theorem loadsAndStores : Obligations.LoadsAndStores := ⟨loadsOnHit, storesOnHit⟩

end Sys2Proof.Machine
end

section
/-! The control and status registers (R68, R69). -/
namespace Sys2Proof.Machine

/-! ### The instructions -/

section
variable {s : State} {p c n : Nat}

theorem csrAccess_permitted (f : Nat → Nat → Out) (ha : s.cur.agent = .control p c) (hc : c ≤ 5) (h : c = 5 ∨ n < 0x20) :
    csrAccess n f s = f p c := by
  have hno : ¬(csrSuper n && c != 5) = true := by
    simp only [csrSuper, Bool.and_eq_true, decide_eq_true_eq, bne_iff_ne]
    omega
  rw [csrAccess, onContext_control ha (mem_allCtx hc), if_neg hno]
theorem csrAccess_privileged (f : Nat → Nat → Out) (ha : s.cur.agent = .control p c) (hc : c ≤ 5) (h5 : c ≠ 5) (hn : 0x20 ≤ n) :
    csrAccess n f s = .next (s.privileged p c) := by
  have hyes : (csrSuper n && c != 5) = true := by simp [csrSuper, hn, h5]
  rw [csrAccess, onContext_control ha (mem_allCtx hc), if_pos hyes]
end

theorem csrInstructions : Claims.CsrInstructions := by
  intro s p c d a n ha hc old v
  refine ⟨fun h => ⟨?_, ?_, ?_, ?_⟩, fun h5 hn => ?_⟩
  · exact csrAccess_permitted _ ha hc h
  · exact csrAccess_permitted _ ha hc h
  · exact csrAccess_permitted _ ha hc h
  · exact csrAccess_permitted _ ha hc h
  · simp only [List.forall_mem_cons]
    exact ⟨csrAccess_privileged _ ha hc h5 hn, csrAccess_privileged _ ha hc h5 hn, csrAccess_privileged _ ha hc h5 hn,
      csrAccess_privileged _ ha hc h5 hn, List.forall_mem_nil _⟩

/-! ### What the registers hold -/

theorem hasPlace_modPlace (s : State) (p : Nat) (f : Place → Place) : (s.modPlace p f).hasPlace p = s.hasPlace p := by
  simp [State.hasPlace, State.modPlace]

/-- The VIEWFLAGS bit as a register reads it. -/
theorem ofNat_b2n_getLsbD (v : Word) : BitVec.ofNat 64 (b2n (v.getLsbD 0)) = v &&& 1 := by
  refine BitVec.eq_of_getLsbD_eq fun i hi => ?_
  rw [BitVec.getLsbD_and, show (1 : Word) = 1#64 from rfl, BitVec.getLsbD_one, BitVec.getLsbD_ofNat, decide_eq_true hi, Bool.true_and]
  cases i with
  | zero => cases v.getLsbD 0 <;> rfl
  | succ i => cases v.getLsbD 0 <;> simp [b2n, Nat.testBit_succ]

theorem ite_holds {P : State → Prop} {b : Prop} [Decidable b] {s t : State} (hs : P s) (ht : P t) : P (if b then s else t) := by
  split <;> assumption

/-- A write of a CSR changes the running context but for its general registers, a field of the plaza outside every context, or nothing. -/
theorem setCsr_cases {P : State → Prop} {s : State} {p c : Nat} (n : Nat) (v : Word)
    (hctx : ∀ f : Ctx → Ctx, (∀ x, (f x).g = x.g) → P (s.modCtx p c f))
    (hplaza : ∀ f : Plaza → Plaza, (∀ q, (f q).ctx5 = q.ctx5 ∧ (f q).place.ctx = q.place.ctx) → P (s.modPlaza p f)) (hs : P s) :
    P (s.setCsr p c n v) :=
  ite_holds (hctx _ fun _ => rfl) <| ite_holds (hctx _ fun _ => rfl) <| ite_holds (hctx _ fun _ => rfl) <|
    ite_holds (ite_holds (hplaza _ fun _ => ⟨rfl, rfl⟩) hs) <| ite_holds (hctx _ fun _ => rfl) <|
    ite_holds (hplaza _ fun _ => ⟨rfl, rfl⟩) <| ite_holds (hplaza _ fun _ => ⟨rfl, rfl⟩) <| ite_holds (hplaza _ fun _ => ⟨rfl, rfl⟩) <|
    ite_holds (hplaza _ fun _ => ⟨rfl, rfl⟩) <| ite_holds (hplaza _ fun _ => ⟨rfl, rfl⟩) <|
    ite_holds (ite_holds (hplaza _ fun _ => ⟨rfl, rfl⟩) hs) hs

theorem g_setCsr (s : State) (p c n k : Nat) (v : Word) : (s.setCsr p c n v).g p c k = s.g p c k := by
  refine setCsr_cases (P := fun t => t.g p c k = s.g p c k) n v (fun f hf => ?_) (fun f hf => ?_) rfl
  · rw [State.g, ctx_modCtx_self, Ctx.reg, hf]; rfl
  · simp only [State.g, State.ctx, State.place, plaza_modPlaza_self, hf]
theorem mem_setCsr (s : State) (p c n : Nat) (v : Word) : (s.setCsr p c n v).mem = s.mem :=
  setCsr_cases (P := fun t => t.mem = s.mem) n v (fun _ _ => modCtx_mem ..) (fun _ _ => rfl) rfl

theorem csrStorage : Claims.CsrStorage := by
  intro s p c v hp hc
  have hplace (f : Place → Place) : (s.modPlace p f).hasPlace p = true := (hasPlace_modPlace ..).trans hp
  have hall : v = v &&& BitVec.allOnes 64 := BitVec.and_allOnes.symm
  refine ⟨?kept, fun n k => ⟨mem_setCsr .., g_setCsr ..⟩, rfl, rfl, rfl, rfl, if_pos hp, if_pos hp, if_pos hp, if_pos hp⟩
  simp only [List.forall_mem_cons]
  refine ⟨?insret, ?ichit, ?icmiss, ?viewflags, ?wdog, ?roles, ?sweepage, ?trapvec, ?trapslot, ?svepc, ?faultq, List.forall_mem_nil _⟩
  case insret => simpa [State.csr, State.setCsr] using hall
  case ichit => simpa [State.csr, State.setCsr] using hall
  case icmiss => simpa [State.csr, State.setCsr] using hall
  case viewflags =>
    have hset : s.setCsr p c 0x10 v = s.modPlace p fun q => { q with viewflags := v.getLsbD 0 } := if_pos hp
    have hread (t : State) (ht : t.hasPlace p = true) : t.csr p c 0x10 = BitVec.ofNat 64 (b2n (t.place p).viewflags) := if_pos ht
    rw [hset, hread _ (hplace _), place_modPlace_self, ofNat_b2n_getLsbD]
  case wdog => simpa [State.csr, State.setCsr] using hall
  case roles => simp [State.csr, State.setCsr]
  case sweepage => simp [State.csr, State.setCsr]
  case trapvec => simp [State.csr, State.setCsr]
  case trapslot => simp [State.csr, State.setCsr]
  case svepc => simp [State.csr, State.setCsr]
  case faultq =>
    have hset : s.setCsr p c 0x25 v = s.modPlace p fun q => { q with faultq := v } := if_pos hp
    have hread (t : State) (ht : t.hasPlace p = true) : t.csr p c 0x25 = (t.place p).faultq := if_pos ht
    rw [hset, hread _ (hplace _), place_modPlace_self]
    exact hall

/-- Settles O12: the instructions by their access check, the registers by reading each after its write. -/
theorem controlRegisters : Obligations.ControlRegisters := ⟨csrInstructions, csrStorage⟩

end Sys2Proof.Machine
end

section
/-! What an access to the memory and the caches leaves as it is, and with it a walk and the write of a record: in each plaza all but its L1s, its
data fills and its TLB, of the device all but its links (R89, R103, R310, R340). -/
namespace Sys2Proof.Machine

/-- b differs from a in its L1s, its data fills and its TLB alone. -/
def Plaza.SameCore (a b : Plaza) : Prop := ∃ l1d l1v fills tlb, b = { a with l1d := l1d, l1v := l1v, fills := fills, tlb := tlb }

theorem Plaza.SameCore.refl (a : Plaza) : a.SameCore a := ⟨_, _, _, _, rfl⟩
theorem Plaza.SameCore.trans {a b c : Plaza} (h : a.SameCore b) (k : b.SameCore c) : a.SameCore c := by
  obtain ⟨_, _, _, _, rfl⟩ := h
  obtain ⟨_, _, _, _, rfl⟩ := k
  exact ⟨_, _, _, _, rfl⟩
theorem Plaza.sameCore_modL1 (a : Plaza) (lanes : Bool) (f : List Line → List Line) : a.SameCore (a.modL1 lanes f) := by
  cases lanes <;> exact ⟨_, _, _, _, rfl⟩

/-- s differs from r in what an access to the memory and the caches may change. -/
def SameCore (r s : State) : Prop :=
  (∀ q, (r.plaza q).SameCore (s.plaza q)) ∧ (∃ links, s.dev = { r.dev with links := links })
    ∧ s.runtime = r.runtime ∧ s.rrt = r.rrt ∧ s.placer = r.placer ∧ s.cur = r.cur ∧ s.views = r.views

section
variable {r s : State} {α : Type}

theorem SameCore.refl (s : State) : SameCore s s := ⟨fun _ => .refl _, ⟨_, rfl⟩, rfl, rfl, rfl, rfl, rfl⟩

theorem modPlaza_sameCore {p : Nat} {f : Plaza → Plaza} (h : SameCore r s) (hf : ∀ q : Plaza, q.SameCore (f q)) : SameCore r (s.modPlaza p f) := by
  refine ⟨fun q => ?_, h.2⟩
  by_cases hq : q = p
  · rw [hq, plaza_modPlaza_self]
    exact (h.1 p).trans (hf _)
  · rw [plaza_modPlaza_ne _ _ hq]
    exact h.1 q
theorem foldl_sameCore {l : List α} {f : State → α → State} (h : SameCore r s) (hf : ∀ t x, SameCore r t → SameCore r (f t x)) :
    SameCore r (l.foldl f s) :=
  List.foldlRecOn l f h fun t ht x _ => hf t x ht
theorem ite_sameCore {c : Prop} [Decidable c] {t : State} (hs : SameCore r s) (ht : SameCore r t) : SameCore r (if c then s else t) := by
  split <;> assumption
theorem getD_sameCore {o : Option State} (h : SameCore r s) (ho : ∀ t, o = some t → SameCore r t) : SameCore r (o.getD s) := by
  cases o with
  | none => exact h
  | some t => exact ho t rfl

/-! Flits and notices. -/

theorem emit_sameCore {l : Nat} {f : Flit} (h : SameCore r s) : SameCore r (s.emit l f) := by
  obtain ⟨hplaza, ⟨links, hdev⟩, hrest⟩ := h
  exact ⟨hplaza, ⟨(s.emit l f).dev.links, by simp only [State.emit, hdev]⟩, hrest⟩
theorem post_sameCore {f : Flit} (h : SameCore r s) : SameCore r (s.post f) := by
  refine ite_sameCore h (getD_sameCore h fun t e => ?_)
  obtain ⟨l, -, rfl⟩ := Option.map_eq_some_iff.1 e
  exact emit_sameCore h
theorem request_sameCore {who : Requester} {kind addr size : Nat} {data : List Byte} {f : Flit} (h : SameCore r s) :
    SameCore r (s.request who kind addr size data f).2 :=
  post_sameCore h
theorem sendNotice_sameCore {who : Option Nat} {m : Master} {v : View} {b g : Nat} (h : SameCore r s) :
    SameCore r (s.sendNotice who m v b g) := by
  unfold State.sendNotice
  split
  · split
    · exact request_sameCore h
    · exact h
  · exact h
theorem advanceBlock_sameCore {who : Option Nat} {m : Master} {b : Nat} (h : SameCore r s) : SameCore r (s.advanceBlock who m b) :=
  ite_sameCore h (foldl_sameCore h fun _ _ => sendNotice_sameCore)
theorem advanceLine_sameCore {who : Option Nat} {key : Nat} (h : SameCore r s) : SameCore r (s.advanceLine who key) :=
  foldl_sameCore h fun _ _ ht => foldl_sameCore ht fun _ _ => advanceBlock_sameCore

/-! Lines of the L1s and homes. -/

theorem writeHere_sameCore {who : Option Nat} {line : Nat} {mask : BitVec 128} {data : Row} {bad : BitVec 2} (h : SameCore r s) :
    SameCore r (s.writeHere who line mask data bad) :=
  ite_sameCore h (advanceLine_sameCore h)
theorem writeLine_sameCore {who : Option Nat} {line : Nat} {mask : BitVec 128} {data : Row} {bad : BitVec 2} {t : State} (h : SameCore r s)
    (e : s.writeLine who line mask data bad = some t) : SameCore r t := by
  unfold State.writeLine at e
  split at e
  · cases e; exact h
  · split at e
    · split at e
      · cases e; exact request_sameCore h
      · cases e
    · split at e
      · cases e
      · cases e; exact writeHere_sameCore h
theorem writeBackIn_sameCore {p : Nat} {lanes : Bool} {line : Nat} (h : SameCore r s) : SameCore r (s.writeBackIn p lanes line) := by
  unfold State.writeBackIn
  split
  · exact h
  · split
    · exact h
    · split
      · next e => exact modPlaza_sameCore (writeLine_sameCore h e) fun q => q.sameCore_modL1 _ _
      · exact h
theorem writeBack_sameCore {p line : Nat} (h : SameCore r s) : SameCore r (s.writeBack p line) :=
  writeBackIn_sameCore (writeBackIn_sameCore h)
theorem mergeLine_sameCore {p line : Nat} (h : SameCore r s) : SameCore r (s.mergeLine p line) :=
  ite_sameCore h (modPlaza_sameCore (foldl_sameCore (writeBack_sameCore h) fun _ _ ht => advanceLine_sameCore ht) fun _ => ⟨_, _, _, _, rfl⟩)
theorem mergeOwn_sameCore {p line : Nat} (h : SameCore r s) : SameCore r (s.mergeOwn p line) :=
  ite_sameCore (mergeLine_sameCore h) h
theorem recall_sameCore {line : Nat} (h : SameCore r s) : SameCore r (s.recall line) :=
  foldl_sameCore h fun _ _ => mergeOwn_sameCore
theorem flushLine_sameCore {p line : Nat} (h : SameCore r s) : SameCore r (s.flushLine p line) :=
  modPlaza_sameCore (mergeOwn_sameCore (writeBack_sameCore h)) fun _ => ⟨_, _, _, _, rfl⟩

/-! Walks. -/

theorem walk_ite_sameCore {c : Prop} [Decidable c] {a b : Walk × State} (ha : SameCore r a.2) (hb : SameCore r b.2) :
    SameCore r (if c then a else b).2 := by
  split <;> assumption
theorem walkDevice_sameCore {va l table : Nat} (h : SameCore r s) : SameCore r (s.walkDevice va l table).2 := by
  induction l generalizing s table with
  | zero =>
    rw [walkDevice_zero]
    dsimp only [State.readTable]
    exact walk_ite_sameCore h (walk_ite_sameCore (recall_sameCore h) (recall_sameCore h))
  | succ k ih =>
    rw [walkDevice_succ]
    dsimp only [State.readTable]
    have hr := recall_sameCore (line := (table + 8 * if k + 1 = 3 then bits va 56 39 else bits va (levelShift (k + 1) + 8) (levelShift (k + 1))) / 128) h
    exact walk_ite_sameCore h (walk_ite_sameCore hr (walk_ite_sameCore hr (walk_ite_sameCore hr (ih hr))))
theorem walkHost_sameCore {host d va l table : Nat} (h : SameCore r s) : SameCore r (s.walkHost host d va l table).2 := by
  induction l generalizing s table with
  | zero =>
    unfold State.walkHost
    dsimp only [State.readTable]
    exact walk_ite_sameCore h (walk_ite_sameCore (recall_sameCore h) (recall_sameCore h))
  | succ k ih =>
    unfold State.walkHost
    dsimp only [State.readTable]
    exact walk_ite_sameCore h (walk_ite_sameCore (recall_sameCore h) (ih (recall_sameCore h)))
theorem walk_sameCore {pasid : Nat} {va : Word} (h : SameCore r s) : SameCore r (s.walk pasid va).2 := by
  unfold State.walk
  dsimp only [State.readTable]
  have hr := fun a b => recall_sameCore (line := b) (recall_sameCore (line := a) h)
  split
  · exact h
  · split
    · exact hr _ _
    · split
      · exact walk_ite_sameCore (hr _ _) (walkHost_sameCore (hr _ _))
      · exact walk_ite_sameCore (hr _ _) (walkDevice_sameCore (hr _ _))
theorem translate_sameCore {p pasid : Nat} {va : Word} {x : Option Trans} {t : State} (h : SameCore r s)
    (e : s.translate p pasid va = .ok x t) : SameCore r t := by
  have hw := walk_sameCore (pasid := pasid) (va := va) h
  unfold State.translate at e
  split at e
  · cases e; exact h
  · split at e
    · cases e; exact h
    · split at e <;> cases e
      · next heq => exact modPlaza_sameCore (by rw [heq] at hw; exact hw) fun _ => ⟨_, _, _, _, rfl⟩
      · next heq => rw [heq] at hw; exact hw

/-! The write of a record. -/

theorem putBytes_sameCore {p key : Nat} {bytes : List Byte} (h : SameCore r s) : SameCore r (s.putBytes p key bytes) :=
  foldl_sameCore h fun _ _ ht => getD_sameCore (flushLine_sameCore ht) fun _ => writeLine_sameCore (flushLine_sameCore ht)
theorem tryWrite_sameCore {w : HeldWrite} {t : State} (h : SameCore r s) (e : s.tryWrite w = some t) : SameCore r t := by
  unfold State.tryWrite at e
  split at e
  · cases e; exact h
  · split at e
    · next heq =>
      cases e
      exact ite_sameCore (translate_sameCore h heq) (putBytes_sameCore (translate_sameCore h heq))
    · cases e
    · cases e; exact h
theorem writeRuntime_sameCore {p : Nat} {va : Word} {bytes : List Byte} (h : SameCore r s) : SameCore r (s.writeRuntime p va bytes) :=
  ite_sameCore h (getD_sameCore h fun _ => tryWrite_sameCore h)
end

/-! What the frame keeps. -/

section
variable {r s : State}

theorem SameCore.place (h : SameCore r s) (p : Nat) : s.place p = r.place p := by
  obtain ⟨_, _, _, _, e⟩ := h.1 p
  rw [State.place, State.place, e]
theorem SameCore.ctx5 (h : SameCore r s) (p : Nat) : (s.plaza p).ctx5 = (r.plaza p).ctx5 := by
  obtain ⟨_, _, _, _, e⟩ := h.1 p
  rw [e]
theorem SameCore.ctx (h : SameCore r s) (p c : Nat) : s.ctx p c = r.ctx p c := by
  rw [State.ctx, State.ctx, h.place, h.ctx5]
theorem SameCore.noWake (h : SameCore r s) {p c : Nat} (hw : r.noWake p c) : s.noWake p c := by
  obtain ⟨_, _, _, _, e⟩ := h.1 p
  rw [State.noWake, h.ctx, e]
  exact hw
end

end Sys2Proof.Machine
end

section
/-! The bytes at a home (R310, R340): a write changes exactly those that its mask names, and the generations that it advances are no bytes. -/
namespace Sys2Proof.Machine

/-- s has the bytes, the poison and the plazas of r. -/
def SameBytes (r s : State) : Prop := s.mem = r.mem ∧ s.poison = r.poison ∧ s.plazas = r.plazas

section
variable {r s : State} {α : Type}

theorem foldl_sameBytes {l : List α} {f : State → α → State} (h : SameBytes r s) (hf : ∀ t x, SameBytes r t → SameBytes r (f t x)) :
    SameBytes r (l.foldl f s) :=
  List.foldlRecOn l f h fun t ht x _ => hf t x ht
theorem post_sameBytes {f : Flit} (h : SameBytes r s) : SameBytes r (s.post f) := by
  unfold State.post
  split
  · exact h
  · cases e : s.sendFlit f with
    | none => exact h
    | some t =>
      obtain ⟨l, -, rfl⟩ := Option.map_eq_some_iff.1 e
      exact h
theorem sendNotice_sameBytes {who : Option Nat} {m : Master} {v : View} {b g : Nat} (h : SameBytes r s) :
    SameBytes r (s.sendNotice who m v b g) := by
  unfold State.sendNotice State.request
  split
  · split
    · exact post_sameBytes (s := (s.addRemote _ _ _ _ _).2) h
    · exact h
  · exact h
theorem advanceBlock_sameBytes {who : Option Nat} {m : Master} {b : Nat} (h : SameBytes r s) : SameBytes r (s.advanceBlock who m b) := by
  unfold State.advanceBlock
  dsimp only
  split
  · exact h
  · exact foldl_sameBytes h fun _ _ => sendNotice_sameBytes
theorem advanceLine_sameBytes (who : Option Nat) (key : Nat) (h : SameBytes r s) : SameBytes r (s.advanceLine who key) :=
  foldl_sameBytes h fun _ _ ht => foldl_sameBytes ht fun _ _ => advanceBlock_sameBytes
end

@[simp] theorem mem_advanceLine (s : State) (who : Option Nat) (key : Nat) : (s.advanceLine who key).mem = s.mem :=
  (advanceLine_sameBytes who key ⟨rfl, rfl, rfl⟩).1
@[simp] theorem plazas_advanceLine (s : State) (who : Option Nat) (key : Nat) : (s.advanceLine who key).plazas = s.plazas :=
  (advanceLine_sameBytes who key ⟨rfl, rfl, rfl⟩).2.2

/-- A line that no master owns bytes of advances none (R340). -/
theorem advanceLine_of_unowned {s : State} {key : Nat} (who : Option Nat) (h : ∀ m ∈ s.masters, m.blocksOf key = []) :
    s.advanceLine who key = s :=
  List.foldlRecOn (motive := fun t => t = s) s.masters _ rfl fun t ht m hm => by rw [ht, h m hm]; rfl

theorem mem_writeHere (s : State) (who : Option Nat) (line : Nat) (mask : BitVec 128) (data : Row) (bad : BitVec 2) (b : Nat) :
    memByte (s.writeHere who line mask data bad).mem b =
      if b / 128 = line ∧ mask.getLsbD (b % 128) = true then data.extractLsb' (8 * (b % 128)) 8 else memByte s.mem b := by
  rw [State.writeHere]
  split
  · next h => rw [h, if_neg (by simp)]
  · rw [mem_advanceLine, memByte_memPutRow]
@[simp] theorem plazas_writeHere (s : State) (who : Option Nat) (line : Nat) (mask : BitVec 128) (data : Row) (bad : BitVec 2) :
    (s.writeHere who line mask data bad).plazas = s.plazas := by
  rw [State.writeHere]
  split
  · rfl
  · exact plazas_advanceLine ..

/-- Byte b of n bytes placed in a row from the byte of their key, in the line of the key. -/
theorem row_vecPut_byte {key n v b : Nat} (hn : key % 128 + n ≤ 128) (hb : key ≤ b ∧ b < key + n) :
    (vecPut (0 : Row) (key % 128) n v).extractLsb' (8 * (b % 128)) 8 = BitVec.ofNat 8 (v / 2 ^ (8 * (b - key))) := by
  rw [extractLsb'_byte, vecBytes_vecPut_inside _ (by omega) (by omega) (by omega), show b % 128 - key % 128 = b - key by omega]
  exact BitVec.eq_of_toNat_eq (by simp)

theorem homeWrite : Claims.HomeWrite := by
  intro s p key n v b hn hline
  have hmask : (b / 128 = key / 128 ∧ (byteMask (key % 128) n).getLsbD (b % 128) = true) ↔ (key ≤ b ∧ b < key + n) := by
    rw [getLsbD_byteMask (Nat.mod_lt _ (by decide)), decide_eq_true_eq]
    omega
  rw [State.writeWord, mem_writeHere]
  refine ite_congr (propext hmask) (fun hb => row_vecPut_byte hline hb) fun _ => rfl

/-- A write of a word at its home as one write of the memory. -/
theorem memByte_writeWord {s : State} {p key n v : Nat} (hn : 0 < n) (hline : key % 128 + n ≤ 128) (b : Nat) :
    memByte (s.writeWord p key n v).mem b = memByte (memWrite s.mem key n v) b := by
  rw [homeWrite s p key n v b hn hline, memByte_memWrite]

/-! ### Values read at a home -/

/-- The bytes of a memory decide what is read of it. -/
theorem memRead_congr {m m' : List Host.Cell} {a n : Nat} (h : ∀ b, a ≤ b → b < a + n → memByte m b = memByte m' b) :
    memRead m a n = memRead m' a n := by
  induction n generalizing a with
  | zero => rfl
  | succ n ih =>
    rw [memRead, memRead, h a (Nat.le_refl _) (by omega), ih fun b hlo hhi => h b (by omega) (by omega)]

theorem memRead_lt (m : List Host.Cell) (a n : Nat) : memRead m a n < 2 ^ (8 * n) := by
  induction n generalizing a with
  | zero => exact Nat.one_pos
  | succ n ih =>
    have hb := (memByte m a).isLt
    have hr := ih (a + 1)
    rw [memRead, show 8 * (n + 1) = 8 + 8 * n by omega, Nat.pow_add]
    omega

/-- The n bytes from byte i of what is read are those read i bytes further on. -/
theorem memRead_bytes (m : List Host.Cell) (a : Nat) {i n k : Nat} (h : i + n ≤ k) :
    memRead m a k / 2 ^ (8 * i) % 2 ^ (8 * n) = memRead m (a + i) n := by
  induction i generalizing a k with
  | zero =>
    rw [Nat.mul_zero, Nat.pow_zero, Nat.div_one, Nat.add_zero]
    induction n generalizing a k with
    | zero => rw [memRead, Nat.mul_zero, Nat.pow_zero, Nat.mod_one]
    | succ n ih =>
      obtain ⟨k, rfl⟩ : ∃ j, k = j + 1 := ⟨k - 1, by omega⟩
      have hb := (memByte m a).isLt
      have hdiv : ((memByte m a).toNat + 256 * memRead m (a + 1) k) / 2 ^ 8 = memRead m (a + 1) k := by omega
      rw [memRead, memRead, ← ih (a + 1) (k := k) (by omega), show 8 * (n + 1) = 8 + 8 * n by omega, Nat.pow_add, Nat.mod_mul, hdiv]
      omega
  | succ i ih =>
    obtain ⟨k, rfl⟩ : ∃ j, k = j + 1 := ⟨k - 1, by omega⟩
    have hb := (memByte m a).isLt
    rw [show a + (i + 1) = a + 1 + i by omega, ← ih (a + 1) (k := k) (by omega), show 8 * (i + 1) = 8 + 8 * i by omega, Nat.pow_add,
      ← Nat.div_div_eq_div_mul, memRead, show (memByte m a).toNat + 256 * memRead m (a + 1) k = memRead m (a + 1) k * 2 ^ 8 + (memByte m a).toNat by omega,
      Nat.mul_comm, Nat.mul_add_div (by decide), Nat.div_eq_of_lt hb, Nat.add_zero]

/-- A word of a line at its home, read out of the line (R310). -/
theorem vecBytes_homeRow (s : State) {key n : Nat} (hline : key % 128 + n ≤ 128) :
    vecBytes (s.homeRow (key / 128)) (key % 128) n = memRead s.mem key n := by
  have hrow : (s.homeRow (key / 128)).toNat = memRead s.mem (key / 128 * 128) 128 := by
    rw [State.homeRow, BitVec.toNat_ofNat]
    exact Nat.mod_eq_of_lt (Nat.lt_of_lt_of_eq (memRead_lt s.mem _ 128) (congrArg (2 ^ ·) rfl))
  rw [vecBytes, hrow, memRead_bytes _ _ hline, show key / 128 * 128 + key % 128 = key by omega]

end Sys2Proof.Machine
end

section
/-! Acquires: LDA and WAITM (R59-R61, R317, R328). -/
namespace Sys2Proof.Machine

theorem Res.andThen_ok {α β : Type} (a : α) (s : State) (f : α → State → Res β) : (Res.ok a s).andThen f = f a s := rfl
theorem onAccess_ok {α : Type} (a : α) (s : State) (va : Word) (p c : Nat) (i : Instr) (f : α → State → Out) :
    onAccess ((Res.ok a s).at_ va) p c i f = f a s := rfl
theorem onAccess_wait {α : Type} (s : State) (va : Word) (p c : Nat) (i : Instr) (f : α → State → Out) :
    onAccess ((Res.wait s : Res α).at_ va) p c i f = .next (s.block p c i) := rfl

/-! ### Lines of this module that no plaza adds to -/

theorem mergeOwn_of_no_update {s : State} {p line : Nat} (h : (s.plaza p).hasUpdate line = false) : s.mergeOwn p line = s := by
  rw [State.mergeOwn, h]; rfl
theorem recall_of_no_update {s : State} {line : Nat} (h : ∀ q, (s.plaza q).hasUpdate line = false) : s.recall line = s :=
  List.foldlRecOn (motive := fun t => t = s) s.plazas _ rfl fun t ht x _ => by rw [ht]; exact mergeOwn_of_no_update (h x.1)
theorem keyRemote_of_near {key : Nat} (h : key < 2 ^ 45) : keyRemote key = false := by
  rw [keyRemote, keyModule, if_pos h]
theorem sharedValue_of_no_other {s : State} {p key n : Nat} (v : Nat) (h : s.privOther p (key / 128) (byteMask (key % 128) n) = false) :
    s.sharedValue p key n v = (v, s) := by
  rw [State.sharedValue, h]; rfl
/-- A word at its home that no poison touches is the n bytes there. -/
theorem takeBytes_home {s : State} {key n : Nat} (hline : key % 128 + n ≤ 128)
    (hpoison : touchesPoison (s.homePoison (key / 128)) (key % 128) n = false) :
    takeBytes (s.homeRow (key / 128)) (s.homePoison (key / 128)) key n s = .ok (memRead s.mem key n) s := by
  rw [takeBytes, hpoison, vecBytes_homeRow s hline]; rfl

/-! ### What an acquire reads, and what its self-invalidation keeps -/

theorem overlay_of_no_line {s : State} {p key n : Nat} (v : Nat) (h : ∀ lanes, ∀ x ∈ (s.plaza p).l1 lanes, x.key ≠ key / 128) :
    s.overlay p key n v = v := by
  refine List.foldlRecOn (motive := fun acc => acc = v) _ _ rfl fun acc hacc x hx => ?_
  have hne : x.key ≠ key / 128 := by
    rcases List.mem_append.1 hx with hx | hx
    · exact h false x hx
    · exact h true x hx
  rw [hacc, beq_false_of_ne hne, Bool.false_and]; rfl

theorem readHome_homeOnly {s : State} {p key n : Nat} (who : Requester) (h : s.homeOnly p key n) (hrrt : s.rrtOf key = none) :
    s.readHome who p key n = .ok (memRead s.mem key n, none) (s.refreshCopies p key n (memRead s.mem key n)) := by
  obtain ⟨hnear, hline, hpath, hupd, hpoison, hpriv, hclear⟩ := h
  have hentry : s.entryOf key = none := by rw [State.entryOf, if_neg (by omega), hrrt]; rfl
  rw [State.readHome, mergeOwn_of_no_update (hupd p), keyRemote_of_near hnear, hpath, recall_of_no_update hupd]
  simp only [Bool.false_eq_true, if_false, takeBytes_home hline hpoison, Res.andThen_ok, sharedValue_of_no_other _ hpriv, overlay_of_no_line _ hclear, hentry]

theorem refreshCopies_sameCore {r s : State} {p key n v : Nat} (h : SameCore r s) : SameCore r (s.refreshCopies p key n v) :=
  modPlaza_sameCore h fun _ => ⟨_, _, _, _, rfl⟩
theorem selfInvalidate_sameCore {r s : State} {p : Nat} (h : SameCore r s) : SameCore r (s.selfInvalidate p) :=
  modPlaza_sameCore h fun _ => ⟨_, _, _, _, rfl⟩

/-- An acquire of a word with no entry: at P nothing more, at K and D the plaza drops its clean lines. -/
theorem acquireWith_none (s : State) (p c sc : Nat) (v : Word) :
    s.acquireWith p c sc v none = .ok v (if sc = 0 then s else s.selfInvalidate p) := by
  rw [State.acquireWith]
  split <;> rfl

/-! ### The two instructions -/

section
variable {s t : State} {p c d a b k sc z o cond key : Nat} {priv : Bool}

theorem resumeAcquire_none (h : (s.ctx p c).acq = none) : s.resumeAcquire p c = none := by
  rw [State.resumeAcquire, h]; rfl

/-- The effective address of an LDA or STREL (R59). -/
def State.acquireEa (s : State) (p c a o z : Nat) : Word := s.g p c a + sext64 8 o * BitVec.ofNat 64 (sizeOf4 z)

/-- An LDA that begins and whose checks pass. -/
theorem exec_lda_start (ha : s.cur.agent = .control p c) (hc : c ≤ 5) (hacq : (s.ctx p c).acq = none)
    (hva : s.checkVa p (s.ctxPasid p c) (s.acquireEa p c a o z) (sizeOf4 z) .read = .ok (key, priv) t) :
    exec (.lda d a k sc z o) s =
      onAccess ((if sc = 0 || t.viewPage key then
          (t.readData p c (s.acquireEa p c a o z) (sizeOf4 z)).andThen fun v u => u.acquireWith p c sc (BitVec.ofNat 64 v) none
        else (t.readHome (.ctx p c) p key (sizeOf4 z)).andThen fun f u => u.acquireWith p c sc (BitVec.ofNat 64 f.1) f.2).at_
          (s.acquireEa p c a o z)) p c (.lda d a k sc z o) fun v t => .next (t.retireReg p c d v) := by
  refine (onContext_control ha (mem_allCtx hc)).trans ?_
  dsimp only
  rw [resumeAcquire_none hacq, show s.checkVa p _ (_ + _) _ _ = _ from hva]
  rfl

/-- What a WAITM reads: at P, and on a view's page, as a load; else at the home with its entry. -/
def State.waitmRead (s : State) (p c sc key : Nat) (ea : Word) (n : Nat) : Res Found :=
  if sc = 0 || s.viewPage key then (s.readData p c ea n).andThen fun v u => .ok (v, none) u else s.readHome (.ctx p c) p key n
/-- What it makes of that: the acquire where its condition is met, else its wait. -/
def State.waitmDecides (s : State) (p c sc cond z key y : Nat) (f : Found) : Res Word :=
  if waitMet cond z f.1 y then s.acquireWith p c sc (BitVec.ofNat 64 f.1) f.2
  else .wait (if sc = 0 && !s.viewPage key then s.modCtx p c fun x => { x with sleep := some (key / 128) } else s)

/-- A WAITM that begins and whose checks pass. -/
theorem exec_waitm_start (ha : s.cur.agent = .control p c) (hc : c ≤ 5) (hacq : (s.ctx p c).acq = none) (hsleep : (s.ctx p c).sleep = none)
    (hva : s.checkVa p (s.ctxPasid p c) (s.g p c a) (sizeOf4 z) .read = .ok (key, priv) t) :
    exec (.waitm d a b z sc cond) s =
      onAccess (((t.waitmRead p c sc key (s.g p c a) (sizeOf4 z)).andThen fun f u =>
        u.waitmDecides p c sc cond z key ((s.g p c b).toNat % 2 ^ (8 * sizeOf4 z)) f).at_ (s.g p c a)) p c (.waitm d a b z sc cond)
        fun v t => .next (t.retireReg p c d v) := by
  refine (onContext_control ha (mem_allCtx hc)).trans ?_
  dsimp only
  rw [hsleep]
  simp only [Option.isSome_none, Bool.and_false, Bool.false_eq_true, if_false]
  rw [resumeAcquire_none hacq, hva]
  rfl
end

/-- WAITM's comparisons, by the numbers compared. -/
theorem waitCond_iff {w cond v y : Nat} (hcond : cond < 7) (hv : v < 2 ^ w) (hy : y < 2 ^ w) :
    waitCond cond (BitVec.ofNat w v) (BitVec.ofNat w y) = true ↔
      let x := (BitVec.ofNat w v).toInt
      let u := (BitVec.ofNat w y).toInt
      (cond = 0 ∧ v = y) ∨ (cond = 1 ∧ v ≠ y) ∨ (cond = 2 ∧ u ≤ x) ∨ (cond = 3 ∧ y ≤ v) ∨ (cond = 4 ∧ x < u)
        ∨ (cond = 5 ∧ v < y) ∨ (cond = 6 ∧ v &&& y ≠ 0) := by
  have hnv : (BitVec.ofNat w v).toNat = v := Nat.mod_eq_of_lt hv
  have hny : (BitVec.ofNat w y).toNat = y := Nat.mod_eq_of_lt hy
  have heq : BitVec.ofNat w v = BitVec.ofNat w y ↔ v = y := by rw [← BitVec.toNat_inj, hnv, hny]
  have hand : BitVec.ofNat w v &&& BitVec.ofNat w y = 0#w ↔ v &&& y = 0 := by
    rw [← BitVec.toNat_inj, BitVec.toNat_and, hnv, hny]; rfl
  interval_cases cond <;>
    simp [waitCond, heq, hand, hnv, hny, BitVec.sle_iff_toInt_le, BitVec.slt_iff_toInt_lt, BitVec.ule_iff_toNat_le, BitVec.ult_iff_toNat_lt]

theorem waitMet_iff {cond z v y : Nat} (hcond : cond < 7) (hv : v < 2 ^ (8 * sizeOf4 z)) (hy : y < 2 ^ (8 * sizeOf4 z)) :
    waitMet cond z v y = true ↔ conditionHolds cond (sizeOf4 z) v y := by
  unfold waitMet sizeOf4 at *
  by_cases hz : z = 1
  · rw [if_pos hz] at hv hy ⊢
    rw [if_pos hz]
    exact waitCond_iff hcond hv hy
  · rw [if_neg hz] at hv hy ⊢
    rw [if_neg hz]
    exact waitCond_iff hcond hv hy

theorem acquireLoad : Claims.AcquireLoad := by
  intro s p c d a k sc z o key priv t ha hc hacq n ea i hva
  have he := exec_lda_start (d := d) (k := k) (sc := sc) ha hc hacq hva
  refine ⟨fun hsc v u hread => ?atP, fun hsc hview v e u hread => ?atHome⟩
  case atP =>
    rw [he, hsc, show t.readData p c (s.acquireEa p c a o z) (sizeOf4 z) = .ok v u from hread]
    rfl
  case atHome =>
    have hhome : exec i s = onAccess ((u.acquireWith p c sc (BitVec.ofNat 64 v) e).at_ ea) p c i fun v t => .next (t.retireReg p c d v) := by
      rw [he, decide_eq_false hsc, hview, show t.readHome (.ctx p c) p key (sizeOf4 z) = .ok (v, e) u from hread]
      rfl
    rw [hhome]
    refine ⟨fun he => ?_, fun pl sq he => ⟨fun hown => ?_, fun hother h1 hmod => ?_, fun hother hpub => ?_⟩⟩
    · rw [he, acquireWith_none, if_neg hsc]
      rfl
    · rw [he, State.acquireWith, if_neg hsc]
      rw [if_pos hown]
      rfl
    · have hno : ¬(sc = 2 || pl / 256 == u.dev.modNum) = true := by simp [h1, hmod]
      rw [he, State.acquireWith, if_neg hsc]
      rw [if_neg hother, if_neg hno]
      rfl
    · have hyes : (sc = 2 || pl / 256 == u.dev.modNum) = true := by simpa using hpub
      rw [he, State.acquireWith, if_neg hsc]
      rw [if_neg hother, if_pos hyes]
      rfl

/-! ### An acquire in progress -/

/-- An acquire that has performed goes on as its publish stands, whichever of the three instructions it belongs to. -/
theorem exec_resumed {s : State} {p c d a b k sc z o od op cond : Nat} {r : Res Word} (ha : s.cur.agent = .control p c) (hc : c ≤ 5)
    (hsleep : (s.ctx p c).sleep = none) (hr : s.resumeAcquire p c = some r) :
    ∀ i ∈ [Instr.lda d a k sc z o, .waitm d a b z sc cond, .amo d a b z sc od op],
      ∃ ea, exec i s = onAccess (r.at_ ea) p c i fun v t => .next (t.retireReg p c d v) := by
  have hon : ∀ f, onContext s allCtx f = f p c := fun f => onContext_control ha (mem_allCtx hc)
  simp only [List.forall_mem_cons]
  refine ⟨⟨s.acquireEa p c a o z, (hon _).trans ?_⟩, ⟨s.g p c a, (hon _).trans ?_⟩, ⟨s.g p c a, ?_⟩, List.forall_mem_nil _⟩
  · dsimp only
    rw [hr]
    rfl
  · dsimp only
    rw [hsleep]
    simp only [Option.isSome_none, Bool.and_false, Bool.false_eq_true, if_false]
    rw [hr]
  · show execAmo d a b z sc od op s = _
    rw [execAmo, ha]
    dsimp only
    rw [atomic, hon]
    dsimp only
    rw [hr]

theorem acquireEnds : Claims.AcquireEnds := by
  intro s p c d a b k sc z o od op cond v pl sq dn ha hc hsleep i hi
  have hresumed {x : Acquire} (h : (s.ctx p c).acq = some x) := exec_resumed (r := (s.resumeAcquire p c).get (by rw [State.resumeAcquire, h]; rfl))
    ha hc hsleep (Option.some_get _).symm i hi
  refine ⟨fun h => ?acknowledged, fun h => ?waiting, fun h => ?failed⟩
  all_goals
    obtain ⟨ea, he⟩ := hresumed h
    simp only [State.resumeAcquire, h, Option.map_some, Option.get_some] at he
  case acknowledged => exact he
  case waiting => exact he
  case failed => exact ⟨ea, he⟩

end Sys2Proof.Machine
end

section
/-! Acquires that complete, and what a self-invalidation drops (R58-R61, R317, R328). -/
namespace Sys2Proof.Machine

/-! ### WAITM -/

section
variable {s t u : State} {p c d a b z sc cond key : Nat} {priv : Bool} {f : Found}

/-- A WAITM that has read what meets its condition ends as its acquire does. -/
theorem exec_waitm_met (ha : s.cur.agent = .control p c) (hc : c ≤ 5) (hcond : cond < 7) (hacq : (s.ctx p c).acq = none)
    (hsleep : (s.ctx p c).sleep = none) (hva : s.checkVa p (s.ctxPasid p c) (s.g p c a) (sizeOf4 z) .read = .ok (key, priv) t)
    (hread : t.waitmRead p c sc key (s.g p c a) (sizeOf4 z) = .ok f u) (hlt : f.1 < 2 ^ (8 * sizeOf4 z))
    (hmet : conditionHolds cond (sizeOf4 z) f.1 ((s.g p c b).toNat % 2 ^ (8 * sizeOf4 z))) :
    exec (.waitm d a b z sc cond) s = onAccess ((u.acquireWith p c sc (BitVec.ofNat 64 f.1) f.2).at_ (s.g p c a)) p c (.waitm d a b z sc cond)
      fun v t => .next (t.retireReg p c d v) := by
  rw [exec_waitm_start ha hc hacq hsleep hva, hread, Res.andThen_ok, State.waitmDecides,
    if_pos ((waitMet_iff hcond hlt (Nat.mod_lt _ (Nat.two_pow_pos _))).2 hmet)]

/-- One whose condition is not met waits, at P asleep on a line that is no view's. -/
theorem exec_waitm_unmet (ha : s.cur.agent = .control p c) (hc : c ≤ 5) (hcond : cond < 7) (hacq : (s.ctx p c).acq = none)
    (hsleep : (s.ctx p c).sleep = none) (hva : s.checkVa p (s.ctxPasid p c) (s.g p c a) (sizeOf4 z) .read = .ok (key, priv) t)
    (hread : t.waitmRead p c sc key (s.g p c a) (sizeOf4 z) = .ok f u) (hlt : f.1 < 2 ^ (8 * sizeOf4 z))
    (hunmet : ¬conditionHolds cond (sizeOf4 z) f.1 ((s.g p c b).toNat % 2 ^ (8 * sizeOf4 z))) :
    exec (.waitm d a b z sc cond) s =
      .next ((if sc = 0 && !u.viewPage key then u.modCtx p c fun x => { x with sleep := some (key / 128) } else u).block p c
        (.waitm d a b z sc cond)) := by
  rw [exec_waitm_start ha hc hacq hsleep hva, hread, Res.andThen_ok, State.waitmDecides,
    if_neg (mt (waitMet_iff hcond hlt (Nat.mod_lt _ (Nat.two_pow_pos _))).1 hunmet), onAccess_wait]
end

theorem waitmLoads : Claims.WaitmLoads := by
  intro s p c d a b z cond key priv t v u ha hc hcond n y i
  refine ⟨fun hwait hsleep => ?asleep, fun hacq hsleep hva hread hlt => ?_⟩
  case asleep =>
    refine (onContext_control ha (mem_allCtx hc)).trans ?_
    dsimp only
    rw [hwait, hsleep]
    rfl
  have hfound : t.waitmRead p c 0 key (s.g p c a) (sizeOf4 z) = .ok (v, none) u := by
    rw [State.waitmRead, show t.readData p c (s.g p c a) (sizeOf4 z) = .ok v u from hread]
    rfl
  refine ⟨fun hmet => ?met, fun hunmet => ?unmet⟩
  case met =>
    refine (exec_waitm_met ha hc hcond hacq hsleep hva hfound hlt hmet).trans ?_
    rw [State.acquireWith, if_pos rfl]
    rfl
  case unmet =>
    refine (exec_waitm_unmet ha hc hcond hacq hsleep hva hfound hlt hunmet).trans ?_
    rw [decide_eq_true rfl, Bool.true_and]
    cases u.viewPage key with
    | false => rfl
    | true => rfl

/-! ### Acquires that complete at once -/

theorem vecBytes_lt {w : Nat} (x : BitVec w) (i n : Nat) : vecBytes x i n < 2 ^ (8 * n) := Nat.mod_lt _ (Nat.two_pow_pos _)

section
variable {s : State} {p c d n key : Nat} {i : Instr} {x : Line}

/-- A read of the L1D's bytes that retires with them. -/
theorem completesWith_readHit {v : Word} (hw : s.noWake p c)
    (he : exec i s = .next (((s.endRead (.ctx p c) (key / 128)).setLine p false x).retireReg p c d v)) :
    completesWith i s p c d v fun t => t.mem = s.mem := by
  have hw' : (s.endRead (.ctx p c) (key / 128)).noWake p c := hw
  exact completesWith_retireReg (noWake_setLine hw') he (.inl (ctx_setLine ..)) fun f => modCtx_mem ..

/-- A read of a word at its home that retires with it after a self-invalidation. -/
theorem completesWith_readHome {v m : Nat} {w : Word} (hw : s.noWake p c)
    (he : exec i s = .next (((s.refreshCopies p key m v).selfInvalidate p).retireReg p c d w)) :
    completesWith i s p c d w fun t => t.mem = s.mem := by
  have hcore : SameCore s ((s.refreshCopies p key m v).selfInvalidate p) := selfInvalidate_sameCore (refreshCopies_sameCore (.refl s))
  exact completesWith_retireReg (hcore.noWake hw) he (.inl (hcore.ctx p c)) fun f => modCtx_mem ..
end

theorem acquiresComplete : Claims.AcquiresComplete := by
  intro s p c d a b k sc z o cond key ha hc hw ⟨hacq, hsleep, hremotes⟩ hcond n y
  simp only [List.forall_mem_cons]
  refine ⟨fun hg => ?lda, fun hg => ?waitm, List.forall_mem_nil _⟩
  all_goals
    obtain ⟨priv, hva⟩ := checkVa_of_grants hg
    have hview : s.viewPage key = false := by
      obtain ⟨-, -, _, -, -, -, -, -, hview, -⟩ := hg
      exact hview
  case lda =>
    obtain ⟨hatP, hatHome⟩ := acquireLoad s p c d a k sc z o key priv s ha hc hacq hva
    refine ⟨fun x hsc hx _ => completesWith_readHit hw (hatP hsc _ _ (readData_hit hg hx)), fun hsc hhome hrrt _ => ?_⟩
    exact completesWith_readHome hw ((hatHome hsc hview _ _ _ (readHome_homeOnly _ hhome hrrt)).1 rfl)
  case waitm =>
    refine ⟨fun x hsc hx hmet => ?_, fun hsc hhome hrrt hmet => ?_⟩
    · subst hsc
      obtain ⟨-, hloads⟩ := waitmLoads s p c d a b z cond key priv s _ _ ha hc hcond
      exact completesWith_readHit hw ((hloads hacq hsleep hva (readData_hit hg hx) (vecBytes_lt ..)).1 hmet)
    · have hread : s.waitmRead p c sc key (s.g p c a) (sizeOf4 z) = .ok (memRead s.mem key n, none) (s.refreshCopies p key n (memRead s.mem key n)) := by
        rw [State.waitmRead, decide_eq_false hsc, hview]
        exact readHome_homeOnly _ hhome hrrt
      have he := exec_waitm_met (d := d) ha hc hcond hacq hsleep hva hread (memRead_lt ..) hmet
      rw [acquireWith_none, if_neg hsc] at he
      exact completesWith_readHome hw he

/-! ### Self-invalidation -/

/-- What a self-invalidation leaves of a data line of an L1, if anything (R317, R328). -/
def Line.invalidated (x : Line) : Option Line :=
  if x.priv then some x else if x.dirty = 0 then none else some { x with held := x.dirty }

theorem lineIn_invalidateClean {ls : List Line} {line : Nat} {x : Line} (hin : lineIn ls line = some x)
    (honly : ∀ y ∈ ls, y.key = line → y.upd = false → y = x) : lineIn (invalidateClean ls) line = x.invalidated := by
  obtain ⟨hkey, hupd⟩ := key_of_lineIn hin
  have hkeeps : ((fun y : Line => y.key == line && !y.upd) ∘ fun y => if y.priv || y.upd then y else { y with held := y.dirty }) =
      fun y => y.key == line && !y.upd := funext fun y => by rw [Function.comp_apply]; split <;> rfl
  rw [lineIn, invalidateClean, List.find?_map, hkeeps]
  by_cases hstays : (x.priv || x.upd || x.dirty != 0) = true
  · -- the line found is x: it passes the filter, and every data line of its key is x
    have hfound : (ls.filter fun y => y.priv || y.upd || y.dirty != 0).find? (fun y => y.key == line && !y.upd) = some x := by
      have hmem : x ∈ ls.filter fun y => y.priv || y.upd || y.dirty != 0 := List.mem_filter.2 ⟨List.mem_of_find?_eq_some hin, hstays⟩
      obtain ⟨y, hy⟩ : ∃ y, (ls.filter fun y => y.priv || y.upd || y.dirty != 0).find? (fun y => y.key == line && !y.upd) = some y :=
        Option.isSome_iff_exists.1 (List.find?_isSome.2 ⟨x, hmem, by simp [hkey, hupd]⟩)
      obtain ⟨hyk, hyu⟩ := key_of_lineIn hy
      rw [hy, honly y (List.mem_filter.1 (List.mem_of_find?_eq_some hy)).1 hyk hyu]
    rw [hfound, Option.map_some, Line.invalidated, hupd, Bool.or_false]
    by_cases hp : x.priv = true
    · rw [if_pos hp, if_pos hp]
    · have hd : x.dirty ≠ 0 := by simpa [hp, hupd] using hstays
      rw [if_neg hp, if_neg hp, if_neg hd]
  · have hnone : (ls.filter fun y => y.priv || y.upd || y.dirty != 0).find? (fun y => y.key == line && !y.upd) = none := by
      refine List.find?_eq_none.2 fun y hy e => hstays ?_
      simp only [Bool.and_eq_true, beq_iff_eq, Bool.not_eq_true'] at e
      obtain ⟨hy, hkept⟩ := List.mem_filter.1 hy
      rw [← honly y hy e.1 e.2]
      exact hkept
    have hx : x.priv = false ∧ x.dirty = 0 := by simpa [hupd] using hstays
    rw [hnone, Option.map_none, Line.invalidated, hx.1, hx.2]
    rfl

theorem byteAt_invalidated (x : Line) (i : Nat) : (x.invalidated.bind fun y => y.byteAt i) =
    if x.priv then x.byteAt i else if x.dirty.getLsbD i then some (x.data.extractLsb' (8 * i) 8) else none := by
  unfold Line.invalidated
  split
  · rfl
  · split
    · next h => rw [h, if_neg (by simp)]; rfl
    · rfl

theorem selfInvalidation : Claims.SelfInvalidation := by
  intro s p q lanes b t
  refine ⟨rfl, fun hq => plaza_modPlaza_ne _ _ hq, ?plaza, ?remotes, ?fills, fun x hin honly => ?bytes⟩
  case plaza =>
    rw [show t.plaza p = _ from plaza_modPlaza_self ..]
    rfl
  case remotes =>
    show List.map _ (List.map _ _) = _
    rw [List.map_map]
    refine List.map_congr_left fun r _ => ?_
    rw [Function.comp_apply]
    split <;> rfl
  case fills =>
    rw [show t.plaza p = _ from plaza_modPlaza_self ..]
    show List.map _ (List.map _ _) = _
    rw [List.map_map]
    refine List.map_congr_left fun f _ => ?_
    rw [Function.comp_apply]
    split <;> rfl
  case bytes =>
    have hl1 : (t.plaza p).l1 lanes = invalidateClean ((s.plaza p).l1 lanes) := by
      rw [show t.plaza p = _ from plaza_modPlaza_self ..]
      cases lanes <;> rfl
    rw [State.cached, hl1, lineIn_invalidateClean hin honly, byteAt_invalidated, State.cached, hin]
    rfl

/-- Settles O9: an LDA and a WAITM from their start, an acquire in progress by how its publish stands, and what the plaza drops. -/
theorem acquires : Obligations.Acquires := ⟨acquiresComplete, acquireLoad, acquireEnds, selfInvalidation, waitmLoads⟩

end Sys2Proof.Machine
end

section
/-! Releases: STREL and CKPT, and the entries that they leave (R59, R60, R76, R326, R327). -/
namespace Sys2Proof.Machine

section
variable {s t : State} {p c r a k sc z o key n v : Nat} {who : Requester} {priv : Bool}

/-- A release finds room where its word has an entry or its slice's table is not full (R327). -/
theorem rrtRoom_ok (hroom : (tabGet [] s.rrt (s.homeSlice key)).length < rrtSize ∨ (s.rrtOf key).isSome) :
    s.rrtRoom who key = .ok () (s.endHold who) := by
  have hyes : (2 ^ 45 ≤ key || ((s.endHold who).rrtOf key).isSome
      || (tabGet [] (s.endHold who).rrt ((s.endHold who).homeSlice key)).length < rrtSize) = true := by
    have hroom' : (tabGet [] (s.endHold who).rrt ((s.endHold who).homeSlice key)).length < rrtSize ∨ ((s.endHold who).rrtOf key).isSome := hroom
    rcases hroom' with h | h
    · rw [decide_eq_true h, Bool.or_true]
    · rw [h, Bool.or_true, Bool.true_or]
  rw [State.rrtRoom, if_pos hyes]

/-- A release store to a home of this module with room writes through and leaves its entry. -/
theorem releaseStore_home (hnear : key < 2 ^ 45) (hpath : s.pathDown key = false) (hupd : (s.plaza p).hasUpdate (key / 128) = false)
    (hroom : (tabGet [] s.rrt (s.homeSlice key)).length < rrtSize ∨ (s.rrtOf key).isSome) :
    s.releaseStore who p sc key n v =
      .ok () ((((s.endHold who).modPlaza p fun q => q.writeThrough key n v).writeWord p key n v).rrtRecord p key sc) := by
  rw [State.releaseStore, mergeOwn_of_no_update hupd, keyRemote_of_near hnear, hpath]
  simp only [Bool.false_eq_true, if_false, rrtRoom_ok hroom, Res.andThen_ok]

/-- A STREL whose checks pass. -/
theorem exec_strel_start (ha : s.cur.agent = .control p c) (hc : c ≤ 5)
    (hva : s.checkVa p (s.ctxPasid p c) (s.acquireEa p c a o z) (sizeOf4 z) .write = .ok (key, priv) t) :
    exec (.strel r a k sc z o) s = onAccess ((t.releaseStore (.ctx p c) p sc key (sizeOf4 z) ((s.g p c r).toNat % 2 ^ (8 * sizeOf4 z))).at_
      (s.acquireEa p c a o z)) p c (.strel r a k sc z o) fun _ t => .next (t.retire p c id) := by
  refine (onContext_control ha (mem_allCtx hc)).trans ?_
  dsimp only
  rw [show s.checkVa p _ (_ + _) _ _ = _ from hva]
  rfl

/-- A CKPT of a placement with a checkpoint word, whose checks pass. -/
theorem exec_ckpt_start (ha : s.cur.agent = .control p c) (hc : c < 3) (hword : (s.place p).ckptwa ≠ 0)
    (hva : s.checkVa p (s.ctxPasid p c) (s.place p).ckptwa 8 .write = .ok (key, priv) t) :
    exec (.ckpt a) s = onAccess ((t.releaseStore (.ctx p c) p 1 key 8 (s.g p c a).toNat).at_ (s.place p).ckptwa) p c (.ckpt a)
      fun _ t => .next (t.retire p c fun x => { x with restart := some (x.pc + 4) }) := by
  refine (onContext_control ha (by simp only [List.mem_cons, List.not_mem_nil, or_false]; omega)).trans ?_
  dsimp only
  rw [if_neg hword, hva]
  rfl
end

theorem releaseStore : Claims.ReleaseStore := by
  intro s p c r a k sc z o key priv t ha hc n ea hva hnear hpath hupd hroom
  rw [exec_strel_start ha hc hva, releaseStore_home hnear hpath hupd hroom]
  rfl

theorem checkpoint : Claims.Checkpoint := by
  intro s p c a ha hc
  refine ⟨fun hword => ?illegal, fun key hword hg hnear hpath hupd hroom => ?home, fun key priv t u hword hva hstore => ?store⟩
  case illegal =>
    refine (onContext_control ha (by simp only [List.mem_cons, List.not_mem_nil, or_false]; omega)).trans ?_
    exact if_pos hword
  case home =>
    obtain ⟨priv, hva⟩ := checkVa_of_grants hg
    dsimp only
    rw [exec_ckpt_start ha hc hword hva, releaseStore_home hnear hpath hupd hroom]
    rfl
  case store =>
    rw [exec_ckpt_start ha hc hword hva, hstore]
    rfl

/-! ### Entries -/

/-- The entries of a word's slice for the other words. -/
def State.otherEntries (s : State) (key : Nat) : List RrtEntry := (tabGet [] s.rrt (s.homeSlice key)).filter fun e => e.word != key / 8
/-- The entry that a release of plaza p leaves. -/
def State.releasedEntry (s : State) (p key scope : Nat) : RrtEntry :=
  ⟨key / 8, s.plazaId p, scope, (s.plaza p).pubBegun, 1 + listMax ((s.otherEntries key).map fun e => e.age), false⟩

theorem rrtRecord_near {s : State} {p key scope : Nat} (h : key < 2 ^ 45) : s.rrtRecord p key scope =
    { s with rrt := tabSet s.rrt (s.homeSlice key) (s.releasedEntry p key scope :: s.otherEntries key) } := by
  rw [State.rrtRecord, if_neg (by omega)]
  rfl

theorem rrtOf_rrtRecord_self {s : State} {p key scope : Nat} (h : key < 2 ^ 45) :
    (s.rrtRecord p key scope).rrtOf key = some (s.releasedEntry p key scope) := by
  rw [rrtRecord_near h]
  show (tabGet [] (tabSet s.rrt (s.homeSlice key) _) (s.homeSlice key)).find? _ = _
  rw [tabGet_tabSet_self]
  exact List.find?_cons_of_pos (beq_self_eq_true _)

theorem rrtOf_rrtRecord_ne {s : State} {p key scope k : Nat} (h : key < 2 ^ 45) (hk : k / 8 ≠ key / 8) :
    (s.rrtRecord p key scope).rrtOf k = s.rrtOf k := by
  rw [rrtRecord_near h]
  show (tabGet [] (tabSet s.rrt (s.homeSlice key) _) (s.homeSlice k)).find? _ = (tabGet [] s.rrt (s.homeSlice k)).find? _
  by_cases hslice : s.homeSlice k = s.homeSlice key
  · have hkept : (fun e : RrtEntry => decide ((e.word != key / 8) = true ∧ (e.word == k / 8) = true)) = fun e => e.word == k / 8 := by
      funext e
      by_cases he : e.word = k / 8
      · simp [he, hk]
      · simp [he]
    have hown : ¬((s.releasedEntry p key scope).word == k / 8) = true := fun e => hk (beq_iff_eq.1 e).symm
    rw [hslice, tabGet_tabSet_self]
    refine (List.find?_cons_of_neg (p := fun e : RrtEntry => e.word == k / 8) hown).trans ?_
    rw [State.otherEntries, List.find?_filter, hkept]
  · rw [tabGet_tabSet_ne _ _ _ hslice]

theorem releaseEntry : Claims.ReleaseEntry := fun s p key sc hnear =>
  ⟨⟨_, rrtOf_rrtRecord_self hnear⟩, fun _ hk => rrtOf_rrtRecord_ne hnear hk, by rw [rrtRecord_near hnear], by rw [rrtRecord_near hnear]⟩

/-- Settles O10: STREL and CKPT by the release store they make, and the entry it leaves. -/
theorem releases : Obligations.Releases := ⟨releaseStore, releaseEntry, checkpoint⟩

end Sys2Proof.Machine
end

section
/-! Atomics: STREL, AMO and CAS at the home of their word, and the commutative adds (R60, R63-R66, R253, R313, R326). -/
namespace Sys2Proof.Machine

/-! ### A word at its home, and the state that a write to it leaves to a context -/

/-- t has context c of plaza p and the wake due to its supervisor as s has. -/
def KeepsCtx (p c : Nat) (s t : State) : Prop := t.ctx p c = s.ctx p c ∧ (t.plaza p).wakeDue = (s.plaza p).wakeDue

section
variable {r s t : State} {p c key n v : Nat}

theorem KeepsCtx.trans (h : KeepsCtx p c r s) (k : KeepsCtx p c s t) : KeepsCtx p c r t := ⟨k.1.trans h.1, k.2.trans h.2⟩
theorem KeepsCtx.noWake (h : KeepsCtx p c s t) (hw : s.noWake p c) : t.noWake p c := by
  rw [State.noWake, h.1, h.2]
  exact hw
theorem SameCore.keepsCtx (h : SameCore s t) (p c : Nat) : KeepsCtx p c s t := by
  refine ⟨h.ctx p c, ?_⟩
  obtain ⟨_, _, _, _, e⟩ := h.1 p
  rw [e]
theorem keepsCtx_rrtRecord (s : State) (p c q key sc : Nat) : KeepsCtx p c s (s.rrtRecord q key sc) := by
  rw [State.rrtRecord]
  split <;> exact ⟨rfl, rfl⟩
theorem keepsCtx_of_plazas (h : t.plazas = s.plazas) : KeepsCtx p c s t := by
  rw [KeepsCtx, State.ctx, State.ctx, State.place, State.place, State.plaza, State.plaza, h]
  exact ⟨rfl, rfl⟩
/-- A context that does not sleep is as before when its plaza writes a word. -/
theorem keepsCtx_writeWord (h : (s.ctx p c).sleep = none) : KeepsCtx p c s (s.writeWord p key n v) := by
  have hwake : KeepsCtx p c s (s.wakeLine p (key / 128)) :=
    ⟨by rw [ctx_wakeLine, Ctx.wokenAt, h, if_neg (by simp)], wakeDue_wakeLine ..⟩
  exact hwake.trans (keepsCtx_of_plazas (plazas_writeHere ..))

/-- t has v in the n bytes from a home key, and every other byte at a home as s has it. -/
def leavesWord (s : State) (key n v : Nat) (t : State) : Prop :=
  memRead t.mem key n = v ∧ ∀ k, k < key ∨ key + n ≤ k → memByte t.mem k = memByte s.mem k

theorem leavesWord_of_mem (h : t.mem = s.mem) : leavesWord s key n (memRead s.mem key n) t := by
  rw [leavesWord, h]
  exact ⟨rfl, fun _ _ => rfl⟩
theorem leavesWord_writeWord (hn : 0 < n) (hline : key % 128 + n ≤ 128) (hv : v < 2 ^ (8 * n)) :
    leavesWord s key n v (s.writeWord p key n v) := by
  refine ⟨?_, fun k hk => ?_⟩
  · rw [memRead_congr fun b _ _ => memByte_writeWord hn hline b, memRead_memWrite, Nat.mod_eq_of_lt hv]
  · rw [homeWrite s p key n v k hn hline, if_neg (by omega)]
theorem leavesWord_congr {u w : State} (h : leavesWord s key n v t) (hs : s.mem = u.mem) (ht : w.mem = t.mem) : leavesWord u key n v w := by
  rw [leavesWord, ht, ← hs]
  exact h
end

/-! ### The access at the home -/

theorem atomicAtHome : Claims.AtomicAtHome := by
  intro s who p key n od sc f hrecall hnear hn hline hpoison hpriv hroom old e
  have he : s.entryOf key = e := if_neg (by omega)
  rw [State.atomicHere, hrecall, takeBytes_home hline hpoison, Res.andThen_ok, sharedValue_of_no_other _ hpriv]
  dsimp only
  rw [he]
  cases f old with
  | none => rfl
  | some v =>
    dsimp only
    by_cases hod : 2 ≤ od
    · rw [if_pos hod, if_pos hod, rrtRoom_ok (hroom.resolve_left (by omega)), Res.andThen_ok]
    · rw [if_neg hod, if_neg hod]

section
variable {s : State} {p c key n : Nat}

theorem lineIn_of_no_key {ls : List Line} {line : Nat} (h : ∀ x ∈ ls, x.key ≠ line) : lineIn ls line = none :=
  List.find?_eq_none.2 fun x hx => by simp [h x hx]
theorem writeBackIn_of_no_line {lanes : Bool} {line : Nat} (h : ∀ x ∈ (s.plaza p).l1 lanes, x.key ≠ line) : s.writeBackIn p lanes line = s := by
  rw [State.writeBackIn, lineIn_of_no_key h]

/-- The L1s of a plaza that holds nothing of a line, and its fills, after a flush of the line. -/
def Plaza.flushed (q : Plaza) (line : Nat) : Plaza :=
  (q.modBoth fun ls => ls.filter fun x => x.key != line || x.dirty != 0 || x.upd).cancelFill line

/-- The flush of a line that the plaza holds nothing of. -/
theorem flushLine_of_no_line {line : Nat} (h : ∀ lanes, ∀ x ∈ (s.plaza p).l1 lanes, x.key ≠ line)
    (hupd : (s.plaza p).hasUpdate line = false) : s.flushLine p line = s.modPlaza p fun q => q.flushed line := by
  rw [State.flushLine, State.writeBack, writeBackIn_of_no_line (h false), writeBackIn_of_no_line (h true), mergeOwn_of_no_update hupd]
  rfl

theorem l1_flushed (q : Plaza) (line : Nat) (lanes : Bool) :
    (q.flushed line).l1 lanes = (q.l1 lanes).filter fun x => x.key != line || x.dirty != 0 || x.upd := by
  cases lanes <;> rfl
theorem hasUpdate_flushed (q : Plaza) {line l : Nat} (h : q.hasUpdate l = false) : (q.flushed line).hasUpdate l = false := by
  rw [Plaza.hasUpdate, List.any_eq_false] at h ⊢
  intro x hx
  refine h x ?_
  rw [show (q.flushed line).l1d ++ (q.flushed line).l1v = (q.l1d ++ q.l1v).filter fun x => x.key != line || x.dirty != 0 || x.upd from
    (List.filter_append ..).symm] at hx
  exact (List.mem_filter.1 hx).1
theorem privOther_modPlaza (f : Plaza → Plaza) (line : Nat) (mask : BitVec 128) : (s.modPlaza p f).privOther p line mask = s.privOther p line mask :=
  any_tabSet_ne s.plazas p _ fun q => (q.2.l1d ++ q.2.l1v).any fun y => y.key == line && y.priv && y.dirty &&& mask != 0

/-- A word that lies at its home alone lies there after the flush of its line as well. -/
theorem homeOnly_flushLine (h : s.homeOnly p key n) : (s.flushLine p (key / 128)).homeOnly p key n := by
  obtain ⟨hnear, hline, hpath, hupd, hpoison, hpriv, hclear⟩ := h
  rw [flushLine_of_no_line hclear (hupd p)]
  refine ⟨hnear, hline, hpath, fun q => ?_, hpoison, by rw [privOther_modPlaza]; exact hpriv, fun lanes x hx => ?_⟩
  · by_cases hq : q = p
    · rw [hq, plaza_modPlaza_self]
      exact hasUpdate_flushed _ (hupd p)
    · rw [plaza_modPlaza_ne _ _ hq]
      exact hupd q
  · rw [plaza_modPlaza_self, l1_flushed] at hx
    exact hclear lanes x (List.mem_filter.1 hx).1

/-- The flush of a line that the plaza holds nothing of changes no byte at a home and no entry. -/
theorem home_flushLine (h : s.homeOnly p key n) :
    (s.flushLine p (key / 128)).mem = s.mem ∧ (s.flushLine p (key / 128)).rrt = s.rrt
      ∧ (s.flushLine p (key / 128)).homeSlice key = s.homeSlice key := by
  obtain ⟨-, -, -, hupd, -, -, hclear⟩ := h
  rw [flushLine_of_no_line hclear (hupd p)]
  exact ⟨rfl, rfl, rfl⟩

/-- What an atomic leaves in the state that its access began in, given the value that it stores. -/
def State.atomicLeaves (s : State) (who : Requester) (p key n od sc : Nat) : Option Nat → State
  | none => s
  | some v => if 2 ≤ od then ((s.endHold who).writeWord p key n v).rrtRecord p key sc else s.writeWord p key n v

theorem atomicAt_homeOnly {who : Requester} {op od sc : Nat} {data : List Byte} {f : Nat → Option Nat} (hn : 0 < n) (h : s.homeOnly p key n)
    (hrrt : s.rrtOf key = none) (hroom : (tabGet [] s.rrt (s.homeSlice key)).length < rrtSize) :
    s.atomicAt who p key n op od sc data f = .ok (memRead s.mem key n, none)
      ((s.flushLine p (key / 128)).atomicLeaves who p key n od sc (f (memRead s.mem key n))) := by
  obtain ⟨hmem, hentries, hslice⟩ := home_flushLine h
  obtain ⟨hnear, hline, hpath, hupd, hpoison, hpriv, -⟩ := homeOnly_flushLine h
  have hnone : (s.flushLine p (key / 128)).rrtOf key = none := by rw [State.rrtOf, hentries, hslice]; exact hrrt
  have hroom' : (tabGet [] (s.flushLine p (key / 128)).rrt ((s.flushLine p (key / 128)).homeSlice key)).length < rrtSize := by
    rw [hentries, hslice]; exact hroom
  rw [State.atomicAt, keyRemote_of_near hnear, hpath]
  simp only [Bool.false_eq_true, if_false]
  rw [atomicAtHome _ who p key n od sc f (recall_of_no_update hupd) hnear hn hline hpoison hpriv (.inr (.inl hroom')), hnone, hmem]
  cases f (memRead s.mem key n) <;> rfl

/-- It stores its value in the word and leaves every other byte. -/
theorem leavesWord_atomicLeaves {s t : State} {who : Requester} {od sc : Nat} {w : Option Nat} (hn : 0 < n) (hline : key % 128 + n ≤ 128)
    (hw : ∀ v, w = some v → v < 2 ^ (8 * n)) (hmem : t.mem = s.mem) :
    leavesWord s key n (w.getD (memRead s.mem key n)) (t.atomicLeaves who p key n od sc w) := by
  cases w with
  | none => exact leavesWord_of_mem hmem
  | some v =>
    have hv := hw v rfl
    unfold State.atomicLeaves
    dsimp only [Option.getD_some]
    split
    · refine leavesWord_congr (leavesWord_writeWord (s := t.endHold who) (p := p) hn hline hv) hmem ?_
      rw [State.rrtRecord]
      split <;> rfl
    · exact leavesWord_congr (leavesWord_writeWord (s := t) (p := p) hn hline hv) hmem rfl
theorem keepsCtx_atomicLeaves {who : Requester} {od sc : Nat} {w : Option Nat} (h : (s.ctx p c).sleep = none) :
    KeepsCtx p c s (s.atomicLeaves who p key n od sc w) := by
  cases w with
  | none => exact ⟨rfl, rfl⟩
  | some v =>
    unfold State.atomicLeaves
    dsimp only
    split
    · exact (keepsCtx_writeWord (s := s.endHold who) h).trans (keepsCtx_rrtRecord ..)
    · exact keepsCtx_writeWord h
end

/-! ### The instructions -/

section
variable {s t u : State} {p c d a b e z sc od op key n : Nat} {priv : Bool} {i : Instr} {data : List Byte} {f : Nat → Option Nat}

/-- An atomic whose checks pass and whose access answers: its acquire, where its order names one, then its register. -/
theorem atomic_answered {old : Nat} {en : Option (Nat × Nat)} (ha : s.cur.agent = .control p c) (hc : c ≤ 5) (hacq : (s.ctx p c).acq = none)
    (hva : s.checkVa p (s.ctxPasid p c) (s.g p c a) n .atomic = .ok (key, priv) t)
    (hat : t.atomicAt (.ctx p c) p key n op od sc data f = .ok (old, en) u) :
    atomic i d a n op od sc data f s =
      onAccess ((if od % 2 = 1 then u.acquireWith p c sc ((BitVec.ofNat (8 * n) old).signExtend 64) en
        else .ok ((BitVec.ofNat (8 * n) old).signExtend 64) u).at_ (s.g p c a)) p c i fun v t => .next (t.retireReg p c d v) := by
  refine (onContext_control ha (mem_allCtx hc)).trans ?_
  dsimp only
  rw [resumeAcquire_none hacq, hva]
  dsimp only
  rw [Res.andThen_ok, hat]
  rfl

theorem exec_amo (ha : s.cur.agent = .control p c) : exec (.amo d a b z sc od op) s =
    atomic (.amo d a b z sc od op) d a (sizeOf4 z) op od sc (leBytes (sizeOf4 z) ((s.g p c b).toNat % 2 ^ (8 * sizeOf4 z)))
      (fun old => some (amoValue op (sizeOf4 z) old ((s.g p c b).toNat % 2 ^ (8 * sizeOf4 z)))) s := by
  show execAmo d a b z sc od op s = _
  rw [execAmo, ha]
theorem exec_cas (ha : s.cur.agent = .control p c) : exec (.cas d a b z sc od e) s =
    atomic (.cas d a b z sc od e) d a (sizeOf4 z) 11 od sc
      (leBytes (sizeOf4 z) ((s.g p c b).toNat % 2 ^ (8 * sizeOf4 z)) ++ leBytes (sizeOf4 z) ((s.g p c e).toNat % 2 ^ (8 * sizeOf4 z)))
      (fun old => if old = (s.g p c e).toNat % 2 ^ (8 * sizeOf4 z) then some ((s.g p c b).toNat % 2 ^ (8 * sizeOf4 z)) else none) s := by
  show execCas d a b z sc od e s = _
  rw [execCas, ha]

theorem atomics : Claims.Atomics := by
  intro s p c d a b e z sc od op key priv t ha hc hacq n y x hva
  refine ⟨fun old en u hat hod => ?amo, fun old en u hat hod => ?cas⟩
  case amo =>
    refine (exec_amo ha).trans ((atomic_answered ha hc hacq hva hat).trans ?_)
    rw [if_neg (by omega)]
    rfl
  case cas =>
    refine (exec_cas ha).trans ((atomic_answered ha hc hacq hva hat).trans ?_)
    rw [if_neg (by omega)]
    rfl

/-- An atomic on a word at its home completes with the old value and leaves what it stores. -/
theorem completesWith_atomic (ha : s.cur.agent = .control p c) (hc : c ≤ 5) (hw : s.noWake p c) (hstart : s.atStart p c) (hn : 0 < n)
    (hhome : s.homeOnly p key n) (hrrt : s.rrtOf key = none) (hroom : (tabGet [] s.rrt (s.homeSlice key)).length < rrtSize)
    (hg : s.grants p c (s.g p c a) n .atomic key) (hlt : ∀ v, f (memRead s.mem key n) = some v → v < 2 ^ (8 * n))
    (he : exec i s = atomic i d a n op od sc data f s) :
    completesWith i s p c d ((BitVec.ofNat (8 * n) (memRead s.mem key n)).signExtend 64)
      (leavesWord s key n ((f (memRead s.mem key n)).getD (memRead s.mem key n))) := by
  obtain ⟨hacq, hsleep, -⟩ := hstart
  obtain ⟨priv, hva⟩ := checkVa_of_grants hg
  obtain ⟨hmem, -, -⟩ := home_flushLine hhome
  have hflush := (flushLine_sameCore (p := p) (line := key / 128) (.refl s)).keepsCtx p c
  have hline : key % 128 + n ≤ 128 := hhome.2.1
  generalize hu : (s.flushLine p (key / 128)).atomicLeaves (.ctx p c) p key n od sc (f (memRead s.mem key n)) = u
  have hkeep : KeepsCtx p c s u := hu ▸ hflush.trans (keepsCtx_atomicLeaves (by rw [hflush.1]; exact hsleep))
  have hleaves : leavesWord s key n ((f (memRead s.mem key n)).getD (memRead s.mem key n)) u := hu ▸ leavesWord_atomicLeaves hn hline hlt hmem
  have hat : s.atomicAt (.ctx p c) p key n op od sc data f = .ok (memRead s.mem key n, none) u := hu ▸ atomicAt_homeOnly hn hhome hrrt hroom
  rw [atomic_answered ha hc hacq hva hat, acquireWith_none] at he
  generalize hv : (BitVec.ofNat (8 * n) (memRead s.mem key n)).signExtend 64 = v at he
  by_cases hinv : od % 2 = 1 ∧ sc ≠ 0
  · rw [if_pos hinv.1, if_neg hinv.2] at he
    have hkeep' := hkeep.trans ((selfInvalidate_sameCore (p := p) (.refl u)).keepsCtx p c)
    exact completesWith_retireReg (hkeep'.noWake hw) he (.inl hkeep'.1) fun g => leavesWord_congr hleaves rfl (modCtx_mem ..)
  · have hsame : (if od % 2 = 1 then Res.ok v (if sc = 0 then u else u.selfInvalidate p) else .ok v u) = .ok v u := by
      by_cases hod : od % 2 = 1
      · rw [if_pos hod, if_pos (by tauto)]
      · rw [if_neg hod]
    rw [hsame] at he
    exact completesWith_retireReg (hkeep.noWake hw) he (.inl hkeep.1) fun g => leavesWord_congr hleaves rfl (modCtx_mem ..)
end

theorem amoValue_lt {op n old b : Nat} (hop : op ≤ 8) (hold : old < 2 ^ (8 * n)) (hb : b < 2 ^ (8 * n)) : amoValue op n old b < 2 ^ (8 * n) := by
  have hadd : (old + b) % 2 ^ (8 * n) < 2 ^ (8 * n) := Nat.mod_lt _ (Nat.two_pow_pos _)
  have hand : old &&& b < 2 ^ (8 * n) := Nat.and_lt_two_pow old hb
  have hor : old ||| b < 2 ^ (8 * n) := Nat.or_lt_two_pow hold hb
  have hxor : old ^^^ b < 2 ^ (8 * n) := Nat.xor_lt_two_pow hold hb
  interval_cases op <;> simp only [amoValue] <;> norm_num <;> (try split) <;> assumption

theorem sizeOf4_pos (z : Nat) : 0 < sizeOf4 z := by
  unfold sizeOf4
  split <;> decide

theorem atomicsComplete : Claims.AtomicsComplete := by
  intro s p c d a b e z sc od op key o cl ha hc hw hstart hop hhome hrrt hroom n y x old leaves
  have hn : 0 < n := sizeOf4_pos z
  have hy : y < 2 ^ (8 * n) := Nat.mod_lt _ (Nat.two_pow_pos _)
  refine ⟨fun hg => ⟨?amo, ?cas⟩, fun hg => ?strel⟩
  case amo =>
    have hlt : ∀ v, some (amoValue op n old y) = some v → v < 2 ^ (8 * n) := fun v hv => by
      rw [← Option.some.inj hv]
      exact amoValue_lt hop (memRead_lt ..) hy
    exact completesWith_atomic (f := fun old => some (amoValue op n old y)) ha hc hw hstart hn hhome hrrt hroom hg hlt (exec_amo ha)
  case cas =>
    have hlt : ∀ v, (if old = x then some y else none) = some v → v < 2 ^ (8 * n) := fun v hv => by
      obtain ⟨-, hv⟩ := Option.ite_none_right_eq_some.1 hv
      exact Option.some.inj hv ▸ hy
    have hcas := completesWith_atomic (d := d) (f := fun old => if old = x then some y else none) ha hc hw hstart hn hhome hrrt hroom hg hlt
      (exec_cas (b := b) (sc := sc) (od := od) ha)
    rw [apply_ite fun w => Option.getD w (memRead s.mem key n)] at hcas
    exact hcas
  case strel =>
    obtain ⟨hnear, hline, hpath, hupd, -, -, -⟩ := hhome
    obtain ⟨-, hsleep, -⟩ := hstart
    obtain ⟨priv, hva⟩ := checkVa_of_grants hg
    have he := releaseStore s p c b a cl sc z o key priv s ha hc hva hnear hpath (hupd p) (.inl hroom)
    let u := (s.endHold (.ctx p c)).modPlaza p fun q => q.writeThrough key n y
    have hthrough : KeepsCtx p c s u := (modPlaza_sameCore (r := s.endHold (.ctx p c)) (.refl _) fun q => ⟨_, _, _, _, rfl⟩).keepsCtx p c
    have hkeep := (hthrough.trans (keepsCtx_writeWord (key := key) (n := n) (v := y) (by rw [hthrough.1]; exact hsleep))).trans
      (keepsCtx_rrtRecord _ p c p key sc)
    refine completesWith_retire (hkeep.noWake hw) he (.inl hkeep.1) fun g => ?_
    have hmem : (((u.writeWord p key n y).rrtRecord p key sc).modCtx p c g).mem = (u.writeWord p key n y).mem := by
      rw [modCtx_mem, rrtRecord_near hnear]
    exact leavesWord_congr (leavesWord_writeWord hn hline hy) (rfl : u.mem = s.mem) hmem

/-! ### Values -/

/-- The values of the signed and unsigned minima and maxima, by number (R64). -/
theorem amoValue_bounds (n old b : Nat) :
    amoValue 5 n old b = (if sgn (8 * n) b < sgn (8 * n) old then b else old) ∧ amoValue 6 n old b = (if sgn (8 * n) old < sgn (8 * n) b then b else old)
    ∧ amoValue 7 n old b = (if b < old then b else old) ∧ amoValue 8 n old b = (if old < b then b else old) := by
  simp [amoValue]

theorem atomicValues : Claims.AtomicValues := by
  intro n hn old b f
  have hlt : ∀ x : BitVec (8 * n), BitVec.ofNat (8 * n) x.toNat = x := fun x => by simp
  have hsgn : ∀ x : BitVec (8 * n), sgn (8 * n) x.toNat = x.toInt := fun x => congrArg BitVec.toInt (hlt x)
  have hadd : BitVec.ofNat (8 * n) ((old.toNat + b.toNat) % 2 ^ (8 * n)) = old + b := BitVec.eq_of_toNat_eq (by simp)
  have hpick : ∀ q : Prop, [Decidable q] → BitVec.ofNat (8 * n) (if q then b.toNat else old.toNat) = if q then b else old := fun q _ => by
    rw [apply_ite (BitVec.ofNat (8 * n)), hlt, hlt]
  obtain ⟨hmin, hmax, hminu, hmaxu⟩ := amoValue_bounds n old.toNat b.toNat
  rw [hsgn, hsgn] at hmin hmax
  refine ⟨hlt b, hadd, ?_, ?_, ?_, ?_, ?_, ?_, ?_, hadd, fun x y => ?_⟩
  · show BitVec.ofNat _ (old.toNat &&& b.toNat) = _
    rw [← BitVec.toNat_and, hlt]
  · show BitVec.ofNat _ (old.toNat ||| b.toNat) = _
    rw [← BitVec.toNat_or, hlt]
  · show BitVec.ofNat _ (old.toNat ^^^ b.toNat) = _
    rw [← BitVec.toNat_xor, hlt]
  · exact (congrArg _ hmin).trans (hpick _)
  · exact (congrArg _ hmax).trans (hpick _)
  · exact (congrArg _ hminu).trans (hpick _)
  · exact (congrArg _ hmaxu).trans (hpick _)
  · show (fadd32 (BitVec.ofNat 32 x.toNat) (BitVec.ofNat 32 y.toNat)).toNat = _
    rw [BitVec.ofNat_toNat, BitVec.ofNat_toNat, BitVec.setWidth_eq, BitVec.setWidth_eq]

/-! ### Commutative adds -/

section
variable {s t : State} {p c a b n op key : Nat} {priv : Bool} {i : Instr}

/-- A commutative add whose checks pass, to near memory or the second tier, joins the plaza's update line. -/
theorem commutative_near (ha : s.cur.agent = .control p c) (hc : c ≤ 5) (hnear : key < 2 ^ 45)
    (hva : s.checkVa p (s.ctxPasid p c) (s.g p c a) n .atomic = .ok (key, priv) t) :
    commutative i a b n op s = .next
      ((t.addUpdate p false (key / 128) ⟨key % 128, n == 8, op == 10, BitVec.ofNat 64 ((s.g p c b).toNat % 2 ^ (8 * n))⟩).retire p c id) := by
  refine (onContext_control ha (mem_allCtx hc)).trans ?_
  dsimp only
  rw [hva, Res.andThen_ok, State.commute, if_pos hnear]
  rfl
end

theorem commutativeAdds : Claims.CommutativeAdds := by
  intro s p c a b z key priv t ha hc hnear
  have hfaddc : exec (.amoFaddc a b) s = if c = 5 || s.hasFeature p 6 then commutative (.amoFaddc a b) a b 4 10 s else .next (s.illegal p c) := by
    show execAmoFaddc a b s = _
    rw [execAmoFaddc, ha]
  refine ⟨fun hva => commutative_near ha hc hnear hva, fun hva hon => ?on, fun hc5 hoff => ?off⟩
  case on =>
    rw [hfaddc, if_pos (by simpa using hon)]
    exact commutative_near ha hc hnear hva
  case off => rw [hfaddc, if_neg (by simp [hc5, hoff])]

/-- Settles O11: an atomic from its checks to its register by its access at the home, the values it stores, and the adds that join an update line. -/
theorem atomicAccesses : Obligations.AtomicAccesses :=
  ⟨atomicsComplete, homeWrite, atomics, atomicValues, atomicAtHome, commutativeAdds⟩

end Sys2Proof.Machine
end

section
/-! Prefetches and the invalidation of instruction lines (R71-R73). -/
namespace Sys2Proof.Machine

/-! ### Prefetches -/

section
variable {s t : State} {p c a : Nat} {ea : Word} {ok : Trans → Bool} {x : Trans}

theorem hint_uncanonical (h : canonical ea = false) : s.hint p c ea ok = .ok none s := by
  rw [State.hint, h]; rfl
theorem hint_unmapped (h : canonical ea = true) (htr : s.translate p (s.ctxPasid p c) ea = .ok none t) :
    s.hint p c ea ok = .ok none (t.oldTlb s p) := by
  rw [State.hint, h, htr]; rfl
theorem hint_migrating (h : canonical ea = true) (htr : s.translate p (s.ctxPasid p c) ea = .wait t) : s.hint p c ea ok = .wait t := by
  rw [State.hint, h, htr]; rfl
theorem hint_failed {e : Cause} {f : Word} {g : Nat} (h : canonical ea = true) (htr : s.translate p (s.ctxPasid p c) ea = .fail e f g t) :
    s.hint p c ea ok = .ok none (t.oldTlb s p) := by
  rw [State.hint, h, htr]; rfl
/-- A mapping without the permission, to an absent address, or to another module where its job may not go. -/
theorem hint_barred (h : canonical ea = true) (htr : s.translate p (s.ctxPasid p c) ea = .ok (some x) t)
    (hno : ok x = false ∨ t.transAbsent x ea = true ∨ t.remoteOff p (t.ctxPasid p c) (t.transKey x ea) = true) :
    s.hint p c ea ok = .ok none (t.oldTlb s p) := by
  have hno' : (ok x && !t.transAbsent x ea && !t.remoteOff p (t.ctxPasid p c) (t.transKey x ea)) = false := by
    rcases hno with e | e | e <;> simp [e]
  rw [State.hint, h, htr]
  dsimp only
  rw [hno']
  rfl
theorem hint_usable (h : canonical ea = true) (htr : s.translate p (s.ctxPasid p c) ea = .ok (some x) t) (hok : ok x = true)
    (habs : t.transAbsent x ea = false) (hrem : t.remoteOff p (t.ctxPasid p c) (t.transKey x ea) = false) :
    s.hint p c ea ok = .ok (some (t.transKey x ea, x.priv)) t := by
  have hyes : (ok x && !t.transAbsent x ea && !t.remoteOff p (t.ctxPasid p c) (t.transKey x ea)) = true := by simp [hok, habs, hrem]
  rw [State.hint, h, htr]
  dsimp only
  rw [hyes]
  rfl

/-! The two instructions by the answer of their hint. -/

theorem exec_icpf_none (ha : s.cur.agent = .control p c) (hc : c ≤ 5) (h : s.hint p c (s.g p c a) (fun t => t.exec) = .ok none t) :
    exec (.icpf a) s = .next (t.retire p c id) := by
  refine (onContext_control ha (mem_allCtx hc)).trans ?_
  dsimp only
  rw [h]
  rfl
theorem exec_dcpf_none (ha : s.cur.agent = .control p c) (hc : c ≤ 5) (h : s.hint p c (s.g p c a) (fun t => t.read) = .ok none t) :
    exec (.dcpf a) s = .next (t.retire p c id) := by
  refine (onContext_control ha (mem_allCtx hc)).trans ?_
  dsimp only
  rw [h]
  rfl
theorem exec_prefetch_none (ha : s.cur.agent = .control p c) (hc : c ≤ 5) (h : ∀ ok, s.hint p c (s.g p c a) ok = .ok none t) :
    ∀ i ∈ [Instr.icpf a, .dcpf a], exec i s = .next (t.retire p c id) := by
  simp only [List.forall_mem_cons]
  exact ⟨exec_icpf_none ha hc (h _), exec_dcpf_none ha hc (h _), List.forall_mem_nil _⟩
theorem exec_prefetch_wait (ha : s.cur.agent = .control p c) (hc : c ≤ 5) (h : ∀ ok, s.hint p c (s.g p c a) ok = .wait t) :
    ∀ i ∈ [Instr.icpf a, .dcpf a], exec i s = .next (t.block p c i) := by
  simp only [List.forall_mem_cons]
  refine ⟨?_, ?_, List.forall_mem_nil _⟩
  all_goals
    refine (onContext_control ha (mem_allCtx hc)).trans ?_
    dsimp only
    rw [h]
    rfl

/-- An instruction line that is there, or that is being filled or fetched (R72). -/
def State.ilineComing (t : State) (p pasid line : Nat) : Bool :=
  (t.iline p pasid line).isSome || (t.plaza p).ifills.any (fun f => f.pasid == pasid && f.line == line) || t.missing p (pasid, line)
/-- A data line that is there, or that is being filled, or that is never cached (R72, R342). -/
def State.dlineComing (t : State) (p key : Nat) : Bool :=
  (lineIn (t.plaza p).l1d (key / 128)).isSome || (t.plaza p).fills.any (fun f => f.key == key / 128) || t.viewPage key
theorem ilineComing_iff {pasid line : Nat} : t.ilineComing p pasid line = true ↔ (t.iline p pasid line).isSome ∨
    (t.plaza p).ifills.any (fun f => f.pasid == pasid && f.line == line) = true ∨ t.missing p (pasid, line) = true := by
  rw [State.ilineComing, Bool.or_eq_true, Bool.or_eq_true, or_assoc]
theorem dlineComing_iff {key : Nat} : t.dlineComing p key = true ↔ (lineIn (t.plaza p).l1d (key / 128)).isSome ∨
    (t.plaza p).fills.any (fun f => f.key == key / 128) = true ∨ t.viewPage key = true := by
  rw [State.dlineComing, Bool.or_eq_true, Bool.or_eq_true, or_assoc]

theorem exec_icpf_usable (ha : s.cur.agent = .control p c) (hc : c ≤ 5) {key : Nat} {priv : Bool}
    (h : s.hint p c (s.g p c a) (fun t => t.exec) = .ok (some (key, priv)) t) :
    exec (.icpf a) s = if t.ilineComing p (s.ctxPasid p c) ((s.g p c a).toNat / 64) then .next ((t.oldTlb s p).retire p c id)
      else .next ((t.modPlaza p fun q => { q with ifills := q.ifills ++
        [⟨s.ctxPasid p c, (s.g p c a).toNat / 64, key / 64 * 64, t.dev.cycle, false⟩] }).retire p c id) := by
  refine (onContext_control ha (mem_allCtx hc)).trans ?_
  dsimp only
  rw [h]
  rfl
theorem exec_dcpf_usable (ha : s.cur.agent = .control p c) (hc : c ≤ 5) {key : Nat} {priv : Bool}
    (h : s.hint p c (s.g p c a) (fun t => t.read) = .ok (some (key, priv)) t) (hupd : (t.plaza p).hasUpdate (key / 128) = false) :
    exec (.dcpf a) s = if t.dlineComing p key then .next ((t.oldTlb s p).retire p c id)
      else .next ((t.modPlaza p fun q => { q with fills := q.fills ++ [⟨key / 128, priv, false⟩] }).retire p c id) := by
  refine (onContext_control ha (mem_allCtx hc)).trans ?_
  dsimp only
  rw [h]
  show (if (t.mergeOwn p (key / 128)).dlineComing p key then (.next (((t.mergeOwn p (key / 128)).oldTlb s p).retire p c id) : Out)
    else .next (((t.mergeOwn p (key / 128)).modPlaza p fun q => { q with fills := q.fills ++ [⟨key / 128, priv, false⟩] }).retire p c id)) = _
  rw [mergeOwn_of_no_update hupd]
end

theorem prefetches : Claims.Prefetches := by
  intro s p c a ha hc ea tr fi
  refine ⟨fun hcan => ?uncanonical, fun hcan => ⟨fun t htr => ?unmapped, fun t htr => ?migrating, fun e f g t htr => ?failed,
    fun x t htr => ⟨fun hno => ?noExec, fun hno => ?noRead, fun hexec habs => ⟨fun hthere => ?ithere, fun hrem hline hfill hmiss => ?ifill⟩,
      fun hread habs hupd => ⟨fun hthere => ?dthere, fun hthere hrem => ?dfill⟩⟩⟩⟩
  case uncanonical => exact ⟨exec_icpf_none ha hc (hint_uncanonical hcan), exec_dcpf_none ha hc (hint_uncanonical hcan)⟩
  case unmapped => exact exec_prefetch_none ha hc fun ok => hint_unmapped hcan htr
  case migrating => exact exec_prefetch_wait ha hc fun ok => hint_migrating hcan htr
  case failed => exact exec_prefetch_none ha hc fun ok => hint_failed hcan htr
  case noExec => exact exec_icpf_none ha hc (hint_barred hcan htr (hno.imp_right .inl))
  case noRead => exact exec_dcpf_none ha hc (hint_barred hcan htr (hno.imp_right .inl))
  case ithere =>
    by_cases hrem : t.remoteOff p (t.ctxPasid p c) (t.transKey x ea) = true
    · exact exec_icpf_none ha hc (hint_barred hcan htr (.inr (.inr hrem)))
    · rw [exec_icpf_usable ha hc (hint_usable hcan htr hexec habs (Bool.eq_false_of_not_eq_true hrem)), if_pos (ilineComing_iff.2 hthere)]
  case ifill =>
    rw [exec_icpf_usable ha hc (hint_usable hcan htr hexec habs hrem), if_neg]
    rw [State.ilineComing, hline, hfill, hmiss]
    exact Bool.false_ne_true
  case dthere =>
    by_cases hrem : t.remoteOff p (t.ctxPasid p c) (t.transKey x ea) = true
    · exact exec_dcpf_none ha hc (hint_barred hcan htr (.inr (.inr hrem)))
    · rw [exec_dcpf_usable ha hc (hint_usable hcan htr hread habs (Bool.eq_false_of_not_eq_true hrem)) hupd, if_pos (dlineComing_iff.2 hthere)]
  case dfill =>
    rw [exec_dcpf_usable ha hc (hint_usable hcan htr hread habs hrem) hupd, if_neg (mt dlineComing_iff.1 hthere)]

/-! ### Instruction lines -/

/-- Plaza q without the instruction lines that f names, the fills in flight of them cancelled. -/
def Plaza.dropILines (q : Plaza) (f : Nat → Nat → Bool) : Plaza :=
  { q with icache := q.icache.filter fun y => !f y.pasid y.line
           ifills := q.ifills.map fun y => if f y.pasid y.line then { y with cancelled := true } else y }

theorem plaza_dropILines (s : State) (f : Nat → Nat → Bool) (q : Nat) : (s.dropILines f).plaza q = (s.plaza q).dropILines f :=
  tabGet_map (f := fun q : Plaza => q.dropILines f) rfl s.plazas q
theorem mem_icache_dropILines {s : State} {f : Nat → Nat → Bool} {q : Nat} {y : ILine} :
    y ∈ ((s.dropILines f).plaza q).icache ↔ y ∈ (s.plaza q).icache ∧ f y.pasid y.line = false := by
  rw [plaza_dropILines]
  exact List.mem_filter.trans (and_congr_right' (by simp))

theorem icacheInvalidates : Claims.IcacheInvalidates := by
  intro s p c a ha hc
  refine ⟨fun key priv t hva => ?line, onContext_control ha (mem_allCtx hc), fun f q => ⟨fun y => mem_icache_dropILines, fun z hz hf => ?fills,
    fun r hr k hwho hk hkind hsize hf => ?fetches⟩⟩
  case line =>
    refine (onContext_control ha (mem_allCtx hc)).trans ?_
    dsimp only
    rw [hva]
    rfl
  case fills =>
    rw [plaza_dropILines] at hz
    obtain ⟨y, -, rfl⟩ := List.mem_map.1 hz
    by_cases hy : f y.pasid y.line = true
    · rw [if_pos hy]
    · rw [if_neg hy] at hf
      exact absurd hf hy
  case fetches =>
    obtain ⟨r0, -, e⟩ := List.mem_map.1 hr
    generalize hcancel : (r0.kind == 1 && r0.size == 128 && _) = cancel at e
    cases cancel with
    | true => exact e ▸ rfl
    | false =>
      have he : r0 = r := e
      rw [he, hkind, hsize] at hcancel
      dsimp only at hcancel
      rw [hwho] at hcancel
      simp [hk, hf] at hcancel

end Sys2Proof.Machine
end

section
/-! The maintenance of data lines, and the cache instructions that complete (R71-R74, R310, R316). -/
namespace Sys2Proof.Machine

/-! ### Waiting for an acknowledgement -/

section
variable {s t : State} {p c a line key : Nat} {who : Requester} {f : State → State} {priv : Bool}

/-- No writeback that `who` asked for is in progress. -/
def State.endMaintain (s : State) (who : Requester) : State :=
  { s with remotes := s.remotes.filter fun x => !(x.who == who && x.kind == 3) }
/-- A line is clean in plaza p and its writes are acknowledged (R74, R341). -/
def State.quietLine (s : State) (p line : Nat) : Prop := (s.plaza p).dirtyLine line = false ∧ s.noticesFrom p = false
/-- No writeback of the requester has failed. -/
def State.maintainSound (s : State) (who : Requester) : Prop := (s.remotes.any fun r => r.who == who && r.kind == 3 && r.failed) = false

theorem maintain_quiet (hsound : s.maintainSound who) (h : (f s).quietLine p line) :
    s.maintain who p line f = .ok () ((f s).endMaintain who) := by
  obtain ⟨hclean, hack⟩ := h
  rw [State.maintain, hsound, if_neg Bool.false_ne_true, State.acknowledged, hclean, hack]
  rfl
/-- A clean line with a write under way: the maintenance waits. -/
theorem maintain_unacknowledged (hsound : s.maintainSound who) (hclean : ((f s).plaza p).dirtyLine line = false)
    (hack : (f s).noticesFrom p = true) : ∃ t, s.maintain who p line f = .wait t := by
  rw [State.maintain, hsound, if_neg Bool.false_ne_true, State.acknowledged, hclean, hack]
  exact ⟨_, rfl⟩
/-- A context blocked in an instruction waits there. -/
theorem waits_block (s : State) (p c : Nat) (i : Instr) : ((s.block p c i).ctx p c).state = .waiting ∧ ((s.block p c i).ctx p c).wait = some i := by
  rw [State.block, ctx_modCtx_self]
  exact ⟨rfl, rfl⟩

/-- What a DCWB does to its line, and what a DCINV does to it (R74). -/
def State.cleans (s : State) (p line : Nat) : State := (s.writeBack p line).mergeOwn p line
def State.purges (s : State) (p line : Nat) : State :=
  ((s.performTouching p line).flushLine p line).cancelReads fun r => loadsFor r.who p && r.addr == line * 128

theorem exec_dcwb_start (ha : s.cur.agent = .control p c) (hc : c ≤ 5)
    (hva : s.checkVa p (s.ctxPasid p c) (s.g p c a) 0 .read = .ok (key, priv) t) :
    exec (.dcwb a) s = onAccess ((t.maintain (.ctx p c) p (key / 128) fun u => u.cleans p (key / 128)).at_ (s.g p c a)) p c (.dcwb a)
      fun _ t => .next (t.retire p c id) := by
  refine (onContext_control ha (mem_allCtx hc)).trans ?_
  dsimp only
  rw [hva]
  rfl
theorem exec_dcinv_start (ha : s.cur.agent = .control p c) (hc : c ≤ 5)
    (hva : s.checkVa p (s.ctxPasid p c) (s.g p c a) 0 .read = .ok (key, priv) t) :
    exec (.dcinv a) s = onAccess ((if t.lanesLoading p (key / 128) then .wait t
      else t.maintain (.ctx p c) p (key / 128) fun u => u.purges p (key / 128)).at_ (s.g p c a)) p c (.dcinv a)
      fun _ t => .next (t.retire p c id) := by
  refine (onContext_control ha (mem_allCtx hc)).trans ?_
  dsimp only
  rw [hva]
  rfl

/-- An instruction that maintains its line ends once that is acknowledged, and waits until then. -/
theorem maintains {i : Instr} (hsound : s.maintainSound who)
    (he : exec i t = onAccess ((s.maintain who p line f).at_ (t.g p c a)) p c i fun _ t => .next (t.retire p c id)) :
    ((f s).quietLine p line → exec i t = .next (((f s).endMaintain who).retire p c id))
    ∧ (((f s).plaza p).dirtyLine line = false → (f s).noticesFrom p = true →
      ∃ y, exec i t = .next y ∧ (y.ctx p c).state = .waiting ∧ (y.ctx p c).wait = some i) := by
  refine ⟨fun hquiet => ?_, fun hclean hack => ?_⟩
  · rw [he, maintain_quiet hsound hquiet]
    rfl
  · obtain ⟨u, hu⟩ := maintain_unacknowledged hsound hclean hack
    rw [he, hu]
    exact ⟨_, rfl, waits_block u p c i⟩
end

/-! ### Lines that have left -/

theorem fills_cancelFill (q : Plaza) (line : Nat) : (q.cancelFill line).fills.all (fun f => f.key != line || f.cancelled) = true := by
  refine List.all_eq_true.2 fun f hf => ?_
  obtain ⟨g, -, rfl⟩ := List.mem_map.1 hf
  by_cases hg : (g.key == line) = true
  · rw [if_pos hg]; simp
  · rw [if_neg hg]; simp [show g.key ≠ line by simpa using hg]
/-- After a flush a line that is not dirty is in neither L1. -/
theorem lineIn_flushed {q : Plaza} {line : Nat} (h : (q.flushed line).dirtyLine line = false) (lanes : Bool) :
    lineIn ((q.flushed line).l1 lanes) line = none := by
  refine lineIn_of_no_key fun x hx hkey => ?_
  have hkept : (x.dirty != 0 || x.upd) = true := by
    rw [l1_flushed] at hx
    simpa [hkey] using (List.mem_filter.1 hx).2
  have hmem : x ∈ (q.flushed line).l1d ++ (q.flushed line).l1v := by
    cases lanes with
    | false => exact List.mem_append_left _ hx
    | true => exact List.mem_append_right _ hx
  rw [Plaza.dirtyLine, List.any_eq_false] at h
  exact h x hmem (by rw [hkey, beq_self_eq_true, hkept]; rfl)
theorem plaza_cancelReads (s : State) (f : Remote → Bool) (p : Nat) : (s.cancelReads f).plaza p = s.plaza p := rfl
theorem noticesFrom_cancelReads (s : State) (f : Remote → Bool) (p : Nat) : (s.cancelReads f).noticesFrom p = s.noticesFrom p := by
  refine congrArg ((s.notices.any fun n => n.plaza == some p) || ·) ((List.any_map ..).trans (congrArg (List.any _) (funext fun r => ?_)))
  rw [Function.comp_apply]
  split <;> rfl
theorem mem_cancelReads (s : State) (f : Remote → Bool) : (s.cancelReads f).mem = s.mem := rfl
theorem mem_endMaintain (s : State) (who : Requester) : (s.endMaintain who).mem = s.mem := rfl
theorem plaza_endMaintain (s : State) (who : Requester) (p : Nat) : (s.endMaintain who).plaza p = s.plaza p := rfl
theorem keepsCtx_endMaintain (s : State) (p c : Nat) (who : Requester) : KeepsCtx p c s (s.endMaintain who) := ⟨rfl, rfl⟩
theorem plaza_flushLine (s : State) (p line : Nat) : (s.flushLine p line).plaza p = ((s.cleans p line).plaza p).flushed line := by
  rw [State.flushLine, plaza_modPlaza_self]
  rfl
theorem plaza_purges (s : State) (p line : Nat) :
    (s.purges p line).plaza p = (((s.performTouching p line).cleans p line).plaza p).flushed line := by
  rw [State.purges, plaza_cancelReads, plaza_flushLine]

theorem dcacheMaintenance : Claims.DcacheMaintenance := by
  intro s p c a key priv t ha hc hva hsound line u v quiet done waits
  obtain ⟨hdcwb, hdcwbWaits⟩ := maintains hsound (exec_dcwb_start ha hc hva)
  have hstart := exec_dcinv_start ha hc hva
  have hp : v.plaza p = (((t.performTouching p line).cleans p line).plaza p).flushed line := plaza_purges t p line
  refine ⟨hdcwb, hdcwbWaits, fun hload => ?dcinv, fun hload => ?loading, ?fills, fun hquiet lanes => ?gone⟩
  case dcinv =>
    rw [hload, if_neg Bool.false_ne_true] at hstart
    obtain ⟨hends, hwaits⟩ := maintains (f := fun u => u.purges p line) hsound hstart
    have hv : t.purges p line = v := rfl
    rw [hv] at hends hwaits
    exact ⟨hends, hwaits⟩
  case loading => rw [hstart, hload]; rfl
  case fills =>
    rw [hp]
    exact fills_cancelFill _ line
  case gone =>
    obtain ⟨hclean, -⟩ := hquiet
    rw [hp] at hclean ⊢
    exact lineIn_flushed hclean lanes

/-! ### A line of this module that the L1D alone has -/

section
variable {s : State} {p line : Nat} {x : Line}

/-- Plaza p's L1D has line x of this module at a home that can be reached, nothing else of the plaza has its line, and no view watches it. -/
def State.l1dAlone (s : State) (p line : Nat) (x : Line) : Prop :=
  line * 128 < 2 ^ 45 ∧ s.pathDown (line * 128) = false ∧ (s.plaza p).hasUpdate line = false ∧ lineIn (s.plaza p).l1d line = some x
    ∧ lineIn (s.plaza p).l1v line = none ∧ (∀ y ∈ (s.plaza p).l1d, y.key = line → y = x) ∧ ∀ m ∈ s.masters, m.blocksOf (line * 128) = []

/-- The memory of s with the dirty bytes of line x at its home. -/
def writtenHome (s : State) (line : Nat) (x : Line) (t : State) : Prop :=
  ∀ b, memByte t.mem b = if b / 128 = line ∧ x.dirty.getLsbD (b % 128) = true then x.data.extractLsb' (8 * (b % 128)) 8 else memByte s.mem b

theorem writtenHome_congr {t u : State} (h : writtenHome s line x t) (hm : u.mem = t.mem) : writtenHome s line x u := by
  rw [writtenHome, hm]
  exact h

theorem lanesClear_of_l1dAlone (h : s.l1dAlone p line x) : ∀ y ∈ (s.plaza p).l1v, y.key ≠ line := by
  obtain ⟨-, -, hupd, -, hlanes, -, -⟩ := h
  intro y hy hkey
  rw [Plaza.hasUpdate, List.any_eq_false] at hupd
  have hu := hupd y (List.mem_append_right _ hy)
  rw [lineIn, List.find?_eq_none] at hlanes
  exact hlanes y hy (by simpa [hkey] using hu)

theorem lineIn_cleanLine {ls : List Line} (h : lineIn ls line = some x) : lineIn (cleanLine ls line) line = some { x with dirty := 0 } := by
  have hkeeps : ((fun y : Line => y.key == line && !y.upd) ∘ fun y => if y.key == line && !y.upd then { y with dirty := 0 } else y) =
      fun y => y.key == line && !y.upd := funext fun y => by rw [Function.comp_apply]; split <;> rfl
  obtain ⟨hkey, hupd⟩ := key_of_lineIn h
  rw [lineIn, cleanLine, List.find?_map, hkeeps, ← lineIn, h, Option.map_some, hkey, hupd]
  simp

theorem clean_of_mem_cleanLine {ls : List Line} (honly : ∀ y ∈ ls, y.key = line → y = x) (hupd : x.upd = false) {y : Line}
    (hy : y ∈ cleanLine ls line) (hkey : y.key = line) : y.dirty = 0 ∧ y.upd = false := by
  obtain ⟨z, hz, rfl⟩ := List.mem_map.1 hy
  have hzkey : z.key = line := by
    split at hkey
    · exact hkey
    · exact hkey
  have hx : z = x := honly z hz hzkey
  rw [if_pos (by rw [hzkey, hx, hupd]; simp), hx]
  exact ⟨rfl, hupd⟩
/-- A line that is clean already stays as it is. -/
theorem cleanLine_of_clean {ls : List Line} (honly : ∀ y ∈ ls, y.key = line → y = x) (hclean : x.dirty = 0) : cleanLine ls line = ls := by
  refine (List.map_congr_left fun y hy => ?_).trans (List.map_id ls)
  rw [id]
  split
  · next e =>
    rw [honly y hy (by simp at e; exact e.1), ← hclean]
  · rfl

/-- The state after the dirty bytes of such a line went home: it stays, clean, and nothing else of the L1s has changed (R74, R310). -/
def cleanedHome (s : State) (p line : Nat) (x : Line) (t : State) : Prop :=
  writtenHome s line x t ∧ t.remotes = s.remotes ∧ t.notices = s.notices ∧ (t.plaza p).l1d = cleanLine (s.plaza p).l1d line
    ∧ (t.plaza p).l1v = (s.plaza p).l1v

theorem writeBackIn_l1dAlone (h : s.l1dAlone p line x) : cleanedHome s p line x (s.writeBackIn p false line) := by
  obtain ⟨hnear, hpath, -, hin, -, honly, hviews⟩ := h
  rw [State.writeBackIn, show lineIn ((s.plaza p).l1 false) line = some x from hin]
  dsimp only
  by_cases hd : x.dirty = 0
  · rw [if_pos hd]
    exact ⟨fun b => by rw [hd, if_neg (by simp)], rfl, rfl, (cleanLine_of_clean honly hd).symm, rfl⟩
  · have hwrite : s.writeLine (some p) line x.dirty x.data x.poison = some (s.writeHere (some p) line x.dirty x.data x.poison) := by
      rw [State.writeLine, if_neg hd, keyRemote_of_near hnear, if_neg Bool.false_ne_true, hpath, if_neg Bool.false_ne_true]
    have hhere : s.writeHere (some p) line x.dirty x.data x.poison =
        { s with mem := memPutRow s.mem line x.dirty x.data, poison := poisonAfter s.poison line x.dirty x.poison } := by
      rw [State.writeHere, if_neg hd]
      exact advanceLine_of_unowned _ hviews
    rw [if_neg hd, hwrite]
    dsimp only
    refine ⟨fun b => mem_writeHere s (some p) line x.dirty x.data x.poison b, ?_, ?_, ?_, ?_⟩
    · rw [hhere]; rfl
    · rw [hhere]; rfl
    · rw [plaza_modPlaza_self, hhere]; rfl
    · rw [plaza_modPlaza_self, hhere]; rfl

theorem cleans_l1dAlone (h : s.l1dAlone p line x) : cleanedHome s p line x (s.cleans p line) := by
  obtain ⟨hhome, hremotes, hnotices, hl1d, hl1v⟩ := writeBackIn_l1dAlone h
  have hupd : ((s.writeBackIn p false line).plaza p).hasUpdate line = false := by
    obtain ⟨-, -, hno, -, -, -, -⟩ := h
    rw [Plaza.hasUpdate, List.any_eq_false] at hno ⊢
    rw [hl1d, hl1v]
    intro y hy e
    simp only [Bool.and_eq_true, beq_iff_eq] at e
    rcases List.mem_append.1 hy with hy | hy
    · obtain ⟨z, hz, rfl⟩ := List.mem_map.1 hy
      have hz' := hno z (List.mem_append_left _ hz)
      split at e
      · exact hz' (by rw [Bool.and_eq_true, beq_iff_eq]; exact e)
      · exact hz' (by rw [Bool.and_eq_true, beq_iff_eq]; exact e)
    · exact hno y (List.mem_append_right _ hy) (by simp [e])
  rw [State.cleans, State.writeBack, writeBackIn_of_no_line (by rw [show ((s.writeBackIn p false line).plaza p).l1 true = _ from hl1v]; exact lanesClear_of_l1dAlone h),
    mergeOwn_of_no_update hupd]
  exact ⟨hhome, hremotes, hnotices, hl1d, hl1v⟩

variable {t : State}

theorem quietLine_of_cleanedHome (h : s.l1dAlone p line x) (hack : s.noticesFrom p = false) (ht : cleanedHome s p line x t) :
    t.quietLine p line := by
  have hlanes := lanesClear_of_l1dAlone h
  obtain ⟨-, -, -, hin, -, honly, -⟩ := h
  obtain ⟨-, hremotes, hnotices, hl1d, hl1v⟩ := ht
  refine ⟨?_, by rw [State.noticesFrom, hremotes, hnotices]; exact hack⟩
  rw [Plaza.dirtyLine, List.any_eq_false, hl1d, hl1v]
  intro y hy e
  simp only [Bool.and_eq_true, beq_iff_eq] at e
  rcases List.mem_append.1 hy with hy | hy
  · obtain ⟨hclean, hupd⟩ := clean_of_mem_cleanLine honly (key_of_lineIn hin).2 hy e.1
    simp [hclean, hupd] at e
  · exact hlanes y hy e.1

theorem performTouching_of_no_stores (h : ∀ l, (s.lane p l).stores = []) : s.performTouching p line = s := by
  refine List.foldlRecOn (motive := fun t => t = s) (s.place p).lanes _ rfl fun t ht x _ => ?_
  rw [ht, State.orderStores, h]
  rfl

/-- What a DCINV leaves of such a line: its dirty bytes at the home, and nothing in the L1s (R74). -/
theorem purges_l1dAlone (h : s.l1dAlone p line x) (hack : s.noticesFrom p = false) (hstores : ∀ l, (s.lane p l).stores = []) :
    (s.purges p line).quietLine p line ∧ writtenHome s line x (s.purges p line) ∧ ∀ lanes, lineIn (((s.purges p line).plaza p).l1 lanes) line = none := by
  have hcleaned := cleans_l1dAlone h
  obtain ⟨hclean, hquiet⟩ := quietLine_of_cleanedHome h hack hcleaned
  have hpurges : s.purges p line = ((s.cleans p line).modPlaza p fun q => q.flushed line).cancelReads
      fun r => loadsFor r.who p && r.addr == line * 128 := by
    rw [State.purges, performTouching_of_no_stores hstores]
    rfl
  have hplaza : (s.purges p line).plaza p = ((s.cleans p line).plaza p).flushed line := by
    rw [hpurges, plaza_cancelReads, plaza_modPlaza_self]
  have hdirty : ((s.purges p line).plaza p).dirtyLine line = false := by
    rw [hplaza]
    rw [Plaza.dirtyLine, List.any_eq_false] at hclean ⊢
    intro y hy
    rw [show (((s.cleans p line).plaza p).flushed line).l1d ++ (((s.cleans p line).plaza p).flushed line).l1v = _ from (List.filter_append ..).symm] at hy
    exact hclean y (List.mem_filter.1 hy).1
  obtain ⟨hhome, -, -, -, -⟩ := hcleaned
  refine ⟨⟨hdirty, ?_⟩, ?_, fun lanes => ?_⟩
  · rw [hpurges, noticesFrom_cancelReads]
    exact hquiet
  · rw [hpurges]
    exact writtenHome_congr hhome (by rw [mem_cancelReads, modPlaza_mem])
  · rw [hplaza] at hdirty ⊢
    exact lineIn_flushed hdirty lanes
end

/-! ### Instructions that complete -/

section
variable {s t : State} {p c a key : Nat} {i : Instr} {more : State → Prop}

theorem completesWith_kept (hw : s.noWake p c) (hk : KeepsCtx p c s t) (he : exec i s = .next (t.retire p c id)) (hmore : ∀ f, more (t.modCtx p c f)) :
    completesWith i s p c 0 0 more :=
  completesWith_retire (hk.noWake hw) he (.inl hk.1) hmore

theorem keepsCtx_modPlaza {f : Plaza → Plaza} (hplace : (f (s.plaza p)).place = (s.plaza p).place) (hctx5 : (f (s.plaza p)).ctx5 = (s.plaza p).ctx5)
    (hwake : (f (s.plaza p)).wakeDue = (s.plaza p).wakeDue) : KeepsCtx p c s (s.modPlaza p f) := by
  rw [KeepsCtx, State.ctx, State.ctx, State.place, State.place, plaza_modPlaza_self, hplace, hctx5, hwake]
  exact ⟨rfl, rfl⟩
theorem keepsCtx_oldTlb (s old : State) (p c : Nat) : KeepsCtx p c s (s.oldTlb old p) := keepsCtx_modPlaza rfl rfl rfl
theorem keepsCtx_dropILines (s : State) (p c : Nat) (f : Nat → Nat → Bool) : KeepsCtx p c s (s.dropILines f) := by
  rw [KeepsCtx, State.ctx, State.ctx, State.place, State.place, plaza_dropILines]
  exact ⟨rfl, rfl⟩
theorem keepsCtx_cancelReads (s : State) (p c : Nat) (f : Remote → Bool) : KeepsCtx p c s (s.cancelReads f) := keepsCtx_of_plazas rfl
theorem icache_modCtx (s : State) (p c q : Nat) (f : Ctx → Ctx) : ((s.modCtx p c f).plaza q).icache = (s.plaza q).icache := by
  by_cases hq : q = p
  · subst hq
    rw [State.modCtx]
    split <;> simp [State.modPlace]
  · rw [State.modCtx]
    split <;> simp [State.modPlace, plaza_modPlaza_ne _ _ hq]

/-- The checks of an access that needs no alignment are those of a byte. -/
theorem checkVa_unsized (s : State) (p pasid : Nat) (ea : Word) (need : Need) : s.checkVa p pasid ea 0 need = s.checkVa p pasid ea 1 need := by
  simp only [State.checkVa, Nat.mod_one]
  rfl

/-- A prefetch completes whether it starts a fill or none. -/
theorem completesWith_prefetch (ha : s.cur.agent = .control p c) (hc : c ≤ 5) (hw : s.noWake p c)
    (h : canonical (s.g p c a) = false ∨ s.translate p (s.ctxPasid p c) (s.g p c a) = .ok none s
      ∨ (s.grants p c (s.g p c a) 1 .read key ∧ (s.plaza p).hasUpdate (key / 128) = false)) :
    ∀ i ∈ [Instr.icpf a, .dcpf a], completesWith i s p c 0 0 fun t => t.mem = s.mem := by
  obtain ⟨huncanonical, hcanonical⟩ := prefetches s p c a ha hc
  have hnone : KeepsCtx p c s (s.oldTlb s p) := keepsCtx_oldTlb s s p c
  rcases h with h | h | ⟨hg, hupd⟩
  · obtain ⟨hicpf, hdcpf⟩ := huncanonical h
    simp only [List.forall_mem_cons]
    exact ⟨completesWith_kept hw ⟨rfl, rfl⟩ hicpf fun f => modCtx_mem .., completesWith_kept hw ⟨rfl, rfl⟩ hdcpf fun f => modCtx_mem ..,
      List.forall_mem_nil _⟩
  · by_cases hcan : canonical (s.g p c a) = true
    · obtain ⟨hunmapped, -⟩ := hcanonical hcan
      exact fun i hi => completesWith_kept hw hnone (hunmapped s h i hi) fun f => modCtx_mem ..
    · obtain ⟨hicpf, hdcpf⟩ := huncanonical (Bool.eq_false_of_not_eq_true hcan)
      simp only [List.forall_mem_cons]
      exact ⟨completesWith_kept hw ⟨rfl, rfl⟩ hicpf fun f => modCtx_mem .., completesWith_kept hw ⟨rfl, rfl⟩ hdcpf fun f => modCtx_mem ..,
        List.forall_mem_nil _⟩
  · obtain ⟨-, hcan, x, htr, habs, hread, rfl, hrem, hview, -⟩ := hg
    have hrem' : s.remoteOff p (s.ctxPasid p c) (s.transKey x (s.g p c a)) = false := hrem
    simp only [List.forall_mem_cons]
    refine ⟨?icpf, ?dcpf, List.forall_mem_nil _⟩
    case icpf =>
      by_cases hexec : x.exec = true
      · have he := exec_icpf_usable ha hc (hint_usable (ok := fun t => t.exec) hcan htr hexec habs hrem)
        split at he
        · exact completesWith_kept hw hnone he fun f => modCtx_mem ..
        · exact completesWith_kept hw (keepsCtx_modPlaza rfl rfl rfl) he fun f => modCtx_mem ..
      · exact completesWith_kept hw hnone (exec_icpf_none ha hc (hint_barred hcan htr (.inl (Bool.eq_false_of_not_eq_true hexec)))) fun f => modCtx_mem ..
    case dcpf =>
      have he := exec_dcpf_usable ha hc (hint_usable (ok := fun t => t.read) hcan htr hread habs hrem) hupd
      split at he
      · exact completesWith_kept hw hnone he fun f => modCtx_mem ..
      · exact completesWith_kept hw (keepsCtx_modPlaza rfl rfl rfl) he fun f => modCtx_mem ..
end

theorem cacheInstructionsComplete : Claims.CacheInstructionsComplete := by
  intro s p c a key x ha hc hw ⟨hacq, hsleep, hremotes⟩ ea line
  obtain ⟨-, hall, -⟩ := icacheInvalidates s p c a ha hc
  refine ⟨completesWith_prefetch ha hc hw, ?icinvAll, fun hg => ?icinv, fun hg hnear hpath hl1d honly hviews hack => ?data⟩
  case icinvAll =>
    refine completesWith_kept hw (keepsCtx_dropILines ..) hall fun f => ⟨modCtx_mem .., fun q y hy => ?_⟩
    rw [icache_modCtx, mem_icache_dropILines] at hy
    exact beq_eq_false_iff_ne.1 hy.2
  case icinv =>
    obtain ⟨priv, hva⟩ := checkVa_of_grants hg
    obtain ⟨hline, -⟩ := icacheInvalidates s p c a ha hc
    refine completesWith_kept hw (keepsCtx_dropILines ..) (hline key priv s ((checkVa_unsized ..).trans hva)) fun f => ⟨modCtx_mem .., fun q y hy e => ?_⟩
    rw [icache_modCtx, mem_icache_dropILines, e.1, e.2] at hy
    exact absurd hy.2 (by simp [ea])
  case data =>
    obtain ⟨priv, hva⟩ := checkVa_of_grants hg
    obtain ⟨hupd, hin, hlanes⟩ := hl1d
    have halone : s.l1dAlone p line x := ⟨by omega, hpath, hupd, hin, hlanes, honly, hviews⟩
    have hsound : (s.remotes.any fun r => r.who == .ctx p c && r.kind == 3 && r.failed) = false :=
      List.any_eq_false.2 fun r hr => by simp [hremotes r hr]
    obtain ⟨hdcwb, -, hdcinv, -⟩ := dcacheMaintenance s p c a key priv s ha hc ((checkVa_unsized ..).trans hva) hsound
    have hcleaned := cleans_l1dAlone halone
    refine ⟨?dcwb, fun hstores hload => ?dcinv⟩
    case dcwb =>
      have hkeep : KeepsCtx p c s ((s.cleans p line).endMaintain (.ctx p c)) :=
        ((mergeOwn_sameCore (writeBack_sameCore (.refl s))).keepsCtx p c).trans (keepsCtx_endMaintain ..)
      refine completesWith_kept hw hkeep (hdcwb (quietLine_of_cleanedHome halone hack hcleaned)) fun f => ⟨?_, ?_⟩
      · obtain ⟨hhome, -⟩ := hcleaned
        exact writtenHome_congr hhome ((modCtx_mem ..).trans (mem_endMaintain ..))
      · obtain ⟨-, -, -, hl1d, -⟩ := hcleaned
        rw [← lineIn_cleanLine hin, ← hl1d]
        exact congrArg (lineIn · line) ((l1_modCtx _ p c p false f).trans (congrArg (Plaza.l1 · false) (plaza_endMaintain ..)))
    case dcinv =>
      obtain ⟨hquiet, hhome, hgone⟩ := purges_l1dAlone halone hack hstores
      have hkeep : KeepsCtx p c s ((s.purges p line).endMaintain (.ctx p c)) := by
        rw [State.purges, performTouching_of_no_stores hstores]
        exact (((flushLine_sameCore (.refl s)).keepsCtx p c).trans (keepsCtx_cancelReads ..)).trans (keepsCtx_endMaintain ..)
      obtain ⟨hends, -⟩ := hdcinv hload
      refine completesWith_kept hw hkeep (hends hquiet) fun f => ⟨writtenHome_congr hhome ((modCtx_mem ..).trans (mem_endMaintain ..)), fun lanes => ?_⟩
      rw [l1_modCtx, plaza_endMaintain]
      exact hgone lanes

/-- Settles O13: prefetches by the answer of their hint, the data line's maintenance by its acknowledgement, and the lines that leave. -/
theorem cacheMaintenance : Obligations.CacheMaintenance :=
  ⟨cacheInstructionsComplete, prefetches, icacheInvalidates, dcacheMaintenance⟩

end Sys2Proof.Machine
end

section
/-! The ends of contexts, and the contexts that may not run an instruction (R75, R76, R98, R118). -/
namespace Sys2Proof.Machine

/-! ### Instructions that a context may not run -/

section
variable {s : State} {p c : Nat}

theorem onContext_illegal {legal : List Nat} {f : Nat → Nat → Out} (ha : s.cur.agent = .control p c) (h : legal.contains c = false) :
    onContext s legal f = .next (s.illegal p c) := by
  rw [onContext, ha]
  dsimp only
  rw [h]
  rfl
theorem notPlacement {c : Nat} (hc : c = 3 ∨ c = 4 ∨ c = 5) : [0, 1, 2].contains c = false := by
  rcases hc with rfl | rfl | rfl <;> decide

theorem contextLegality : Claims.ContextLegality := by
  intro s p c a b d e t u v w ha
  refine ⟨fun hc => ?placement, fun hc => ?job, fun hc => ?work, fun hc => ?launch, fun hc => ?jbar, fun h3 h4 => ?hret⟩
  case placement =>
    have h := notPlacement hc
    simp only [List.forall_mem_cons]
    exact ⟨onContext_illegal ha h, onContext_illegal ha h, onContext_illegal ha h, onContext_illegal ha h, onContext_illegal ha h,
      onContext_illegal ha h, onContext_illegal ha h, onContext_illegal ha h, onContext_illegal ha h, List.forall_mem_nil _⟩
  case job =>
    have h : jobCtx.contains c = false := by rw [hc]; decide
    simp only [List.forall_mem_cons]
    exact ⟨onContext_illegal ha h, onContext_illegal ha h, onContext_illegal ha h, onContext_illegal ha h, onContext_illegal ha h,
      onContext_illegal ha h, onContext_illegal ha h, onContext_illegal ha h, onContext_illegal ha h, onContext_illegal ha h,
      onContext_illegal ha h, onContext_illegal ha h, onContext_illegal ha h, onContext_illegal ha h, onContext_illegal ha h, onContext_illegal ha h, List.forall_mem_nil _⟩
  case work =>
    have h : jobCtx.contains c = false := by rw [hc]; decide
    simp only [List.forall_mem_cons]
    exact ⟨onContext_illegal ha h, onContext_illegal ha h, onContext_illegal ha h, onContext_illegal ha h, onContext_illegal ha h,
      onContext_illegal ha h, onContext_illegal ha h, onContext_illegal ha h, onContext_illegal ha h, onContext_illegal ha h,
      onContext_illegal ha h, onContext_illegal ha h, onContext_illegal ha h, List.forall_mem_nil _⟩
  case launch =>
    have h : [0, 1, 2, 5].contains c = false := by rcases hc with rfl | rfl <;> decide
    exact ⟨onContext_illegal ha h, onContext_illegal ha h⟩
  case jbar => exact onContext_illegal ha (notPlacement hc)
  case hret =>
    have h : [3, 4].contains c = false := by simp [h3, h4]
    exact onContext_illegal ha h
end

end Sys2Proof.Machine
end

section
/-! What a retirement leaves, a wait for it included; EXIT, HRET and WAKE (R75, R76, R89, R95, R98). -/
namespace Sys2Proof.Machine

/-! ### Retiring, with what waited for it -/

/-- A context at its boundary: a halt that waited for it has ended it (R95). -/
def Ctx.settled (x : Ctx) : Ctx :=
  match x.ending with
  | some v => x.endBy v
  | none => x

@[simp] theorem g_settled (x : Ctx) : x.settled.g = x.g := by unfold Ctx.settled; split <;> rfl
@[simp] theorem insret_settled (x : Ctx) : x.settled.insret = x.insret := by unfold Ctx.settled; split <;> rfl
@[simp] theorem reg_settled (x : Ctx) (n : Nat) : x.settled.reg n = x.reg n := by rw [Ctx.reg, g_settled]; rfl

section
variable {s : State} {p c h : Nat} {f g : Ctx → Ctx}

theorem ctx_modCtx_ne (hne : h ≠ c) : (s.modCtx p c f).ctx p h = s.ctx p h := by
  by_cases hc : c = 5
  · simp [State.modCtx, State.ctx, State.place, hc, hc ▸ hne]
  · by_cases hh : h = 5
    · simp [State.modCtx, State.modPlace, State.ctx, hc, hh]
    · simp [State.modCtx, State.modPlace, State.ctx, State.place, hc, hh, tabGet_tabSet_ne _ _ _ hne]
theorem modCtx_congr (he : f (s.ctx p c) = g (s.ctx p c)) : s.modCtx p c f = s.modCtx p c g := by
  rw [modCtx_const s p c f, modCtx_const s p c g, he]

/-- The boundary of a context below 5 (R83, R95). -/
theorem settleWake_job (hc : c ≠ 5) : s.settleWake p c = (match (s.ctx p c).ending with
    | some v => s.modCtx p c fun x => x.endBy v
    | none => s) := by
  have hno : (decide (c = 5) && (s.plaza p).wakeDue) = false := by rw [decide_eq_false hc]; rfl
  rw [State.settleWake, hno]
  exact if_neg Bool.false_ne_true
theorem settleWake_modCtx_job (hc : c ≠ 5) : (s.modCtx p c f).settleWake p c = s.modCtx p c fun x => (f x).settled := by
  rw [settleWake_job hc, ctx_modCtx_self]
  cases he : (f (s.ctx p c)).ending with
  | none => exact modCtx_congr (by rw [Ctx.settled, he])
  | some v =>
    refine (modCtx_modCtx s p c f fun x => x.endBy v).trans ?_
    exact modCtx_congr (by rw [Ctx.settled, he])
theorem retire_job (hc : c ≠ 5) : s.retire p c f = s.modCtx p c fun x => (f x).fallThrough.settled := settleWake_modCtx_job hc

/-- The waking of the supervisor changes nothing of memory, and of the contexts the state of context 5 alone (R89). -/
theorem mem_wakeSupervisor (s : State) (p : Nat) : (s.wakeSupervisor p).mem = s.mem := by
  rw [State.wakeSupervisor]
  split <;> rfl
theorem ctx_wakeSupervisor (hne : h ≠ 5) : (s.wakeSupervisor p).ctx p h = s.ctx p h := by
  rw [State.wakeSupervisor]
  split <;> simp [State.ctx, State.place, State.forgetRemotes, State.plaza, State.modPlaza, hne]
theorem g_uncount (x : Ctx) : x.uncount.g = x.g := by unfold Ctx.uncount; split <;> rfl
theorem g_wakeSupervisor (s : State) (p : Nat) : ((s.wakeSupervisor p).ctx p 5).g = (s.ctx p 5).g := by
  rw [State.wakeSupervisor]
  split
  · simp [State.ctx]
  · have he : ((s.forgetRemotes (.ctx p 5)).plaza p).ctx5 = s.ctx p 5 := rfl
    simp [State.ctx, Ctx.startTrap, g_uncount, State.forgetRemotes, State.plaza, State.modPlaza]

/-- A boundary changes neither memory, nor another context, nor the registers (R89, R95). -/
theorem mem_settleWake (s : State) (p c : Nat) : (s.settleWake p c).mem = s.mem := by
  rw [State.settleWake]
  split
  · exact mem_wakeSupervisor s p
  · split
    · exact modCtx_mem ..
    · rfl
theorem ctx_settleWake_ne (hne : h ≠ c) : (s.settleWake p c).ctx p h = s.ctx p h := by
  rw [State.settleWake]
  split
  · next hw => exact ctx_wakeSupervisor (by simp at hw; omega)
  · split
    · exact ctx_modCtx_ne hne
    · rfl
theorem g_settleWake (s : State) (p c : Nat) : ((s.settleWake p c).ctx p c).g = (s.ctx p c).g := by
  rw [State.settleWake]
  split
  · next hw =>
    obtain rfl : c = 5 := by simp at hw; exact hw.1
    exact g_wakeSupervisor s p
  · split
    · rw [ctx_modCtx_self]; rfl
    · rfl

/-- What an instruction that retires with a register leaves, whatever waited for its end. -/
theorem mem_retireReg (s : State) (p c d : Nat) (v : Word) : (s.retireReg p c d v).mem = s.mem := (mem_settleWake ..).trans (modCtx_mem ..)
theorem ctx_retireReg_ne {d : Nat} {v : Word} (hne : h ≠ c) : (s.retireReg p c d v).ctx p h = s.ctx p h :=
  (ctx_settleWake_ne hne).trans (ctx_modCtx_ne hne)
theorem g_retireReg (s : State) (p c d k : Nat) (v : Word) : (s.retireReg p c d v).g p c k = if k = d ∧ d ≠ 0 then v else s.g p c k := by
  rw [State.g, Ctx.reg, State.retireReg, State.retire, g_settleWake, ctx_modCtx_self, ← Ctx.reg, reg_fallThrough, Ctx.reg_setReg]
  rfl
end

/-! ### EXIT, HRET and WAKE -/

section
variable {s : State} {p c : Nat}

theorem ctx_startArrival (s : State) (p c : Nat) (x : Arrival) : ((s.startArrival p c x).ctx p c).state = .running
    ∧ ((s.startArrival p c x).ctx p c).pc = x.handler &&& ~~~3 ∧ (s.startArrival p c x).g p c 1 = x.loc
    ∧ (s.startArrival p c x).g p c 2 = BitVec.ofNat 64 x.len ∧ (s.startArrival p c x).g p c 3 = BitVec.ofNat 64 x.sender := by
  simp only [State.g, State.startArrival, ctx_modCtx_self]
  have hreg : ∀ (y : Ctx) (pc : Word) (f : Ctx → Ctx) k, (y.startAt pc f).reg k = (f y).reg k := fun _ _ _ _ => rfl
  simp only [hreg, Ctx.reg_setReg]
  exact ⟨rfl, rfl, by simp, by simp, by simp⟩

theorem exec_hret (ha : s.cur.agent = .control p c) (hc : c = 3 ∨ c = 4) : exec .hret s = (match ((s.retire p c id).place p).arrivals with
    | [] => .next ((s.retire p c id).modCtx p c fun x => { x with state := .dormant })
    | x :: rest => .next (((s.retire p c id).modPlace p fun q => { q with arrivals := rest }).startArrival p c x)) :=
  onContext_control ha (by rcases hc with rfl | rfl <;> decide)
theorem arrivals_retire (hc : c ≠ 5) : ((s.retire p c id).place p).arrivals = (s.place p).arrivals := by
  rw [retire_job hc, place_modCtx hc]

/-- The state that a WAKE of handler h starts from pc makes, before it retires (R76). -/
def State.wokenHandler (u : State) (p c h : Nat) (pc : Word) : State :=
  (u.modCtx p h fun x => x.startAt pc fun y => ((y.setReg 1 (BitVec.ofNat 64 c)).setReg 2 0).setReg 3 0).modPlaza p
    fun q => { q with wakeAt := u.dev.cycle + 1 }

theorem ctx_wokenHandler (u : State) (p c h : Nat) (pc : Word) : ((u.wokenHandler p c h pc).ctx p h).state = .running
    ∧ ((u.wokenHandler p c h pc).ctx p h).pc = pc ∧ (u.wokenHandler p c h pc).g p h 1 = BitVec.ofNat 64 c := by
  have hctx : (u.wokenHandler p c h pc).ctx p h = _ := (keepsCtx_modPlaza (p := p) (c := h) rfl rfl rfl).1
  rw [State.g, hctx, ctx_modCtx_self]
  have hreg : ∀ (y : Ctx) (f : Ctx → Ctx) k, (y.startAt pc f).reg k = (f y).reg k := fun _ _ _ => rfl
  simp only [hreg, Ctx.reg_setReg]
  exact ⟨rfl, rfl, by simp⟩
theorem ctx_wokenHandler_ne {u : State} {p c h k : Nat} {pc : Word} (hne : k ≠ h) : (u.wokenHandler p c h pc).ctx p k = u.ctx p k :=
  (keepsCtx_modPlaza (p := p) (c := k) rfl rfl rfl).1.trans (ctx_modCtx_ne hne)

theorem exec_wake {a b d : Nat} (ha : s.cur.agent = .control p c) (hc : c ≤ 5) (hh : (s.g p c a).toNat % 8 = 3 ∨ (s.g p c a).toNat % 8 = 4)
    (hpc : (s.g p c b).toNat % 4 = 0) : exec (.wake d a b) s =
      if (s.arrivalsFirst p).hasPlace p && ((s.arrivalsFirst p).ctx p ((s.g p c a).toNat % 8)).state == .dormant then
        .next (((s.arrivalsFirst p).wokenHandler p c ((s.g p c a).toNat % 8) (s.g p c b)).retireReg p c d 0)
      else .next ((s.arrivalsFirst p).retireReg p c d 1) := by
  refine (onContext_control ha (mem_allCtx hc)).trans ?_
  have hhandler : ((s.g p c a).toNat % 8 != 3 && (s.g p c a).toNat % 8 != 4) = false := by rcases hh with e | e <;> rw [e] <;> rfl
  have haligned : ((s.g p c b).toNat % 4 != 0) = false := by rw [hpc]; rfl
  dsimp only
  rw [hhandler, haligned]
  rfl

theorem arrivalsFirst_of_no_copies (h : ∀ q, (s.place q).copyQ = []) : s.arrivalsFirst p = s := by
  refine List.foldlRecOn (motive := fun t => t = s) s.plazas _ rfl fun t ht x _ => ?_
  rw [ht, h]
  rfl
end

theorem contextEnds : Claims.ContextEnds := by
  intro s p c a b d ha
  refine ⟨fun hc => ?exit, fun hc => ⟨fun hnone => ?dormant, fun x rest harr => ?arrival⟩, fun hc h hh h34 hne hpc => ⟨fun hplace hdormant => ?wakes,
    fun hno => ?wakesNot, arrivalsFirst_of_no_copies⟩⟩
  case exit =>
    obtain ⟨hmem, hg, -⟩ := retire_keeps (s := s) (p := p) (c := c) (by omega)
    refine ⟨_, onContext_control ha (by simp; omega), ?_⟩
    rw [ctx_modCtx_self, modCtx_mem]
    refine ⟨rfl, rfl, hg, ?_, hmem⟩
    rw [retire_job (by omega), ctx_modCtx_self]
    exact insret_settled _
  case dormant =>
    obtain ⟨hmem, hg, -⟩ := retire_keeps (s := s) (p := p) (c := c) (by omega)
    refine ⟨_, (exec_hret ha hc).trans (by rw [arrivals_retire (by omega), hnone]), ?_⟩
    rw [ctx_modCtx_self, modCtx_mem]
    exact ⟨rfl, hg, hmem⟩
  case arrival =>
    have hc5 : c ≠ 5 := by omega
    obtain ⟨hmem, -, -⟩ := retire_keeps (s := s) (p := p) (c := c) (by omega)
    refine ⟨_, (exec_hret ha hc).trans (by rw [arrivals_retire hc5, harr]), ?_, ?_, ctx_startArrival ..⟩
    · rw [State.startArrival, place_modCtx hc5, place_modPlace_self]
    · rw [State.startArrival, modCtx_mem]
      exact hmem
  case wakes =>
    have he := exec_wake (d := d) ha hc (hh ▸ h34) hpc
    rw [← hh, hplace, hdormant] at he
    obtain ⟨hstate, hwpc, hg1⟩ := ctx_wokenHandler (s.arrivalsFirst p) p c h (s.g p c b)
    have hctx : ∀ v, (((s.arrivalsFirst p).wokenHandler p c h (s.g p c b)).retireReg p c d v).ctx p h = _ := fun v => ctx_retireReg_ne hne
    refine ⟨_, he, ?_, ?_, ?_, ?_, fun k => ?_⟩
    · rw [hctx]; exact hstate
    · rw [hctx]; exact hwpc
    · rw [State.g, hctx]; exact hg1
    · exact (mem_retireReg ..).trans ((modPlaza_mem ..).trans (modCtx_mem ..))
    · rw [g_retireReg, State.g, ctx_wokenHandler_ne (Ne.symm hne)]
      rfl
  case wakesNot =>
    rw [exec_wake ha hc (hh ▸ h34) hpc, ← hh, if_neg]
    rw [Bool.and_eq_true, beq_iff_eq]
    rintro ⟨hplace, hstate⟩
    rcases hno with e | e
    · rw [e] at hplace; exact absurd hplace Bool.false_ne_true
    · exact e hstate

/-- Settles O18: the three ends by what their retirement leaves, and each instruction by the list of its contexts. -/
theorem contextEndsAndLegality : Obligations.ContextEndsAndLegality := ⟨contextEnds, contextLegality⟩

end Sys2Proof.Machine
end

section
/-! A walk looks neither at the contexts nor at what they ask of other modules (R102-R105): the state without these decides what a translation
answers. -/
namespace Sys2Proof.Machine

theorem tabErase_map {α β : Type} (g : α → β) (t : Tab α) (k : Nat) :
    tabErase (t.map fun x => (x.1, g x.2)) k = (tabErase t k).map fun x => (x.1, g x.2) := by
  induction t with
  | nil => rfl
  | cons x t ih =>
    rw [List.map_cons, tabErase, tabErase, ih]
    split <;> rfl
theorem tabInsert_map {α β : Type} (g : α → β) (t : Tab α) (k : Nat) (v : α) :
    tabInsert (t.map fun x => (x.1, g x.2)) k (g v) = (tabInsert t k v).map fun x => (x.1, g x.2) := by
  induction t with
  | nil => rfl
  | cons x t ih =>
    rw [List.map_cons, tabInsert, tabInsert, ih]
    split <;> rfl
theorem tabSet_map {α β : Type} (g : α → β) (t : Tab α) (k : Nat) (v : α) :
    tabSet (t.map fun x => (x.1, g x.2)) k (g v) = (tabSet t k v).map fun x => (x.1, g x.2) := by
  rw [tabSet, tabErase_map, tabInsert_map, tabSet]

/-- A requester that is no unit of a plaza's own: what it asks stays when the contexts are erased. -/
def lasting : Requester → Bool
  | .host => true
  | .plaza _ => true
  | _ => false
/-- The plaza and the state without what their contexts hold, and without the requests of units. -/
def Plaza.eraseCtx (q : Plaza) : Plaza := { q with ctx5 := Plaza.off.ctx5, place := { q.place with ctx := Plaza.off.place.ctx } }
def State.eraseCtx (s : State) : State :=
  { s with plazas := s.plazas.map fun x => (x.1, x.2.eraseCtx), remotes := s.remotes.filter fun r => lasting r.who }

section
variable {s : State} {p : Nat} {α : Type}

theorem plaza_eraseCtx (s : State) (p : Nat) : s.eraseCtx.plaza p = (s.plaza p).eraseCtx := tabGet_map rfl s.plazas p
theorem modPlaza_eraseCtx {f : Plaza → Plaza} (hf : f (s.plaza p).eraseCtx = (f (s.plaza p)).eraseCtx) :
    s.eraseCtx.modPlaza p f = (s.modPlaza p f).eraseCtx := by
  rw [State.modPlaza, plaza_eraseCtx, hf]
  exact congrArg (fun t => { s.eraseCtx with plazas := t }) (tabSet_map Plaza.eraseCtx s.plazas p _)
theorem eraseCtx_modPlaza_congr {f g : Plaza → Plaza} (h : (f (s.plaza p)).eraseCtx = (g (s.plaza p)).eraseCtx) :
    (s.modPlaza p f).eraseCtx = (s.modPlaza p g).eraseCtx := by
  have hset : (tabSet s.plazas p (f (s.plaza p))).map (fun x => (x.1, x.2.eraseCtx)) =
      (tabSet s.plazas p (g (s.plaza p))).map fun x => (x.1, x.2.eraseCtx) := by
    rw [← tabSet_map Plaza.eraseCtx, ← tabSet_map Plaza.eraseCtx, h]
  exact congrArg (fun t => { s.eraseCtx with plazas := t }) hset
/-- Whatever is made of a context, the rest of the state is the same. -/
theorem eraseCtx_modCtx (s : State) (p c : Nat) (f g : Ctx → Ctx) : (s.modCtx p c f).eraseCtx = (s.modCtx p c g).eraseCtx := by
  rw [State.modCtx, State.modCtx]
  split
  · exact eraseCtx_modPlaza_congr rfl
  · exact eraseCtx_modPlaza_congr rfl
theorem modL1_eraseCtx (q : Plaza) (lanes : Bool) (f : List Line → List Line) : q.eraseCtx.modL1 lanes f = (q.modL1 lanes f).eraseCtx := by
  cases lanes <;> rfl
theorem l1_eraseCtx (q : Plaza) (lanes : Bool) : q.eraseCtx.l1 lanes = q.l1 lanes := by
  cases lanes <;> rfl

theorem foldl_eraseCtx {l : List α} {f : State → α → State} {a : State} (ha : a = s.eraseCtx)
    (hf : ∀ t x, f t.eraseCtx x = (f t x).eraseCtx) : l.foldl f a = (l.foldl f s).eraseCtx := by
  rw [ha]
  exact List.foldl_hom State.eraseCtx hf

/-! Flits, notices and homes. -/

theorem post_eraseCtx (s : State) (f : Flit) : s.eraseCtx.post f = (s.post f).eraseCtx := by
  have hlink : s.eraseCtx.linkTo f.dmod = s.linkTo f.dmod := rfl
  have hemit : ∀ l, s.eraseCtx.emit l f = (s.emit l f).eraseCtx := fun _ => rfl
  unfold State.post State.sendFlit
  rw [hlink]
  dsimp only
  split
  · next h => rw [if_pos (by exact h)]; rfl
  · next h =>
    rw [if_neg (by exact h)]
    cases s.linkTo f.dmod with
    | none => rfl
    | some l => exact hemit l
theorem addRemote_eraseCtx (s : State) {who : Requester} (hw : lasting who = true) (kind addr size : Nat) (data : List Byte) :
    s.eraseCtx.addRemote who kind addr size data = ((s.addRemote who kind addr size data).1, (s.addRemote who kind addr size data).2.eraseCtx) := by
  have hfilter : ∀ r : Remote, r.who = who → (s.remotes ++ [r]).filter (fun r => lasting r.who) = s.remotes.filter (fun r => lasting r.who) ++ [r] :=
    fun r hr => by rw [List.filter_append, List.filter_singleton, hr, hw]; rfl
  exact congrArg (fun l => (s.fresh + 1, { (s.addRemote who kind addr size data).2.eraseCtx with remotes := l }))
    (hfilter ⟨s.fresh + 1, who, kind, addr, size, data, none, false, false, s.dev.ns⟩ rfl).symm
theorem request_eraseCtx (s : State) {who : Requester} (hw : lasting who = true) (kind addr size : Nat) (data : List Byte) (f : Flit) :
    s.eraseCtx.request who kind addr size data f =
      ((s.request who kind addr size data f).1, (s.request who kind addr size data f).2.eraseCtx) := by
  unfold State.request
  rw [addRemote_eraseCtx s hw]
  exact congrArg (Prod.mk _) (post_eraseCtx (s.addRemote who kind addr size data).2 _)
theorem lasting_writer (who : Option Nat) : lasting (writer who) = true := by
  cases who <;> rfl
theorem sendNotice_eraseCtx (who : Option Nat) (m : Master) (b g : Nat) (s : State) (v : View) :
    s.eraseCtx.sendNotice who m v b g = (s.sendNotice who m v b g).eraseCtx := by
  unfold State.sendNotice
  split
  · split
    · rw [request_eraseCtx s rfl]
      rfl
    · rfl
  · rfl
theorem advanceBlock_eraseCtx (who : Option Nat) (m : Master) (s : State) (b : Nat) :
    s.eraseCtx.advanceBlock who m b = (s.advanceBlock who m b).eraseCtx := by
  unfold State.advanceBlock
  dsimp only
  rw [show s.eraseCtx.viewsOf m = s.viewsOf m from rfl]
  split
  · rfl
  · generalize (tabGet 0 m.gens b + 1) % 2 ^ 32 = g
    exact foldl_eraseCtx (f := fun t v => t.sendNotice who m v b g) rfl (sendNotice_eraseCtx who m b g)
theorem advanceLine_eraseCtx (who : Option Nat) (key : Nat) (s : State) : s.eraseCtx.advanceLine who key = (s.advanceLine who key).eraseCtx :=
  foldl_eraseCtx rfl fun _ m => foldl_eraseCtx (f := fun u b => u.advanceBlock who m b) rfl (advanceBlock_eraseCtx who m)

/-! Lines of the L1s. -/

/-- The state with other bytes at the homes. -/
def State.withBytes (s : State) (m : List Host.Cell) (poison : List Nat) : State := { s with mem := m, poison := poison }
theorem withBytes_eraseCtx (s : State) (m : List Host.Cell) (poison : List Nat) : s.eraseCtx.withBytes m poison = (s.withBytes m poison).eraseCtx := rfl
theorem writeHere_eq (s : State) (who : Option Nat) (line : Nat) (mask : BitVec 128) (data : Row) (bad : BitVec 2) :
    s.writeHere who line mask data bad = if mask = 0 then s
      else (s.withBytes (memPutRow s.mem line mask data) (poisonAfter s.poison line mask bad)).advanceLine who (line * 128) := rfl
theorem writeHere_eraseCtx (s : State) (who : Option Nat) (line : Nat) (mask : BitVec 128) (data : Row) (bad : BitVec 2) :
    s.eraseCtx.writeHere who line mask data bad = (s.writeHere who line mask data bad).eraseCtx := by
  rw [writeHere_eq, writeHere_eq, withBytes_eraseCtx, advanceLine_eraseCtx, apply_ite State.eraseCtx]
  rfl
theorem writeLine_eraseCtx (s : State) (who : Option Nat) (line : Nat) (mask : BitVec 128) (data : Row) (bad : BitVec 2) :
    s.eraseCtx.writeLine who line mask data bad = (s.writeLine who line mask data bad).map State.eraseCtx := by
  unfold State.writeLine
  rw [show s.eraseCtx.pathDown (line * 128) = s.pathDown (line * 128) from rfl, writeHere_eraseCtx]
  split
  · rfl
  · split
    · split
      · dsimp only
        rw [request_eraseCtx s (lasting_writer who)]
        rfl
      · rfl
    · split <;> rfl
theorem writeBackIn_eraseCtx (s : State) (p : Nat) (lanes : Bool) (line : Nat) :
    s.eraseCtx.writeBackIn p lanes line = (s.writeBackIn p lanes line).eraseCtx := by
  unfold State.writeBackIn
  rw [plaza_eraseCtx, l1_eraseCtx]
  split
  · rfl
  · split
    · rfl
    · next x _ _ =>
      rw [writeLine_eraseCtx]
      cases s.writeLine (some p) line x.dirty x.data x.poison with
      | none => rfl
      | some t => exact modPlaza_eraseCtx (modL1_eraseCtx ..)
theorem writeBack_eraseCtx (s : State) (p line : Nat) : s.eraseCtx.writeBack p line = (s.writeBack p line).eraseCtx := by
  rw [State.writeBack, writeBackIn_eraseCtx, writeBackIn_eraseCtx, State.writeBack]
/-- The sums of one update line reach the home (R65). -/
def State.mergeSums (p line : Nat) (s : State) (x : Line) : State :=
  ({ s with mem := x.sums.foldl (fun m u => applyUpdate m line u) s.mem } : State).advanceLine (some p) (line * 128)
theorem mergeSums_eraseCtx (p line : Nat) (s : State) (x : Line) : s.eraseCtx.mergeSums p line x = (s.mergeSums p line x).eraseCtx :=
  advanceLine_eraseCtx (some p) (line * 128) ({ s with mem := x.sums.foldl (fun m u => applyUpdate m line u) s.mem } : State)
/-- A plaza that has dropped every copy of a line. -/
def Plaza.dropped (q : Plaza) (line : Nat) : Plaza := (q.modBoth fun ls => dropLine ls line).cancelFill line
theorem dropped_eraseCtx (q : Plaza) (line : Nat) : q.eraseCtx.dropped line = (q.dropped line).eraseCtx := rfl
theorem mergeLine_eq (s : State) (p line : Nat) : s.mergeLine p line = if s.pathDown (line * 128) then s else
    (((((s.writeBack p line).plaza p).l1d ++ ((s.writeBack p line).plaza p).l1v).filter fun x => x.key == line && x.upd).foldl
      (State.mergeSums p line) (s.writeBack p line)).modPlaza p fun q => q.dropped line := rfl
theorem mergeLine_eraseCtx (s : State) (p line : Nat) : s.eraseCtx.mergeLine p line = (s.mergeLine p line).eraseCtx := by
  rw [mergeLine_eq, mergeLine_eq, show s.eraseCtx.pathDown (line * 128) = s.pathDown (line * 128) from rfl, writeBack_eraseCtx, plaza_eraseCtx]
  split
  · rfl
  · rw [foldl_eraseCtx rfl (mergeSums_eraseCtx p line)]
    exact modPlaza_eraseCtx (dropped_eraseCtx _ line)
theorem mergeOwn_eraseCtx (s : State) (p line : Nat) : s.eraseCtx.mergeOwn p line = (s.mergeOwn p line).eraseCtx := by
  unfold State.mergeOwn
  rw [plaza_eraseCtx, mergeLine_eraseCtx, show (s.plaza p).eraseCtx.hasUpdate line = (s.plaza p).hasUpdate line from rfl]
  split <;> rfl
theorem recall_eraseCtx (s : State) (line : Nat) : s.eraseCtx.recall line = (s.recall line).eraseCtx := by
  unfold State.recall
  rw [show s.eraseCtx.plazas = s.plazas.map fun x => (x.1, x.2.eraseCtx) from rfl, List.foldl_map]
  exact foldl_eraseCtx (f := fun t (x : Nat × Plaza) => t.mergeOwn x.1 line) rfl fun t x => mergeOwn_eraseCtx t x.1 line

/-! Walks. -/

/-- A walk's answer and the state that it leaves, without the contexts. -/
def eraseWalk (x : Walk × State) : Walk × State := (x.1, x.2.eraseCtx)

theorem readTable_eraseCtx (s : State) (key n : Nat) : s.eraseCtx.readTable key n = ((s.readTable key n).1, (s.readTable key n).2.eraseCtx) := by
  rw [State.readTable, recall_eraseCtx]
  rfl
theorem walkDevice_eraseCtx (s : State) (va l table : Nat) : s.eraseCtx.walkDevice va l table = eraseWalk (s.walkDevice va l table) := by
  induction l generalizing s table with
  | zero =>
    rw [walkDevice_zero, walkDevice_zero]
    rw [readTable_eraseCtx, apply_ite eraseWalk, apply_ite eraseWalk]
    rfl
  | succ k ih =>
    rw [walkDevice_succ, walkDevice_succ]
    rw [readTable_eraseCtx, ih, apply_ite eraseWalk, apply_ite eraseWalk, apply_ite eraseWalk, apply_ite eraseWalk]
    rfl
theorem walkHost_eraseCtx (s : State) (host d va l table : Nat) :
    s.eraseCtx.walkHost host d va l table = eraseWalk (s.walkHost host d va l table) := by
  induction l generalizing s table with
  | zero =>
    unfold State.walkHost
    dsimp only
    rw [readTable_eraseCtx, apply_ite eraseWalk, apply_ite eraseWalk]
    rfl
  | succ k ih =>
    unfold State.walkHost
    dsimp only
    rw [readTable_eraseCtx, apply_ite eraseWalk, apply_ite eraseWalk, ← ih]
    rfl
theorem walk_eraseCtx (s : State) (pasid : Nat) (va : Word) : s.eraseCtx.walk pasid va = eraseWalk (s.walk pasid va) := by
  unfold State.walk
  dsimp only
  rw [readTable_eraseCtx]
  dsimp only
  rw [readTable_eraseCtx]
  dsimp only
  rw [walkHost_eraseCtx, walkDevice_eraseCtx, apply_ite eraseWalk, apply_ite eraseWalk, apply_ite eraseWalk, apply_ite eraseWalk, apply_ite eraseWalk]
  rfl

/-- An access with the contexts of its state erased. -/
def Res.eraseCtx {α : Type} : Res α → Res α
  | .ok a s => .ok a s.eraseCtx
  | .wait s => .wait s.eraseCtx
  | .fail c x y s => .fail c x y s.eraseCtx

theorem translate_eraseCtx (s : State) (p pasid : Nat) (va : Word) : s.eraseCtx.translate p pasid va = (s.translate p pasid va).eraseCtx := by
  have hjob : s.eraseCtx.jobOn p = s.jobOn p := by
    rw [State.jobOn, State.jobOn, State.hasPlace, State.hasPlace, State.place, State.place, plaza_eraseCtx]
    rfl
  have hhit : s.eraseCtx.tlbHit p pasid va = s.tlbHit p pasid va := by
    rw [State.tlbHit, State.tlbHit, plaza_eraseCtx]
    rfl
  unfold State.translate
  rw [hjob, show ∀ j, s.eraseCtx.codeMap j pasid va.toNat = s.codeMap j pasid va.toNat from fun _ => rfl, hhit, walk_eraseCtx]
  cases s.codeMap (s.jobOn p) pasid va.toNat with
  | some m => rfl
  | none =>
    cases s.tlbHit p pasid va with
    | some t => rfl
    | none =>
      obtain ⟨w, u⟩ := s.walk pasid va
      cases w with
      | ok t => exact congrArg (Res.ok (some t)) (modPlaza_eraseCtx rfl)
      | none => rfl
      | migrating => rfl
/-- Whether a write in the runtime's address space would wait does not depend on the contexts (R117). -/
theorem slotStalls_eraseCtx (s : State) (p : Nat) (va : Word) : s.eraseCtx.slotStalls p va = s.slotStalls p va := by
  unfold State.slotStalls
  rw [translate_eraseCtx]
  dsimp only [State.eraseCtx]
  cases s.translate p s.runtime va <;> rfl
theorem slotStalls_modCtx (s : State) (p c : Nat) (f g : Ctx → Ctx) (va : Word) : (s.modCtx p c f).slotStalls p va = (s.modCtx p c g).slotStalls p va := by
  rw [← slotStalls_eraseCtx, eraseCtx_modCtx s p c f g, slotStalls_eraseCtx]
end

end Sys2Proof.Machine
end

section
/-! Traps: TRAP and TBR, the trap of a context below 5, and the fault of context 5 (R76, R83, R87-R92). -/
namespace Sys2Proof.Machine

/-! ### A context that stops -/

/-- A context that a trap stops at the record's pc (R83, R87). -/
def Ctx.stopsAt (x : Ctx) (pc : Word) : Ctx :=
  { x.uncount with state := .trapped, pc := pc, wait := none, acq := none, delays := [], sync := [] }

theorem ending_uncount (x : Ctx) : x.uncount.ending = x.ending := by
  unfold Ctx.uncount
  split <;> rfl
theorem g_stopsAt (x : Ctx) (pc : Word) : (x.stopsAt pc).g = x.g := g_uncount x

section
variable {s u : State} {p c : Nat} {r x : Record}

theorem plaza_modCtx_job {f : Ctx → Ctx} (hc : c ≠ 5) : (s.modCtx p c f).plaza p =
    { s.plaza p with place := { s.place p with ctx := tabSet (s.place p).ctx c (f (tabGet (Ctx.off .ended) (s.place p).ctx c)) } } := by
  rw [State.modCtx, if_neg hc]
  exact plaza_modPlaza_self ..

/-- The state in which the trap of a context below 5 is delivered. -/
def State.stopCtx (s : State) (p c : Nat) (pc : Word) : State := s.modCtx p c fun x => x.stopsAt pc

theorem takeTrap_job (hc : c ≠ 5) (hend : (s.ctx p c).ending = none) : s.takeTrap p c r = (s.stopCtx p c r.pc).deliver p r := by
  have hsettled : (s.modCtx p c fun x => (x.stopsAt r.pc).settled) = s.stopCtx p c r.pc :=
    modCtx_congr (by rw [Ctx.settled, show ((s.ctx p c).stopsAt r.pc).ending = none from (ending_uncount _).trans hend])
  rw [State.takeTrap, if_neg hc, ← hsettled]
  exact congrArg (State.deliver · p r) (settleWake_modCtx_job hc)
theorem halted_stopCtx {pc : Word} (hc : c ≠ 5) : ((s.stopCtx p c pc).place p).halted = (s.place p).halted := by
  rw [State.stopCtx, place_modCtx hc]
theorem mem_stopCtx {pc : Word} : (s.stopCtx p c pc).mem = s.mem := modCtx_mem ..
/-- Of its plaza nothing changes but the placement. -/
theorem plaza_stopCtx {pc : Word} (hc : c ≠ 5) : ∃ q, (s.stopCtx p c pc).plaza p = { s.plaza p with place := q } := ⟨_, plaza_modCtx_job hc⟩

/-- What the delivery of its record leaves of a context below 5. -/
theorem ctx_deliver (hc : c ≠ 5) : (u.deliver p r).ctx p c = u.ctx p c := ctx_of_samePlaces hc (deliver_samePlaces fun _ => rfl)
theorem ctx_takeTrap (hc : c ≠ 5) (hend : (s.ctx p c).ending = none) : (s.takeTrap p c r).ctx p c = (s.ctx p c).stopsAt r.pc := by
  rw [takeTrap_job hc hend, ctx_deliver hc, State.stopCtx, ctx_modCtx_self]
theorem trapped_takeTrap (hc : c ≠ 5) (hend : (s.ctx p c).ending = none) : ((s.takeTrap p c r).ctx p c).state = .trapped
    ∧ ((s.takeTrap p c r).ctx p c).pc = r.pc ∧ ((s.takeTrap p c r).ctx p c).g = (s.ctx p c).g := by
  rw [ctx_takeTrap hc hend]
  exact ⟨rfl, rfl, g_stopsAt ..⟩

/-! ### The supervisor's wake -/

/-- A supervisor whose instruction is none or can be abandoned is not busy (R83). -/
theorem not_busy_of_blocking (h : ∀ i, (u.ctx p 5).wait = some i → blocking i = true) : u.busy p 5 = false := by
  unfold State.busy
  split
  · rfl
  · next e => exact absurd (h _ e) (by simp [blocking])
  · next i _ e => rw [h i e]; rfl
/-- The wake of a supervisor that is not busy: at TRAPVEC, with its former PC, or 0, in SVEPC (R89). -/
theorem wakeSupervisor_idle (h : u.busy p 5 = false) : (u.wakeSupervisor p).plaza p =
    { u.plaza p with wakeDue := false, svepc := if (u.ctx p 5).state = .dormant then 0 else (u.ctx p 5).pc,
                     ctx5 := (u.ctx p 5).startTrap (u.plaza p).trapvec } := by
  rw [State.wakeSupervisor, h]
  exact (congrArg (State.plaza · p) (if_neg Bool.false_ne_true)).trans (plaza_modPlaza_self ..)

/-! ### Deliveries -/

theorem deliver_idle (hhalt : (u.place p).halted = false) (hopen : (u.plaza p).open_ = none) (hpend : (u.plaza p).pending = [])
    (hslot : u.slotStalls p (u.plaza p).trapslot = false) : u.deliver p r =
      ((u.writeRuntime p (u.plaza p).trapslot r.bytes).modPlaza p fun q => { q with open_ := some r }).wakeSupervisor p := by
  rw [State.deliver, hhalt, hopen, hpend, hslot]
  rfl
theorem deliver_open (hhalt : (u.place p).halted = false) (hopen : (u.plaza p).open_ = some x) : u.deliver p r =
    if u.justOpened p && r.cycle == u.dev.cycle && r.ctx < x.ctx then
      (u.openRecord p r).modPlaza p fun q => { q with pending := insertRecord x q.pending }
    else u.modPlaza p fun q => { q with pending := insertRecord r q.pending } := by
  rw [State.deliver, hhalt, hopen]
  rfl
theorem insertRecord_append {l : List Record} (h : ∀ y ∈ l, y.cycle ≠ r.cycle) : insertRecord r l = l ++ [r] := by
  induction l with
  | nil => rfl
  | cons y l ih =>
    have hy : (y.cycle == r.cycle && decide (r.ctx < y.ctx)) = false := by simp [h y List.mem_cons_self]
    rw [insertRecord, hy, ih fun z hz => h z (List.mem_cons_of_mem y hz)]
    rfl

end

/-! ### TRAP and TBR; the trap of a context below 5 -/

theorem softwareTraps : Claims.SoftwareTraps := by
  intro s p c code ha hc
  have hlegal : c ∈ [0, 1, 2, 3, 4] := by simp; omega
  exact ⟨onContext_control ha hlegal, onContext_control ha hlegal⟩

theorem trapTaking : Claims.TrapTaking := by
  intro s p c r hc hhalt hend t w
  have hc5 : c ≠ 5 := by omega
  have ht : t = (s.stopCtx p c r.pc).deliver p r := takeTrap_job hc5 hend
  obtain ⟨hstate, hpc, hg⟩ := trapped_takeTrap (r := r) hc5 hend
  obtain ⟨q, hq⟩ := plaza_stopCtx (s := s) (p := p) (pc := r.pc) hc5
  have hhalt' : ((s.stopCtx p c r.pc).place p).halted = false := (halted_stopCtx hc5).trans hhalt
  have hctx5 : (s.stopCtx p c r.pc).ctx p 5 = s.ctx p 5 := ctx_modCtx_ne (Ne.symm hc5)
  refine ⟨fun hopen hpend hslot hwait => ?idle, fun x hopen => ⟨fun hx hpend => ?waits, fun hx hr hlower hpend => ?first⟩⟩
  case idle =>
    have hslot' : (s.stopCtx p c r.pc).slotStalls p ((s.stopCtx p c r.pc).plaza p).trapslot = false := by
      rw [hq]
      exact (slotStalls_modCtx s p c _ _ _).trans hslot
    have hdeliver := deliver_idle (r := r) hhalt' (by rw [hq]; exact hopen) (by rw [hq]; exact hpend) hslot'
    generalize hu : (s.stopCtx p c r.pc).writeRuntime p ((s.stopCtx p c r.pc).plaza p).trapslot r.bytes = u at hdeliver
    have hcore : SameCore (s.stopCtx p c r.pc) u := hu ▸ writeRuntime_sameCore (.refl _)
    have hu5 : u.ctx p 5 = s.ctx p 5 := (hcore.ctx p 5).trans hctx5
    have hplaza : (u.modPlaza p fun q => { q with open_ := some r }).plaza p = { u.plaza p with open_ := some r } := plaza_modPlaza_self ..
    have hopen5 : (u.modPlaza p fun q => { q with open_ := some r }).ctx p 5 = s.ctx p 5 :=
      (keepsCtx_modPlaza (p := p) (c := 5) rfl rfl rfl).1.trans hu5
    have hwake := wakeSupervisor_idle (not_busy_of_blocking (by rw [hopen5]; exact hwait))
    obtain ⟨_, _, _, _, hucore⟩ := hcore.1 p
    rw [hopen5, hplaza, hucore, hq] at hwake
    have ht5 : t.ctx p 5 = (s.ctx p 5).startTrap (s.plaza p).trapvec := by
      rw [ht, hdeliver]
      exact congrArg Plaza.ctx5 hwake
    refine ⟨hstate, hpc, hg, ?_, ?_, ?_, ?_⟩
    · rw [ht, hdeliver, hwake]
    · rw [ht5]; rfl
    · rw [ht5]; rfl
    · rw [ht, hdeliver, hwake]
  case waits =>
    have hno : ((s.stopCtx p c r.pc).justOpened p && r.cycle == (s.stopCtx p c r.pc).dev.cycle && decide (r.ctx < x.ctx)) = false := by
      rw [State.justOpened, hq, hopen]
      by_cases hnow : x.cycle = (s.stopCtx p c r.pc).dev.cycle
      · simp [← hnow, Ne.symm hx]
      · simp [hnow]
    have hdeliver := deliver_open (r := r) hhalt' (show ((s.stopCtx p c r.pc).plaza p).open_ = some x by rw [hq]; exact hopen)
    rw [hno, if_neg Bool.false_ne_true] at hdeliver
    have hplaza : t.plaza p = { s.plaza p with place := q, pending := (s.plaza p).pending ++ [r] } := by
      rw [ht, hdeliver, plaza_modPlaza_self, hq, insertRecord_append hpend]
    refine ⟨hstate, hpc, by rw [hplaza]; exact hopen, by rw [hplaza], ?_, ?_⟩
    · rw [ht, hdeliver, modPlaza_mem, mem_stopCtx]
    · show (t.plaza p).ctx5 = (s.plaza p).ctx5
      rw [hplaza]
  case first =>
    have hyes : ((s.stopCtx p c r.pc).justOpened p && r.cycle == (s.stopCtx p c r.pc).dev.cycle && decide (r.ctx < x.ctx)) = true := by
      rw [State.justOpened, hq, hopen, State.stopCtx, modCtx_dev]
      simp [hx, hr, hlower]
    have hdeliver := deliver_open (r := r) hhalt' (show ((s.stopCtx p c r.pc).plaza p).open_ = some x by rw [hq]; exact hopen)
    rw [if_pos hyes, State.openRecord] at hdeliver
    obtain ⟨_, _, _, _, hcore⟩ := (writeRuntime_sameCore (p := p) (va := ((s.stopCtx p c r.pc).plaza p).trapslot) (bytes := r.bytes)
      (.refl (s.stopCtx p c r.pc))).1 p
    have hplaza := congrArg (State.plaza · p) hdeliver
    rw [plaza_modPlaza_self, plaza_modPlaza_self, hcore, hq, ← ht] at hplaza
    refine ⟨hstate, hpc, by rw [hplaza], ?_⟩
    rw [hplaza]
    dsimp only
    rw [hpend]
    rfl

end Sys2Proof.Machine
end

section
/-! The fault of context 5, and its record in memory (R90, R91). -/
namespace Sys2Proof.Machine

/-! ### Bytes of a record -/

/-- Byte i of the number that a list of bytes stands for (R4). -/
theorem leNat_byte (bs : List Byte) (i : Nat) : BitVec.ofNat 8 (leNat bs / 2 ^ (8 * i)) = bs.getD i 0 := by
  induction bs generalizing i with
  | nil => simp [leNat]
  | cons b bs ih =>
    cases i with
    | zero => exact BitVec.eq_of_toNat_eq (by simp [leNat, Nat.mod_eq_of_lt b.isLt])
    | succ i =>
      have hb := b.isLt
      rw [leNat, show 8 * (i + 1) = 8 + 8 * i by omega, Nat.pow_add, ← Nat.div_div_eq_div_mul,
        show (b.toNat + 256 * leNat bs) / 2 ^ 8 = leNat bs by omega, ih, List.getD_cons_succ]

theorem length_leBytes (n v : Nat) : (leBytes n v).length = n := by
  induction n generalizing v with
  | zero => rfl
  | succ n ih => rw [leBytes, List.length_cons, ih]
theorem length_bytes (r : Record) : r.bytes.length = 128 := by
  simp [Record.bytes, Record.words, length_leBytes]
/-- A line is one piece of itself. -/
theorem linePieces_line {key : Nat} (h : key % 128 = 0) : linePieces key 128 = [(key, 128)] := by
  have hkey : key / 128 * 128 = key := by omega
  have hnext : (key / 128 + 1) * 128 = key + 128 := by omega
  have hmax : Nat.max key key = key := Nat.max_self key
  have hmin : Nat.min (key + 128) (key + 128) = key + 128 := Nat.min_self _
  have hcount : (key % 128 + 128 + 127) / 128 = 1 := by omega
  rw [linePieces, hcount]
  simp only [List.range_one, List.map_cons, List.map_nil, Nat.add_zero, hkey, hnext, hmax, hmin, Nat.add_sub_cancel_left]

section
variable {s u : State} {p key : Nat} {bytes : List Byte}

theorem pathDown_of_sameCore (h : SameCore s u) : u.pathDown key = s.pathDown key := by
  obtain ⟨-, ⟨links, hdev⟩, -⟩ := h
  rw [State.pathDown, State.pathDown, hdev]

/-- A line of bytes written at a home of this module that can be reached stands there. -/
theorem memByte_putBytes (hlen : bytes.length = 128) (hnear : key < 2 ^ 45) (halign : key % 128 = 0) (hpath : s.pathDown key = false)
    {i : Nat} (hi : i < 128) : memByte (s.putBytes p key bytes).mem (key + i) = bytes.getD i 0 := by
  have hkey : key / 128 * 128 = key := by omega
  have hpath' : (s.flushLine p (key / 128)).pathDown (key / 128 * 128) = false := by
    rw [hkey, pathDown_of_sameCore (flushLine_sameCore (.refl s))]
    exact hpath
  have hmask : byteMask (key % 128) 128 ≠ 0 := by rw [halign]; decide
  have hbit : (byteMask (key % 128) 128).getLsbD ((key + i) % 128) = true := by
    rw [getLsbD_byteMask (Nat.mod_lt _ (by decide)), decide_eq_true_eq]
    omega
  have hwrite : ∀ v, ((s.flushLine p (key / 128)).writeLine (some p) (key / 128) (byteMask (key % 128) 128) v 0).getD (s.flushLine p (key / 128)) =
      (s.flushLine p (key / 128)).writeHere (some p) (key / 128) (byteMask (key % 128) 128) v 0 := fun v => by
    rw [State.writeLine, if_neg hmask, keyRemote_of_near (by omega), if_neg Bool.false_ne_true, hpath', if_neg Bool.false_ne_true]
    rfl
  rw [State.putBytes, hlen, linePieces_line halign, List.foldl_cons, List.foldl_nil]
  dsimp only
  rw [hwrite, mem_writeHere, if_pos ⟨by omega, hbit⟩, Nat.sub_self, List.drop_zero, List.take_of_length_le (by omega),
    row_vecPut_byte (key := key) (by omega) (by omega), Nat.add_sub_cancel_left, leNat_byte]

/-- A write in the runtime's address space with no other before it. -/
theorem writeRuntime_mapped {va : Word} {tr : Trans} (hfree : ∀ w ∈ s.writes, w.pasid ≠ s.runtime) (hcan : canonical va = true)
    (htr : s.translate p s.runtime va = .ok (some tr) s) (habs : s.transAbsent tr va = false) :
    s.writeRuntime p va bytes = s.putBytes p (s.transKey tr va) bytes := by
  have hnone : (s.writes.any fun x => x.pasid == s.runtime) = false := List.any_eq_false.2 fun w hw => by simp [hfree w hw]
  rw [State.writeRuntime, State.writeVa, hnone, if_neg Bool.false_ne_true, State.tryWrite]
  dsimp only
  rw [hcan, htr]
  dsimp only
  rw [habs]
  rfl
end

theorem plaza_signal (s : State) (p v : Nat) : (s.signal v).plaza p = s.plaza p := rfl
theorem mem_signal (s : State) (v : Nat) : (s.signal v).mem = s.mem := rfl

theorem supervisorFaults : Claims.SupervisorFaults := by
  intro s p r t va
  have hcore : SameCore s (s.writeRuntime p va r.bytes) := writeRuntime_sameCore (.refl s)
  have ht : t = ((s.writeRuntime p va r.bytes).modPlaza p fun q => { q with stopped := true }).signal 0 := rfl
  generalize hu : s.writeRuntime p va r.bytes = u at hcore ht
  obtain ⟨_, _, _, _, hq⟩ := hcore.1 p
  have hplaza : t.plaza p = { u.plaza p with stopped := true } := by
    rw [ht, plaza_signal, plaza_modPlaza_self]
  rw [hq] at hplaza
  refine ⟨by rw [hplaza], fun c => ?runs, ?ctx5, by rw [hplaza], by rw [hplaza], ?host, fun tr hfree hcan htr habs hnear halign hpath i hi => ?record,
    fun ha code => onContext_illegal ha (by decide)⟩
  case runs =>
    rw [State.runs, State.live, hplaza]
    simp
  case ctx5 =>
    show (t.plaza p).ctx5 = (s.plaza p).ctx5
    rw [hplaza]
  case host =>
    obtain ⟨-, ⟨links, hdev⟩, -⟩ := hcore
    rw [ht]
    simp only [State.signal, State.modHost, State.modDev, modPlaza_dev, hdev]
  case record =>
    have hmem : t.mem = u.mem := by rw [ht, mem_signal, modPlaza_mem]
    rw [hmem, ← hu, writeRuntime_mapped hfree hcan htr habs]
    exact memByte_putBytes (length_bytes r) hnear halign hpath hi

/-- Settles O19: the record that TRAP and TBR raise, the three deliveries of a trap, and the stopped plaza with its record. -/
theorem takingTraps : Obligations.TakingTraps := ⟨softwareTraps, trapTaking, supervisorFaults⟩

end Sys2Proof.Machine
end

section
/-! SRET that resumes a context, and the trap that is kept for one (R76, R89, R93, R94). -/
namespace Sys2Proof.Machine

/-! ### The end of a delivery -/

section
variable {s : State} {p c d : Nat}

/-- The plazas with a snapshot entry freed. -/
theorem plaza_freeSnaps (s : State) (f : Nat × Word → Bool) (q : Nat) :
    State.plaza { s with plazas := s.plazas.map fun x => (x.1, { x.2 with snaps := x.2.snaps.filter f }) } q =
      { s.plaza q with snaps := (s.plaza q).snaps.filter f } :=
  tabGet_map (f := fun q : Plaza => { q with snaps := q.snaps.filter f }) rfl s.plazas q

/-- What the end of a delivery leaves of its plaza: all but the delivery, the snapshots and the records kept for resume (R89, R93, R97). -/
def Plaza.closes (a b : Plaza) : Prop := ∃ snaps refused, b = { a with open_ := none, snaps := snaps, place := { a.place with refused := refused } }

theorem plaza_closeDelivery (s : State) (p : Nat) : (s.plaza p).closes ((s.closeDelivery p).plaza p) := by
  cases hopen : (s.plaza p).open_ with
  | none =>
    have hclosed : s.closeDelivery p = s := by rw [State.closeDelivery, hopen]
    rw [hclosed]
    refine ⟨(s.plaza p).snaps, (s.plaza p).place.refused, ?_⟩
    rw [← hopen]
  | some r =>
    rw [State.closeDelivery, hopen]
    dsimp only
    split
    · rw [State.modPlace, plaza_modPlaza_self, plaza_modPlaza_self, plaza_freeSnaps]
      exact ⟨_, _, rfl⟩
    · rw [plaza_modPlaza_self, plaza_freeSnaps]
      exact ⟨_, _, rfl⟩
theorem mem_closeDelivery (s : State) (p : Nat) : (s.closeDelivery p).mem = s.mem := by
  unfold State.closeDelivery
  cases (s.plaza p).open_ with
  | none => rfl
  | some r =>
    dsimp only
    split <;> rfl
theorem ctx_closeDelivery (s : State) (p c : Nat) : (s.closeDelivery p).ctx p c = s.ctx p c := by
  obtain ⟨_, _, e⟩ := plaza_closeDelivery s p
  rw [State.ctx, State.ctx, State.place, State.place, e]

/-- A supervisor with no wake due retires as the other contexts do. -/
theorem retire_supervisor {f : Ctx → Ctx} (hdue : (s.plaza p).wakeDue = false) :
    s.retire p 5 f = s.modCtx p 5 fun x => (f x).fallThrough.settled := by
  have hno : (decide (5 = 5) && ((s.modCtx p 5 fun x => (f x).fallThrough).plaza p).wakeDue) = false := by rw [modCtx_wakeDue, hdue]; rfl
  rw [State.retire, State.settleWake, hno, if_neg Bool.false_ne_true, ctx_modCtx_self]
  cases he : (f (s.ctx p 5)).fallThrough.ending with
  | none => exact modCtx_congr (by rw [Ctx.settled, he])
  | some v =>
    refine (modCtx_modCtx s p 5 (fun x => (f x).fallThrough) fun x => x.endBy v).trans ?_
    exact modCtx_congr (by rw [Ctx.settled, he])
theorem plaza_modCtx_supervisor (s : State) (p : Nat) (f : Ctx → Ctx) : (s.modCtx p 5 f).plaza p = { s.plaza p with ctx5 := f (s.ctx p 5) } := by
  rw [State.modCtx, if_pos rfl]
  exact plaza_modPlaza_self ..

/-- Where the supervisor goes on with nothing pending (R89). -/
def Ctx.resumesAt (x : Ctx) (svepc : Word) : Ctx :=
  if svepc = 0 then { x with state := .dormant } else { x with state := .running, pc := svepc, lineAccess := true, asked := [] }

theorem afterSret_of_none (hpend : (s.plaza p).pending = []) :
    s.afterSret p = s.modPlaza p fun q => { q with ctx5 := q.ctx5.resumesAt q.svepc } := by
  have hgo : (if s.slotStalls p (s.plaza p).trapslot then none else s.nextRecord p) = none := by
    rw [State.nextRecord, hpend]
    exact ite_self _
  rw [State.afterSret, hgo]
  rfl
theorem g_resumesAt (x : Ctx) (v : Word) : (x.resumesAt v).g = x.g := by
  unfold Ctx.resumesAt
  split <;> rfl
end

/-! ### SRET -/

section
variable {s : State} {p c d a b n : Nat} {r : Record}

/-- An SRET of context 5 with a proper selector and target. -/
theorem exec_sret (ha : s.cur.agent = .control p 5) (hn : (s.g p 5 a).toNat % 8 ≤ 4) (hpc : (s.g p 5 b).toNat % 4 = 0) :
    exec (.sret d a b) s = .next ((((s.sretEffect p ((s.g p 5 a).toNat % 8) (bit (s.g p 5 a).toNat 3) (s.g p 5 b)).2.closeDelivery p).retireReg p 5 d
      (s.sretEffect p ((s.g p 5 a).toNat % 8) (bit (s.g p 5 a).toNat 3) (s.g p 5 b)).1).afterSret p) := by
  refine (onContext_control ha (by decide)).trans ?_
  have haligned : ((s.g p 5 b).toNat % 4 != 0) = false := by rw [hpc]; rfl
  dsimp only
  rw [if_neg (by decide), if_neg (by omega), haligned]
  rfl

/-- The state in which a trapped context has resumed at pc (R76, R97). -/
def State.resumed (s : State) (p n : Nat) (pc : Word) : State :=
  (s.modCtx p n fun y => { y with pc := pc, state := .running, wait := none, lineAccess := true, asked := [] }).modPlace p
    fun q => { q with refused := q.refused.filter fun y => y.ctx != n }

theorem sretEffect_resumes {pc : Word} (hopen : (s.plaza p).open_ = some r) (hours : s.ours p r = true) (hstate : (s.ctx p n).state = .trapped)
    (hfreeze : (s.place p).freeze = none) : s.sretEffect p n false pc = (0, s.resumed p n pc) := by
  have hno : (s.place p).releases r = false := by rw [Place.releases, hfreeze]
  rw [State.sretEffect, hopen]
  dsimp only
  rw [hours, hno, hstate]
  rfl
theorem plaza_resumed {pc : Word} (hn : n ≠ 5) : ∃ q, (s.resumed p n pc).plaza p = { s.plaza p with place := q } := by
  rw [State.resumed, State.modPlace, plaza_modPlaza_self, plaza_modCtx_job hn]
  exact ⟨_, rfl⟩
theorem ctx_resumed {pc : Word} {k : Nat} : (s.resumed p n pc).ctx p k =
    (s.modCtx p n fun y => { y with pc := pc, state := .running, wait := none, lineAccess := true, asked := [] }).ctx p k := by
  rw [State.resumed, State.modPlace, State.ctx, State.ctx, State.place, State.place, plaza_modPlaza_self]

theorem trapReturn : Claims.TrapReturn := by
  intro s p c d a b n r ha hc
  refine ⟨fun hc5 => ?privileged, fun hc5 hsel hn hpc hopen hours hctx hstate hfreeze hpend hdue => ?resumes⟩
  case privileged =>
    refine (onContext_control ha (mem_allCtx hc)).trans ?_
    exact if_pos (by simpa using hc5)
  case resumes =>
    subst hc5
    have hn8 : (s.g p 5 a).toNat % 8 = n := by omega
    have hbit : bit (s.g p 5 a).toNat 3 = false := by
      rw [bit, beq_eq_false_iff_ne]
      omega
    have he := exec_sret (d := d) ha (a := a) (by omega) hpc
    rw [hn8, hbit, sretEffect_resumes hopen hours hstate hfreeze] at he
    dsimp only at he
    generalize hu : (s.resumed p n (s.g p 5 b)).closeDelivery p = u at he
    obtain ⟨q, hq⟩ := plaza_resumed (s := s) (p := p) (pc := s.g p 5 b) (show n ≠ 5 by omega)
    obtain ⟨snaps, refused, hplaza⟩ := plaza_closeDelivery (s.resumed p n (s.g p 5 b)) p
    rw [hu, hq] at hplaza
    have hctxu : ∀ k, u.ctx p k = _ := fun k => by rw [← hu, ctx_closeDelivery, ctx_resumed]
    have hret : u.retireReg p 5 d 0 = u.modCtx p 5 fun x => (x.setReg d 0).fallThrough.settled := retire_supervisor (by rw [hplaza]; exact hdue)
    have hplaza' := plaza_modCtx_supervisor u p fun x => (x.setReg d 0).fallThrough.settled
    rw [hret, afterSret_of_none (by rw [hplaza', hplaza]; exact hpend)] at he
    generalize hv : u.modCtx p 5 (fun x => (x.setReg d 0).fallThrough.settled) = v at he hplaza'
    have ht : (v.modPlaza p fun q => { q with ctx5 := q.ctx5.resumesAt q.svepc }).plaza p =
        { v.plaza p with ctx5 := (v.plaza p).ctx5.resumesAt (s.plaza p).svepc } := by
      rw [plaza_modPlaza_self, hplaza', hplaza]
    have ht5 : (v.modPlaza p fun q => { q with ctx5 := q.ctx5.resumesAt q.svepc }).ctx p 5 =
        ((s.ctx p 5).setReg d 0).fallThrough.settled.resumesAt (s.plaza p).svepc := by
      show (State.plaza _ p).ctx5 = _
      rw [ht, hplaza', hctxu 5, ctx_modCtx_ne (by omega)]
    have htn : (v.modPlaza p fun q => { q with ctx5 := q.ctx5.resumesAt q.svepc }).ctx p n =
        { s.ctx p n with pc := s.g p 5 b, state := .running, wait := none, lineAccess := true, asked := [] } := by
      have hplace : (v.modPlaza p fun q => { q with ctx5 := q.ctx5.resumesAt q.svepc }).ctx p n = v.ctx p n := by
        simp only [State.ctx, if_neg (show n ≠ 5 by omega), State.place, ht]
      rw [hplace, ← hv, ctx_modCtx_ne (by omega), hctxu, ctx_modCtx_self]
    refine ⟨_, he, by rw [htn], by rw [htn], by rw [htn], ?_, ?_, fun k => ?_, fun hzero => ?_, fun hne => ?_⟩
    · rw [ht, hplaza', hplaza]
    · rw [modPlaza_mem, ← hv, modCtx_mem, ← hu, mem_closeDelivery, State.resumed]
      exact modCtx_mem ..
    · rw [State.g, ht5, Ctx.reg, g_resumesAt, g_settled, ← Ctx.reg, reg_fallThrough, Ctx.reg_setReg]
      rfl
    · rw [ht5, Ctx.resumesAt, if_pos hzero]
    · rw [ht5, Ctx.resumesAt, if_neg hne]
      exact ⟨rfl, rfl⟩
end

/-! ### The kept trap -/

theorem slotStalls_of_tlbHit {s : State} {p : Nat} {va : Word} (hfree : s.writes = []) (hhit : (s.tlbHit p s.runtime va).isSome = true) :
    s.slotStalls p va = false := by
  obtain ⟨t, ht⟩ := Option.isSome_iff_exists.1 hhit
  have htr : ∃ x, s.translate p s.runtime va = .ok (some x) s := by
    unfold State.translate
    cases s.codeMap (s.jobOn p) s.runtime va.toNat with
    | some m => exact ⟨_, rfl⟩
    | none => rw [ht]; exact ⟨_, rfl⟩
  obtain ⟨x, hx⟩ := htr
  rw [State.slotStalls, hfree, hx]
  exact Bool.and_false _
theorem open_wakeSupervisor (s : State) (p : Nat) : ((s.wakeSupervisor p).plaza p).open_ = (s.plaza p).open_ := by
  rw [State.wakeSupervisor]
  split
  · rw [plaza_modPlaza_self]
  · exact (congrArg Plaza.open_ (plaza_modPlaza_self ..)).trans rfl

/-- The state in which a kept trap is delivered: it is kept no longer, and its context stands stopped (R93). -/
def State.stopKept (s : State) (p c : Nat) (r : Record) : State :=
  ((s.modPlace p fun q => { q with async := q.async.erase r }).forgetRemotes (.ctx p c)).modCtx p c
    fun y => { y.uncount with state := .trapped, wait := none, acq := none, delays := [], sync := [] }

section
variable {s : State} {p c : Nat} {r : Record}

theorem takeKept_running (hkept : s.asyncOf p c = some r) (hbusy : s.busy p c = false) (hstate : (s.ctx p c).state = .running) :
    s.takeKept p c = some ((s.stopKept p c r).deliver p ((s.modPlace p fun q => { q with async := q.async.erase r }).fillAsync p c r)) := by
  have hctx : ((s.modPlace p fun q => { q with async := q.async.erase r }).ctx p c).state = .running := by
    rw [← hstate]
    simp only [State.ctx, State.place, State.modPlace, plaza_modPlaza_self]
  rw [State.takeKept, hkept]
  dsimp only
  rw [hbusy, hstate, if_neg (by decide), State.takeAsync]
  dsimp only
  rw [hctx]
  rfl
theorem plaza_stopKept (hc : c ≠ 5) : (s.stopKept p c r).plaza p = { s.plaza p with place := { s.place p with
    async := (s.place p).async.erase r, ctx := tabSet (s.place p).ctx c { (s.ctx p c).uncount with
      state := .trapped, wait := none, acq := none, delays := [], sync := [] } } } := by
  have hforget : ∀ u : State, (u.forgetRemotes (.ctx p c)).plaza p = u.plaza p := fun _ => rfl
  rw [State.stopKept, plaza_modCtx_job hc, State.place, hforget, State.modPlace, plaza_modPlaza_self, State.ctx, if_neg hc]
  rfl
end

theorem engineTrap : Claims.EngineTrap := by
  intro s p c r hc hruns hkept hbusy hstate hend hhalt hopen hpend hwrites hhit
  have hc5 : c ≠ 5 := by omega
  have hplaza := plaza_stopKept (s := s) (p := p) (r := r) hc5
  have hslot : (s.stopKept p c r).slotStalls p ((s.stopKept p c r).plaza p).trapslot = false := by
    have hrun : (s.stopKept p c r).runtime = s.runtime := (modCtx_runtime ..).trans rfl
    refine slotStalls_of_tlbHit ((modCtx_writes ..).trans hwrites) ?_
    rw [State.tlbHit, hrun, hplaza]
    exact hhit
  generalize hx : (s.modPlace p fun q => { q with async := q.async.erase r }).fillAsync p c r = x
  have hdeliver := deliver_idle (u := s.stopKept p c r) (r := x) (by rw [State.place, hplaza]; exact hhalt) (by rw [hplaza]; exact hopen)
    (by rw [hplaza]; exact hpend) hslot
  have he : exec (.engineTrap p c) s = .next ((s.stopKept p c r).deliver p x) := by
    show execEngineTrap p c s = _
    rw [execEngineTrap, if_pos hruns, takeKept_running hkept hbusy hstate, hx]
    rfl
  have hctx : ((s.stopKept p c r).deliver p x).ctx p c = { (s.ctx p c).uncount with state := .trapped, wait := none, acq := none, delays := [], sync := [] } := by
    rw [ctx_deliver hc5, State.ctx, if_neg hc5, State.place, hplaza]
    exact tabGet_tabSet_self ..
  have hplace : ((s.stopKept p c r).deliver p x).place p = (s.stopKept p c r).place p := deliver_samePlaces (fun _ => rfl) p
  have hpc : (s.ctx p c).uncount.pc = (s.ctx p c).pc := by
    unfold Ctx.uncount
    split <;> rfl
  have hpcMod : ((s.modPlace p fun q => { q with async := q.async.erase r }).ctx p c).pc = (s.ctx p c).pc := by
    simp only [State.ctx, State.place, State.modPlace, plaza_modPlaza_self]
  have hjobMod : ((s.modPlace p fun q => { q with async := q.async.erase r }).place p).job = (s.place p).job := by
    rw [place_modPlace_self]
  refine ⟨_, x, he, by rw [hctx], by rw [hctx]; exact hpc, by rw [hctx]; exact g_uncount _, ?_, ?_, ?_, ?_, ?_, ?_, fun hengine => ⟨?_, ?_⟩, ?_⟩
  · rw [hdeliver, open_wakeSupervisor, plaza_modPlaza_self]
  · rw [← hx]; rfl
  · rw [← hx]; rfl
  · rw [← hx]; rfl
  · rw [← hx]; rfl
  · rw [← hx]; exact hjobMod
  · rw [← hx, State.fillAsync, hengine]; exact hpcMod
  · rw [← hx, State.fillAsync, hengine]; rfl
  · rw [hplace, State.place, hplaza]

end Sys2Proof.Machine
end

section
/-! SRET that halts a placement (R95), in a state that lists its plazas out of order. -/
namespace Sys2Proof.Machine

/-- Plaza 0 and plaza 1 each hold the line of one table entry, dirty in the byte with its MIGRATING bit and with an update line, so that a walk
merges both, in the order in which the plazas are listed. Plaza 1, listed first, has a context that waits in an XLT for that walk, and the open
delivery that a halting SRET of its context 5 ends. -/
def haltOutOfOrder : State :=
  let waits : Ctx := { Ctx.off .waiting with wait := some (.xlt 0 0 0), acq := some ⟨0, 0, 0, true, false, false⟩ }
  let holds (data : Row) : List Line := [⟨32, 0, 2, 2, data, 0, false, 0, 0, false, []⟩, ⟨32, 1, 0, 0, 0, 0, false, 0, 0, true, []⟩]
  let halting : Plaza := { Plaza.off with
    res := .resident, open_ := some (State.reset.record 1 0 .illegal 0), l1d := holds 0, ctx5 := { Ctx.off .running with g := [(1, 8)] },
    place := { Place.off with ctx := [(1, waits)] } }
  { State.reset with
    dev := { State.reset.dev with dies := [(0, ⟨true, 0, false⟩)] }, mem := [(0, 0x01), (1, 0x10), (4096, 0x11)], pasids := [(0, 0x2000)]
    plazas := [(1, halting), (0, { Plaza.off with l1d := holds 0x100 })], cur := ⟨.control 1 5, 0, 0, 0, 0⟩ }

/-- As the state lists its plazas, the walk finds the page migrating and the XLT can be abandoned. -/
theorem haltOutOfOrder_not_busy : haltOutOfOrder.busy 1 1 = false := by decide +kernel
/-- The halt of context 0 has put plaza 1 in its place of the list; the walk then finds the page, and the XLT goes on to its boundary. -/
theorem state_haltOutOfOrder :
    ((haltOutOfOrder.haltPlace 1 0 (State.reset.record 1 0 .illegal 0)).ctx 1 1).state = .waiting := by decide +kernel

theorem not_haltingReturn : ¬Claims.HaltingReturn := by
  intro h
  obtain ⟨-, -, -, hrest, -⟩ := h haltOutOfOrder 1 0 1 0 0 (State.reset.record 1 0 .illegal 0) rfl (by decide +kernel) (by decide) (by decide +kernel) rfl
    (by decide +kernel)
  obtain ⟨-, -, -, -, -, hctx⟩ := hrest rfl
  obtain ⟨-, -, hends, -⟩ := hctx 1 (by decide)
  obtain ⟨hstate, -⟩ := hends rfl (by decide +kernel) haltOutOfOrder_not_busy
  rw [state_haltOutOfOrder] at hstate
  exact absurd hstate (by decide)

/-- Refutes O20: its clause on the halting SRET asks whether a context's instruction is in progress in the state before the halt, where the halt
asks it in turn, after the contexts before it have ended. The two differ where the state lists its plazas out of number order: ending a context
puts its plaza in its place, and with it changes the order in which a walk merges the update lines that it finds. The resuming SRET and the
kept trap do as stated (trapReturn, engineTrap). -/
theorem not_trapReturns : ¬Obligations.TrapReturns := by
  unfold Obligations.TrapReturns
  intro ⟨_, hhalting, _⟩
  exact not_haltingReturn hhalting

end Sys2Proof.Machine
end

section
/-! What ends a context's wait (R61, R62, R74, R83, R93, R348). -/
namespace Sys2Proof.Machine

/-! ### A waiting context's instruction runs again -/

/-- The state in which the blocking instruction of a context runs again (R83). -/
def State.retrying (s : State) (p c : Nat) : State :=
  { s with cur := ⟨.control p c, (s.ctx p c).pc, (s.ctx p c).w0, (s.ctx p c).w1, (s.ctx p c).len⟩ }

section
variable {s : State} {p c d a n line key : Nat} {i j : Instr} {x : Line} {v : Word} {more : State → Prop}

theorem retryCtx_waiting (hst : (s.ctx p c).state = .waiting) (hr : s.runs p c = true) (hwait : (s.ctx p c).wait = some i) :
    retryCtx p c s = retry i (s.retrying p c) := by
  have hmay : s.mayFinish p c = true := by rw [State.mayFinish, hst, hr]; rfl
  rw [retryCtx, hwait]
  exact if_pos hmay
theorem exec_conditionMet (hst : (s.ctx p c).state = .waiting) (hr : s.runs p c = true) (hwait : (s.ctx p c).wait = some i) :
    exec (.conditionMet p c) s = retry i (s.retrying p c) := retryCtx_waiting hst hr hwait
theorem exec_delayedReadRecheck (hst : (s.ctx p c).state = .waiting) (hr : s.runs p c = true) (hwait : (s.ctx p c).wait = some i) :
    exec (.delayedReadRecheck p (.ctx c)) s = retry i (s.retrying p c) := retryCtx_waiting hst hr hwait
theorem exec_waitmWake {b z sc cond : Nat} (hst : (s.ctx p c).state = .waiting) (hr : s.runs p c = true)
    (hwait : (s.ctx p c).wait = some (.waitm d a b z sc cond)) :
    exec (.waitmWake p c) s = exec (.waitm d a b z sc cond) (s.retrying p c) := by
  refine Eq.trans ?_ (retryCtx_waiting hst hr hwait)
  change execWaitmWake p c s = _
  rw [execWaitmWake, hwait]

theorem finishMoves_of_no_moves (h : s.moves = []) : s.finishMoves = s := by
  have hsame : { s with moves := [] } = s := by rw [← h]
  rw [State.finishMoves, h]
  exact hsame
theorem exec_writebackAcknowledgement (hst : (s.ctx p c).state = .waiting) (hr : s.runs p c = true) (hc : c < 5) (hmoves : s.moves = [])
    (hwait : (s.ctx p c).wait = some (.dcwb a)) : exec (.writebackAcknowledgement p c) s = exec (.dcwb a) (s.retrying p c) := by
  refine Eq.trans ?_ (retryCtx_waiting hst hr hwait)
  change execWritebackAcknowledgement p c s = _
  rw [execWritebackAcknowledgement, finishMoves_of_no_moves hmoves, if_neg (show c ≠ 9 by omega), hwait]

/-- What completes when it runs again completes the step that lets it run again. -/
theorem completesWith_retrying (he : exec j s = exec i (s.retrying p c)) (h : completesWith i (s.retrying p c) p c d v more) :
    completesWith j s p c d v more := by
  obtain ⟨t, hexec, hrest⟩ := h
  exact ⟨t, he.trans hexec, hrest⟩

/-- A WAITM's watched cycles have passed (R62). -/
def State.watchdogDue (s : State) (p c : Nat) : Bool :=
  s.runs p c && (s.ctx p c).state == .waiting && !s.busy p c && (s.ctx p c).acq.isNone && (s.ctx p c).wdog != 0
    && (s.ctx p c).since + (s.ctx p c).wdog.toNat ≤ s.dev.cycle
theorem exec_watchdog {b z sc cond : Nat} (hwait : (s.ctx p c).wait = some (.waitm d a b z sc cond)) :
    exec (.watchdog p c) s = if s.watchdogDue p c then .next (s.trap p c .watchdog (s.g p c a)) else .next s := by
  change execWatchdog p c s = _
  rw [execWatchdog, hwait]
  rfl

/-! ### A token wait -/

/-- One token is the only one of its mask. -/
theorem tokenOf_pow (hn : n < 64) (P : Nat → Prop) : (∃ k, k < 64 ∧ 2 ^ n / 2 ^ k % 2 = 1 ∧ P k) ↔ P n := by
  have hbit : ∀ k, 2 ^ n / 2 ^ k % 2 = 1 ↔ n = k := fun k => by
    rw [← decide_eq_true_iff (p := 2 ^ n / 2 ^ k % 2 = 1), ← Nat.testBit_eq_decide_div_mod_eq, Nat.testBit_two_pow, decide_eq_true_iff]
  constructor
  · rintro ⟨k, -, hk, h⟩
    exact (hbit k).1 hk ▸ h
  · exact fun h => ⟨n, hn, (hbit n).2 rfl, h⟩

theorem exec_twait (ha : s.cur.agent = .control p c) (hc : c < 5) (hn : n < 64) :
    ((s.token p n).st = .outstanding → exec (.twait n) s = .next (s.block p c (.twait n)))
    ∧ ((s.token p n).st ≠ .outstanding → (s.token p n).st ≠ .failed → exec (.twait n) s = .next (s.retire p c id)) := by
  obtain ⟨⟨hblocks, -, hends⟩, -⟩ := tokenTests s p c n 0 0 ha hc hn
  have hone := fun st => tokenOf_pow hn fun k => (s.token p k).st = st
  exact ⟨fun h => hblocks ((hone _).2 h), fun ho hf => hends (fun h => ho ((hone _).1 h)) fun h => hf ((hone _).1 h)⟩

theorem ctx_retire_waited (hw : s.noWake p c) : ((s.retire p c id).ctx p c).state = .running
    ∧ ((s.retire p c id).ctx p c).wait = none ∧ ((s.retire p c id).ctx p c).insret = (s.ctx p c).insret + 1
    ∧ ((s.retire p c id).ctx p c).g = (s.ctx p c).g ∧ (s.retire p c id).mem = s.mem := by
  have hend : (s.ctx p c).ending = none := hw.2
  rw [retire_eq s p c id hw hend, ctx_modCtx_self, modCtx_mem]
  exact ⟨rfl, rfl, rfl, rfl, rfl⟩
theorem insret_block (s : State) (p c : Nat) (i : Instr) : ((s.block p c i).ctx p c).insret = (s.ctx p c).insret := by
  rw [State.block, ctx_modCtx_self]

/-! ### A DCWB of a line that is clean -/

theorem writeBackIn_of_clean {lanes : Bool} (h : (s.plaza p).dirtyLine line = false) : s.writeBackIn p lanes line = s := by
  unfold State.writeBackIn
  split
  · rfl
  · next y hy =>
    have hmem : y ∈ (s.plaza p).l1d ++ (s.plaza p).l1v := by
      have := List.mem_of_find?_eq_some hy
      cases lanes with
      | false => exact List.mem_append_left _ this
      | true => exact List.mem_append_right _ this
    rw [Plaza.dirtyLine, List.any_eq_false] at h
    have hclean := h y hmem
    rw [(key_of_lineIn hy).1, beq_self_eq_true, Bool.true_and, Bool.or_eq_true, bne_iff_ne, not_or, not_not] at hclean
    rw [if_pos hclean.1]
theorem noUpdate_of_clean {q : Plaza} (h : q.dirtyLine line = false) : q.hasUpdate line = false := by
  rw [Plaza.dirtyLine, List.any_eq_false] at h
  rw [Plaza.hasUpdate, List.any_eq_false]
  intro y hy e
  rw [Bool.and_eq_true] at e
  exact h y hy (by rw [e.1, e.2, Bool.or_true]; rfl)
theorem cleans_of_clean (h : (s.plaza p).dirtyLine line = false) : s.cleans p line = s := by
  rw [State.cleans, State.writeBack, writeBackIn_of_clean h, writeBackIn_of_clean h, mergeOwn_of_no_update (noUpdate_of_clean h)]

theorem completesWith_dcwb_clean (ha : s.cur.agent = .control p c) (hc : c ≤ 5) (hw : s.noWake p c) (hstart : s.atStart p c)
    (hg : s.grants p c (s.g p c a) 1 .read key) (hclean : (s.plaza p).dirtyLine (key / 128) = false) (hack : s.noticesFrom p = false) :
    completesWith (.dcwb a) s p c 0 0 fun t => t.mem = s.mem := by
  obtain ⟨-, -, hremotes⟩ := hstart
  obtain ⟨priv, hva⟩ := checkVa_of_grants hg
  have hsound : s.maintainSound (.ctx p c) := List.any_eq_false.2 fun r hr => by simp [hremotes r hr]
  have he := (maintains hsound (exec_dcwb_start ha hc ((checkVa_unsized ..).trans hva))).1
  rw [cleans_of_clean hclean] at he
  exact completesWith_kept hw (keepsCtx_endMaintain ..) (he ⟨hclean, hack⟩) fun f => (modCtx_mem ..).trans (mem_endMaintain ..)
end

theorem contextWaitsEnd : Claims.WaitsEnd := by
  intro s p c n d a b z cond key l hst hr hc hw x s' n4
  refine ⟨fun hwait hn ho hf => ?twaitEnds, fun hwait hn ho => ?twaitWaits, fun hwait hcond hstart hg hx hmet => ?waitm,
    fun o hwait hstart hg hx => ?load, fun v u hwait he => (exec_waitmWake hst hr hwait).trans he,
    fun i v u hwait he => (exec_delayedReadRecheck hst hr hwait).trans he,
    fun u hmoves hwait he => (exec_writebackAcknowledgement hst hr hc hmoves hwait).trans he,
    fun hmoves hwait hstart hg hclean hack => ?dcwb, fun sc hwait hbusy => ⟨fun hacq hdog hpast => ?dogBites, fun hno => ?dogSleeps⟩⟩
  case twaitEnds =>
    obtain ⟨-, hends⟩ := exec_twait (s := s') (p := p) (c := c) rfl hc hn
    exact ⟨_, (exec_conditionMet hst hr hwait).trans (hends ho hf), ctx_retire_waited (s := s') hw⟩
  case twaitWaits =>
    obtain ⟨hblocks, -⟩ := exec_twait (s := s') (p := p) (c := c) rfl hc hn
    obtain ⟨hmem, -⟩ := block_keeps s' p c (.twait n)
    exact ⟨_, (exec_conditionMet hst hr hwait).trans (hblocks ho), (waits_block ..).1, insret_block s' p c _, hmem⟩
  case waitm =>
    have hacquires := acquiresComplete s' p c d a b 0 0 z 0 cond key rfl (by omega) hw hstart hcond
    simp only [List.forall_mem_cons] at hacquires
    obtain ⟨-, hwaitm, -⟩ := hacquires
    exact completesWith_retrying (exec_waitmWake hst hr hwait) ((hwaitm hg).1 l trivial hx hmet)
  case load =>
    obtain ⟨t, he, hdone, hregs, hmem, -⟩ := load_hit (s := s') (i := .ldd d a 0 o) (BitVec.ofNat 64) rfl rfl (by omega) hw hg hx
    exact completesWith_retrying (i := .ldd d a 0 o) (exec_delayedReadRecheck hst hr hwait) ⟨t, he, hdone, hregs, hmem⟩
  case dcwb =>
    exact completesWith_retrying (exec_writebackAcknowledgement hst hr hc hmoves hwait)
      (completesWith_dcwb_clean (s := s') rfl (by omega) hw hstart hg hclean hack)
  case dogBites =>
    have hdue : s.watchdogDue p c = true := by
      rw [State.watchdogDue, hr, hst, hbusy, hacq, bne_iff_ne.2 hdog, decide_eq_true hpast]
      rfl
    rw [exec_watchdog hwait, if_pos hdue]
  case dogSleeps =>
    rw [exec_watchdog hwait, if_neg]
    rw [State.watchdogDue]
    simp only [Bool.and_eq_true, bne_iff_ne, decide_eq_true_eq]
    rintro ⟨⟨-, hdog⟩, hpast⟩
    rcases hno with h | h
    · exact hdog h
    · exact absurd hpast (Nat.not_le.2 h)

theorem delayedReads : Claims.DelayedReads := by
  intro s p l
  refine ⟨fun h => ?_, rfl⟩
  have hempty : (s.lane p l).delays.isEmpty = false := List.isEmpty_eq_false_iff.2 h
  refine ⟨_, rfl, ?_⟩
  rw [State.sameButLane, lane_modLane_self, hempty]
  refine ⟨?_, Nat.min_le_right _ _, rfl⟩
  conv_lhs => rw [modLane_const]
  rw [hempty]
  rfl

/-- Settles O42: each wait's end by what its instruction does when it runs again from its start. -/
theorem waitsEnd : Obligations.WaitsEnd := ⟨contextWaitsEnd, delayedReads⟩

end Sys2Proof.Machine
end

section
/-! Fills that return, the sweeper, and poisoned units (R72, R73, R78, R310, R311, R315, R316). -/
namespace Sys2Proof.Machine

/-! ### Fills -/

section
variable {s : State} {p line key : Nat}

/-- The line of an address space that has just been installed is the one found. -/
theorem iline_install (s : State) (p : Nat) (x : ILine) :
    (s.modPlaza p fun q => { q with icache := installILine q.icache x }).iline p x.pasid x.line
      = some { x with used := 1 + listMax ((s.plaza p).icache.map fun y => y.used) } := by
  rw [State.iline, plaza_modPlaza_self]
  exact List.find?_cons_of_pos (by simp)

/-- A line whose home is in this module and can be reached, no plaza having an update line of it, is read as it stands there. -/
theorem fetchLine_home {who : Requester} (hnear : line * 128 < 2 ^ 45) (hpath : s.pathDown (line * 128) = false)
    (hupd : ∀ q, (s.plaza q).hasUpdate line = false) : s.fetchLine who line = .ok (s.homeRow line, s.homePoison line) s := by
  rw [State.fetchLine, keyRemote_of_near hnear, if_neg Bool.false_ne_true, hpath, if_neg Bool.false_ne_true]
  dsimp only
  rw [recall_of_no_update hupd]

/-- The state without an instruction fill, and without a data fill, and what it asked of another module. -/
def State.endIFill (s : State) (p : Nat) (f : IFill) : State :=
  { s with remotes := s.remotes.filter fun r => !(r.who == Requester.fetch p 6 && r.addr == f.key / 128 * 128) }.modPlaza p fun q =>
    { q with ifills := q.ifills.filter fun x => !(x.pasid == f.pasid && x.line == f.line) }
def State.endFill (s : State) (p line : Nat) : State :=
  { s with remotes := s.remotes.filter fun r => !(r.who == Requester.ctx p 6 && r.addr == line * 128) }.modPlaza p fun q =>
    { q with fills := q.fills.filter fun y => y.key != line }

/-- The line of an instruction fill as its home has it. -/
def State.homeILine (s : State) (f : IFill) : ILine :=
  ⟨f.pasid, f.line, (s.homeRow (f.key / 128)).extractLsb' (8 * (f.key % 128)) 512, (s.homePoison (f.key / 128)).getLsbD (f.key % 128 / 64), f.key, 0⟩

theorem exec_icacheFill {i : Nat} {f : IFill} (h : (s.plaza p).ifills[i]? = some f) : exec (.icacheFill p i) s = .next (s.finishIFill p f) := by
  change execIcacheFill p i s = _
  rw [execIcacheFill, h]
theorem finishIFill_gone {f : IFill} (h : f.cancelled = true ∨ (s.iline p f.pasid f.line).isSome = true) : s.finishIFill p f = s.endIFill p f :=
  if_pos (by rw [Bool.or_eq_true]; exact h)
theorem finishIFill_installs {f : IFill} (hgo : f.cancelled = false) (hnone : s.iline p f.pasid f.line = none)
    (hread : s.fetchLine (.fetch p 6) (f.key / 128) = .ok (s.homeRow (f.key / 128), s.homePoison (f.key / 128)) s) :
    s.finishIFill p f = (s.endIFill p f).modPlaza p fun q => { q with icache := installILine q.icache (s.homeILine f) } := by
  rw [State.finishIFill, hgo, hnone, hread]
  rfl

/-- The bytes that the lanes' L1 holds of a line, over those of its home, and the poison of both (R310, R315). -/
theorem overOther_eq (other : Option Line) (r : Row × BitVec 2) : overOther other r =
    ((match other with
      | some y => lineMix y.held y.data r.1
      | none => r.1),
     (match other with
      | some y => y.poison ||| (r.2 &&& ~~~ wholeUnits y.held)
      | none => r.2)) := by
  cases other <;> rfl
theorem exec_l1FillReturn {i : Nat} {f : Fill} (h : (s.plaza p).fills[i]? = some f) : exec (.l1FillReturn p i) s =
    if f.cancelled || (lineIn (s.plaza p).l1d f.key).isSome then .next (s.endFill p f.key) else match s.fetchLine (.ctx p 6) f.key with
      | .ok r t => .next ((t.endFill p f.key).install p false { emptyLine f.key f.priv with
          held := BitVec.allOnes 128, data := (overOther (lineIn (t.plaza p).l1v f.key) r).1, poison := (overOther (lineIn (t.plaza p).l1v f.key) r).2 })
      | .wait t => .next t
      | .fail _ _ _ t => .next (t.endFill p f.key) := by
  change execL1FillReturn p i s = _
  rw [execL1FillReturn, h]
  rfl
end

theorem fillsReturn : Claims.FillsReturn := by
  intro s p i
  refine ⟨fun f hf => ?instruction, fun f hf => ?data⟩
  case instruction =>
    refine ⟨fun h => (exec_icacheFill hf).trans (congrArg _ (finishIFill_gone h)), fun hgo hnone hnear hpath hupd => ?_⟩
    have hread := fetchLine_home (who := .fetch p 6) (show f.key / 128 * 128 < 2 ^ 45 by omega) hpath hupd
    refine ⟨_, (exec_icacheFill hf).trans (congrArg _ (finishIFill_installs hgo hnone hread)), rfl, ?_, _, iline_install _ p (s.homeILine f), rfl, rfl, rfl⟩
    rw [plaza_modPlaza_self]
    rfl
  case data =>
    refine ⟨fun h => (exec_l1FillReturn hf).trans (if_pos (by rw [Bool.or_eq_true]; exact h)), fun hgo hnone hnear hpath hupd => ?_⟩
    have hread := fetchLine_home (who := .ctx p 6) hnear hpath hupd
    rw [exec_l1FillReturn hf, hgo, hnone, if_neg (by simp), hread]
    dsimp only
    rw [overOther_eq]
    rfl

/-! ### The sweeper -/

section
variable {s : State} {p n : Nat} {lanes : Bool} {x : Line}

theorem l1_modL1_self (q : Plaza) (lanes : Bool) (f : List Line → List Line) : (q.modL1 lanes f).l1 lanes = f (q.l1 lanes) := by
  cases lanes <;> rfl
theorem l1_modL1_other (q : Plaza) (lanes : Bool) (f : List Line → List Line) : (q.modL1 lanes f).l1 (!lanes) = q.l1 (!lanes) := by
  cases lanes <;> rfl

/-- A line that is written back keeps the bytes it holds. -/
theorem byteAt_cleanLine (ls : List Line) (n m b : Nat) :
    ((lineIn (cleanLine ls n) m).bind fun x => x.byteAt b) = (lineIn ls m).bind fun x => x.byteAt b := by
  have hkeeps : ((fun y : Line => y.key == m && !y.upd) ∘ fun y => if y.key == n && !y.upd then { y with dirty := 0 } else y) =
      fun y => y.key == m && !y.upd := funext fun y => by rw [Function.comp_apply]; split <;> rfl
  rw [lineIn, cleanLine, List.find?_map, hkeeps, ← lineIn, Option.bind_map]
  refine congrArg _ (funext fun y => ?_)
  rw [Function.comp_apply]
  split <;> rfl
theorem cached_cleanL1 (s : State) (p n : Nat) (lanes : Bool) (q : Nat) (k : Bool) (b : Nat) :
    (s.modPlaza p fun q => q.modL1 lanes (cleanLine · n)).cached q k b = s.cached q k b := by
  by_cases hq : q = p
  · subst hq
    by_cases hk : k = lanes
    · rw [hk, State.cached, plaza_modPlaza_self, l1_modL1_self, byteAt_cleanLine]
      rfl
    · refine cached_congr ?_
      rw [plaza_modPlaza_self, show k = !lanes by cases k <;> cases lanes <;> simp_all, l1_modL1_other]
  · exact cached_congr (congrArg (Plaza.l1 · k) (plaza_modPlaza_ne _ _ hq))

/-- A line of this module goes home, where it can be reached (R310). -/
theorem writeBackIn_near (hin : lineIn ((s.plaza p).l1 lanes) n = some x) (hd : x.dirty ≠ 0) (hnear : n * 128 < 2 ^ 45)
    (hpath : s.pathDown (n * 128) = false) : s.writeBackIn p lanes n =
      (s.writeHere (some p) n x.dirty x.data x.poison).modPlaza p fun q => q.modL1 lanes (cleanLine · n) := by
  have hwrite : s.writeLine (some p) n x.dirty x.data x.poison = some (s.writeHere (some p) n x.dirty x.data x.poison) := by
    rw [State.writeLine, if_neg hd, keyRemote_of_near hnear, if_neg Bool.false_ne_true, hpath, if_neg Bool.false_ne_true]
  rw [State.writeBackIn, hin]
  dsimp only
  rw [if_neg hd, hwrite]

/-- Where one L1 alone has a line, its writeback is that of this L1. -/
theorem writeBack_alone {t : State} (ht : s.writeBackIn p lanes n = t) (hother : ∀ y ∈ (s.plaza p).l1 (!lanes), y.key ≠ n)
    (hleft : (t.plaza p).l1 (!lanes) = (s.plaza p).l1 (!lanes)) : s.writeBack p n = t := by
  rw [State.writeBack]
  cases lanes with
  | false =>
    rw [ht]
    exact writeBackIn_of_no_line (hleft ▸ hother)
  | true =>
    rw [writeBackIn_of_no_line (lanes := false) hother]
    exact ht

theorem exec_sweeperWriteback (hin : lineIn ((s.plaza p).l1 lanes) n = some x) :
    exec (.sweeperWriteback p (if lanes then 1 else 0) n) s = .next (if s.sweepDue p x then s.writeBack p n else s) := by
  have hk : ((if lanes then 1 else 0 : Nat) != 0) = lanes := by cases lanes <;> rfl
  change execSweeperWriteback p _ n s = _
  rw [execSweeperWriteback, hk, hin]
end

theorem sweeperWrites : Claims.SweeperWrites := by
  intro s p n x lanes hin k
  have he := exec_sweeperWriteback hin
  refine ⟨fun hdue => by rw [he, hdue]; rfl, fun hdue hnear hpath _ hother => ?_⟩
  have hd : x.dirty ≠ 0 := by
    rw [State.sweepDue] at hdue
    simp only [Bool.and_eq_true, bne_iff_ne] at hdue
    obtain ⟨⟨⟨-, hd⟩, -⟩, -⟩ := hdue
    exact hd
  have hplazas := plazas_writeHere s (some p) n x.dirty x.data x.poison
  have hmem := mem_writeHere s (some p) n x.dirty x.data x.poison
  have hback := writeBackIn_near hin hd hnear hpath
  revert hplazas hmem hback
  generalize s.writeHere (some p) n x.dirty x.data x.poison = u
  intro hplazas hmem hback
  have hplaza : ∀ q, u.plaza q = s.plaza q := fun q => by rw [State.plaza, hplazas]; rfl
  have hwhole : s.writeBack p n = u.modPlaza p fun q => q.modL1 lanes (cleanLine · n) :=
    writeBack_alone hback hother (by rw [plaza_modPlaza_self, l1_modL1_other, hplaza])
  refine ⟨u.modPlaza p fun q => q.modL1 lanes (cleanLine · n), by rw [he, if_pos hdue, hwhole], hmem, ?_, fun q k b => ?_⟩
  · rw [plaza_modPlaza_self, l1_modL1_self, hplaza]
    exact lineIn_cleanLine hin
  · rw [cached_cleanL1]
    exact cached_congr (by rw [hplaza])

/-! ### Poison -/

/-- A unit's number with the place of its copy: the L1s of a plaza behind the home. -/
theorem exec_uncorrectableError_home (s : State) {u : Nat} (hu : u < 2 ^ 50) :
    exec (.uncorrectableError u) s = .next (if s.poison.contains u then s else { s with poison := u :: s.poison }) := by
  change execUncorrectableError u s = _
  rw [execUncorrectableError, Nat.mod_eq_of_lt hu, Nat.div_eq_of_lt hu]
  rfl
theorem exec_uncorrectableError_l1 (s : State) (p : Nat) (lanes : Bool) {u : Nat} (hu : u < 2 ^ 50) :
    exec (.uncorrectableError ((2 * p + (if lanes then 2 else 1)) * 2 ^ 50 + u)) s = .next (s.modPlaza p fun q => q.modL1 lanes fun ls =>
      ls.map fun x => if x.key == u / 2 && !x.upd then { x with poison := x.poison ||| BitVec.ofNat 2 (2 ^ (u % 2)) } else x) := by
  change execUncorrectableError _ s = _
  have hunit : ∀ k, (k * 2 ^ 50 + u) % 2 ^ 50 = u ∧ (k * 2 ^ 50 + u) / 2 ^ 50 = k := fun k => by omega
  have hplaza : (2 * p + (if lanes then 2 else 1) - 1) / 2 = p := by split <;> omega
  have hlanes : ((2 * p + (if lanes then 2 else 1)) % 2 == 0) = lanes := by cases lanes <;> simp
  rw [execUncorrectableError, (hunit _).1, (hunit _).2]
  dsimp only
  rw [if_neg (by cases lanes <;> simp), hplaza, hlanes]

theorem poisonedUnit : Claims.PoisonedUnit := by
  intro s u hu
  refine ⟨⟨_, exec_uncorrectableError_home s hu, ?home⟩, fun p lanes => ⟨_, exec_uncorrectableError_l1 s p lanes hu, rfl, rfl, ?_, ?_⟩⟩
  case home =>
    split
    · next h =>
      refine ⟨rfl, rfl, fun v => ⟨.inr, fun hv => hv.elim (fun e => ?_) id⟩⟩
      rw [e]
      exact List.contains_iff_mem.1 h
    · exact ⟨rfl, rfl, fun v => List.mem_cons⟩
  · rw [plaza_modPlaza_self, l1_modL1_other]
  · rw [plaza_modPlaza_self, l1_modL1_self]
    refine List.map_congr_left fun x _ => ?_
    simp only [Bool.and_eq_true, beq_iff_eq, Bool.not_eq_true']

/-- Settles O43: fills by what their home answers, the sweeper by the writeback of one L1's line, and poison by the unit it marks. -/
theorem cachesAndPoison : Obligations.CachesAndPoison := ⟨fillsReturn, sweeperWrites, poisonedUnit⟩

end Sys2Proof.Machine
end

section
/-! The queues of engine commands: a command that changes, and one that ends (R123-R126). -/
namespace Sys2Proof.Machine

section
variable {s : State} {p id : Nat} {x c : Cmd} {rest : List Cmd} {ok : Bool}

/-! ### A command changed -/

/-- The change of one command of a queue leaves those of other numbers. -/
theorem map_cmd_ne {q : List Cmd} (f : Cmd → Cmd) (h : ∀ y ∈ q, y.id ≠ id) : q.map (fun c => if c.id = id then f c else c) = q :=
  (List.map_congr_left fun y hy => if_neg (h y hy)).trans (List.map_id q)
theorem copyQ_modCmd_head (f : Cmd → Cmd) (hq : (s.place p).copyQ = x :: rest) (hrest : ∀ y ∈ rest, y.id ≠ x.id) :
    ((s.modCmd p x.id f).place p).copyQ = f x :: rest := by
  rw [State.modCmd, place_modPlace_self]
  simp only [hq, List.map_cons, if_true, map_cmd_ne f hrest]
theorem token_modCmd (s : State) (p id : Nat) (f : Cmd → Cmd) (n : Nat) : (s.modCmd p id f).token p n = s.token p n := by
  rw [State.token, State.modCmd, place_modPlace_self]
  rfl
/-- The command of a number is the head of the copy queue where it has that number. -/
theorem cmd_head (hq : (s.place p).copyQ = x :: rest) : (s.place p).cmd x.id = some x := by
  rw [Place.cmd, hq]
  exact List.find?_cons_of_pos (by simp)

/-! ### The end of a command -/

theorem mem_endCmd (s : State) (p : Nat) (c : Cmd) (ok : Bool) : (s.endCmd p c ok).mem = s.mem := rfl
theorem copyQ_endCmd (s : State) (p : Nat) (c : Cmd) (ok : Bool) :
    ((s.endCmd p c ok).place p).copyQ = ((s.place p).copyQ.filter fun y => y.id != c.id).map (Cmd.resolve c.id ok) := by
  rw [State.endCmd, place_modPlace_self]
/-- The head of the copy queue leaves it, and only that. -/
theorem length_copyQ_endCmd (hq : (s.place p).copyQ = x :: rest) (hid : x.id = c.id) (hrest : ∀ y ∈ rest, y.id ≠ c.id) :
    ((s.endCmd p c ok).place p).copyQ.length = rest.length := by
  rw [copyQ_endCmd, List.length_map, hq, List.filter_cons_of_neg (by simp [hid])]
  exact congrArg _ (List.filter_eq_self.2 fun y hy => bne_iff_ne.2 (hrest y hy))
theorem token_endCmd_self (h : s.token p c.tok = ⟨.outstanding, c.id⟩) :
    (s.endCmd p c ok).token p c.tok = ⟨if ok then .done else .failed, c.id⟩ := by
  rw [State.token] at h
  rw [State.token, State.endCmd, place_modPlace_self]
  simp [h]
theorem token_endCmd_ne {n : Nat} (h : n ≠ c.tok) : (s.endCmd p c ok).token p n = s.token p n := by
  rw [State.token, State.endCmd, place_modPlace_self]
  dsimp only
  split
  · exact tabGet_tabSet_ne _ _ _ h
  · rfl
theorem bankReg_endCmd (s : State) (p : Nat) (c : Cmd) (ok : Bool) (wb : IsWb) (k : Nat) : (s.endCmd p c ok).bankReg p wb k = s.bankReg p wb k := by
  rw [State.bankReg, State.endCmd, place_modPlace_self]
  rfl

/-! ### What a command has pinned -/

/-- A command without pins keeps no view block in use. -/
theorem unpin_of_nil (h : c.pinned = []) : s.unpin p c = s.modCmd p c.id fun y => { y with pinned := [], delays := [] } := by
  rw [State.unpin, h, List.foldl_nil]
end

end Sys2Proof.Machine
end

section
/-! Commands at the head of the copy queue: they start, are cancelled, complete and fail, and the two that set formats (R93, R126, R129, R133,
R273, R288, R289). -/
namespace Sys2Proof.Machine

section
variable {s : State} {p : Nat} {x : Cmd} {rest : List Cmd}

/-! ### Start, cancellation and completion -/

theorem exec_copyStart_head (hq : (s.place p).copyQ = x :: rest) (hsnap : s.snapFull p (x :: rest) = false) (hserves : s.serves p = true)
    (hst : x.started = false) (hready : x.ready = true) (hmajor : x.cancelled = false → x.major = majCpy ∧ (dstOf x.shape).ring = 15) :
    exec (.copyStart p) s = .next (if x.cancelled then s.endCmd p x false else s.startCmd p x.id none) := by
  change execCopyStart p s = _
  have hnext : nextToStart (x :: rest) = some x := by rw [nextToStart, hst]; rfl
  rw [execCopyStart, hq, hsnap, hserves, hnext]
  dsimp only
  rw [hready]
  cases hc : x.cancelled with
  | true => rfl
  | false =>
    obtain ⟨hcpy, hring⟩ := hmajor hc
    rw [hcpy, hring]
    rfl
theorem exec_copyComplete_head (hq : (s.place p).copyQ = x :: rest) (hst : x.started = true) (hfail : x.fail = none) (hall : x.total ≤ x.next)
    (hstage : x.stage = none) (hmajor : x.major = majCpy) : exec (.copyComplete p) s = .next ((s.unpin p x).endCmd p x true) := by
  change execCopyComplete p s = _
  have hputh : ¬majCpy = majPuth := by decide
  rw [execCopyComplete, hq]
  dsimp only
  rw [hst, hfail, hstage, hmajor]
  simp only [Nat.not_lt.2 hall, hputh, decide_false]
  rfl

theorem copyEvents : Claims.CopyEvents := by
  intro s p x rest hq hrest _ hsnap
  refine ⟨fun hserves hst hready hc hmajor hring => ?start, fun hserves hst hready hc => ?cancel,
    fun hst hfail hall hstage hpin hmajor _ htok => ?complete⟩
  case start =>
    rw [exec_copyStart_head hq hsnap hserves hst hready fun _ => ⟨hmajor, hring⟩, hc]
    exact ⟨_, rfl, rfl, copyQ_modCmd_head _ hq hrest⟩
  case cancel =>
    rw [exec_copyStart_head hq hsnap hserves hst hready fun h => absurd (hc.symm.trans h) (by decide), hc]
    rfl
  case complete =>
    rw [exec_copyComplete_head hq hst hfail hall hstage hmajor, unpin_of_nil hpin]
    refine ⟨_, rfl, rfl, ?_, token_endCmd_self (by rw [token_modCmd, htok]), fun m hm => by rw [token_endCmd_ne hm, token_modCmd]⟩
    exact length_copyQ_endCmd (copyQ_modCmd_head _ hq hrest) rfl hrest

/-! ### Failure -/

theorem exec_copyFailure_head {f : Failure} {t : State} (hq : (s.place p).copyQ = x :: rest) (hfail : x.fail = some f)
    (ht : ((s.unpin p x).forgetRemotes (.cmd p x.id)).failCmd p 1 x f = some t) : exec (.copyFailure p) s = .next t := by
  change execCopyFailure p s = _
  rw [execCopyFailure, hq]
  dsimp only
  rw [hfail]
  dsimp only
  rw [ht]
theorem failCmd_halted {f : Failure} {engine : Nat} (h : (s.place p).halted = true) : s.failCmd p engine x f = some (s.endCmd p x false) := by
  rw [State.failCmd, h]
  rfl
/-- The record of a failed copy has opc 0 (R128). -/
theorem opcOf_copy (h : x.major = majCpy) : s.opcOf x = (0, s) := by
  rw [State.opcOf, h]
  rfl

theorem copyFails : Claims.CopyFails := by
  intro s p x rest f i hq hfail
  refine ⟨fun h => exec_copyFailure_head hq hfail (failCmd_halted h), fun h hfree hmajor => exec_copyFailure_head hq hfail ?_,
    fun u y htok => ⟨token_endCmd_self htok, mem_endCmd u p y false⟩⟩
  rw [State.failCmd, h, hfree, opcOf_copy hmajor]
  rfl

/-! ### BFSET and CBLD -/

/-- The placement with BFSET's bank-format register written (R288), the uses of its bank's rows forgotten. -/
def Place.setBankFormat (q : Place) (x : Cmd) : Place :=
  let bank : Nat := if 8 ≤ x.arg then x.arg % 8 + 8 else x.arg % 8
  let q1 := { q with rowUse := q.rowUse.filter fun y => y.1 / 2048 != bank }
  if 8 ≤ x.arg then { q1 with wbf := tabPut 0 q.wbf (x.arg % 8) (x.opa.setWidth 32) } else { q1 with abf := tabPut 0 q.abf (x.arg % 8) (x.opa.setWidth 32) }

theorem exec_bankFormatWrite_head (hq : (s.place p).copyQ = x :: rest) (hmajor : x.major = majBfset) (hready : x.ready = true)
    (hc : x.cancelled = false) (hserves : s.serves p = true) (hsnap : s.snapFull p (x :: rest) = false) :
    exec (.bankFormatWrite p) s = .next ((s.modPlace p fun q => q.setBankFormat x).endCmd p x true) := by
  change execBankFormatWrite p s = _
  rw [execBankFormatWrite, hq]
  dsimp only
  rw [hmajor, hready, hc, hserves, hsnap]
  rfl
theorem token_setBankFormat (s : State) (p n : Nat) (x : Cmd) : (s.modPlace p fun q => q.setBankFormat x).token p n = s.token p n := by
  rw [State.token, place_modPlace_self, Place.setBankFormat]
  split <;> rfl
/-- A canonical table read after a write, whether at its number or at another. -/
theorem tabGet_tabPut {α : Type} [DecidableEq α] (d : α) (t : Tab α) (j k : Nat) (v : α) :
    tabGet d (tabPut d t j v) k = if j = k then v else tabGet d t k := by
  split
  · next h => rw [h, tabGet_tabPut_self]
  · next h => exact tabGet_tabPut_ne d t v (Ne.symm h)
theorem bankReg_setBankFormat (s : State) (p : Nat) (x : Cmd) (wb : IsWb) (k : Nat) :
    (s.modPlace p fun q => q.setBankFormat x).bankReg p wb k =
      if x.arg % 8 = k ∧ wb = decide (8 ≤ x.arg) then x.opa.setWidth 32 else s.bankReg p wb k := by
  rw [State.bankReg, place_modPlace_self, Place.setBankFormat]
  by_cases hwb : 8 ≤ x.arg <;> cases wb <;> simp [State.bankReg, hwb, tabGet_tabPut]

/-- A started command all of whose units have moved moves no more. -/
theorem copyUnit_of_all {i : Nat} (hcmd : (s.place p).cmd x.id = some x) (hfly : x.flying = false) (hall : x.total ≤ x.next) :
    s.copyUnit p x.id i = s := by
  rw [State.copyUnit, hcmd]
  dsimp only
  by_cases hi : x.total ≤ i
  · simp [hfly, hi]
  · simp [hfly, Cmd.done, Nat.lt_of_lt_of_le (Nat.not_le.1 hi) hall]
theorem exec_codebookWrite_head (hq : (s.place p).copyQ = x :: rest) (hmajor : x.major = majCbld) (hst : x.started = true) {y : Cmd}
    (hcmd : (((List.range 256).foldl (fun u i => u.copyUnit p x.id i) s).place p).cmd x.id = some y) (hfail : y.fail = none)
    (hnext : y.next = 256) :
    exec (.codebookWrite p) s = .next ((((List.range 256).foldl (fun u i => u.copyUnit p x.id i) s).unpin p y).endCmd p y true) := by
  change execCodebookWrite p s = _
  rw [execCodebookWrite, hq]
  dsimp only
  rw [hmajor, hst]
  simp only [hcmd, hfail, hnext]
  rfl

theorem formatCommands : Claims.FormatCommands := by
  intro s p x rest hq htok
  refine ⟨fun hmajor hready hc hserves hsnap => ?bfset, fun hmajor hst hfail hfly hnext => ?moved,
    fun hmajor hst y hy hfail hnext => exec_codebookWrite_head hq hmajor hst hy hfail hnext⟩
  case bfset =>
    refine ⟨_, exec_bankFormatWrite_head hq hmajor hready hc hserves hsnap, rfl, token_endCmd_self (by rw [token_setBankFormat, htok]),
      fun wb k _ => ?_⟩
    rw [bankReg_endCmd, bankReg_setBankFormat]
  case moved =>
    have htotal : x.total ≤ x.next := by rw [Cmd.total, if_pos hmajor, hnext]
    have hsame : (List.range 256).foldl (fun u i => u.copyUnit p x.id i) s = s :=
      List.foldlRecOn (motive := (· = s)) _ _ rfl fun t ht i _ => by rw [ht, copyUnit_of_all (cmd_head hq) hfly htotal]
    have h := exec_codebookWrite_head hq hmajor hst (y := x) (by rw [hsame, cmd_head hq]) hfail hnext
    rwa [hsame] at h

end

/-- Settles O22: starts, cancellation and completion; failures with their record; the commands that set formats. -/
theorem copyQueue : Obligations.CopyQueue := ⟨copyEvents, copyFails, formatCommands⟩

end Sys2Proof.Machine
end

section
/-! Arrivals that a PUTH of this module offers (R98, R135). -/
namespace Sys2Proof.Machine

section
variable {s : State} {p r : Nat} {x : Arrival} {y : Cmd}

/-- Of a plaza, a changed command changes the queues of commands alone. -/
theorem plaza_modCmd (s : State) (r id : Nat) (f : Cmd → Cmd) (p : Nat) :
    ∃ q q', (s.modCmd r id f).plaza p = { s.plaza p with place := { s.place p with copyQ := q, linkQ := q' } } := by
  by_cases h : p = r
  · rw [h, State.modCmd, State.modPlace, plaza_modPlaza_self]
    exact ⟨_, _, rfl⟩
  · rw [State.modCmd, State.modPlace, plaza_modPlaza_ne _ _ h]
    exact ⟨_, _, rfl⟩
theorem ctx_modCmd (s : State) (r id : Nat) (f : Cmd → Cmd) (p c : Nat) : (s.modCmd r id f).ctx p c = s.ctx p c := by
  obtain ⟨_, _, h⟩ := plaza_modCmd s r id f p
  rw [State.ctx, State.place, h]
  rfl
theorem arrivals_modCmd (s : State) (r id : Nat) (f : Cmd → Cmd) (p : Nat) : ((s.modCmd r id f).place p).arrivals = (s.place p).arrivals := by
  obtain ⟨_, _, h⟩ := plaza_modCmd s r id f p
  rw [State.place, h]

/-- A PUTH of this module whose arrival is accepted has sent it. -/
theorem exec_puthArrival_accepted {t : State} (hmod : x.sender / 256 = s.dev.modNum) (ho : s.offerer p x = some (r, y))
    (ha : s.acceptArrival p x = some t) : exec (.puthArrival p x) s = .next (t.modCmd r y.id fun z => { z with sent := true }) := by
  change execPuthArrival p x s = _
  rw [execPuthArrival, if_pos hmod, ho]
  dsimp only
  rw [ha]
theorem acceptArrival_eq (hjob : s.hasJob p x.job = true) (hhalt : (s.place p).halted = false) (hwake : (s.plaza p).wakeAt ≠ s.dev.cycle + 1) :
    s.acceptArrival p x = match [3, 4].find? fun c => (s.ctx p c).state == .dormant with
      | some c => some (s.startArrival p c x)
      | none => if (s.place p).arrivals.length < 16 then some (s.modPlace p fun q => { q with arrivals := q.arrivals ++ [x] }) else none := by
  rw [State.acceptArrival, hjob, if_neg (by simpa using hwake), hhalt]
  rfl
/-- The handler that takes an arrival: 3 before 4. -/
theorem find_dormant {h : Nat} (hh : h = 3 ∨ h = 4 ∧ (s.ctx p 3).state ≠ .dormant) (hd : (s.ctx p h).state = .dormant) :
    ([3, 4].find? fun c => (s.ctx p c).state == .dormant) = some h := by
  rcases hh with rfl | ⟨rfl, h3⟩
  · simp [hd]
  · simp [h3, hd]

end

/-- Settles O23: an accepted arrival starts the first dormant handler, or is the last of the queue. -/
theorem puthArrives : Obligations.PuthArrives := by
  intro s p x r y hmod ho hjob hhalt hwake
  have haccept := acceptArrival_eq hjob hhalt hwake
  refine ⟨fun h hh hd => ?start, fun h3 h4 hroom => ?queue⟩
  case start =>
    rw [find_dormant hh hd] at haccept
    obtain ⟨hst, hpc, h1, h2, h3⟩ := ctx_startArrival s p h x
    refine ⟨_, exec_puthArrival_accepted hmod ho haccept, ?_⟩
    simp only [State.g, ctx_modCmd]
    exact ⟨hst, hpc, h1, h2, h3, modCtx_mem ..⟩
  case queue =>
    have hnone : ([3, 4].find? fun c => (s.ctx p c).state == .dormant) = none := by simp [h3, h4]
    rw [hnone] at haccept
    refine ⟨_, exec_puthArrival_accepted hmod ho (haccept.trans (if_pos hroom)), ?_, rfl⟩
    rw [arrivals_modCmd, place_modPlace_self]

end Sys2Proof.Machine
end

section
/-! The freeze of an avenue and the deadlock of its queues (R94, R182, R183, R186). -/
namespace Sys2Proof.Machine

section
variable {s t : State} {p l : Nat} {b : Block} {pre post : List Block}

/-! ### Blocks by their sequence numbers -/

theorem blocksAfter_append (h : ∀ y ∈ pre, y.seq ≠ b.seq) : blocksAfter b.seq (pre ++ b :: post) = post := by
  induction pre with
  | nil => rw [List.nil_append, blocksAfter, if_pos rfl]
  | cons y pre ih =>
    rw [List.cons_append, blocksAfter, if_neg (h y List.mem_cons_self)]
    exact ih fun z hz => h z (List.mem_cons_of_mem y hz)
theorem find_seq_append (h : ∀ y ∈ pre, y.seq ≠ b.seq) : ((pre ++ b :: post).find? fun y => y.seq == b.seq) = some b := by
  rw [List.find?_append, List.find?_eq_none.2 fun y hy => by simpa using h y hy]
  simp
/-- With no sequence number twice, those before a block and those after it have others than it and than each other. -/
theorem seq_ne_of_nodup (h : ((pre ++ b :: post).map fun y => y.seq).Nodup) :
    (∀ y ∈ pre, y.seq ≠ b.seq ∧ ∀ z ∈ post, z.seq ≠ y.seq) ∧ ∀ z ∈ post, z.seq ≠ b.seq := by
  rw [List.map_append, List.map_cons, List.nodup_append, List.nodup_cons] at h
  obtain ⟨-, ⟨hb, -⟩, hpre⟩ := h
  have hpost : ∀ z ∈ post, z.seq ∈ post.map fun y => y.seq := fun z hz => List.mem_map_of_mem hz
  refine ⟨fun y hy => ⟨hpre _ (List.mem_map_of_mem hy) _ List.mem_cons_self, fun z hz => ?_⟩, fun z hz e => hb (e ▸ hpost z hz)⟩
  exact (hpre _ (List.mem_map_of_mem hy) _ (List.mem_cons_of_mem _ (hpost z hz))).symm

/-! ### Lane groups released -/

/-- From s to t no memory was written and no block of plaza p changed, and no lane group of it came to hold a store. -/
structure SameBlocks (p : Nat) (s t : State) : Prop where
  mem    : t.mem = s.mem
  blocks : (t.place p).blocks = (s.place p).blocks
  stores : ∀ j, (s.lane p j).stores = [] → (t.lane p j).stores = []

theorem SameBlocks.refl (p : Nat) (s : State) : SameBlocks p s s := ⟨rfl, rfl, fun _ h => h⟩
theorem SameBlocks.trans {u : State} (h : SameBlocks p s t) (k : SameBlocks p t u) : SameBlocks p s u :=
  ⟨k.mem.trans h.mem, k.blocks.trans h.blocks, fun j hj => k.stores j (h.stores j hj)⟩
theorem sameBlocks_of_place {q : Place} (hmem : t.mem = s.mem) (hq : t.place p = q) (hblocks : q.blocks = (s.place p).blocks)
    (hlanes : q.lanes = (s.place p).lanes) : SameBlocks p s t := by
  refine ⟨hmem, by rw [hq, hblocks], fun j hj => ?_⟩
  rw [State.lane, hq, hlanes]
  exact hj
theorem sameBlocks_modLane {f : Lane → Lane} (hf : (s.lane p l).stores = [] → (f (s.lane p l)).stores = []) : SameBlocks p s (s.modLane p l f) := by
  refine ⟨rfl, by rw [State.modLane, place_modPlace_self], fun j hj => ?_⟩
  by_cases hjl : j = l
  · subst hjl
    rw [lane_modLane_self]
    exact hf hj
  · rw [State.lane, State.modLane, place_modPlace_self]
    exact (congrArg Lane.stores (tabGet_tabSet_ne _ _ _ hjl)).trans hj
theorem stores_settle {x : Lane} {now : Nat} (h : x.stores = []) : (x.settle now).stores = [] := by
  rw [Lane.settle]
  split
  · split
    · rfl
    · exact h
  · exact h
theorem place_forgetRemotes (s : State) (who : Requester) (p : Nat) : (s.forgetRemotes who).place p = s.place p := rfl
/-- A lane group whose block is discarded with no store on its way performs none. -/
theorem releaseLane_sameBlocks (h : (s.lane p l).stores = []) : SameBlocks p s (s.releaseLane p l) := by
  rw [State.releaseLane]
  generalize hu : State.forgetRemotes (s.modPlace p _) (.lane p l) = u
  have hsame : SameBlocks p s u := by
    rw [← hu]
    exact sameBlocks_of_place rfl ((place_forgetRemotes ..).trans (place_modPlace_self ..)) rfl rfl
  have hall : u.performAll p l = u := by rw [State.performAll, hsame.stores l h, List.foldl_nil]
  rw [hall]
  exact hsame.trans (sameBlocks_modLane fun hl => stores_settle hl)

/-- The lane groups of discarded blocks are released one after the other (R182). -/
def State.releaseLanes (s : State) (p : Nat) (bs : List Block) : State :=
  bs.foldl (fun t b => match b.lane with
    | some l => t.releaseLane p l
    | none => t) s
theorem releaseLanes_sameBlocks {bs : List Block} (h : ∀ y ∈ bs, ∀ j, y.lane = some j → (s.lane p j).stores = []) :
    SameBlocks p s (s.releaseLanes p bs) := by
  refine List.foldlRecOn (motive := SameBlocks p s) bs _ (.refl p s) fun t ht y hy => ?_
  cases hl : y.lane with
  | none => exact ht
  | some j => exact ht.trans (releaseLane_sameBlocks (ht.stores j (h y hy j hl)))

/-! ### The freeze -/

theorem Block.discard_eq (y : Block) : y.discard =
    if y.st = .running ∨ y.st = .complete ∨ y.st = .faulted then { y with st := .queued, lane := none, pushes := [] }
    else if y.st = .spentRunning ∨ y.st = .spentComplete then { y with st := .cancelled, lane := none, pushes := [] } else y := by
  rw [Block.discard]
  cases y.st <;> rfl
/-- What a freeze at a block makes of a block of the avenue, where those above it are given (R182). -/
def Block.freeze (seq : Nat) (above : List Block) (y : Block) : Block :=
  if y.seq = seq then { y with st := .faulted } else if above.any (fun a => a.seq == y.seq) then y.discard else y
theorem map_freeze (h : ((pre ++ b :: post).map fun y => y.seq).Nodup) :
    (pre ++ b :: post).map (Block.freeze b.seq post) = pre ++ { b with st := .faulted } :: post.map Block.discard := by
  obtain ⟨hpre, hpost⟩ := seq_ne_of_nodup h
  rw [List.map_append, List.map_cons]
  congr 1
  · refine (List.map_congr_left fun y hy => ?_).trans (List.map_id pre)
    have hany : (post.any fun a => a.seq == y.seq) = false := List.any_eq_false.2 fun z hz => by simpa using (hpre y hy).2 z hz
    rw [Block.freeze, if_neg (hpre y hy).1, hany]
    rfl
  · congr 1
    · exact if_pos rfl
    · refine List.map_congr_left fun y hy => ?_
      have hany : (post.any fun a => a.seq == y.seq) = true := List.any_eq_true.2 ⟨y, hy, beq_self_eq_true _⟩
      rw [Block.freeze, if_neg (hpost y hy), if_pos hany]
theorem freezeAt_eq {r : Record} (hlane : b.lane = some l) (hblocks : (s.place p).blocks = pre ++ b :: post)
    (h : ((pre ++ b :: post).map fun y => y.seq).Nodup) :
    s.freezeAt p b.seq r = (((s.releaseLanes p post).modLane p l fun x => { x with stopped := true, delays := [], acq := none }).modPlace p fun q =>
      { q with blocks := q.blocks.map (Block.freeze b.seq post), freeze := some ⟨b.seq, r, false⟩ }) := by
  have hpre := fun y hy => ((seq_ne_of_nodup h).1 y hy).1
  rw [State.freezeAt, hblocks, blocksAfter_append hpre, find_seq_append hpre]
  dsimp only
  rw [hlane]
  rfl
theorem laneFault_running {r : Record} (hb : (s.place p).blockOn l = some b) (hst : b.st = .running) :
    s.laneFault p l r = s.freezeAt p b.seq r := by
  rw [State.laneFault, State.laneFaultOr, hb]
  dsimp only
  rw [hst]
  rfl

theorem exec_freezeSettle {f : Freeze} {y : Block} (hf : (s.place p).freeze = some f) (hopen : f.settled = false) (hrun : s.lanesRun p = true)
    (hbelow : ∀ y ∈ (s.place p).blocks.takeWhile (fun x => x.seq != f.seq), y.st = .cancelled)
    (hy : ((s.place p).blocks.find? fun x => x.seq == f.seq) = some y) :
    exec (.freezeSettle p) s = .next ((s.modPlace p fun x => { x with freeze := some { f with settled := true } }).raiseAsync p y.emitter f.record) := by
  change execFreezeSettle p s = _
  have hnone : (((s.place p).blocks.takeWhile fun x => x.seq != f.seq).any fun x => x.st != .cancelled) = false :=
    List.any_eq_false.2 fun x hx => by simp [hbelow x hx]
  rw [execFreezeSettle, hf]
  dsimp only
  rw [hnone, hopen, hrun, hy]
  rfl

theorem freezeEvents : Claims.FreezeEvents := by
  intro s p l r b pre post hb hst hblocks hnodup hpost
  refine ⟨?freeze, fun f u hf hopen hrun hbelow y hy => exec_freezeSettle hf hopen hrun hbelow hy⟩
  have hlane : b.lane = some l := by simpa using List.find?_some hb
  rw [hblocks] at hnodup
  have hsame := releaseLanes_sameBlocks fun y hy j hj => (hpost y hy j hj).2
  rw [laneFault_running hb hst, freezeAt_eq hlane hblocks hnodup]
  generalize hu : (s.releaseLanes p post).modLane p l _ = u
  have hplace : (u.place p).blocks = pre ++ b :: post := by
    rw [← hu, State.modLane, place_modPlace_self, ← hblocks, ← hsame.blocks]
  refine ⟨?_, by rw [place_modPlace_self], ?_, ?_⟩
  · rw [place_modPlace_self]
    dsimp only
    rw [hplace, map_freeze hnodup, List.map_congr_left fun y _ => y.discard_eq]
  · rw [State.lane, place_modPlace_self]
    change (u.lane p l).stopped = true
    rw [← hu, lane_modLane_self]
  · rw [modPlace_mem, ← hu]
    exact hsame.mem
end

/-! ### The deadlock -/

theorem queueDeadlock : Claims.QueueDeadlock := by
  intro s p
  refine ⟨fun h => ?_, fun c hcount hc hstuck hlower => ?_⟩
  · change execQdeadlock p s = _
    rw [execQdeadlock]
    exact if_pos h
  · have hfind : (roleCtx.find? fun k => (s.ctx p k).stuck) = some c := by
      have hrole : c = 0 ∨ c = 1 ∨ c = 2 := by omega
      rcases hrole with rfl | rfl | rfl
      · simp [roleCtx, hstuck]
      · simp [roleCtx, hstuck, hlower 0]
      · simp [roleCtx, hstuck, hlower 0, hlower 1]
    change execQdeadlock p s = _
    rw [execQdeadlock]
    dsimp only
    rw [if_neg (Nat.not_le.2 hcount), hfind]

/-- Settles O41: the freeze by what becomes of each block, its settling, and the deadlock by its count. -/
theorem freezeAndDeadlock : Obligations.FreezeAndDeadlock := ⟨freezeEvents, queueDeadlock⟩

end Sys2Proof.Machine
end

section
/-! The units of start-up (R370-R372): what each leaves of the device, and how far they come. -/
namespace Sys2Proof.Machine

section
variable {d w : Device} {x : StartUp} {old : List JournalEntry} {n k : Nat}

/-! ### What every unit keeps -/

/-- From d to w some units of start-up ran: the counts of units and starts and the journal's length at the start are as they were,
and start-up stops at most. -/
structure Device.Ran (d w : Device) : Prop where
  startPos : w.startPos = d.startPos
  startLog : w.startLog = d.startLog
  starts   : w.starts = d.starts
  phase    : w.phase = d.phase ∨ w.phase = .startStopped

theorem Device.Ran.trans {v : Device} (h : d.Ran w) (g : w.Ran v) : d.Ran v :=
  ⟨g.startPos.trans h.startPos, g.startLog.trans h.startLog, g.starts.trans h.starts, g.phase.elim (fun e => e ▸ h.phase) .inr⟩
theorem ite_ran {c : Prop} [Decidable c] {v : Device} (hw : d.Ran w) (hv : d.Ran v) : d.Ran (if c then w else v) := by
  split <;> assumption
/-- Changes outside what `Ran` speaks of. -/
theorem ran_of_eq (hpos : w.startPos = d.startPos) (hlog : w.startLog = d.startLog) (hstarts : w.starts = d.starts)
    (hphase : w.phase = d.phase) : d.Ran w :=
  ⟨hpos, hlog, hstarts, .inl hphase⟩
/-- A unit's part of a step writes the journal alone (R371). -/
theorem unit_journal (d : Device) (old : List JournalEntry) (step unit plaza instead : Nat) (fails : Bool) :
    ∃ j, (d.unit old step unit plaza instead fails).2 = { d with journal := j } := by
  rw [Device.unit]
  split
  · exact ⟨_, rfl⟩
  · split
    · exact ⟨_, rfl⟩
    · exact ⟨_, rfl⟩
theorem unit_ran (d : Device) (old : List JournalEntry) (step unit plaza instead : Nat) (fails : Bool) :
    d.Ran (d.unit old step unit plaza instead fails).2 := by
  obtain ⟨j, e⟩ := unit_journal d old step unit plaza instead fails
  rw [e]
  exact ran_of_eq rfl rfl rfl rfl
theorem only_ran (d : Device) (old : List JournalEntry) (step unit : Nat) (fails : Bool) : d.Ran (d.only old step unit fails) := by
  rw [Device.only]
  split
  · exact ⟨rfl, rfl, rfl, .inr rfl⟩
  · exact ite_ran ⟨rfl, rfl, rfl, .inr rfl⟩ (ran_of_eq rfl rfl rfl rfl)
theorem needDie_ran (h : d.Ran w) : d.Ran w.needDie := by
  rw [Device.needDie]
  exact ite_ran (h.trans ⟨rfl, rfl, rfl, .inr rfl⟩) h
theorem startDie_ran (i : Nat) : d.Ran (d.startDie old x i) :=
  (unit_ran d old 3 (i * 32) 0xFF 3 _).trans (ran_of_eq rfl rfl rfl rfl)
theorem startPlaza_ran (p : Nat) : d.Ran (d.startPlaza old x p) := by
  have h := unit_ran d old 4 (dieOf p * 32 + p % Config.plazasPerDie / 8) p 3 (x.deadPlazas.contains p)
  rw [Device.startPlaza]
  refine ite_ran (ran_of_eq rfl rfl rfl rfl) (ite_ran h (ite_ran ?_ ?_)) <;> exact h.trans (ran_of_eq rfl rfl rfl rfl)
theorem startPort_ran (p : Nat) : d.Ran (d.startPort old x p) :=
  (unit_ran d old 5 p 0xFF 2 _).trans (ran_of_eq rfl rfl rfl rfl)
theorem startLink_ran (l : Nat) : d.Ran (d.startLink old x l) :=
  (unit_ran d old 6 l 0xFF 2 _).trans (ran_of_eq rfl rfl rfl rfl)
theorem startUnit_ran (d : Device) (old : List JournalEntry) (x : StartUp) (n : Nat) : d.Ran (d.startUnit old x n) := by
  have hbase := only_ran d old 2 0 x.baseFails
  rw [Device.startUnit]
  refine ite_ran (only_ran ..) (ite_ran ?_ (ite_ran ?_ (ite_ran ?_ (ite_ran (startPort_ran _) (ite_ran (startLink_ran _) ?_)))))
  · exact ite_ran hbase (hbase.trans (ran_of_eq rfl rfl rfl rfl))
  · exact ite_ran (needDie_ran (startDie_ran _)) (startDie_ran _)
  · exact ite_ran (needDie_ran (startPlaza_ran _)) (startPlaza_ran _)
  · exact ite_ran (only_ran ..) (ran_of_eq rfl rfl rfl rfl)

/-! ### One unit after the other -/

theorem startNext_starting (h : d.phase = .starting) :
    d.startNext x = { d.startUnit (d.journal.take d.startLog) x d.startPos with startPos := d.startPos + 1 } := by
  rw [Device.startNext, h]
  rfl
theorem startNext_stopped (h : d.phase = .startStopped) : d.startNext x = d := by
  rw [Device.startNext, h]
  rfl
/-- What holds of the device by the number of units that it has come through, unit after unit. -/
theorem startSome_induction {P : Nat → Device → Prop} (hnext : ∀ m w, m < n + k → P m w → P (m + 1) (w.startNext x)) (h : P n d) :
    P (n + k) (Device.startSome x k d) := by
  induction k generalizing n d with
  | zero => exact h
  | succ k ih =>
    rw [← Nat.succ_add_eq_add_succ] at hnext ⊢
    exact ih hnext (hnext n d (by omega) h)

theorem startNext_starts (x : StartUp) (d : Device) : (d.startNext x).starts = d.starts := by
  rw [Device.startNext]
  split
  · exact (startUnit_ran d _ x d.startPos).starts
  · rfl
theorem startSome_starts (x : StartUp) (k : Nat) (d : Device) : (Device.startSome x k d).starts = d.starts :=
  startSome_induction (P := fun _ w => w.starts = d.starts) (n := 0) (fun _ w _ hw => (startNext_starts x w).trans hw) rfl

/-- The device in start-up before its unit n, with no entry of an earlier start in the journal. -/
structure Device.Before (n : Nat) (d : Device) : Prop where
  phase    : d.phase = .starting
  startPos : d.startPos = n
  startLog : d.startLog = 0

theorem startNext_before (h : d.Before n) : d.startNext x = { d.startUnit [] x n with startPos := n + 1 } := by
  rw [startNext_starting h.phase, h.startPos, h.startLog, List.take_zero]
theorem before_startNext (h : d.Before n) (hphase : (d.startUnit [] x n).phase = .starting) : (d.startNext x).Before (n + 1) := by
  rw [startNext_before h]
  exact ⟨hphase, rfl, (startUnit_ran d [] x n).startLog.trans h.startLog⟩
theorem stopped_startNext (h : d.Before n) (hphase : (d.startUnit [] x n).phase = .startStopped) : (d.startNext x).phase = .startStopped := by
  rw [startNext_before h]
  exact hphase
theorem startNext_phase (x : StartUp) (h : d.phase = .starting) :
    ((d.startNext x).phase = .starting ∨ (d.startNext x).phase = .startStopped) ∧ (d.startNext x).startPos = d.startPos + 1 := by
  rw [startNext_starting h]
  exact ⟨(startUnit_ran d _ x d.startPos).phase.imp_left fun e => e.trans h, rfl⟩
/-- Start-up comes through its units one by one, or stops. -/
theorem startSome_phase (x : StartUp) (k : Nat) (h : d.phase = .starting) :
    (Device.startSome x k d).phase = .startStopped
      ∨ (Device.startSome x k d).phase = .starting ∧ (Device.startSome x k d).startPos = d.startPos + k := by
  refine startSome_induction (P := fun n w => w.phase = .startStopped ∨ w.phase = .starting ∧ w.startPos = n) ?_ (.inr ⟨h, rfl⟩)
  rintro m w - (hw | ⟨hw, rfl⟩)
  · rw [startNext_stopped hw]
    exact .inl hw
  · obtain ⟨hphase, hpos⟩ := startNext_phase x hw
    exact hphase.symm.imp_right fun e => ⟨e, hpos⟩

/-! ### Units that find no entry of an earlier start -/

theorem only_fails (step unit : Nat) : (d.only [] step unit true).phase = .startStopped := rfl
theorem only_done (step unit : Nat) : d.only [] step unit false = d.note step unit 0xFF 0 := rfl
theorem unit_nil (d : Device) (step unit plaza instead : Nat) (fails : Bool) :
    ∃ j, d.unit [] step unit plaza instead fails = (!fails, { d with journal := j }) := by
  cases fails <;> exact ⟨_, rfl⟩

/-- A die as the units of start-up see it. -/
def Device.die (d : Device) (i : Nat) : Die := tabGet Die.off d.dies i

theorem startDie_nil (d : Device) (x : StartUp) (i : Nat) :
    ∃ j, d.startDie [] x i = { d with journal := j, dies := tabSet d.dies i ⟨!x.deadDies.contains i, 0, false⟩ } := by
  obtain ⟨j, e⟩ := unit_nil d 3 (i * 32) 0xFF 3 (x.deadDies.contains i)
  rw [Device.startDie, e]
  exact ⟨j, rfl⟩
theorem phase_startDie (d : Device) (x : StartUp) (i : Nat) : (d.startDie [] x i).phase = d.phase := by
  obtain ⟨_, e⟩ := startDie_nil d x i
  rw [e]
theorem host_startDie (d : Device) (x : StartUp) (i : Nat) : (d.startDie [] x i).host = d.host := by
  obtain ⟨_, e⟩ := startDie_nil d x i
  rw [e]
theorem die_startDie (d : Device) (x : StartUp) (i k : Nat) :
    (d.startDie [] x i).die k = if k = i then ⟨!x.deadDies.contains i, 0, false⟩ else d.die k := by
  obtain ⟨_, e⟩ := startDie_nil d x i
  rw [e, Device.die]
  dsimp only
  split
  · next h => rw [h, tabGet_tabSet_self]
  · next h => exact tabGet_tabSet_ne _ _ _ h
theorem mem_enabledDies {i : Nat} : i ∈ d.enabledDies ↔ i < 8 ∧ (d.die i).enabled = true := by
  rw [Device.enabledDies, List.mem_filter, List.mem_range]
  rfl
theorem needDie_of_enabled {i : Nat} (hi : i < 8) (h : (d.die i).enabled = true) : d.needDie = d := by
  rw [Device.needDie]
  exact if_neg fun e => by
    rw [List.isEmpty_iff] at e
    exact List.not_mem_nil (e ▸ mem_enabledDies.2 ⟨hi, h⟩)
theorem needDie_of_none (h : ∀ i, (d.die i).enabled = false) : d.needDie.phase = .startStopped := by
  have hnone : d.enabledDies = [] := List.eq_nil_iff_forall_not_mem.2 fun i hi => by simpa [h i] using (mem_enabledDies.1 hi).2
  rw [Device.needDie, hnone]
  rfl

theorem dies_needDie (d : Device) : d.needDie.dies = d.dies := by
  rw [Device.needDie]
  split <;> rfl
theorem dies_only (d : Device) (old : List JournalEntry) (step unit : Nat) (fails : Bool) : (d.only old step unit fails).dies = d.dies := by
  rw [Device.only]
  split
  · rfl
  · split <;> rfl

theorem dies_startUnit {old : List JournalEntry} (h2 : n < 2) : (d.startUnit old x n).dies = d.dies := by
  have hbase := dies_only d old 2 0 x.baseFails
  rw [Device.startUnit]
  split
  · exact dies_only ..
  · rw [if_pos (by omega)]
    dsimp only
    split <;> exact hbase
theorem startUnit_die {old : List JournalEntry} (h2 : 2 ≤ n) (h10 : n < 10) :
    d.startUnit old x n = if n = 9 then (d.startDie old x (n - 2)).needDie else d.startDie old x (n - 2) := by
  rw [Device.startUnit, if_neg (by omega), if_neg (by omega), if_pos h10]

/-! ### Start-up that stops -/

/-- Start-up has stopped by unit n, or stands before a unit below it where P holds. -/
def Device.StopsBy (n : Nat) (P : Nat → Device → Prop) (m : Nat) (d : Device) : Prop := d.phase = .startStopped ∨ m < n ∧ d.Before m ∧ P m d

/-- Start-up that stops before its unit n at the latest has stopped once the units below n have run. -/
theorem startSome_stopsBy {P : Nat → Device → Prop} (hn : n ≤ k) (h : d.Before 0) (hpos : 0 < n) (hP : P 0 d)
    (hnext : ∀ m w, m < n → w.Before m → P m w → Device.StopsBy n P (m + 1) (w.startNext x)) :
    (Device.startSome x k d).phase = .startStopped := by
  have hk : Device.StopsBy n P (0 + k) (Device.startSome x k d) := by
    refine startSome_induction (P := Device.StopsBy n P) ?_ (.inr ⟨hpos, h, hP⟩)
    rintro m w - (hw | ⟨hm, hw, hPw⟩)
    · rw [startNext_stopped hw]
      exact .inl hw
    · exact hnext m w hm hw hPw
  exact hk.resolve_right fun ⟨hlt, _⟩ => by omega

/-- Where the controller or the base fails, start-up stops in its first two units. -/
theorem startSome_controller_or_base_fails (hk : 2 ≤ k) (h : d.Before 0) (hfail : x.ctlFails = true ∨ x.baseFails = true) :
    (Device.startSome x k d).phase = .startStopped := by
  refine startSome_stopsBy (P := fun m _ => m = 1 → x.baseFails = true) hk h (by decide) nofun fun m w hm hw hbase => ?_
  have hm' : m = 0 ∨ m = 1 := by omega
  rcases hm' with rfl | rfl
  · cases hctl : x.ctlFails with
    | true =>
      refine .inl (stopped_startNext hw ?_)
      rw [Device.startUnit, if_pos rfl, hctl, only_fails]
    | false =>
      refine .inr ⟨by decide, before_startNext hw ?_, fun _ => hfail.resolve_left (by simp [hctl])⟩
      rw [Device.startUnit, if_pos rfl, hctl, only_done]
      exact hw.phase
  · refine .inl (stopped_startNext hw ?_)
    rw [Device.startUnit, if_neg (by decide), if_pos rfl, hbase rfl]
    rfl

/-- Where every die fails, start-up stops with the last of them at the latest. -/
theorem startSome_dies_fail (hk : 10 ≤ k) (h : d.Before 0) (hdies : d.dies = []) (hdead : ∀ i, i < 8 → x.deadDies.contains i = true) :
    (Device.startSome x k d).phase = .startStopped := by
  refine startSome_stopsBy (P := fun _ w => ∀ i, (w.die i).enabled = false) hk h (by decide) (fun i => by rw [Device.die, hdies]; rfl)
    fun m w hm hw hoff => ?_
  have hkept : ∀ i, ((w.startUnit [] x m).die i).enabled = false := fun i => by
    by_cases h2 : 2 ≤ m
    · have hdie : ((w.startDie [] x (m - 2)).die i).enabled = false := by
        rw [die_startDie, hdead (m - 2) (by omega)]
        split
        · rfl
        · exact hoff i
      rw [startUnit_die h2 hm]
      split
      · rwa [Device.die, dies_needDie]
      · exact hdie
    · rw [Device.die, dies_startUnit (by omega)]
      exact hoff i
  rcases (startUnit_ran w [] x m).phase with e | e
  · refine .inr ⟨?_, before_startNext hw (e.trans hw.phase), fun i => by rw [startNext_before hw]; exact hkept i⟩
    by_contra hlast
    obtain rfl : m = 9 := by omega
    rw [startUnit_die (by decide) hm, if_pos rfl] at e hkept
    have hstop := needDie_of_none fun i => by have := hkept i; rwa [Device.die, dies_needDie] at this
    exact absurd (hw.phase.symm.trans (e.symm.trans hstop)) (by decide)
  · exact .inl (stopped_startNext hw e)

/-! ### Start-up that succeeds -/

/-- Start-up in which nothing of steps 1 to 4 fails, before its unit n: the dies whose unit has run are enabled and ON, and after the base the
host ports are up. -/
structure Device.OnCourse (n : Nat) (d : Device) : Prop extends d.Before n where
  dies  : ∀ i, i < 8 → i + 2 < n → d.die i = ⟨true, 0, false⟩
  ports : 2 ≤ n → d.host.portUp = [true, true]

theorem onCourse_startNext (h : d.OnCourse n) (hphase : (d.startUnit [] x n).phase = .starting)
    (hdies : ∀ i, i < 8 → i + 2 < n + 1 → (d.startUnit [] x n).die i = ⟨true, 0, false⟩)
    (hports : 2 ≤ n + 1 → (d.startUnit [] x n).host.portUp = [true, true]) : (d.startNext x).OnCourse (n + 1) := by
  refine ⟨before_startNext h.toBefore hphase, ?_, ?_⟩ <;> rw [startNext_before h.toBefore]
  · exact hdies
  · exact hports
/-- A unit after the dies' that leaves the dies and the host side as they are. -/
theorem onCourse_of_same (h : d.OnCourse n) (hn : 10 ≤ n) (hphase : (d.startUnit [] x n).phase = d.phase)
    (hdies : (d.startUnit [] x n).dies = d.dies) (hhost : (d.startUnit [] x n).host = d.host) : (d.startNext x).OnCourse (n + 1) :=
  onCourse_startNext h (hphase.trans h.phase) (fun i hi _ => by rw [Device.die, hdies]; exact h.dies i hi (by omega))
    fun _ => by rw [hhost]; exact h.ports (by omega)

theorem onCourse_controller_base (h : d.OnCourse n) (hn : n < 2) (hctl : x.ctlFails = false) (hbase : x.baseFails = false) :
    (d.startNext x).OnCourse (n + 1) := by
  have hn' : n = 0 ∨ n = 1 := by omega
  rcases hn' with rfl | rfl
  · refine onCourse_startNext h ?_ (fun i _ hi => by omega) fun hp => by omega
    rw [Device.startUnit, if_pos rfl, hctl]
    exact h.phase
  · have hunit : d.startUnit [] x 1 = { d.note 2 0 0xFF 0 with host := { d.host with portUp := [true, true] } } := by
      rw [Device.startUnit, if_neg (by decide), if_pos rfl, hbase, only_done]
      exact if_neg (by rw [show (d.note 2 0 0xFF 0).phase = d.phase from rfl, h.phase]; decide)
    refine onCourse_startNext h ?_ (fun i _ hi => by omega) fun _ => ?_ <;> rw [hunit]
    exact h.phase
theorem onCourse_die (h : d.OnCourse n) (h2 : 2 ≤ n) (h10 : n < 10) (hx : x.deadDies = []) : (d.startNext x).OnCourse (n + 1) := by
  have hdie : ∀ i, i < 8 → i + 2 < n + 1 → (d.startDie [] x (n - 2)).die i = ⟨true, 0, false⟩ := fun i hi hin => by
    rw [die_startDie, hx]
    split
    · rfl
    · exact h.dies i hi (by omega)
  have hunit : d.startUnit [] x n = d.startDie [] x (n - 2) := by
    rw [startUnit_die h2 h10, needDie_of_enabled (i := 0) (by decide) (by rw [hdie 0 (by decide) (by omega)])]
    split <;> rfl
  refine onCourse_startNext h ?_ ?_ fun _ => ?_ <;> rw [hunit]
  · rw [phase_startDie, h.phase]
  · exact hdie
  · rw [host_startDie]
    exact h.ports h2
theorem startPlaza_nil (hx : x.deadPlazas = []) (p : Nat) : ∃ j, d.startPlaza [] x p = { d with journal := j } := by
  obtain ⟨j, e⟩ := unit_nil d 4 (dieOf p * 32 + p % Config.plazasPerDie / 8) p 3 (x.deadPlazas.contains p)
  rw [Device.startPlaza, e, hx]
  split
  · exact ⟨_, rfl⟩
  · exact ⟨_, rfl⟩
theorem onCourse_plaza (h : d.OnCourse n) (h10 : 10 ≤ n) (h202 : n < 202) (hx : x.deadPlazas = []) : (d.startNext x).OnCourse (n + 1) := by
  obtain ⟨j, e⟩ := startPlaza_nil (d := d) hx (n - 10)
  have hunit : d.startUnit [] x n = { d with journal := j } := by
    have hneed : ({ d with journal := j } : Device).needDie = { d with journal := j } :=
      needDie_of_enabled (i := 0) (by decide) (congrArg Die.enabled (h.dies 0 (by decide) (by omega)))
    rw [Device.startUnit, if_neg (by omega), if_neg (by omega), if_neg (by omega), if_pos h202, e]
    dsimp only
    rw [hneed, ite_self]
  exact onCourse_of_same h h10 (by rw [hunit]) (by rw [hunit]) (by rw [hunit])
theorem onCourse_port (h : d.OnCourse n) (h202 : 202 ≤ n) (h218 : n < 218) : (d.startNext x).OnCourse (n + 1) := by
  obtain ⟨j, e⟩ := unit_nil d 5 (n - 202) 0xFF 2 (x.deadPorts.contains (n - 202))
  have hunit : d.startUnit [] x n = d.startPort [] x (n - 202) := by
    rw [Device.startUnit, if_neg (by omega), if_neg (by omega), if_neg (by omega), if_neg (by omega), if_pos h218]
  apply onCourse_of_same h (by omega) <;> rw [hunit, Device.startPort, e]
theorem onCourse_link (h : d.OnCourse n) (h218 : 218 ≤ n) (h242 : n < 242) : (d.startNext x).OnCourse (n + 1) := by
  obtain ⟨j, e⟩ := unit_nil d 6 (n - 218) 0xFF 2 (x.deadLinks.contains (n - 218))
  have hunit : d.startUnit [] x n = d.startLink [] x (n - 218) := by
    rw [Device.startUnit, if_neg (by omega), if_neg (by omega), if_neg (by omega), if_neg (by omega), if_neg (by omega), if_pos h242]
  apply onCourse_of_same h (by omega) <;> rw [hunit, Device.startLink, e]
theorem startUnit_dispatcher (h : d.OnCourse n) (h242 : 242 ≤ n) (h250 : n < 250) :
    d.startUnit [] x n = d.only [] 7 ((n - 242) * 32) (x.deadDispatchers.contains (n - 242)) := by
  rw [Device.startUnit, if_neg (by omega), if_neg (by omega), if_neg (by omega), if_neg (by omega), if_neg (by omega), if_neg (by omega),
    Device.startLast]
  exact if_pos (congrArg Die.enabled (h.dies (n - 242) (by omega) (by omega)))
theorem onCourse_dispatcher (h : d.OnCourse n) (h242 : 242 ≤ n) (h250 : n < 250) (hx : x.deadDispatchers.contains (n - 242) = false) :
    (d.startNext x).OnCourse (n + 1) := by
  have hunit := startUnit_dispatcher (x := x) h h242 h250
  rw [hx, only_done] at hunit
  apply onCourse_of_same h (by omega) <;> rw [hunit] <;> rfl
/-- What must not fail for start-up to stay on course: the controller, the base, the dies and the plazas. -/
structure ClearCourse (x : StartUp) : Prop where
  ctl    : x.ctlFails = false
  base   : x.baseFails = false
  dies   : x.deadDies = []
  plazas : x.deadPlazas = []

theorem onCourse_next (hx : ClearCourse x) (h : d.OnCourse n) (h250 : n < 250) (hlast : 242 ≤ n → x.deadDispatchers.contains (n - 242) = false) :
    (d.startNext x).OnCourse (n + 1) := by
  by_cases h2 : n < 2
  · exact onCourse_controller_base h h2 hx.ctl hx.base
  by_cases h10 : n < 10
  · exact onCourse_die h (by omega) h10 hx.dies
  by_cases h202 : n < 202
  · exact onCourse_plaza h (by omega) h202 hx.plazas
  by_cases h218 : n < 218
  · exact onCourse_port h (by omega) h218
  by_cases h242 : n < 242
  · exact onCourse_link h (by omega) h242
  · exact onCourse_dispatcher h (by omega) h250 (hlast (by omega))
theorem onCourse_zero (h : d.Before 0) : d.OnCourse 0 := ⟨h, fun _ _ hi => by omega, fun hp => by omega⟩
theorem startSome_onCourse (hx : ClearCourse x) (h : d.Before 0) (hlast : x.deadDispatchers = []) : (Device.startSome x 250 d).OnCourse 250 :=
  startSome_induction (P := Device.OnCourse) (n := 0) (fun m _ (hm : m < 0 + 250) hw => onCourse_next hx hw (by omega) fun _ => by rw [hlast]; rfl) (onCourse_zero h)
/-- Where a dispatcher of one of the dies fails, start-up stops there at the latest. -/
theorem startSome_dispatcher_fails (hx : ClearCourse x) (h : d.Before 0) {i : Nat} (hi : i < 8) (hdead : x.deadDispatchers.contains i = true) :
    (Device.startSome x 250 d).phase = .startStopped := by
  refine startSome_stopsBy (n := 243 + i) (P := Device.OnCourse) (by omega) h (by omega) (onCourse_zero h) fun m w hm hw hcourse => ?_
  by_cases hfails : 242 ≤ m ∧ x.deadDispatchers.contains (m - 242) = true
  · refine .inl (stopped_startNext hw ?_)
    rw [startUnit_dispatcher hcourse hfails.1 (by omega), hfails.2, only_fails]
  · have hnext := onCourse_next hx hcourse (by omega) fun h242 => by simpa [h242] using hfails
    refine .inr ⟨?_, hnext.toBefore, hnext⟩
    by_contra hlast
    obtain rfl : m = 242 + i := by omega
    exact hfails ⟨by omega, by rwa [Nat.add_sub_cancel_left]⟩
end

end Sys2Proof.Machine
end

section
/-! Start-up, power removal and a security alarm (R82, R369-R372, R375, R376). -/
namespace Sys2Proof.Machine

section
variable {s : State} {x : StartUp}

/-! ### Power removal and a security alarm -/

/-- What holds of the default and of every entry of a table holds of what it reads. -/
theorem tabGet_of_all {α : Type} {P : α → Prop} {d : α} {t : Tab α} (k : Nat) (hd : P d) (h : ∀ y ∈ t, P y.2) : P (tabGet d t k) := by
  induction t with
  | nil => exact hd
  | cons y t ih =>
    rw [tabGet]
    split
    · exact h y List.mem_cons_self
    · exact ih fun z hz => h z (List.mem_cons_of_mem y hz)
theorem exec_securityAlarm (h : s.dev.phase ≠ .unpowered) (n : Nat) : ∃ t, exec (.securityAlarm n) s = .next t ∧ t.mem = s.mem ∧ t.dev =
    { s.dev with
      phase := .halted, alarmDue := true, keys := s.dev.keys.map fun k => (k.1, { k.2 with gen := (k.2.gen + 1) % 2 ^ 32, loaded := false })
      alarms := if s.dev.alarms.length < 16 then s.dev.alarms ++ [(s.dev.ns / 1000 % 2 ^ 48, n % 16)] else s.dev.alarms
      links := s.dev.links.map fun l => (l.1, { l.2 with up := false })
      host := { s.dev.host with portUp := s.dev.host.portUp.map fun _ => false } } := by
  change ∃ t, execSecurityAlarm n s = _ ∧ _
  rw [execSecurityAlarm, if_neg h]
  exact ⟨_, rfl, rfl, rfl⟩

theorem powerAndAlarm : Claims.PowerAndAlarm := by
  intro s n
  refine ⟨⟨_, rfl, rfl, rfl, rfl, rfl, rfl, rfl, rfl, rfl, rfl⟩, fun h => ?unpowered, fun h => ?alarm⟩
  case unpowered =>
    change execSecurityAlarm n s = _
    rw [execSecurityAlarm, if_pos h]
  case alarm =>
    obtain ⟨t, ht, hmem, hdev⟩ := exec_securityAlarm h n
    refine ⟨t, ht, by rw [hdev], by rw [hdev], hmem, fun l => ?links, fun k => ?ports, fun k => ?keys, by rw [hdev], fun hroom => ?room,
      fun hfull => ?full⟩ <;> rw [hdev]
    case links =>
      refine tabGet_of_all (P := fun v : Link => v.up = false) l rfl fun y hy => ?_
      obtain ⟨z, -, rfl⟩ := List.mem_map.1 hy
      rfl
    case ports => cases hk : s.dev.host.portUp[k]? <;> simp
    case keys =>
      refine tabGet_of_all (P := fun v : KeySlot => v.loaded = false) k rfl fun y hy => ?_
      obtain ⟨z, -, rfl⟩ := List.mem_map.1 hy
      rfl
    case room => exact if_pos hroom
    case full => exact if_neg (Nat.not_lt.2 hfull)

/-! ### Start-up -/

/-- A start-up that begins in state s and comes through k units (R370-R372). -/
def State.startRun (s : State) (x : StartUp) (k : Nat) : State := (s.startBegin.modDev (Device.startSome x k)).startDone

/-- How many units a start-up comes through, unless it stops. -/
def unitsOf (x : StartUp) : Nat :=
  match x.upTo with
  | some k => Nat.min k 250
  | none => 250

theorem exec_startUp_begins (h : s.dev.phase = .reset ∨ s.dev.phase = .unpowered) :
    exec (.startUp x) s = .next (s.startRun x (unitsOf x)) := by
  change execStartUp x s = _
  rcases h with h | h <;> (rw [execStartUp, h]; rfl)
theorem exec_startUp_whole (h : s.dev.phase = .reset ∨ s.dev.phase = .unpowered) (hx : x.upTo = none) :
    exec (.startUp x) s = .next (s.startRun x 250) := by
  rw [exec_startUp_begins h, unitsOf, hx]
theorem exec_startUp_part {k : Nat} (h : s.dev.phase = .reset ∨ s.dev.phase = .unpowered) (hx : x.upTo = some k) (hk : k < 250) :
    exec (.startUp x) s = .next (s.startRun x k) := by
  rw [exec_startUp_begins h, unitsOf, hx]
  exact congrArg (fun n => Host.Outcome.next (s.startRun x n)) (Nat.min_eq_left hk.le)

theorem startBegin_before (hj : s.dev.journal = []) : s.startBegin.dev.Before 0 := ⟨rfl, rfl, congrArg List.length hj⟩
/-- A start-up that has not come through its last unit, or has stopped, does not end. -/
theorem startRun_unfinished {k : Nat} (h : (Device.startSome x k s.startBegin.dev).phase = .startStopped
      ∨ (Device.startSome x k s.startBegin.dev).startPos < 250) :
    s.startRun x k = s.startBegin.modDev (Device.startSome x k) := by
  rw [State.startRun, State.startDone]
  refine if_neg fun e => ?_
  simp only [Bool.and_eq_true, beq_iff_eq, decide_eq_true_eq] at e
  obtain ⟨hphase, hpos⟩ := e
  rcases h with h | h
  · exact absurd (hphase.symm.trans h) (by decide)
  · exact absurd h (Nat.not_lt.2 hpos)
theorem startRun_stopped {k : Nat} (h : (Device.startSome x k s.startBegin.dev).phase = .startStopped) :
    (s.startRun x k).dev.phase = .startStopped ∧ (s.startRun x k).plazas = [] := by
  rw [startRun_unfinished (.inl h)]
  exact ⟨h, rfl⟩

/-- The dispatchers of the dies of a list are started, on plaza 0 of each; nothing else of the module changes. -/
theorem startDispatchers (l : List Nat) (s : State) : (l.foldl State.startDispatcher s).dev = s.dev ∧ (l.foldl State.startDispatcher s).mem = s.mem
    ∧ ∀ i ∈ l, (l.foldl State.startDispatcher s).ctx (i * 24) 5 = { Ctx.off .running with pc := Config.dispatcherEntry i &&& ~~~3 } := by
  have hself : ∀ (u : State) i, (u.startDispatcher i).ctx (i * 24) 5 = { Ctx.off .running with pc := Config.dispatcherEntry i &&& ~~~3 } :=
    fun u i => congrArg Plaza.ctx5 (plaza_modPlaza_self u (i * 24) _)
  have hother : ∀ (u : State) {i j}, j ≠ i → (u.startDispatcher i).ctx (j * 24) 5 = u.ctx (j * 24) 5 :=
    fun u i j h => congrArg Plaza.ctx5 (plaza_modPlaza_ne u _ fun e => h (Nat.eq_of_mul_eq_mul_right (by decide) e))
  have hkept : ∀ (l : List Nat) (u : State) i, u.ctx (i * 24) 5 = { Ctx.off .running with pc := Config.dispatcherEntry i &&& ~~~3 } →
      (l.foldl State.startDispatcher u).ctx (i * 24) 5 = { Ctx.off .running with pc := Config.dispatcherEntry i &&& ~~~3 } := by
    intro l u i hu
    refine List.foldlRecOn (motive := fun t : State => t.ctx (i * 24) 5 = { Ctx.off .running with pc := Config.dispatcherEntry i &&& ~~~3 }) l _ hu fun t ht j _ => ?_
    by_cases hj : i = j
    · rw [hj, hself]
    · rw [hother t hj, ht]
  induction l generalizing s with
  | nil => exact ⟨rfl, rfl, nofun⟩
  | cons j l ih =>
    obtain ⟨hdev, hmem, hctx⟩ := ih (s.startDispatcher j)
    refine ⟨hdev, hmem, fun i hi => ?_⟩
    rcases List.mem_cons.1 hi with rfl | hi
    · exact hkept l _ i (hself s i)
    · exact hctx i hi
/-- Start-up that has come through its last unit ends with the module up and the dispatchers running. -/
theorem startDone_onCourse {u : State} (h : u.dev.OnCourse 250) : u.startDone =
    u.dev.enabledDies.foldl State.startDispatcher (u.modDev fun d => { d with phase := .up, locked := d.modNum == d.host.tbmaster }) := by
  rw [State.startDone, h.phase, h.startPos]
  rfl
theorem startRun_onCourse {k : Nat} (h : (Device.startSome x k s.startBegin.dev).OnCourse 250) :
    (s.startRun x k).dev.phase = .up ∧ (s.startRun x k).mem = s.mem.filter (fun c => 2 ^ 45 ≤ c.1)
      ∧ (s.startRun x k).dev.starts = s.dev.starts + 1 ∧ (s.startRun x k).dev.host.portUp = [true, true]
      ∧ ∀ i, i < 8 → ((s.startRun x k).die i).enabled = true ∧ ((s.startRun x k).die i).power = 0
        ∧ ((s.startRun x k).ctx (i * 24) 5).state = .running ∧ ((s.startRun x k).ctx (i * 24) 5).pc = Config.dispatcherEntry i &&& ~~~3 := by
  have hstarts := startSome_starts x k s.startBegin.dev
  have hdie := fun i (hi : i < 8) => h.dies i hi (by omega)
  rw [State.startRun]
  generalize hu : s.startBegin.modDev (Device.startSome x k) = u
  have hdevu : Device.startSome x k s.startBegin.dev = u.dev := congrArg State.dev hu
  rw [hdevu] at h hstarts hdie
  obtain ⟨hdev, hmem, hctx⟩ := startDispatchers u.dev.enabledDies
    (u.modDev fun d => { d with phase := .up, locked := d.modNum == d.host.tbmaster })
  rw [startDone_onCourse h]
  refine ⟨by rw [hdev]; rfl, by rw [hmem, ← hu]; rfl, by rw [hdev]; exact hstarts, by rw [hdev]; exact h.ports (by decide), fun i hi => ?_⟩
  rw [State.die, hdev, hctx i (mem_enabledDies.2 ⟨hi, by rw [hdie i hi]⟩)]
  exact ⟨congrArg Die.enabled (hdie i hi), congrArg Die.power (hdie i hi), rfl, rfl⟩

theorem startUpSteps : Claims.StartUpSteps := by
  intro s x hphase hj
  have hbefore := startBegin_before hj
  refine ⟨fun hx hfail => ?first, fun hx hdead => ?dies, fun hx hctl hbase hdies hplazas => ?clear, fun k hx hk => ?part⟩
  case first => exact ⟨_, exec_startUp_whole hphase hx, startRun_stopped (startSome_controller_or_base_fails (by decide) hbefore hfail)⟩
  case dies => exact ⟨_, exec_startUp_whole hphase hx, (startRun_stopped (startSome_dies_fail (by decide) hbefore rfl hdead)).1⟩
  case clear =>
    have hclear : ClearCourse x := ⟨hctl, hbase, hdies, hplazas⟩
    refine ⟨fun ⟨i, hi, hdead⟩ => ⟨_, exec_startUp_whole hphase hx, (startRun_stopped (startSome_dispatcher_fails hclear hbefore hi hdead)).1⟩,
      fun hlast => ⟨_, exec_startUp_whole hphase hx, startRun_onCourse (startSome_onCourse hclear hbefore hlast)⟩⟩
  case part =>
    have hend := startSome_phase x k hbefore.phase
    rw [hbefore.startPos, Nat.zero_add] at hend
    refine ⟨_, exec_startUp_part hphase hx hk, ?_⟩
    rw [startRun_unfinished (hend.imp_right fun h => h.2.trans_lt hk)]
    exact ⟨rfl, hend⟩
end

end Sys2Proof.Machine
end

section
/-! What a module without power, one whose start-up stopped and one that an alarm halted may do (R369, R370, R375): the events that the hosts and the
key sessions cause leave the phase as it is. -/
namespace Sys2Proof.Machine

/-- Every outcome leaves the module in a phase. -/
def Out.inPhase (ph : Phase) : Out → Prop
  | .next t => t.dev.phase = ph
  | _ => True

section
variable {s t : State} {ph : Phase} {i : Instr} {c : Choice}

theorem ite_inPhase {q : Prop} [Decidable q] {o r : Out} (ho : o.inPhase ph) (hr : r.inPhase ph) : Out.inPhase ph (if q then o else r) := by
  split <;> assumption
theorem ite_phase {q : Prop} [Decidable q] {u : State} (ht : t.dev.phase = ph) (hu : u.dev.phase = ph) : (if q then t else u).dev.phase = ph := by
  split <;> assumption
theorem foldl_phase {α : Type} {l : List α} {f : State → α → State} (h : s.dev.phase = ph)
    (hf : ∀ (u : State) x, u.dev.phase = ph → (f u x).dev.phase = ph) : (l.foldl f s).dev.phase = ph :=
  List.foldlRecOn (motive := fun u : State => u.dev.phase = ph) l f h fun u hu x _ => hf u x hu
theorem SameCore.phase (h : SameCore s t) (hs : s.dev.phase = ph) : t.dev.phase = ph := by
  obtain ⟨-, ⟨links, hdev⟩, -⟩ := h
  rw [hdev]
  exact hs

/-! ### Accesses of the hosts -/

theorem recall_phase {line : Nat} (h : s.dev.phase = ph) : (s.recall line).dev.phase = ph := (recall_sameCore (.refl s)).phase h
theorem sendPublish_phase {id seq : Nat} {who : Requester} (h : s.dev.phase = ph) : (s.sendPublish id seq who).dev.phase = ph :=
  ite_phase h ((request_sameCore (.refl s)).phase h)
theorem writeBytes_phase {key : Nat} {bs : List Byte} (h : s.dev.phase = ph) : (s.writeBytes key bs).dev.phase = ph :=
  foldl_phase h fun u _ hu => (writeHere_sameCore (.refl u)).phase hu
theorem answerHost_phase {n a : Nat} {x : HostAnswer} (h : s.dev.phase = ph) : (s.answerHost n a x).dev.phase = ph := h
theorem modHost_phase {f : HostSide → HostSide} (h : s.dev.phase = ph) : (s.modHost f).dev.phase = ph := h
theorem hostRead_phase {n pa size : Nat} {delays : List Delay} (h : s.dev.phase = ph) : (s.hostRead n pa size delays).dev.phase = ph := by
  have hrecall : ((linePieces pa size).foldl (fun t x => t.recall (x.1 / 128)) s).dev.phase = ph := foldl_phase h fun _ _ => recall_phase
  unfold State.hostRead
  refine ite_phase (answerHost_phase h) ?_
  dsimp only
  split
  · exact answerHost_phase hrecall
  · exact ite_phase (answerHost_phase hrecall) (ite_phase (modHost_phase hrecall) (ite_phase (answerHost_phase hrecall)
      (modHost_phase (foldl_phase hrecall fun _ _ => sendPublish_phase))))
theorem hostWrite_phase {n pa : Nat} {bs : List Byte} (h : s.dev.phase = ph) : (s.hostWrite n pa bs).dev.phase = ph :=
  ite_phase h (ite_phase (answerHost_phase h) (ite_phase (answerHost_phase h) (writeBytes_phase h)))
theorem signal_phase {v : Nat} (h : s.dev.phase = ph) : (s.signal v).dev.phase = ph := h
theorem invalidate_phase {pasid base len : Nat} {entry : Option Nat} (h : s.dev.phase = ph) : (s.invalidate pasid base len entry).dev.phase = ph := h
theorem takeEntry_phase {k : Nat} (h : s.dev.phase = ph) : (s.takeEntry k).dev.phase = ph :=
  ite_phase h (invalidate_phase (recall_phase h))

/-! ### Events of the hosts and the key sessions -/

theorem execBar2Read_phase {n o size : Nat} (h : s.dev.phase = ph) : (execBar2Read n o size s).inPhase ph := ite_phase h (hostRead_phase h)
theorem execBar2Write_phase {n o : Nat} {x : List Byte} (h : s.dev.phase = ph) : (execBar2Write n o x s).inPhase ph :=
  ite_phase (hostWrite_phase h) h
theorem execCxlHostAccess_phase {n a size : Nat} {x : List Byte} (h : s.dev.phase = ph) : (execCxlHostAccess n a size x s).inPhase ph :=
  ite_phase (ite_phase h (hostRead_phase h)) (hostWrite_phase h)
theorem execPartmodeWrite_phase {n v : Nat} (h : s.dev.phase = ph) : (execPartmodeWrite n v s).inPhase ph := ite_inPhase h (signal_phase h)
theorem execTakeover_phase {n v : Nat} (h : s.dev.phase = ph) : (execTakeover n v s).inPhase ph := ite_inPhase (signal_phase h) h
theorem execHostPortLinkDown_phase {n : Nat} (h : s.dev.phase = ph) : (execHostPortLinkDown n s).inPhase ph := ite_inPhase (signal_phase h) h
theorem execInvqtailWrite_phase {w : HostWrite} (h : s.dev.phase = ph) : (execInvqtailWrite w s).inPhase ph :=
  ite_inPhase h (ite_inPhase h (foldl_phase h fun _ _ => takeEntry_phase))
theorem execDiepwrWrite_phase {d : Nat} {w : HostWrite} (h : s.dev.phase = ph) : (execDiepwrWrite d w s).inPhase ph :=
  ite_inPhase h (ite_inPhase h (ite_inPhase h (ite_inPhase (ite_phase h h) (ite_inPhase h h))))
theorem execPasidbind_phase {w : HostWrite} (h : s.dev.phase = ph) : (execPasidbind w s).inPhase ph := ite_inPhase h h
theorem execKeyLoad_phase {n f m : Nat} (h : s.dev.phase = ph) : (execKeyLoad n f m s).inPhase ph :=
  ite_inPhase h (ite_inPhase h (ite_inPhase h h))
theorem execJournalclr_phase {w : HostWrite} (h : s.dev.phase = ph) : (execJournalclr w s).inPhase ph := ite_phase h h
theorem execAlarmack_phase {w : HostWrite} (h : s.dev.phase = ph) : (execAlarmack w s).inPhase ph := ite_phase h h
theorem setMaster_phase {d : Device} {old : Nat} (h : d.phase = ph) : (d.setMaster old).phase = ph := by
  rw [Device.setMaster]
  split <;> exact h
theorem execRegisterWrite_phase {n o : Nat} {x : List Byte} (h : s.dev.phase = ph) : (execRegisterWrite n o x s).inPhase ph :=
  ite_inPhase h (ite_inPhase (answerHost_phase h) (ite_inPhase h (setMaster_phase h)))

theorem hostEvent_phase (hi : hostEvent i = true) (h : s.dev.phase = ph) : Out.inPhase ph (exec i s) := by
  unfold hostEvent at hi
  split at hi
  case h_1 => exact execBar2Read_phase h
  case h_2 => exact execBar2Write_phase h
  case h_3 => exact execCxlHostAccess_phase h
  case h_4 => exact execPartmodeWrite_phase h
  case h_5 => exact execTakeover_phase h
  case h_6 => exact execInvqtailWrite_phase h
  case h_7 => exact execDiepwrWrite_phase h
  case h_8 => exact execPasidbind_phase h
  case h_9 => exact execKeyLoad_phase h
  case h_10 => exact execJournalclr_phase h
  case h_11 => exact execAlarmack_phase h
  case h_12 => exact execRegisterWrite_phase h
  case h_13 => exact execHostPortLinkDown_phase h
  case h_14 => cases hi

/-! ### The events that a stopped module takes -/

theorem phase_powerRemoval (h : exec .powerRemoval s = .next t) : t.dev.phase = .unpowered := by
  cases h
  rfl
theorem phase_securityAlarm {n : Nat} (hs : s.dev.phase ≠ .unpowered) (h : exec (.securityAlarm n) s = .next t) : t.dev.phase = .halted := by
  obtain ⟨u, hu, -, hdev⟩ := exec_securityAlarm hs n
  cases hu.symm.trans h
  rw [hdev]
/-- A start-up of a module without power is under way, is over, or has stopped. -/
theorem phase_startUp {x : StartUp} (hs : s.dev.phase = .unpowered) (h : exec (.startUp x) s = .next t) :
    t.dev.phase = .up ∨ t.dev.phase = .starting ∨ t.dev.phase = .startStopped := by
  rw [exec_startUp_begins (.inr hs)] at h
  cases h
  rw [State.startRun, State.startDone]
  split
  · exact .inl (congrArg Device.phase (startDispatchers _ _).1)
  · exact .inr ((startSome_phase x (unitsOf x) rfl).symm.imp_left fun e => e.1)

/-- The phases of a module that makes no step of its own. -/
def Phase.Stopped (ph : Phase) : Prop := ph = .unpowered ∨ ph = .startStopped ∨ ph = .halted
/-- What may become of a stopped module: it stays so, starts where it had no power, and else is halted or loses its power. -/
def Phase.MayBecome (ph new : Phase) : Prop :=
  new = ph ∨ ph = .unpowered ∧ (new = .up ∨ new = .starting ∨ new = .startStopped) ∨ ph ≠ .unpowered ∧ (new = .halted ∨ new = .unpowered)

theorem takes_event (hph : ph.Stopped) (h : takes ph (.event i) = true) :
    ph = .unpowered ∧ (∃ x, i = .startUp x) ∨ ph ≠ .unpowered ∧ (i = .powerRemoval ∨ (∃ n, i = .securityAlarm n) ∨ hostEvent i = true) := by
  simp only [takes] at h
  split at h
  case h_3 x => exact .inl ⟨rfl, x, rfl⟩
  case h_5 => cases h
  case h_6 hpower => exact .inr ⟨hpower, .inl rfl⟩
  case h_7 n _ _ hpower => exact .inr ⟨hpower, .inr (.inl ⟨n, rfl⟩)⟩
  case h_8 => cases h
  case h_9 => exact .inr ⟨‹ph = .unpowered → False›, .inr (.inr h)⟩
  all_goals exact absurd hph (by simp [Phase.Stopped])
theorem exec_taken (hph : s.dev.phase = ph) (hstop : ph.Stopped) (htakes : takes ph (.event i) = true) (h : exec i s = .next t) :
    ph.MayBecome t.dev.phase := by
  rcases takes_event hstop htakes with ⟨rfl, x, rfl⟩ | ⟨hpower, rfl | ⟨n, rfl⟩ | hhost⟩
  · exact .inr (.inl ⟨rfl, phase_startUp hph h⟩)
  · exact .inr (.inr ⟨hpower, .inr (phase_powerRemoval h)⟩)
  · exact .inr (.inr ⟨hpower, .inl (phase_securityAlarm (hph ▸ hpower) h)⟩)
  · have hkept := hostEvent_phase hhost hph
    rw [h] at hkept
    exact .inl hkept

/-! ### The steps of a stopped module -/

theorem runChoice_refused (h : takes s.dev.phase c = false) : runChoice exec c s = .next s := by
  simp [runChoice, h]
/-- Beside events, what a stopped module takes is what happens outside it, and time. -/
theorem takes_choice (hph : ph.Stopped) (h : takes ph c = true) :
    (∃ i, c = .event i) ∨ (∃ key x, c = .hostStore key x) ∨ (∃ n base size, c = .bar2Window n base size) ∨ ∃ n ns, c = .tick n ns := by
  cases c with
  | event i => exact .inl ⟨i, rfl⟩
  | hostStore key x => exact .inr (.inl ⟨key, x, rfl⟩)
  | bar2Window n base size => exact .inr (.inr (.inl ⟨n, base, size, rfl⟩))
  | tick n ns => exact .inr (.inr (.inr ⟨n, ns, rfl⟩))
  | _ => rcases hph with rfl | rfl | rfl <;> cases h
theorem not_up_of_stopped (hph : ph.Stopped) : (ph == .up) = false := by
  rcases hph with rfl | rfl | rfl <;> rfl
theorem runChoice_stopped (hph : s.dev.phase = ph) (hstop : ph.Stopped) (h : runChoice exec c s = .next t) : ph.MayBecome t.dev.phase := by
  cases htakes : takes ph c with
  | false =>
    rw [runChoice_refused (by rw [hph, htakes])] at h
    cases h
    exact .inl hph
  | true =>
    rcases takes_choice hstop htakes with ⟨i, rfl⟩ | ⟨key, x, rfl⟩ | ⟨n, base, size, rfl⟩ | ⟨n, ns, rfl⟩ <;>
      simp only [runChoice, hph, htakes, not_up_of_stopped hstop, Bool.not_true, Bool.false_eq_true, if_false] at h
    · exact exec_taken (s := { s with cur := ⟨.device, 0, 0, 0, 0⟩ }) hph hstop htakes h
    · cases h
      exact .inl (ite_phase hph hph)
    · cases h
      exact .inl (ite_phase (modHost_phase hph) hph)
    · cases h
      exact .inl hph
theorem step_cons {rest : List Choice} (h : s.agenda = c :: rest) : step s = runChoice exec c { s with agenda := rest } := by
  simp [step, runStep, runAgenda, h]
theorem step_nil (h : s.agenda = []) : (s.dev.phase = .unpowered → step s = .fault .unpowered)
    ∧ (s.dev.phase = .startStopped → step s = .fault .startUpStopped) ∧ (s.dev.phase = .halted → step s = .fault .alarmHalted) := by
  refine ⟨fun e => ?_, fun e => ?_, fun e => ?_⟩ <;> simp [step, runStep, h, e]
theorem step_stopped (hstop : s.dev.phase.Stopped) (h : step s = .next t) : s.dev.phase.MayBecome t.dev.phase := by
  cases ha : s.agenda with
  | nil =>
    obtain ⟨hunpowered, hstart, hhalted⟩ := step_nil ha
    rcases hstop with e | e | e
    · cases (hunpowered e).symm.trans h
    · cases (hstart e).symm.trans h
    · cases (hhalted e).symm.trans h
  | cons c rest =>
    rw [step_cons ha] at h
    exact runChoice_stopped (s := { s with agenda := rest }) rfl hstop h

theorem stoppedModule : Claims.StoppedModule := by
  intro s
  refine ⟨step_nil, fun c rest h htakes => (step_cons h).trans (runChoice_refused (s := { s with agenda := rest }) htakes),
    fun t ht => ⟨fun h => ?_, fun h => ?_, fun h => ?_⟩⟩
  · simpa [h, Phase.MayBecome] using step_stopped (.inr (.inl h)) ht
  · simpa [h, Phase.MayBecome] using step_stopped (.inr (.inr h)) ht
  · simpa [h, Phase.MayBecome] using step_stopped (.inl h) ht
end

/-- Settles O53: power removal and an alarm by the state that they leave, start-up unit by unit, and the steps of a stopped module by what its
phase takes. -/
theorem startAndAlarm : Obligations.StartAndAlarm := ⟨powerAndAlarm, startUpSteps, stoppedModule⟩

end Sys2Proof.Machine
end

section
/-! Handle registers: reading one after a change, and the instructions and events that set, empty, read and refresh it (R106-R114). -/
namespace Sys2Proof.Machine

/-! ### One handle changed -/

section
variable {s : State} {p c n m : Nat}

theorem handle_modHandle (s : State) (p n m : Nat) (f : Handle → Handle) :
    (s.modHandle p n f).handle p m = if m = n then f (s.handle p n) else s.handle p m := by
  rw [State.handle, State.modHandle, place_modPlace_self]
  split
  · next h => rw [h]; exact tabGet_tabSet_self ..
  · next h => exact tabGet_tabSet_ne _ _ _ h
@[simp] theorem handle_modHandle_self (s : State) (p n : Nat) (f : Handle → Handle) : (s.modHandle p n f).handle p n = f (s.handle p n) := by
  rw [handle_modHandle, if_pos rfl]
theorem handle_modHandle_ne (f : Handle → Handle) (h : m ≠ n) : (s.modHandle p n f).handle p m = s.handle p m := by
  rw [handle_modHandle, if_neg h]
@[simp] theorem mem_modHandle (s : State) (p n : Nat) (f : Handle → Handle) : (s.modHandle p n f).mem = s.mem := rfl
@[simp] theorem ctx_modHandle (s : State) (p n c : Nat) (f : Handle → Handle) : (s.modHandle p n f).ctx p c = s.ctx p c := by
  by_cases hc : c = 5 <;> simp [State.ctx, State.modHandle, State.modPlace, State.place, hc]
/-- Handles are no part of a TLB. -/
theorem tlbHit_modHandle (s : State) (p n pasid : Nat) (f : Handle → Handle) (va : Word) :
    (s.modHandle p n f).tlbHit p pasid va = s.tlbHit p pasid va := by
  simp [State.tlbHit, State.modHandle, State.modPlace]
@[simp] theorem handle_modCtx (s : State) (p c m : Nat) (f : Ctx → Ctx) : (s.modCtx p c f).handle p m = s.handle p m := by
  by_cases hc : c = 5
  · simp [State.handle, State.place, State.modCtx, hc]
  · simp [State.handle, place_modCtx hc]
end

/-! ### Retiring in contexts 0 to 4 -/

section
variable {s : State} {p c : Nat}

/-- What a retirement that writes no register leaves, a halt that waits for it included. -/
theorem retire_leaves (s : State) (p : Nat) (hc : c < 5) : (∀ m, (s.retire p c id).handle p m = s.handle p m)
    ∧ ((s.retire p c id).ctx p c).insret = (s.ctx p c).insret + 1 ∧ ((s.retire p c id).ctx p c).g = (s.ctx p c).g
    ∧ (s.retire p c id).mem = s.mem ∧ ∀ k, k ≠ c → (s.retire p c id).ctx p k = s.ctx p k := by
  rw [retire_job (by omega)]
  refine ⟨fun m => handle_modCtx .., ?_, ?_, modCtx_mem .., fun k hk => ctx_modCtx_ne hk⟩
  · rw [ctx_modCtx_self, insret_settled]; rfl
  · rw [ctx_modCtx_self, g_settled]; rfl
end

/-! ### XLT and the end of its walk (R107, R109) -/

section
variable {s : State} {p c n a perms : Nat} {va : Word} {x : Trans}

/-- The handle that an XLT of context c writes at its issue, from the one that stood there. -/
def Handle.asked (h : Handle) (va : Word) (perms c : Nat) : Handle :=
  { h with st := .pending, va := va, perms := perms, owner := c, user := none, fail := none }

/-- The state in which an XLT looks its address up. -/
def State.xltAsked (s : State) (p c n perms : Nat) (va : Word) : State := s.modHandle p n fun h => h.asked va perms c

theorem exec_xlt_hit (ha : s.cur.agent = .control p c) (hc : c < 5) (hva : canonical (s.g p c a) = true)
    (hhit : s.tlbHit p (s.place p).pasid (s.g p c a) = some x) : exec (.xlt n a perms) s =
      .next ((s.xltAsked p c n perms (s.g p c a)).endXlt p c n perms (s.g p c a) (some x)) := by
  refine (onContext_control ha (mem_jobCtx hc)).trans ?_
  dsimp only
  rw [hva, tlbHit_modHandle, hhit]
  rfl
theorem exec_xlt_miss (ha : s.cur.agent = .control p c) (hc : c < 5) (hva : canonical (s.g p c a) = true)
    (hmiss : s.tlbHit p (s.place p).pasid (s.g p c a) = none) : exec (.xlt n a perms) s =
      .next (((s.xltAsked p c n perms (s.g p c a)).block p c (.xlt n a perms)).modCtx p c fun y =>
        { y with acq := some ⟨0, 0, 0, true, false, false⟩ }) := by
  refine (onContext_control ha (mem_jobCtx hc)).trans ?_
  dsimp only
  rw [hva, tlbHit_modHandle, hmiss]
  rfl
/-- A translation that grants what was asked makes the PENDING handle of its own XLT VALID. -/
theorem endXlt_granted (hst : (s.handle p n).st = .pending) (howner : (s.handle p n).owner = c) (habs : s.transAbsent x va = false)
    (hperms : x.grantsPerms perms = true) :
    s.endXlt p c n perms va (some x) = (s.modHandle p n fun h => h.setValid x).retire p c id := by
  simp [State.endXlt, hst, howner, habs, hperms]

/-- t is s after an XLT that made handle n VALID, and has retired. -/
def State.xltDone (s t : State) (p c n perms : Nat) (va : Word) (x : Trans) : Prop :=
  t.handle p n = ⟨.valid, handleValue x perms, va, perms, x.priv, c, none, none⟩
  ∧ (∀ m, m ≠ n → t.handle p m = s.handle p m) ∧ (t.ctx p c).insret = (s.ctx p c).insret + 1 ∧ (t.ctx p c).g = (s.ctx p c).g ∧ t.mem = s.mem

theorem xltDone_retire {u : State} (hc : c < 5) (hn : (u.handle p n).setValid x = ⟨.valid, handleValue x perms, va, perms, x.priv, c, none, none⟩)
    (hother : ∀ m, m ≠ n → u.handle p m = s.handle p m) (hctx : u.ctx p c = s.ctx p c) (hmem : u.mem = s.mem) :
    s.xltDone ((u.modHandle p n fun h => h.setValid x).retire p c id) p c n perms va x := by
  obtain ⟨hhandle, hinsret, hg, hkept, -⟩ := retire_leaves (u.modHandle p n fun h => h.setValid x) p hc
  refine ⟨?_, fun m hm => ?_, ?_, ?_, hkept.trans hmem⟩
  · rw [hhandle, handle_modHandle_self, hn]
  · rw [hhandle, handle_modHandle_ne _ hm, hother m hm]
  · rw [hinsret, ctx_modHandle, hctx]
  · rw [hg, ctx_modHandle, hctx]

/-- What the end of a walk for handle n does to context c. -/
def State.walkEnds (p n : Nat) (t : State) (c : Nat) : State :=
  match (t.ctx p c).wait with
  | some (.xlt m a perms) =>
    if m = n then
      match t.translate p (t.place p).pasid (t.g p c a) with
      | .ok r u => u.endXlt p c n perms (t.g p c a) r
      | _ => t
    else t
  | _ => t
theorem exec_translationWalkEnd (p n : Nat) (s : State) :
    exec (.translationWalkEnd p n) s = .next (jobCtx.foldl (State.walkEnds p n) s) := rfl
theorem walkEnds_of_no_wait {k : Nat} (h : (s.ctx p k).wait = none) : s.walkEnds p n k = s := by
  rw [State.walkEnds, h]
theorem walkEnds_translated (h : (s.ctx p c).wait = some (.xlt n a perms)) (htr : s.translate p (s.place p).pasid (s.g p c a) = .ok (some x) s) :
    State.walkEnds p n s c = s.endXlt p c n perms (s.g p c a) (some x) := by
  simp only [State.walkEnds, h, htr, if_pos]

/-- A fold in which one element alone acts, before and after which the others do nothing. -/
theorem foldl_of_single {α β : Type} {f : β → α → β} {l : List α} {b : β} {a : α} (ha : a ∈ l) (hl : l.Nodup)
    (hbefore : ∀ k ∈ l, k ≠ a → f b k = b) (hafter : ∀ k ∈ l, k ≠ a → f (f b a) k = f b a) : l.foldl f b = f b a := by
  have hrest : ∀ (c : β) (xs : List α), (∀ k ∈ xs, f c k = c) → xs.foldl f c = c := fun c xs h =>
    List.foldlRecOn (motive := fun t => t = c) xs f rfl fun t ht k hk => by rw [ht, h k hk]
  obtain ⟨xs, ys, rfl⟩ := List.append_of_mem ha
  obtain ⟨hxs, hys⟩ : a ∉ xs ∧ a ∉ ys := by
    obtain ⟨-, hcons, hdisj⟩ := List.nodup_append.1 hl
    exact ⟨fun h => hdisj a h a List.mem_cons_self rfl, (List.nodup_cons.1 hcons).1⟩
  rw [List.foldl_append, List.foldl_cons, hrest b xs fun k hk => hbefore k (by simp [hk]) fun e => hxs (e ▸ hk),
    hrest _ ys fun k hk => hafter k (by simp [hk]) fun e => hys (e ▸ hk)]

/-- A walk that ends for one waiting context alone. -/
theorem exec_translationWalkEnd_single (hc : c < 5) (hwait : (s.ctx p c).wait = some (.xlt n a perms))
    (halone : ∀ k, k < 5 → k ≠ c → (s.ctx p k).wait = none) (hst : (s.handle p n).st = .pending) (howner : (s.handle p n).owner = c)
    (htr : s.translate p (s.place p).pasid (s.g p c a) = .ok (some x) s) (habs : s.transAbsent x (s.g p c a) = false)
    (hperms : x.grantsPerms perms = true) :
    exec (.translationWalkEnd p n) s = .next ((s.modHandle p n fun h => h.setValid x).retire p c id) := by
  have hlt : ∀ k ∈ jobCtx, k < 5 := by decide
  have hact := (walkEnds_translated hwait htr).trans (endXlt_granted hst howner habs hperms)
  rw [exec_translationWalkEnd, foldl_of_single (mem_jobCtx hc) (by decide) (fun k hk hne => walkEnds_of_no_wait (halone k (hlt k hk) hne)), hact]
  intro k hk hne
  rw [hact]
  obtain ⟨-, -, -, -, hother⟩ := retire_leaves (s.modHandle p n fun h => h.setValid x) p hc
  exact walkEnds_of_no_wait (by rw [hother k hne, ctx_modHandle]; exact halone k (hlt k hk) hne)
end

theorem xltInstruction : Claims.XltInstruction := by
  intro s p c n a perms x ha hc _ hva habs hperms va valid
  refine ⟨fun hhit => ?hit, fun hmiss => ?miss, fun hwait halone hhandle htr => ?walkEnd⟩
  case hit =>
    have hasked : (s.xltAsked p c n perms va).handle p n = (s.handle p n).asked va perms c := handle_modHandle_self ..
    have hend := endXlt_granted (s := s.xltAsked p c n perms va) (congrArg Handle.st hasked) (congrArg Handle.owner hasked) habs hperms
    refine ⟨_, (exec_xlt_hit ha hc hva hhit).trans (congrArg _ hend), ?_⟩
    exact xltDone_retire hc (by rw [hasked]; rfl) (fun m hm => handle_modHandle_ne _ hm) (ctx_modHandle ..) rfl
  case miss =>
    refine ⟨_, exec_xlt_miss ha hc hva hmiss, ?_⟩
    simp only [State.xltAsked, State.block, modCtx_modCtx, handle_modCtx, handle_modHandle_self, ctx_modCtx_self, ctx_modHandle, Handle.asked]
    exact ⟨trivial, trivial, trivial, trivial⟩
  case walkEnd =>
    refine ⟨_, exec_translationWalkEnd_single hc hwait halone (by rw [hhandle]) (by rw [hhandle]) htr habs hperms, ?_⟩
    exact xltDone_retire hc (by rw [hhandle]; rfl) (fun _ _ => rfl) rfl rfl

/-! ### HINV, HGET and the refresh of a STALE handle (R110, R111, R114) -/

/-- The five states of a handle as HGET shows them (R107). -/
theorem Handle.read_eq (h : Handle) : h.read = if h.st = .empty then 0 else if h.st = .pending ∨ h.st = .faulted then BitVec.ofNat 64 (2 ^ 62)
    else h.value := by
  cases hst : h.st <;> simp [Handle.read, hst]

theorem handleInstructions : Claims.HandleInstructions := by
  intro s p c n d ha
  refine ⟨fun hc => ⟨?hinv, ?hinvAll⟩, fun hc hw => ⟨?hget, ?hgetva⟩⟩
  case hinv =>
    obtain ⟨hhandle, -, hg, hmem, -⟩ := retire_leaves (s.modHandle p n fun _ => Handle.off) p hc
    refine ⟨_, onContext_control ha (mem_jobCtx hc), ?_, fun m hm => ?_, hmem, ?_⟩
    · rw [hhandle, handle_modHandle_self]
    · rw [hhandle, handle_modHandle_ne _ hm]
    · rw [hg, ctx_modHandle]
  case hinvAll =>
    obtain ⟨hhandle, -, hg, hmem, -⟩ := retire_leaves (s.modPlace p fun q => { q with handles := [] }) p hc
    refine ⟨_, onContext_control ha (mem_jobCtx hc), fun m => ?_, hmem, ?_⟩
    · rw [hhandle, State.handle, place_modPlace_self]; rfl
    · rw [hg, State.ctx, State.ctx, if_neg (by omega), if_neg (by omega), place_modPlace_self]
  case hget => exact writesG_retireReg _ s p c d _ hw ((onContext_control ha (mem_allCtx hc)).trans (by rw [Handle.read_eq]))
  case hgetva => exact writesG_retireReg _ s p c d _ hw (onContext_control ha (mem_allCtx hc))

theorem refresh_granted {s : State} {p n : Nat} {x : Trans} (hva : canonical (s.handle p n).va = true)
    (htr : s.translate p (s.place p).pasid (s.handle p n).va = .ok (some x) s) (habs : s.transAbsent x (s.handle p n).va = false)
    (hperms : x.grantsPerms (s.handle p n).perms = true) : s.refresh p n = .ok () (s.modHandle p n fun h => h.setValid x) := by
  simp [State.refresh, hva, htr, habs, hperms]

theorem handleRefreshes : Claims.HandleRefreshes := by
  intro s p n u x hst huser hfail hva htr habs hperms
  have hexec : exec (.handleRefresh p n) s = .next (s.modHandle p n fun h => h.setValid x) := by
    refine Eq.trans (b := execHandleRefresh p n s) rfl ?_
    simp only [execHandleRefresh, hst, huser, hfail, refresh_granted hva htr habs hperms]
    rfl
  refine ⟨_, hexec, ?_, ?_, ?_, ?_, rfl, fun m hm => handle_modHandle_ne _ hm⟩ <;> rw [handle_modHandle_self] <;> rfl

/-- Settles O14: XLT by the end of its walk, at once on a hit and later on a miss; the handle registers by what each instruction leaves in them. -/
theorem handles : Obligations.Handles := ⟨xltInstruction, handleInstructions, handleRefreshes⟩

end Sys2Proof.Machine
end

section
/-! What a write to a home and an access to the L1s leave of the module's lists of invalidations and page moves (R65, R74, R113, R117, R340). -/
namespace Sys2Proof.Machine

/-- s has the invalidations and the page moves of r. -/
def SameMoves (r s : State) : Prop := s.invals = r.invals ∧ s.moves = r.moves

section
variable {r s : State} {α : Type}

theorem SameMoves.refl (s : State) : SameMoves s s := ⟨rfl, rfl⟩
theorem foldl_sameMoves {l : List α} {f : State → α → State} (h : SameMoves r s) (hf : ∀ t x, SameMoves r t → SameMoves r (f t x)) :
    SameMoves r (l.foldl f s) :=
  List.foldlRecOn l f h fun t ht x _ => hf t x ht
theorem ite_sameMoves {c : Prop} [Decidable c] {t : State} (hs : SameMoves r s) (ht : SameMoves r t) : SameMoves r (if c then s else t) := by
  split <;> assumption
theorem modPlaza_sameMoves {p : Nat} {f : Plaza → Plaza} (h : SameMoves r s) : SameMoves r (s.modPlaza p f) := h
theorem post_sameMoves {f : Flit} (h : SameMoves r s) : SameMoves r (s.post f) := by
  refine ite_sameMoves h ?_
  cases e : s.sendFlit f with
  | none => exact h
  | some t =>
    obtain ⟨l, -, rfl⟩ := Option.map_eq_some_iff.1 e
    exact h
theorem request_sameMoves {who : Requester} {kind addr size : Nat} {data : List Byte} {f : Flit} (h : SameMoves r s) :
    SameMoves r (s.request who kind addr size data f).2 :=
  post_sameMoves (s := (s.addRemote who kind addr size data).2) h
theorem sendNotice_sameMoves {who : Option Nat} {m : Master} {v : View} {b g : Nat} (h : SameMoves r s) :
    SameMoves r (s.sendNotice who m v b g) := by
  unfold State.sendNotice
  split
  · split
    · exact request_sameMoves h
    · exact h
  · exact h
theorem advanceBlock_sameMoves {who : Option Nat} {m : Master} {b : Nat} (h : SameMoves r s) : SameMoves r (s.advanceBlock who m b) :=
  ite_sameMoves h (foldl_sameMoves h fun _ _ => sendNotice_sameMoves)
theorem advanceLine_sameMoves {who : Option Nat} {key : Nat} (h : SameMoves r s) : SameMoves r (s.advanceLine who key) :=
  foldl_sameMoves h fun _ _ ht => foldl_sameMoves ht fun _ _ => advanceBlock_sameMoves
theorem writeLine_sameMoves {who : Option Nat} {line : Nat} {mask : BitVec 128} {data : Row} {bad : BitVec 2} {t : State} (h : SameMoves r s)
    (e : s.writeLine who line mask data bad = some t) : SameMoves r t := by
  unfold State.writeLine at e
  split at e
  · cases e; exact h
  · split at e
    · split at e
      · cases e; exact request_sameMoves h
      · cases e
    · split at e
      · cases e
      · cases e; exact ite_sameMoves h (advanceLine_sameMoves h)
theorem writeBackIn_sameMoves {p : Nat} {lanes : Bool} {line : Nat} (h : SameMoves r s) : SameMoves r (s.writeBackIn p lanes line) := by
  unfold State.writeBackIn
  split
  · exact h
  · refine ite_sameMoves h ?_
    split
    · next e => exact modPlaza_sameMoves (writeLine_sameMoves h e)
    · exact h
theorem writeBack_sameMoves {p line : Nat} (h : SameMoves r s) : SameMoves r (s.writeBack p line) :=
  writeBackIn_sameMoves (writeBackIn_sameMoves h)
theorem mergeLine_sameMoves {p line : Nat} (h : SameMoves r s) : SameMoves r (s.mergeLine p line) :=
  ite_sameMoves h (modPlaza_sameMoves (foldl_sameMoves (writeBack_sameMoves h) fun _ _ ht => advanceLine_sameMoves ht))
theorem cleans_sameMoves {p line : Nat} (h : SameMoves r s) : SameMoves r (s.cleans p line) :=
  ite_sameMoves (mergeLine_sameMoves (writeBack_sameMoves h)) (writeBack_sameMoves h)
end

end Sys2Proof.Machine
end

section
/-! A translation invalidation reaches every TLB and handle, and a page publish begins (R107, R113, R117, R360). -/
namespace Sys2Proof.Machine

/-! ### The TLBs and handles after a shoot-down (R107, R113) -/

section
variable {s t : State} {pasid base len : Nat}

/-- A plaza holds no translation of a range. -/
def Plaza.cleared (q : Plaza) (pasid base len : Nat) : Prop :=
  (∀ e ∈ q.tlb, e.meets pasid base len = false)
  ∧ (q.place.pasid = pasid → ∀ n, (tabGet Handle.off q.place.handles n).overlaps base len = false)
/-- No plaza of the module holds a translation of a range. -/
def State.cleared (s : State) (pasid base len : Nat) : Prop := ∀ q, (s.plaza q).cleared pasid base len

/-- Only a VALID handle overlaps a range, and an invalidated one is STALE. -/
theorem Handle.overlaps_invalidated (h : Handle) (base len : Nat) :
    (if h.overlaps base len then h.invalidate else h).overlaps base len = false := by
  split
  · next hov =>
    have hst : h.st = .valid := by simp only [Handle.overlaps, Bool.and_eq_true, beq_iff_eq] at hov; exact hov.1.1
    have hstale : h.invalidate.st = .stale := by rw [Handle.invalidate, hst]
    simp [Handle.overlaps, hstale]
  · next hov => exact Bool.eq_false_iff.2 hov
theorem overlaps_shotDown (t : Tab Handle) (n base len : Nat) :
    (tabGet Handle.off (t.map fun y => (y.1, if y.2.overlaps base len then y.2.invalidate else y.2)) n).overlaps base len = false := by
  refine tabGet_of_all (P := fun h : Handle => h.overlaps base len = false) n (by simp [Handle.overlaps, Handle.off]) fun y hy => ?_
  obtain ⟨x, -, rfl⟩ := List.mem_map.1 hy
  exact Handle.overlaps_invalidated ..

theorem cleared_shootDown (s : State) (pasid base len : Nat) : (s.shootDown pasid base len).cleared pasid base len := by
  have hoff : Plaza.off.cleared pasid base len := ⟨fun e he => (List.not_mem_nil he).elim, fun _ _ => rfl⟩
  refine fun q => tabGet_of_all (P := fun y : Plaza => y.cleared pasid base len) q hoff fun y hy => ?_
  obtain ⟨x, -, rfl⟩ := List.mem_map.1 hy
  refine ⟨fun e he => by simpa using (List.mem_filter.1 he).2, fun hp n => ?_⟩
  dsimp only at hp ⊢
  split at hp
  · next hin =>
    rw [if_pos hin]
    exact overlaps_shotDown x.2.place.handles n base len
  · next hin => exact absurd (beq_iff_eq.2 hp) hin
theorem cleared_of_plazas (h : t.plazas = s.plazas) (hs : s.cleared pasid base len) : t.cleared pasid base len := by
  intro q
  rw [State.plaza, h]
  exact hs q
/-- The same in the words of R113: pages by their bases and sizes, handles by their PASID. -/
theorem gone_of_cleared (h : s.cleared pasid base len) :
    (∀ q e, e ∈ (s.plaza q).tlb → let va := e.va / e.trans.size * e.trans.size
      ¬(e.pasid = pasid ∧ va < base + len ∧ base < va + e.trans.size))
    ∧ ∀ q n, (s.place q).pasid = pasid → (s.handle q n).overlaps base len = false := by
  refine ⟨fun q e he => ?_, fun q n hp => (h q).2 hp n⟩
  intro va hmeets
  have hnot := (h q).1 e he
  obtain ⟨hpasid, hlow, hhigh⟩ := hmeets
  rw [TlbEntry.meets, decide_eq_true hlow, decide_eq_true hhigh, hpasid, beq_self_eq_true] at hnot
  cases hnot
end

/-! ### An invalidation's completion (R113, R360, R366) -/

section
variable {s : State} {i a : Nat} {x : Invalidation}

/-- The state in which an invalidation has ended, its accesses having performed. -/
def State.endInval (s : State) (i : Nat) (x : Invalidation) : State :=
  { s.shootDown x.pasid x.base x.len with invals := s.invals.eraseIdx i }
/-- The mark of an entry of the invalidation queue, where its memory can be reached. -/
def State.markEntry (s : State) (a : Nat) : State :=
  if s.absent (a + 0x18) || s.pathDown (a + 0x18) then s
  else { s with mem := memWrite s.mem (a + 0x18) 8 1 }.advanceLine none (a + 0x18)
/-- INVQHEAD moves past an entry of the invalidation queue, and vector 3 reports it. -/
def State.reportEntry (s : State) : State := (s.modHost fun h => { h with invqhead := (h.invqhead + 1) % 2 ^ 64 }).signal 3

theorem exec_invalidationComplete_waits (hx : s.invals[i]? = some x) (hold : s.oldAccesses x.pasid = true) :
    exec (.invalidationComplete i) s = .next s := by
  refine Eq.trans (b := execInvalidationComplete i s) rfl ?_
  rw [execInvalidationComplete, hx]
  exact if_pos hold
theorem exec_invalidationComplete_ats (hx : s.invals[i]? = some x) (hold : s.oldAccesses x.pasid = false) (hperf : s.performPasid x.pasid = s)
    (he : x.entry = none) : exec (.invalidationComplete i) s = .next (s.endInval i x) := by
  refine Eq.trans (b := execInvalidationComplete i s) rfl ?_
  simp only [execInvalidationComplete, hx, hold, hperf, he]
  rfl
theorem exec_invalidationComplete_entry (hx : s.invals[i]? = some x) (hold : s.oldAccesses x.pasid = false) (hperf : s.performPasid x.pasid = s)
    (he : x.entry = some a) : exec (.invalidationComplete i) s =
      .next ((s.endInval i x).markEntry a).reportEntry := by
  refine Eq.trans (b := execInvalidationComplete i s) rfl ?_
  simp only [execInvalidationComplete, hx, hold, hperf, he]
  rfl

/-- The mark changes the bytes at its word alone, and no plaza, list of invalidations or register of the host side. -/
theorem markEntry_leaves (s : State) (a : Nat) : (s.markEntry a).plazas = s.plazas ∧ (s.markEntry a).invals = s.invals
    ∧ (s.markEntry a).dev.host = s.dev.host ∧ ∀ b, memByte (s.markEntry a).mem b =
      if a + 0x18 ≤ b ∧ b < a + 0x20 ∧ s.absent (a + 0x18) = false ∧ s.pathDown (a + 0x18) = false then (if b = a + 0x18 then 1 else 0)
      else memByte s.mem b := by
  rw [State.markEntry]
  split
  · next hlost =>
    refine ⟨rfl, rfl, rfl, fun b => (if_neg fun hin => ?_).symm⟩
    obtain ⟨-, -, habs, hpath⟩ := hin
    rw [habs, hpath] at hlost
    cases hlost
  · next hreach =>
    rw [Bool.not_eq_true, Bool.or_eq_false_iff] at hreach
    obtain ⟨-, ⟨links, hdev⟩, -⟩ := advanceLine_sameCore (who := none) (key := a + 0x18) (.refl { s with mem := memWrite s.mem (a + 0x18) 8 1 })
    refine ⟨plazas_advanceLine .., (advanceLine_sameMoves (.refl _)).1, by rw [hdev], fun b => ?_⟩
    rw [mem_advanceLine, memByte_memWrite]
    by_cases hb : a + 0x18 ≤ b ∧ b < a + 0x20
    · rw [if_pos (by omega), if_pos ⟨hb.1, hb.2, hreach⟩]
      obtain ⟨k, hk, rfl⟩ : ∃ k, k < 8 ∧ b = a + 0x18 + k := ⟨b - (a + 0x18), by omega, by omega⟩
      have hbyte : BitVec.ofNat 8 (1 / 2 ^ (8 * k)) = if k = 0 then 1 else 0 := by interval_cases k <;> rfl
      simpa using hbyte
    · rw [if_neg (by omega), if_neg fun h => hb ⟨h.1, h.2.1⟩]
theorem invqhead_signal (s : State) (v : Nat) : (s.signal v).dev.host.invqhead = s.dev.host.invqhead :=
  List.foldlRecOn (motive := fun h : HostSide => h.invqhead = s.dev.host.invqhead) _ _ rfl fun h hh p _ => by
    rw [signalPort]
    split <;> exact hh
theorem reportEntry_leaves (s : State) : s.reportEntry.plazas = s.plazas ∧ s.reportEntry.invals = s.invals ∧ s.reportEntry.mem = s.mem
    ∧ s.reportEntry.dev.host.invqhead = (s.dev.host.invqhead + 1) % 2 ^ 64 :=
  ⟨rfl, rfl, rfl, invqhead_signal ..⟩

theorem cleared_endInval (s : State) (i : Nat) (x : Invalidation) : (s.endInval i x).cleared x.pasid x.base x.len :=
  cleared_of_plazas rfl (cleared_shootDown s x.pasid x.base x.len)
end

/-! ### Entries posted in the invalidation queue (R360) -/

section
variable {s : State} {h v : Nat}

theorem exec_invqtailWrite_off (hoff : s.dev.host.invqsize = 0) (hb : s.bar0 h = true) :
    exec (.invqtailWrite ⟨h, v⟩) s = .next (s.modHost fun y => { y with invqtail := v % 2 ^ 64 }) := by
  refine Eq.trans (b := execInvqtailWrite ⟨h, v⟩ s) rfl ?_
  simp [execInvqtailWrite, hb, hoff]
/-- A write that moves INVQTAIL on by one takes one entry. -/
theorem exec_invqtailWrite_next (hb : s.bar0 h = true) (hsize : s.dev.host.invqsize ≠ 0) (hbase : s.dev.host.invqbase ≠ 0) (hv : v < 2 ^ 64)
    (hnext : s.dev.host.invqtail + 1 = v) : exec (.invqtailWrite ⟨h, v⟩) s =
      .next ((s.modHost fun y => { y with invqtail := v }).takeEntry s.dev.host.invqtail) := by
  refine Eq.trans (b := execInvqtailWrite ⟨h, v⟩ s) rfl ?_
  have hnew : (v + 2 ^ 64 - s.dev.host.invqtail) % 2 ^ 64 = 1 := by omega
  have hone : Nat.min 1 s.dev.host.invqsize = 1 := Nat.min_eq_left (Nat.one_le_iff_ne_zero.2 hsize)
  simp only [execInvqtailWrite, hb, hnew, hone, Nat.mod_eq_of_lt hv, hbase, hsize, decide_false, Bool.or_false, Bool.not_true,
    Bool.false_eq_true, if_false]
  rfl
theorem takeEntry_reached {k a : Nat} (ha : s.dev.host.invqbase + 32 * (k % s.dev.host.invqsize) = a) (habs : s.absent a = false)
    (hpath : s.pathDown a = false) (hupd : ∀ q, (s.plaza q).hasUpdate (a / 128) = false) :
    s.takeEntry k = s.invalidate (memRead s.mem a 8 % 2 ^ 20) (memRead s.mem (a + 8) 8) (memRead s.mem (a + 16) 8) (some a) := by
  simp only [State.takeEntry, ha, habs, hpath, recall_of_no_update hupd]
  rfl
end

theorem translationInvalidations : Claims.Invalidations := by
  intro s n v l h gone
  refine ⟨?ats, fun i x hx => ⟨fun hold => exec_invalidationComplete_waits hx hold, fun hold hperf => ⟨fun he => ?ended, fun a he => ?marked⟩⟩,
    fun hb => ?closed, fun hb hsize => exec_invqtailWrite_off hsize hb, fun hb hsize hbase hv hnext => ?posted⟩
  case ats => exact ⟨_, rfl, rfl, rfl, gone_of_cleared (cleared_shootDown _ n v l)⟩
  case ended => exact ⟨_, exec_invalidationComplete_ats hx hold hperf he, rfl, rfl, gone_of_cleared (cleared_endInval s i x)⟩
  case marked =>
    obtain ⟨hplazas, hinvals, hhost, hmem⟩ := markEntry_leaves (s.endInval i x) a
    obtain ⟨hplazas', hinvals', hmem', hhead⟩ := reportEntry_leaves ((s.endInval i x).markEntry a)
    refine ⟨_, exec_invalidationComplete_entry hx hold hperf he, hinvals'.trans hinvals, fun b => ?_,
      gone_of_cleared (cleared_of_plazas (hplazas'.trans hplazas) (cleared_endInval s i x)), ?_⟩
    · rw [hmem']
      exact hmem b
    · rw [hhead, hhost]
      rfl
  case closed =>
    refine Eq.trans (b := execInvqtailWrite ⟨h, v⟩ s) rfl ?_
    simp [execInvqtailWrite, hb]
  case posted =>
    intro t a habs hpath hupd
    exact (exec_invqtailWrite_next hb hsize hbase hv hnext).trans (congrArg _ (takeEntry_reached (s := t) rfl habs hpath hupd))

/-! ### A page publish begins (R117) -/

section
variable {s : State}

/-- The dirty bytes and the update lines that the L1s hold of the page of l bytes at o go to their homes. -/
def State.cleanPage (s : State) (o l : Nat) : State :=
  s.plazas.foldl (fun t x => (x.2.l1d ++ x.2.l1v).foldl (fun u y => if onPage o l y.key then u.cleans x.1 y.key else u) t) s
theorem exec_pagePublish (o n l : Nat) (s : State) : exec (.pagePublish o n l) s =
    .next { s.cleanPage o l with moves := ((s.cleanPage o l).moves.filter fun m => m.old != o || m.moved) ++ [⟨o, n, l, true, false⟩] } := rfl
theorem cleanPage_sameMoves (o l : Nat) : SameMoves s (s.cleanPage o l) :=
  foldl_sameMoves (.refl s) fun _ _ ht => foldl_sameMoves ht fun _ _ hu => ite_sameMoves (cleans_sameMoves hu) hu
theorem dirtyLine_of_all {q : Plaza} {line : Nat} (h : ∀ y ∈ q.l1d ++ q.l1v, y.key = line → y.dirty = 0 ∧ y.upd = false) :
    q.dirtyLine line = false := by
  refine List.any_eq_false.2 fun y hy hd => ?_
  rw [Bool.and_eq_true, beq_iff_eq] at hd
  obtain ⟨hdirty, hupd⟩ := h y hy hd.1
  simp [hdirty, hupd] at hd
theorem cleanPage_of_clean {o l : Nat} (h : ∀ x ∈ s.plazas, ∀ y ∈ (s.plaza x.1).l1d ++ (s.plaza x.1).l1v,
    o ≤ y.key * 128 → y.key * 128 < o + l → y.dirty = 0 ∧ y.upd = false) : s.cleanPage o l = s := by
  refine List.foldlRecOn (motive := fun t => t = s) s.plazas _ rfl fun t ht x hx => ?_
  refine List.foldlRecOn (motive := fun t => t = s) _ _ ht fun u hu y _ => ?_
  rw [hu]
  split
  · next hpage =>
    rw [onPage, Bool.and_eq_true, decide_eq_true_iff, decide_eq_true_iff] at hpage
    exact cleans_of_clean (dirtyLine_of_all fun z hz hkey => h x hx z hz (hkey ▸ hpage.1) (hkey ▸ hpage.2))
  · rfl
end

theorem pagePublish : Claims.PagePublish := by
  intro s o n l
  refine ⟨⟨_, exec_pagePublish o n l s, ?noted⟩, fun hclean _ => ?clean⟩
  case noted => rw [(cleanPage_sameMoves o l).2]
  case clean => rw [exec_pagePublish, cleanPage_of_clean hclean]

/-- Settles O44: what a shoot-down leaves in every plaza, how an invalidation ends and how a posted one begins, and the page publish by the lines
that it cleans. -/
theorem invalidations : Obligations.Invalidations := ⟨translationInvalidations, pagePublish⟩

end Sys2Proof.Machine
end

section
/-! What a retirement and a change of the placement leave in contexts 0 to 4 (R37, R83). -/
namespace Sys2Proof.Machine

section
variable {s : State} {p c : Nat}

theorem ctx_modPlace {f : Place → Place} (hf : (f (s.place p)).ctx = (s.place p).ctx) (c : Nat) : (s.modPlace p f).ctx p c = s.ctx p c := by
  by_cases hc : c = 5
  · simp [State.ctx, State.modPlace, hc]
  · rw [State.ctx, State.ctx, if_neg hc, if_neg hc, place_modPlace_self, hf]
theorem g_modPlace {f : Place → Place} (hf : (f (s.place p)).ctx = (s.place p).ctx) (c k : Nat) : (s.modPlace p f).g p c k = s.g p c k := by
  rw [State.g, ctx_modPlace hf, State.g]
theorem place_retire (hc : c ≠ 5) (f : Ctx → Ctx) :
    (s.retire p c f).place p = { s.place p with ctx := tabSet (s.place p).ctx c (f (s.ctx p c)).fallThrough.settled } := by
  rw [retire_job hc, place_modCtx hc]
theorem mem_retire (s : State) (p c : Nat) (f : Ctx → Ctx) : (s.retire p c f).mem = s.mem := (mem_settleWake ..).trans (modCtx_mem ..)
theorem g_retire (s : State) (p c k : Nat) (f : Ctx → Ctx) : (s.retire p c f).g p c k = (f (s.ctx p c)).reg k := by
  rw [State.g, Ctx.reg, State.retire, g_settleWake, ctx_modCtx_self, ← Ctx.reg, reg_fallThrough]
theorem mem_roleCtx (hc : c < 3) : c ∈ roleCtx := by
  simp only [roleCtx, List.mem_cons, List.not_mem_nil, or_false]; omega
end

end Sys2Proof.Machine
end

section
/-! EMIT and SPLIT (R136, R137): what an appended block is, and the blocks of a SPLIT in their order. -/
namespace Sys2Proof.Machine

section
variable {s : State} {p c : Nat}

theorem emitBad_eq_false {b : Nat} {desc : Word} {entries : List Nat} (hb : b % 2 = 0) (hdesc : bits desc.toNat 15 14 = 0)
    (hentries : ∀ e ∈ entries, e < (s.place p).table.length) (hw : (s.place p).w16 = false) : s.emitBad p b desc entries = false := by
  have hany : (entries.any fun e => decide ((s.place p).table.length ≤ e)) = false :=
    List.any_eq_false.2 fun e he => by simpa using hentries e he
  rw [State.emitBad, hany, hw, hdesc, hb]
  rfl
theorem emitOps_eq (s : State) (p c b : Nat) : s.emitOps p c b = (if b = 0 then 0 else s.g p c b, if b = 0 then 0 else s.g p c (b + 1)) := by
  rw [State.emitOps]
  split <;> rfl

/-- The block that EMIT or SPLIT makes of its operands, QUEUED at the tail of the avenue (R136). -/
def State.emitted (s : State) (p c : Nat) (desc : Word) (mask : W32) (ops : Word × Word) (entry : Nat) (ordered : Bool) (w : Wait) : Block :=
  { seq := (s.place p).avtail, entry := entry, trip := bits desc.toNat 31 16, mask := mask, window := bits desc.toNat 13 0
    op0 := ops.1.setWidth 32, op1 := (ops.1 >>> 32).setWidth 32, op2 := ops.2.setWidth 32, op3 := (ops.2 >>> 32).setWidth 32
    wait := w, ordered := ordered || ((s.place p).table.getD entry ⟨0, false, false⟩).ordered
    nonidem := ((s.place p).table.getD entry ⟨0, false, false⟩).nonidem, emitter := c, st := .queued, lane := none
    pushes := [], readyAt := s.dev.cycle + 1 }
theorem append_eq (s : State) (p c : Nat) (desc : Word) (mask : W32) (ops : Word × Word) (entry : Nat) (ordered : Bool) (w : Wait) :
    s.append p c desc mask ops entry ordered w = s.modPlace p fun q =>
      { q with avtail := (q.avtail + 1) % 2 ^ 32, qmoved := true, blocks := q.blocks ++ [s.emitted p c desc mask ops entry ordered w] } := rfl

/-- Blocks appended one after another stand at the end of the avenue in their order, and nothing that a context has changes. -/
theorem append_all (desc : Word) (ops : Word × Word) (ordered : Bool) (w : Wait) (xs : List (W32 × Nat)) (s : State) :
    ∃ bs, ((xs.foldl (fun u x => u.append p c desc x.1 ops x.2 ordered w) s).place p).blocks = (s.place p).blocks ++ bs
      ∧ bs.map (fun x => (x.mask, x.entry)) = xs ∧ (xs.foldl (fun u x => u.append p c desc x.1 ops x.2 ordered w) s).mem = s.mem
      ∧ ∀ k, (xs.foldl (fun u x => u.append p c desc x.1 ops x.2 ordered w) s).ctx p k = s.ctx p k := by
  induction xs generalizing s with
  | nil => exact ⟨[], (List.append_nil _).symm, rfl, rfl, fun _ => rfl⟩
  | cons x xs ih =>
    obtain ⟨bs, hblocks, hbs, hmem, hctx⟩ := ih (s.append p c desc x.1 ops x.2 ordered w)
    rw [append_eq, place_modPlace_self] at hblocks
    refine ⟨s.emitted p c desc x.1 ops x.2 ordered w :: bs, ?_, congrArg (x :: ·) hbs, hmem, fun k => (hctx k).trans (ctx_modPlace rfl k)⟩
    rw [List.foldl_cons, append_eq, hblocks, List.append_assoc]
    rfl

/-- The blocks of a SPLIT, at most two: the fuller first, and by the address of their entries where they are equal (R137). -/
theorem splitOrder_eq (t f : W32) (e1 e2 : Nat) (a1 a2 : Word) : splitOrder t f e1 e2 a1 a2 =
    (if popCount f.toNat 32 < popCount t.toNat 32 ∨ (popCount f.toNat 32 = popCount t.toNat 32 ∧ (e1 = e2 ∨ a1.toNat ≤ a2.toNat))
      then [(t, e1), (f, e2)] else [(f, e2), (t, e1)]).filter (fun x => x.1 != 0) := by
  rw [splitOrder]
  refine congrArg (List.filter _) (if_congr ?_ rfl rfl)
  rw [Bool.or_eq_true, Bool.and_eq_true, Bool.or_eq_true, decide_eq_true_iff, decide_eq_true_iff, beq_iff_eq, beq_iff_eq, eq_comm]
theorem length_splitOrder (t f : W32) (e1 e2 : Nat) (a1 a2 : Word) : (splitOrder t f e1 e2 a1 a2).length ≤ 2 :=
  (List.length_filter_le _ _).trans (by split <;> exact Nat.le_refl 2)
/-- The masks and entries of the blocks that a SPLIT emits. -/
def State.splitBlocks (s : State) (p c a r e f : Nat) : List (W32 × Nat) :=
  splitOrder ((s.g p c r).setWidth 32 &&& (s.g p c a >>> 32).setWidth 32) (~~~(s.g p c r).setWidth 32 &&& (s.g p c a >>> 32).setWidth 32) e f
    ((s.place p).table.getD e ⟨0, false, false⟩).entry ((s.place p).table.getD f ⟨0, false, false⟩).entry

variable {a b d e f o r t : Nat}

theorem exec_emit (ha : s.cur.agent = .control p c) (hc : c < 3) (hgood : s.emitBad p b (s.g p c a) [e] = false) :
    exec (.emit d a b e o t) s =
      if (s.g p c a >>> 32).setWidth 32 = (0 : W32) then .next (s.retireReg p c d (BitVec.allOnes 64))
      else if 256 ≤ (s.place p).unretired.length then .next (s.block p c (.emit d a b e o t))
      else .next ((s.append p c (s.g p c a) ((s.g p c a >>> 32).setWidth 32) (s.emitOps p c b) e (o == 1) (s.waitFor p t)).retireReg p c d
        (BitVec.ofNat 64 (s.place p).avtail)) := by
  refine (onContext_control ha (mem_roleCtx hc)).trans ?_
  dsimp only
  rw [hgood]
  rfl
theorem exec_split (ha : s.cur.agent = .control p c) (hc : c < 3) (hgood : s.emitBad p b (s.g p c a) [e, f] = false)
    (hroom : (s.place p).unretired.length ≤ 254) : exec (.split d a b r e o t f) s =
      .next (((s.splitBlocks p c a r e f).foldl (fun u x => u.append p c (s.g p c a) x.1 (s.emitOps p c b) x.2 (o == 1) (s.waitFor p t)) s).retireReg
        p c d (BitVec.ofNat 64 (s.splitBlocks p c a r e f).length)) := by
  have hfit : ¬256 < (s.place p).unretired.length + (s.splitBlocks p c a r e f).length := by
    have htwo : (s.splitBlocks p c a r e f).length ≤ 2 := length_splitOrder ..
    omega
  refine (onContext_control ha (mem_roleCtx hc)).trans ?_
  dsimp only
  rw [hgood, if_neg Bool.false_ne_true]
  exact if_neg hfit
end

theorem emitInstruction : Claims.EmitInstruction := by
  intro s p c d a b e o t ha hc hb he hw desc mask hdesc
  have hexec := exec_emit (d := d) (o := o) (t := t) ha hc (emitBad_eq_false hb hdesc (by simpa using he) hw)
  refine ⟨fun h0 => hexec.trans (if_pos h0), fun h0 hfull => hexec.trans ((if_neg h0).trans (if_pos hfull)), fun h0 hroom => ?_⟩
  refine ⟨_, hexec.trans ((if_neg h0).trans (if_neg (Nat.not_le.2 hroom))), mem_retireReg .., fun n => ?_, ?_⟩
  · rw [g_retireReg, append_eq, g_modPlace rfl]
  · rw [State.retireReg, place_retire (by omega), append_eq, place_modPlace_self]
    refine ⟨rfl, _, rfl, rfl, rfl, rfl, rfl, rfl, rfl, rfl, ?_⟩
    simp only [State.emitted, emitOps_eq]
    by_cases hb0 : b = 0 <;> simp [hb0]

theorem splitInstruction : Claims.SplitInstruction := by
  intro s p c d a b r e o t f ha hc hb he hf hw hdesc hroom mask pred yes no
  have hexec := exec_split (d := d) (r := r) (o := o) (t := t) ha hc (emitBad_eq_false hb hdesc (by simpa using ⟨he, hf⟩) hw) hroom
  obtain ⟨bs, hblocks, hbs, hmem, hctx⟩ := append_all (p := p) (c := c) (s.g p c a) (s.emitOps p c b) (o == 1) (s.waitFor p t)
    (s.splitBlocks p c a r e f) s
  refine ⟨_, bs, hexec, (mem_retireReg ..).trans hmem, ?_, fun n => ?_, hbs.trans (splitOrder_eq ..)⟩
  · rw [State.retireReg, place_retire (by omega)]
    exact hblocks
  · rw [g_retireReg, State.g, hctx, ← hbs, List.length_map]
    rfl

/-- Settles O16: EMIT by the block it appends, SPLIT by the blocks it appends one after another and their order. -/
theorem emission : Obligations.Emission := ⟨emitInstruction, splitInstruction⟩

end Sys2Proof.Machine
end

section
/-! What the end of a cycle on the lanes leaves of the registers of the plaza's contexts (R37, R168-R170): a block that completes, retires or is
dispatched touches none, nor do the stores that a freeze makes perform. -/
namespace Sys2Proof.Machine

/-- The registers of plaza p's contexts are in s what they were in r. -/
def SameRegs (p : Nat) (r s : State) : Prop := ∀ c, (s.ctx p c).g = (r.ctx p c).g

section
variable {r s t : State} {p l : Nat}

theorem SameRegs.refl (p : Nat) (s : State) : SameRegs p s s := fun _ => rfl
theorem SameRegs.g (h : SameRegs p r s) (c k : Nat) : s.g p c k = r.g p c k := by rw [State.g, State.g, Ctx.reg, Ctx.reg, h c]
theorem SameRegs.of_sameCore (h : SameRegs p r s) (hcore : SameCore s t) : SameRegs p r t := fun c => by rw [hcore.ctx, h c]
theorem modPlace_sameRegs {f : Place → Place} (h : SameRegs p r s) (hf : (f (s.place p)).ctx = (s.place p).ctx) : SameRegs p r (s.modPlace p f) :=
  fun c => by rw [ctx_modPlace hf, h c]
theorem foldl_sameRegs {α : Type} {xs : List α} {f : State → α → State} (h : SameRegs p r s)
    (hf : ∀ t x, SameRegs p r t → SameRegs p r (f t x)) : SameRegs p r (xs.foldl f s) :=
  List.foldlRecOn xs f h fun t ht x _ => hf t x ht

/-! ### A lane store that performs -/

theorem evictLine_sameCore {lanes : Bool} {x : Line} (h : SameCore r s) : SameCore r (s.evictLine p lanes x) :=
  ite_sameCore (mergeLine_sameCore h) (modPlaza_sameCore (writeBackIn_sameCore h) fun q => q.sameCore_modL1 _ _)
theorem makeRoom_sameCore {lanes : Bool} {line : Nat} (h : SameCore r s) : SameCore r (s.makeRoom p lanes line).2 := by
  unfold State.makeRoom
  dsimp only
  split
  · exact h
  · split
    · exact h
    · exact evictLine_sameCore h
theorem install_sameCore {lanes : Bool} {x : Line} (h : SameCore r s) : SameCore r (s.install p lanes x) :=
  modPlaza_sameCore (makeRoom_sameCore h) fun q => q.sameCore_modL1 _ _
theorem storeL1_sameCore (s : State) (p : Nat) (lanes : Bool) (key n v : Nat) (priv : Bool) :
    SameCore (s.wakeLine p (key / 128)) (s.storeL1 p lanes key n v priv) := by
  have hmerge := mergeOwn_sameCore (p := p) (line := key / 128) (.refl (s.wakeLine p (key / 128)))
  have hother := modPlaza_sameCore (p := p) hmerge fun q => q.sameCore_modL1 (!lanes) fun ls => ls.filter fun y => !(y.key == key / 128 && !y.upd)
  unfold State.storeL1
  dsimp only
  split
  · exact modPlaza_sameCore hother fun q => q.sameCore_modL1 _ _
  · exact install_sameCore hother
theorem wakeLine_sameRegs {line : Nat} (h : SameRegs p r s) : SameRegs p r (s.wakeLine p line) := fun c => by
  rw [ctx_wakeLine, ← h c]
  rcases wokenAt_eq (s.ctx p c) line with e | e <;> rw [e]
theorem putMem_sameRegs {key n v : Nat} {priv : Bool} (h : SameRegs p r s) : SameRegs p r (s.putMem p key n v priv) :=
  List.foldlRecOn (motive := fun x : State × Nat => SameRegs p r x.1) _ _ h fun _ ht _ _ => (wakeLine_sameRegs ht).of_sameCore (storeL1_sameCore ..)
theorem performPart_sameRegs {st : LaneStore} {x : Nat × Nat × Nat} (h : SameRegs p r s) : SameRegs p r (s.performPart p st x) := by
  have hbuffer : ∀ {f : Plaza → Plaza}, (f (s.plaza p)).place = (s.plaza p).place → (f (s.plaza p)).ctx5 = (s.plaza p).ctx5 →
      (f (s.plaza p)).wakeDue = (s.plaza p).wakeDue → SameRegs p r (s.modPlaza p f) := fun hplace h5 hdue c => by
    rw [(keepsCtx_modPlaza (c := c) hplace h5 hdue).1, h c]
  unfold State.performPart
  dsimp only
  cases st.space with
  | mem => exact putMem_sameRegs h
  | scratch => exact hbuffer rfl rfl rfl
  | ab => exact hbuffer rfl rfl rfl
  | cb => exact hbuffer rfl rfl rfl
theorem performAll_sameRegs (h : SameRegs p r s) : SameRegs p r (s.performAll p l) :=
  foldl_sameRegs h fun _ _ ht => modPlace_sameRegs (foldl_sameRegs ht fun _ _ => performPart_sameRegs) rfl

/-! ### Blocks -/

theorem forgetRemotes_sameRegs {who : Requester} (h : SameRegs p r s) : SameRegs p r (s.forgetRemotes who) := h
theorem releaseLane_sameRegs (h : SameRegs p r s) : SameRegs p r (s.releaseLane p l) :=
  modPlace_sameRegs (performAll_sameRegs (forgetRemotes_sameRegs (modPlace_sameRegs h rfl))) rfl
theorem freezeAt_sameRegs {seq : Nat} {x : Record} (h : SameRegs p r s) : SameRegs p r (s.freezeAt p seq x) := by
  have hreleased : SameRegs p r (s.releaseLanes p (blocksAfter seq (s.place p).blocks)) := foldl_sameRegs h fun t y ht => by
    split
    · exact releaseLane_sameRegs ht
    · exact ht
  unfold State.freezeAt
  refine modPlace_sameRegs ?_ rfl
  split
  · split
    · exact modPlace_sameRegs hreleased rfl
    · exact hreleased
  · exact hreleased

theorem onward_sameRegs {f : State → Out} (h : SameRegs p r s) (hf : ∀ t, f s = .next t → SameRegs p r t) : SameRegs p r (onward f s) := by
  unfold onward
  split
  · next t e => exact hf t e
  · exact h
theorem runAll_sameRegs {fs : List (State → Out)} (h : SameRegs p r s)
    (hfs : ∀ f ∈ fs, ∀ u t, SameRegs p r u → f u = .next t → SameRegs p r t) : SameRegs p r (runAll fs s) :=
  List.foldlRecOn fs _ h fun u hu f hf => onward_sameRegs hu fun t => hfs f hf u t hu
theorem execBlockComplete_sameRegs (h : SameRegs p r s) (e : execBlockComplete p l s = .next t) : SameRegs p r t := by
  unfold execBlockComplete at e
  dsimp only at e
  split at e <;> cases e
  · exact modPlace_sameRegs h rfl
  · exact h
theorem execBlockRetire_sameRegs (h : SameRegs p r s) (e : execBlockRetire p s = .next t) : SameRegs p r t := by
  unfold execBlockRetire at e
  split at e
  · cases e
    exact modPlace_sameRegs h rfl
  · dsimp only at e
    split at e
    · cases e
      exact modPlace_sameRegs h rfl
    · split at e <;> cases e
      · exact modPlace_sameRegs h rfl
      · exact h
theorem execBlockDispatch_sameRegs (h : SameRegs p r s) (e : execBlockDispatch p s = .next t) : SameRegs p r t := by
  unfold execBlockDispatch at e
  split at e
  · dsimp only at e
    split at e <;> cases e
    · exact freezeAt_sameRegs (modPlace_sameRegs h rfl)
    · exact modPlace_sameRegs h rfl
  · cases e
    exact h
theorem settleBlocks_sameRegs (s : State) (p : Nat) : SameRegs p s (s.settleBlocks p) := by
  refine runAll_sameRegs (runAll_sameRegs (.refl p s) ?_) (List.forall_mem_append.2 ⟨?_, ?_⟩)
  · exact List.forall_mem_map.2 fun _ _ _ _ => execBlockComplete_sameRegs
  · exact List.forall_mem_map.2 fun _ _ _ _ => execBlockRetire_sameRegs
  · exact List.forall_mem_singleton.2 fun _ _ => execBlockDispatch_sameRegs
/-- On an empty avenue with no lane group in use the end of a cycle does nothing. -/
theorem settleBlocks_empty (hblocks : (s.place p).blocks = []) (hlanes : (s.place p).lanes = []) : s.settleBlocks p = s := by
  have hnone : s.dispatchable p = none := by
    rw [State.dispatchable]
    dsimp only
    rw [hblocks]
    rfl
  rw [State.settleBlocks, hlanes]
  change runAll (((s.place p).blocks.map fun _ => execBlockRetire p) ++ [execBlockDispatch p]) s = s
  rw [hblocks]
  change onward (execBlockDispatch p) s = s
  rw [onward, execBlockDispatch, hnone]
end

end Sys2Proof.Machine
end

section
/-! The avenue and the alley from the control core (R138-R141). -/
namespace Sys2Proof.Machine

section
variable {s : State} {p c a b d : Nat}

theorem popEntry_poppable {empty : Nat → Nat → Out} {e : AlleyEntry} {rest : List AlleyEntry} (ha : s.cur.agent = .control p c) (hc : c < 3)
    (halley : (s.place p).alley = e :: rest) (hpop : e.poppable = true) : popEntry d b empty s = .next ((s.pop p).retire p c fun x =>
      (x.setReg d (BitVec.ofNat 64 (e.scalar.toNat * 2 ^ 32 + e.mask.toNat))).setReg b (BitVec.ofNat 64 e.seq)) := by
  refine (onContext_control ha (mem_roleCtx hc)).trans ?_
  rw [halley]
  exact if_pos hpop
theorem popEntry_empty {empty : Nat → Nat → Out} (ha : s.cur.agent = .control p c) (hc : c < 3)
    (hnone : ∀ e rest, (s.place p).alley = e :: rest → e.poppable = false) : popEntry d b empty s = empty p c := by
  refine (onContext_control ha (mem_roleCtx hc)).trans ?_
  split
  · next e rest halley =>
    rw [hnone e rest halley]
    rfl
  · rfl

theorem popInstructions : Claims.PopInstructions := by
  intro s p c d b ha hc hdb
  refine ⟨fun e rest halley hpop => ?_, fun hnone => ⟨popEntry_empty ha hc hnone, popEntry_empty ha hc hnone⟩⟩
  have hpops : ∀ i, exec i s = .next ((s.pop p).retire p c fun x =>
      (x.setReg d (BitVec.ofNat 64 (e.scalar.toNat * 2 ^ 32 + e.mask.toNat))).setReg b (BitVec.ofNat 64 e.seq)) →
      ∃ t, exec i s = .next t ∧ (t.place p).alley = rest ∧ t.mem = s.mem ∧ (t.place p).alhead = ((s.place p).alhead + 1) % 2 ^ 32
        ∧ ∀ n, t.g p c n = if n = b ∧ b ≠ 0 then BitVec.ofNat 64 e.seq
            else if n = d ∧ d ≠ 0 then BitVec.ofNat 64 (e.scalar.toNat * 2 ^ 32 + e.mask.toNat) else s.g p c n := fun i he => by
    have hplace := place_retire (s := s.pop p) (p := p) (c := c) (by omega) fun x =>
      (x.setReg d (BitVec.ofNat 64 (e.scalar.toNat * 2 ^ 32 + e.mask.toNat))).setReg b (BitVec.ofNat 64 e.seq)
    refine ⟨_, he, ?_, mem_retire .., ?_, fun n => ?_⟩
    · rw [hplace, State.pop, place_modPlace_self, halley]
      rfl
    · rw [hplace, State.pop, place_modPlace_self]
    · rw [g_retire, Ctx.reg_setReg, Ctx.reg_setReg, ← State.g, State.pop, g_modPlace rfl]
  exact List.forall_mem_cons.2 ⟨hpops _ (popEntry_poppable ha hc halley hpop),
    List.forall_mem_singleton.2 (hpops _ (popEntry_poppable ha hc halley hpop))⟩

/-- The avenue and the alley with what is at or above n cancelled and removed, as `q` has the live range (R138, R140). -/
def Place.cancelFrom (x q : Place) (n : Nat) : Place :=
  { x with
    blocks := x.blocks.map fun b => if q.above n b.seq then b.cancel else b
    alley := x.alley.filter fun e => !q.above n e.seq
    altail := (x.altail + 2 ^ 32 - (q.alley.filter fun e => q.above n e.seq).length) % 2 ^ 32 }

theorem exec_bcancel (ha : s.cur.agent = .control p c) (hc : c < 3) : exec (.bcancel d a) s =
    .next (((s.settleBlocks p).modPlace p fun x => x.cancelFrom ((s.settleBlocks p).place p) ((s.g p c a).toNat % 2 ^ 32)).retireReg p c d
      (BitVec.ofNat 64 (((s.settleBlocks p).place p).blocks.filter fun b =>
        ((s.settleBlocks p).place p).above ((s.g p c a).toNat % 2 ^ 32) b.seq && b.st == .queued).length)) := by
  refine (onContext_control ha (mem_roleCtx hc)).trans ?_
  dsimp only
  rw [(settleBlocks_sameRegs s p).g]
  rfl
theorem exec_bwait (ha : s.cur.agent = .control p c) (hc : c < 3) : exec (.bwait a) s =
    if (s.place p).unretired.any fun b => !(s.place p).above ((s.g p c a).toNat % 2 ^ 32) b.seq then .next (s.block p c (.bwait a))
    else .next (s.retire p c id) :=
  onContext_control ha (mem_roleCtx hc)
end

theorem avenueControl : Claims.AvenueControl := by
  intro s p c d a ha hc hw q n u r
  have hbseq : ∀ sel v, exec (.bseq d sel) s = .next (s.retireReg p c d v) → writesG (.bseq d sel) s p c d v :=
    fun sel v => writesG_retireReg _ s p c d v hw
  have hregs := settleBlocks_sameRegs s p
  refine ⟨⟨fun k => hregs.g c k, settleBlocks_empty⟩, ⟨_, exec_bcancel ha hc, mem_retireReg .., ?_, ?_, fun k => ?_⟩,
    hbseq 0 _ (onContext_control ha (mem_roleCtx hc)), hbseq 1 _ (onContext_control ha (mem_roleCtx hc)),
    hbseq 2 _ (onContext_control ha (mem_roleCtx hc)), fun hall => ?_, fun hsome => ?_⟩
  · rw [State.retireReg, place_retire (by omega), place_modPlace_self]
    rfl
  · rw [State.retireReg, place_retire (by omega), place_modPlace_self]
    rfl
  · rw [g_retireReg, g_modPlace rfl, hregs.g]
  · rw [exec_bwait ha hc, List.any_eq_false.2 fun b hb => by rw [hall b hb]; exact Bool.false_ne_true]
    rfl
  · obtain ⟨b, hb, hbelow⟩ := hsome
    exact (exec_bwait ha hc).trans (if_pos (List.any_eq_true.2 ⟨b, hb, by rw [hbelow]; rfl⟩))

/-- Settles O17: the pops by the oldest entry, BCANCEL by what the end of its cycle leaves, BSEQ and BWAIT by the avenue as it stands. -/
theorem avenueAndAlley : Obligations.AvenueAndAlley := ⟨popInstructions, avenueControl⟩

end Sys2Proof.Machine
end

section
/-! The life of a block (R139, R168-R178): its dispatch, completion and retirement, and the seat that it takes. -/
namespace Sys2Proof.Machine

section
variable {s : State} {p l : Nat} {b : Block} {rest : List Block}

/-- The placement with block b dispatched onto lane group half l (R168, R175). -/
def Place.dispatched (q : Place) (now l : Nat) (x : Lane) (b : Block) : Place :=
  { q with
    lanes := tabSet q.lanes l x, qmoved := true, dispatchAt := now + 1
    blocks := q.blocks.map fun y => if y.seq = b.seq then { y with st := .running, lane := some l } else y }

theorem exec_blockDispatch (hb : s.dispatchable p = some b) (hl : (s.place p).freeSeat s.dev.cycle = some l) (hw : b.wait ≠ .failed) :
    exec (.blockDispatch p) s = .next (s.modPlace p fun q => q.dispatched s.dev.cycle l (s.blockStart p l b) b) := by
  change execBlockDispatch p s = _
  rw [execBlockDispatch, hb, hl]
  exact if_neg (by rwa [beq_iff_eq])
/-- A lane group at block start has its block's values in s1 to s9, its mask in p0, and zeros elsewhere (R172). -/
theorem scalar_blockStart (n : Nat) : (s.blockStart p l b).scalar n =
    if 9 = n then BitVec.ofNat 32 (s.plazaId p) else if 8 = n then BitVec.ofNat 32 (l / 2) else if 7 = n then b.op3 else if 6 = n then b.op2
    else if 5 = n then b.op1 else if 4 = n then b.op0 else if 3 = n then BitVec.ofNat 32 b.seq else if 2 = n then BitVec.ofNat 32 b.trip
    else if 1 = n then BitVec.ofNat 32 b.entry else 0 := by
  by_cases hn : n = 0
  · subst hn
    rfl
  · rw [Lane.scalar, if_neg hn]
    simp only [State.blockStart, List.foldl_cons, List.foldl_nil, tabGet_tabPut]
    rfl
theorem pred_blockStart (n : Nat) : (s.blockStart p l b).pred n = if 0 = n then b.mask <<< s.shift p l else 0 := by
  simp only [Lane.pred, State.blockStart, tabGet_tabPut]
  rfl

theorem oldest_cons (hblocks : (s.place p).blocks = b :: rest) (hst : b.st = .complete) : (s.place p).oldest = some b := by
  rw [Place.oldest, hblocks]
  exact List.find?_cons_of_pos (by rw [hst]; rfl)
theorem exec_blockRetire (hblocks : (s.place p).blocks = b :: rest) (hst : b.st = .complete) : exec (.blockRetire p) s =
    if (s.place p).alley.length + b.pushes.length ≤ alleySize then .next (s.retireBlock p b) else .next s := by
  change execBlockRetire p s = _
  rw [execBlockRetire, oldest_cons hblocks hst]
  dsimp only
  rw [hst, if_neg (by decide)]
  exact if_congr (by rw [beq_self_eq_true, Bool.true_and, decide_eq_true_iff]) rfl rfl

/-- What BLOCK_COMPLETE on a lane group makes of a block (R155, R174). -/
def Block.completeOn (l : Nat) (pushes : List Push) (y : Block) : Block :=
  if y.lane = some l ∧ y.st = .running then { y with st := .complete, pushes := pushes }
  else if y.lane = some l ∧ y.st = .spentRunning then { y with st := .spentComplete } else y
theorem exec_blockComplete (hbusy : (s.lane p l).busy = true) (hended : (s.lane p l).ended = true) (hstop : (s.lane p l).stopped = false)
    (hquiet : (s.lane p l).quiet = true) (hat : (s.lane p l).nextAt ≤ s.dev.cycle) : exec (.blockComplete p l) s =
      .next (s.modPlace p fun q => { q with blocks := q.blocks.map (Block.completeOn l (s.lane p l).pushes) }) := by
  change execBlockComplete p l s = _
  rw [execBlockComplete]
  dsimp only
  rw [hbusy, hended, hstop, hquiet, decide_eq_true hat]
  refine congrArg (fun g => Host.Outcome.next (s.modPlace p fun q => { q with blocks := q.blocks.map g })) (funext fun y => ?_)
  rw [Block.completeOn]
  by_cases hy : y.lane = some l <;> simp [hy]
end

theorem blockEvents : Claims.BlockLife := by
  intro s p l b rest
  refine ⟨fun hb hl hw => ?dispatch, fun hbusy hended hstop hquiet hat => ?complete, fun hblocks hst hroom => ?retire,
    fun hblocks hst hfull => (exec_blockRetire hblocks hst).trans (if_neg (Nat.not_le.2 hfull)), ?poppable⟩
  case dispatch =>
    refine ⟨_, exec_blockDispatch hb hl hw, rfl, ?_⟩
    have hlane : (s.modPlace p fun q => q.dispatched s.dev.cycle l (s.blockStart p l b) b).lane p l = s.blockStart p l b := by
      rw [State.lane, place_modPlace_self]
      exact tabGet_tabSet_self ..
    rw [hlane, place_modPlace_self]
    simp only [scalar_blockStart, pred_blockStart]
    refine ⟨rfl, rfl, rfl, rfl, rfl, fun n h1 _ => if_neg (by omega), rfl, rfl, rfl, rfl, rfl, rfl, rfl, rfl, rfl, fun n hn => ?_, rfl⟩
    repeat rw [if_neg (by omega)]
  case complete => exact ⟨_, exec_blockComplete hbusy hended hstop hquiet hat, rfl, by rw [place_modPlace_self]; rfl⟩
  case retire =>
    refine ⟨_, (exec_blockRetire hblocks hst).trans (if_pos hroom), rfl, ?_⟩
    rw [State.retireBlock, place_modPlace_self, hblocks]
    refine ⟨if_pos rfl, rfl, rfl, fun j hj => ?_⟩
    rw [State.lane, place_modPlace_self, hj]
    exact tabGet_tabSet_self ..
  case poppable => exact ⟨_, rfl, rfl, by rw [place_modPlace_self]⟩

/-- Of the numbers below n that a test passes, the search in rising order finds the least. -/
theorem lowestFreeSeat : Claims.LowestFreeSeat := by
  intro q now l hl free
  have hfree : ∀ j, (!(tabGet Lane.off q.lanes j).busy && !(tabGet Lane.off q.lanes j).draining
      && decide ((tabGet Lane.off q.lanes j).freeAt ≤ now)) = true ↔ free j := fun j => by simp [free, and_assoc]
  unfold Place.freeSeat Place.seats at hl
  split at hl
  case isTrue hw =>
    obtain ⟨hpos, hmem, hlow⟩ := List.find?_range_eq_some.1 hl
    refine ⟨(hfree l).1 hpos, List.mem_range.1 hmem, fun j hj _ hfj => ?_⟩
    have hno := hlow j hj
    rw [(hfree j).2 hfj] at hno
    exact absurd hno Bool.false_ne_true
  case isFalse hw =>
    rw [List.find?_map, Option.map_eq_some_iff] at hl
    obtain ⟨g, hg, rfl⟩ := hl
    obtain ⟨hpos, hmem, hlow⟩ := List.find?_range_eq_some.1 hg
    have hgroup := List.mem_range.1 hmem
    refine ⟨(hfree _).1 hpos, by omega, fun j hj heven hfj => ?_⟩
    have hj2 : 2 * (j / 2) = j := by
      rcases heven with h | h
      · exact absurd h hw
      · omega
    have hno := hlow (j / 2) (by omega)
    rw [Function.comp_apply, hj2, (hfree j).2 hfj] at hno
    exact absurd hno Bool.false_ne_true

/-- Settles O40: each event by the block or blocks that it changes, and the seat by the order of the search. -/
theorem blockLife : Obligations.BlockLife := ⟨blockEvents, lowestFreeSeat⟩

end Sys2Proof.Machine
end

section
/-! Commands put in a queue (R123, R124, R128-R130, R288, R289, R304, R306): what an issue leaves, and when it is refused or waits. -/
namespace Sys2Proof.Machine

section
variable {s : State} {p c : Nat}

/-- The placement with command x at the end of the copy or the link queue, its token OUTSTANDING with x as its producer (R123, R129). -/
def Place.withCmd (link : Bool) (x : Cmd) (q : Place) : Place :=
  { q with
    tokens := tabSet q.tokens x.tok ⟨.outstanding, x.id⟩
    copyQ := if link then q.copyQ else q.copyQ ++ [x], linkQ := if link then q.linkQ ++ [x] else q.linkQ }
/-- The state after context c has put command x in a queue and retired. -/
def State.issued (s : State) (p c : Nat) (link : Bool) (x : Cmd) : State :=
  (({ s with fresh := s.fresh + 1 } : State).modPlace p (Place.withCmd link x)).retire p c id

theorem token_withCmd (link : Bool) (x : Cmd) (n : Nat) : (s.modPlace p (Place.withCmd link x)).token p n =
    if n = x.tok then ⟨.outstanding, x.id⟩ else s.token p n := by
  rw [State.token, place_modPlace_self]
  split
  case isTrue hn => exact hn ▸ tabGet_tabSet_self ..
  case isFalse hn => exact tabGet_tabSet_ne _ _ _ hn

/-- A new command issued into a queue is there last, with its token OUTSTANDING, and nothing else of its placement changes. -/
theorem issuesCmd_of_issued {i : Instr} {link : Bool} {major arg t u v w : Nat} {shape : BitVec 512} {opa opb : Word} {P : Cmd → Prop}
    (hc : c < 5) (hexec : exec i s = .next (s.issued p c link (s.newCmd p c major shape opa opb arg t u v w).1))
    (hP : P (s.newCmd p c major shape opa opb arg t u v w).1) : issuesCmd i s p c link t u v w P := by
  generalize hx : (s.newCmd p c major shape opa opb arg t u v w).1 = x at hexec hP
  have htok : x.tok = t := hx ▸ rfl
  obtain ⟨hmem, hg, htoken, -⟩ := retire_keeps (s := ({ s with fresh := s.fresh + 1 } : State).modPlace p (Place.withCmd link x)) (p := p) hc
  have hctx : (({ s with fresh := s.fresh + 1 } : State).modPlace p (Place.withCmd link x)).ctx p c = s.ctx p c := ctx_modPlace rfl c
  have htokens := fun n => (htoken n).trans (token_withCmd link x n)
  refine ⟨_, x, hexec, hP, ?queues, htok, hx ▸ rfl, hx ▸ rfl, hx ▸ rfl, hx ▸ rfl, hx ▸ rfl, hx ▸ rfl, hx ▸ rfl,
    (htokens t).trans (if_pos htok.symm), fun m hm => (htokens m).trans (if_neg (htok ▸ hm)), hg.trans (congrArg Ctx.g hctx), ?insret, hmem⟩
  case queues =>
    rw [State.issued, place_retire (by omega), place_modPlace_self]
    cases link
    · exact ⟨rfl, rfl⟩
    · exact ⟨rfl, rfl⟩
  case insret =>
    rw [State.issued, retire_job (by omega), ctx_modCtx_self, insret_settled, hctx]
    rfl

variable {i : Instr} {major opa opb arg t u v w : Nat} {check : Nat → Nat → State → Option State} {shape : Nat → State → BitVec 512}

/-- An instruction of the copy queue waits for its token and for room, then is checked, then puts its command in the queue. -/
theorem issueCopy_eq (ha : s.cur.agent = .control p c) (hc : c < 5) : issueCopy i major check shape opa opb arg t u v w s =
    if (s.token p t).st = .outstanding ∨ queueSize ≤ (s.place p).copyQ.length then .next (s.block p c i)
    else .next ((check p c s).getD (s.issued p c false (s.newCmd p c major (shape p s) (s.g p c opa)
      (if major = majBfset || major = majCbld then 0 else s.g p c opb) arg t u v w).1)) := by
  refine (onContext_control ha (mem_jobCtx hc)).trans (if_congr (by simp) rfl ?_)
  cases check p c s with
  | some bad => rfl
  | none =>
    dsimp only [Option.getD_none]
    rw [State.newCmd, State.newId, modPlace_modPlace, State.issued]
    rfl
theorem issueCopy_ready (ha : s.cur.agent = .control p c) (hc : c < 5) (ht : (s.token p t).st ≠ .outstanding)
    (hroom : (s.place p).copyQ.length < queueSize) : issueCopy i major check shape opa opb arg t u v w s =
      .next ((check p c s).getD (s.issued p c false (s.newCmd p c major (shape p s) (s.g p c opa)
        (if major = majBfset || major = majCbld then 0 else s.g p c opb) arg t u v w).1)) :=
  (issueCopy_eq ha hc).trans (if_neg (not_or.2 ⟨ht, Nat.not_le.2 hroom⟩))

/-- What CPY, CPYG and PUTH share: the wait, and after it the check of their shape and their command. -/
theorem copyIssue_of {a b n : Nat} {puth : Bool} (ha : s.cur.agent = .control p c) (hc : c < 5)
    (hi : exec i s = issueCopy i major (copyCheck puth n) (fun p x => x.shape p n) a b 0 t u v w s)
    (hmajor : (major = majBfset || major = majCbld) = false) :
    ((s.token p t).st ≠ .outstanding → (s.place p).copyQ.length < queueSize → s.shapeOk p puth (s.shape p n) = true →
        let r := s.ring p (dstOf (s.shape p n)).ring
        let fits : Prop := (dstOf (s.shape p n)).ring = 15 ∨ (r.desc ≠ 0 ∧ ringWb r.desc = decide ((dstOf (s.shape p n)).space = 3))
        (¬fits → exec i s = .next (s.trap p c .ringstate 0))
        ∧ (fits → issuesCmd i s p c false t u v w fun x => x.major = major ∧ x.shape = s.shape p n ∧ x.opa = s.g p c a ∧ x.opb = s.g p c b))
      ∧ ((s.token p t).st ≠ .outstanding → (s.place p).copyQ.length < queueSize → s.shapeOk p puth (s.shape p n) = false →
        exec i s = .next (s.illegal p c))
      ∧ ((s.token p t).st = .outstanding ∨ queueSize ≤ (s.place p).copyQ.length → exec i s = .next (s.block p c i)) := by
  refine ⟨fun ht hroom hok => ?_, fun ht hroom hbad => ?_, fun hwait => hi.trans ((issueCopy_eq ha hc).trans (if_pos hwait))⟩
  · intro r fits
    have hcheck : copyCheck puth n p c s = if fits then none else some (s.trap p c .ringstate 0) := by
      have hfits : ((dstOf (s.shape p n)).ring != 15 && (r.desc == 0 || ringWb r.desc != ((dstOf (s.shape p n)).space == 3))) = true ↔ ¬fits := by
        rw [Bool.beq_eq_decide_eq (dstOf (s.shape p n)).space]
        simp only [fits, Bool.and_eq_true, Bool.or_eq_true, bne_iff_ne, beq_iff_eq, ne_eq, not_or, Decidable.not_and_iff_not_or_not, not_not]
      rw [copyCheck, hok, if_neg (by decide)]
      exact (if_congr hfits rfl rfl).trans (ite_not ..)
    have hexec := hi.trans (issueCopy_ready ha hc ht hroom)
    rw [hcheck] at hexec
    refine ⟨fun hno => by rw [hexec, if_neg hno]; rfl, fun hfit => ?_⟩
    rw [if_pos hfit] at hexec
    exact issuesCmd_of_issued hc hexec ⟨rfl, rfl, rfl, by rw [hmajor]; rfl⟩
  · rw [hi, issueCopy_ready ha hc ht hroom, copyCheck, hbad]
    rfl

theorem exec_bfset {n a : Nat} (ha : s.cur.agent = .control p c) (hc : c < 5) (ht : (s.token p t).st ≠ .outstanding)
    (hroom : (s.place p).copyQ.length < queueSize) : exec (.bfset n a t u v w) s =
      .next (if (bankFmtOk (s.g p c a).toNat && s.fmtOn p ((s.g p c a).toNat % 256)) = true
        then s.issued p c false (s.newCmd p c majBfset 0 (s.g p c a) 0 n t u v w).1 else s.illegal p c) := by
  change execBfset n a t u v w s = _
  rw [execBfset, issueCopy_ready ha hc ht hroom]
  dsimp only
  split
  · rfl
  · rfl
theorem exec_cbld {n a h : Nat} (ha : s.cur.agent = .control p c) (hc : c < 5) (ht : (s.token p t).st ≠ .outstanding)
    (hroom : (s.place p).copyQ.length < queueSize) : exec (.cbld n a h t u v w) s =
      .next (if s.hasFeature p 1 = true then s.issued p c false (s.newCmd p c majCbld 0 (s.g p c a) 0 (n + 4 * h) t u v w).1
        else s.illegal p c) := by
  change execCbld n a h t u v w s = _
  rw [execCbld, issueCopy_ready ha hc ht hroom]
  split
  · rfl
  · rfl

theorem issueLink_illegal {n : Nat} (ha : s.cur.agent = .control p c) (hc : c < 5) (hoff : s.hasFeature p 4 = false) :
    issueLink i major n opa opb t u v w s = .next (s.illegal p c) := by
  have h5 : (c != 5) = true := bne_iff_ne.2 (by omega)
  rw [issueLink, ha]
  dsimp only
  rw [hoff, h5]
  rfl
theorem issueLink_ready {n : Nat} (ha : s.cur.agent = .control p c) (hc : c < 5) (ht : (s.token p t).st ≠ .outstanding)
    (hroom : (s.place p).linkQ.length < queueSize) (hon : s.hasFeature p 4 = true) : issueLink i major n opa opb t u v w s =
      .next (s.issued p c true (s.newCmd p c major 0 (s.g p c opa) (if major = majLgo then 0 else s.g p c opb) n t u v w).1) := by
  rw [issueLink, ha]
  dsimp only
  rw [hon, Bool.not_true, Bool.and_false, if_neg Bool.false_ne_true, onContext_control ha (mem_jobCtx hc),
    if_neg (by simp [ht, Nat.not_le.2 hroom]), State.newCmd, State.newId, modPlace_modPlace, State.issued]
  rfl
end

theorem copyIssue : Claims.CopyIssue := by
  intro s p c a b n t u v w ha hc f hf
  simp only [List.mem_cons, List.not_mem_nil, or_false] at hf
  obtain rfl | rfl | rfl := hf
  · exact copyIssue_of ha hc rfl rfl
  · exact copyIssue_of ha hc rfl rfl
  · exact copyIssue_of ha hc rfl rfl

theorem otherCommands : Claims.OtherCommands := by
  intro s p c a b n h t u v w ha hc ht
  refine ⟨fun hroom => ⟨fun hfmt hon => ?bfset, fun hbad => ?bfsetBad, fun hon => ?cbld, fun hoff => ?cbldOff⟩,
    fun hroom hon => ⟨?lsched, ?lgo⟩, fun hoff => ⟨issueLink_illegal ha hc hoff, issueLink_illegal ha hc hoff⟩⟩
  case bfset =>
    exact issuesCmd_of_issued hc ((exec_bfset ha hc ht hroom).trans (by rw [hfmt, hon]; rfl)) ⟨rfl, rfl, rfl⟩
  case bfsetBad => exact (exec_bfset ha hc ht hroom).trans (by rw [hbad]; rfl)
  case cbld => exact issuesCmd_of_issued hc ((exec_cbld ha hc ht hroom).trans (by rw [hon]; rfl)) ⟨rfl, rfl, rfl⟩
  case cbldOff => exact (exec_cbld ha hc ht hroom).trans (by rw [hoff]; rfl)
  case lsched => exact issuesCmd_of_issued hc (issueLink_ready ha hc ht hroom hon) ⟨rfl, rfl, rfl, rfl⟩
  case lgo => exact issuesCmd_of_issued hc (issueLink_ready ha hc ht hroom hon) ⟨rfl, rfl, rfl⟩

/-- Settles O21: every issue is the wait, then its own check, then a new command at the end of its queue. -/
theorem engineCommands : Obligations.EngineCommands := ⟨copyIssue, otherCommands⟩

end Sys2Proof.Machine
end

section
/-! LAUNCH, LAUNCH_ACCEPT and JWAIT (R143, R145, R235). -/
namespace Sys2Proof.Machine

section
variable {s : State} {p c d : Nat}

theorem mem_launchCtx (hc : c < 3 ∨ c = 5) : c ∈ launchCtx := by
  simp only [launchCtx, List.mem_cons, List.not_mem_nil, or_false]; omega

theorem placer_wakeSupervisor (s : State) (p : Nat) : (s.wakeSupervisor p).placer = s.placer := by
  rw [State.wakeSupervisor]
  split <;> rfl
theorem placer_settleWake (s : State) (p c : Nat) : (s.settleWake p c).placer = s.placer := by
  rw [State.settleWake]
  split
  · exact placer_wakeSupervisor s p
  · split
    · exact modCtx_placer ..
    · rfl
theorem placer_retireReg (s : State) (p c d : Nat) (v : Word) : (s.retireReg p c d v).placer = s.placer :=
  (placer_settleWake ..).trans (modCtx_placer ..)

theorem exec_launch {a : Nat} (ha : s.cur.agent = .control p c) (hc : c < 3 ∨ c = 5) (hnone : s.launchAt p c = none) : exec (.launch d a) s =
    onAccess ((s.dropRequest p c).readLaunch p c (s.g p c a)) p c (.launch d a) fun v u =>
      match v with
      | .status n => .next (u.retireReg p c d (-(BitVec.ofNat 64 n)))
      | .launch l total =>
        .next ((u.modPlacer fun y => { y with requests := y.requests ++ [⟨p, c, s.dev.cycle, l, total⟩] }).block p c (.launch d a)) := by
  refine (onContext_control ha (mem_launchCtx hc)).trans ?_
  rw [hnone]
  rfl

/-- An id that no job and no kept completion bears is free as it stands (R235). -/
theorem freeId_of_unused {x : Placer} {n : Nat} (hjobs : ∀ j ∈ x.jobs, j.id ≠ n) (hkept : ∀ k ∈ x.completed, k.job ≠ n) (k : Nat) :
    x.freeId (k + 1) n = n := by
  have hj : (x.jobs.any fun j => j.id == n) = false := List.any_eq_false.2 fun j hm => by simpa using hjobs j hm
  have hk : (x.completed.any fun y => y.job == n) = false := List.any_eq_false.2 fun y hm => by simpa using hkept y hm
  rw [Placer.freeId, hj, hk]
  rfl
/-- The state once the Job Placer has taken request r for the job with an id: its LAUNCH has written the id to g[d] (R235). -/
def State.accepted (s : State) (r : Request) (d id : Nat) : State :=
  ((s.dropRequest r.plaza r.ctx).modPlacer fun y => { y with nextId := if id = 0x7FFFFFFF then 1 else id + 1 }).retireReg r.plaza r.ctx d
    (BitVec.ofNat 64 id)
/-- The job that a request becomes (R235). -/
def Request.job (r : Request) (id ns : Nat) : Job :=
  { id := id, launch := r.launch, st := .queued, total := r.total, first := 0, saves := [], restarts := [], left := [], ended := 0, ends := []
    halt := none, level := r.launch.prio, since := ns, prio := r.launch.prio, slots := 0 }
/-- A lone request of an earlier cycle whose context waits, whose level has room and whose object needs no mapping becomes a job. -/
theorem exec_launchAccept {r : Request} (hr : s.placer.requests = [r]) (hat : r.at_ < s.dev.cycle) (hd : s.awaits r = some d)
    (hroom : s.placer.room r.launch.prio = true) (hfeat : r.launch.features = BitVec.ofNat 32 (s.enabledFeatures r.launch.pasid))
    (hcode : r.launch.code = none) (htotal : 0 < r.total) (hjobs : ∀ j ∈ s.placer.jobs, j.id ≠ s.placer.nextId)
    (hkept : ∀ k ∈ s.placer.completed, k.job ≠ s.placer.nextId) : exec .launchAccept s =
      .next ((s.accepted r d s.placer.nextId).modPlacer fun y =>
        { y with jobs := y.jobs ++ [r.job s.placer.nextId s.dev.ns], fifo := y.fifo ++ [s.placer.nextId] }) := by
  have hfirst : firstRequest (s.placer.requests.filter fun r => r.at_ < s.dev.cycle && (s.awaits r).isSome && s.placer.room r.launch.prio
      && r.launch.features == BitVec.ofNat 32 (s.enabledFeatures r.launch.pasid)) = some r := by
    rw [hr, List.filter_cons_of_pos (by simp [hat, hd, hroom, hfeat])]
    rfl
  have hmap : ∀ (t : State) id, t.mapCode id r.launch = t := fun t id => by rw [State.mapCode, hcode]
  change execLaunchAccept s = _
  rw [execLaunchAccept, hfirst]
  dsimp only
  rw [if_neg (Nat.ne_of_gt htotal), freeId_of_unused hjobs hkept, hmap, hd]
  rfl

variable {a i : Nat}

theorem any_job_id {js : List Job} {n : Nat} : (js.any fun j => j.id == n) = true ↔ ∃ j ∈ js, j.id = n := by simp

theorem exec_jwait (ha : s.cur.agent = .control p c) (hc : c < 3 ∨ c = 5) (hacq : (s.ctx p c).acq = none) : exec (.jwait d a i) s =
    if (s.placer.jobs.any fun j => j.id == (s.g p c a).toNat % 2 ^ 32) = true then .next (s.block p c (.jwait d a i))
    else match s.placer.completed.find? fun x => x.job == (s.g p c a).toNat % 2 ^ 32 with
      | none => .next (s.retireReg p c d (BitVec.allOnes 64))
      | some x =>
        if (x.ends.all fun e => e == p) = true then .next (s.retireReg p c d x.value)
        else if x.plaza = p then .next ((s.selfInvalidate p).retireReg p c d x.value)
        else onAccess (s.acquireWith p c 1 x.value (some (s.plazaId x.plaza, x.seq))) p c (.jwait d a i) fun v t =>
          .next (t.retireReg p c d v) := by
  refine (onContext_control ha (mem_launchCtx hc)).trans ?_
  dsimp only
  rw [resumeAcquire_none hacq] <;> rfl
theorem exec_jwaitTimeout (hw : (s.ctx p c).wait = some (.jwait d a i)) (hruns : s.runs p c = true) (hst : (s.ctx p c).state = .waiting)
    (hi : i ≠ 0) (hbusy : s.busy p c = false) (hsince : (s.ctx p c).since + i * 1024 ≤ s.dev.cycle)
    (hjob : ∃ j ∈ s.placer.jobs, j.id = (s.g p c a).toNat % 2 ^ 32) : exec (.jwaitTimeout p c) s = .next (s.retireReg p c d 0) := by
  have hany : (s.placer.jobs.any fun j => j.id == ((s.ctx p c).reg a).toNat % 2 ^ 32) = true := any_job_id.2 hjob
  change execJwaitTimeout p c s = _
  rw [execJwaitTimeout, hw]
  refine if_pos ?_
  rw [hany, hruns, hst, hbusy, decide_eq_true hsince, bne_iff_ne.2 hi]
  rfl
end

theorem launchInstruction : Claims.LaunchInstruction := by
  refine ⟨fun s p c d a ha hc hnone => ⟨fun n u hu => ?refused, fun l k u hu => ?request⟩,
    fun s r d hr hat hd hroom hfeat hcode htotal hjobs hkept hid => ?accept⟩
  case refused => rw [exec_launch ha hc hnone, hu]; rfl
  case request =>
    have hexec := exec_launch (d := d) (a := a) ha hc hnone
    rw [hu] at hexec
    refine ⟨_, hexec, congrArg Placer.requests (modCtx_placer ..), ?_, ?_, modCtx_mem ..⟩
    · rw [State.block, ctx_modCtx_self]
    · rw [State.block, ctx_modCtx_self]
  case accept =>
    have hlone : (s.dropRequest r.plaza r.ctx).placer.requests = [] := by
      change s.placer.requests.filter _ = []
      rw [hr, List.filter_cons_of_neg (by simp), List.filter_nil]
    have hplacer : (s.accepted r d s.placer.nextId).placer = { s.placer with requests := [], nextId := s.placer.nextId + 1 } := by
      have hlast : s.placer.nextId ≠ 0x7FFFFFFF := by omega
      rw [State.accepted, placer_retireReg, ← hlone]
      exact congrArg (fun n => { (s.dropRequest r.plaza r.ctx).placer with nextId := n }) (if_neg hlast)
    refine ⟨_, r.job s.placer.nextId s.dev.ns, exec_launchAccept hr hat hd hroom hfeat hcode htotal hjobs hkept, ?_, ?_, mem_retireReg .., ?_,
      rfl, rfl, rfl, rfl, fun n => g_retireReg ..⟩
    · have hjobsKept := congrArg Placer.jobs hplacer
      exact congrArg (· ++ [r.job s.placer.nextId s.dev.ns]) hjobsKept
    · exact congrArg Placer.requests hplacer
    · exact congrArg Placer.nextId hplacer

theorem jwaitInstruction : Claims.JwaitInstruction := by
  intro s p c d a i hc hacq id
  refine ⟨fun ha => ⟨fun hrun => ?runs, fun hno => ?_⟩, fun hw hruns hst hi hbusy hsince hjob =>
    exec_jwaitTimeout hw hruns hst hi hbusy hsince hjob⟩
  case runs => exact (exec_jwait ha hc hacq).trans (if_pos (any_job_id.2 hrun))
  have hended := (exec_jwait (d := d) (i := i) ha hc hacq).trans
    (if_neg (any_job_id.not.2 fun ⟨j, hm, hj⟩ => hno j hm hj))
  refine ⟨fun hforgot => ?unknown, fun x hx hends => ?here, fun x hx hends => ?elsewhere⟩
  case unknown => rw [hended, List.find?_eq_none.2 fun k hk => mt beq_iff_eq.1 (hforgot k hk)]
  case here =>
    rw [hended, hx]
    exact if_pos (List.all_eq_true.2 fun e he => beq_iff_eq.2 (hends e he))
  case elsewhere =>
    have hall : ¬(x.ends.all fun e => e == p) = true := by
      obtain ⟨e, hm, he⟩ := hends
      exact fun h => he (beq_iff_eq.1 (List.all_eq_true.1 h e hm))
    rw [hx] at hended
    dsimp only at hended
    rw [if_neg hall] at hended
    refine ⟨fun hp => hended.trans (if_pos hp), fun hp hid hmod => ?_⟩
    rw [hended, if_neg hp, State.acquireWith, if_neg Nat.one_ne_zero]
    rw [if_neg hid, if_pos (by rw [hmod, beq_self_eq_true, Bool.or_true])]
    rfl

/-- Settles O27: the two instructions and the acceptance of a lone request by what each makes of its operands. -/
theorem launches : Obligations.Launches := ⟨launchInstruction, jwaitInstruction⟩

end Sys2Proof.Machine
end

section
/-! The life of a placement (R145, R187, R231, R232, R243, R246-R248, R260, R338): what is saved, what starts, and what ends. -/
namespace Sys2Proof.Machine

section
variable {s : State} {p : Nat}

theorem place_modJob (s : State) (id p : Nat) (f : Job → Job) : (s.modJob id f).place p = s.place p := rfl
/-- Settling a job changes the Job Placer alone. -/
theorem settleJob_eq (s : State) (id : Nat) : ∃ y, s.settleJob id = { s with placer := y } := by
  rw [State.settleJob]
  split
  · exact ⟨s.placer, rfl⟩
  · split
    · exact ⟨_, rfl⟩
    · exact ⟨s.placer, rfl⟩
theorem mem_settleJob (s : State) (id : Nat) : (s.settleJob id).mem = s.mem := by
  obtain ⟨y, hy⟩ := settleJob_eq s id
  rw [hy]
theorem plaza_settleJob (s : State) (id r : Nat) : (s.settleJob id).plaza r = s.plaza r := by
  obtain ⟨y, hy⟩ := settleJob_eq s id
  rw [hy]
  rfl

/-- A vacated plaza is free, without a placement (R248). -/
theorem res_vacate (s : State) (p : Nat) : ((s.vacate p).plaza p).res = .free := by rw [State.vacate, plaza_modPlaza_self]
theorem place_vacate (s : State) (p : Nat) : (s.vacate p).place p = Place.off := by rw [State.place, State.vacate, plaza_modPlaza_self]

theorem keptTrap_of_none (h : (s.place p).async = []) : s.keptTrap p = none := by
  have hkept : ∀ c, s.takeKept p c = none := fun c => by rw [State.takeKept, State.asyncOf, h]; rfl
  exact List.findSome?_eq_none_iff.2 fun c _ => hkept c
/-- Contexts that no longer wait for other modules: nothing but the requests changes. -/
theorem forgetAll_eq (p : Nat) (cs : List Nat) (s : State) :
    ∃ rs, cs.foldl (fun t c => t.forgetRemotes (.ctx p c)) s = { s with remotes := rs } := by
  induction cs generalizing s with
  | nil => exact ⟨s.remotes, rfl⟩
  | cons c cs ih =>
    obtain ⟨rs, hrs⟩ := ih (s.forgetRemotes (.ctx p c))
    exact ⟨rs, hrs⟩
/-- The save slot's content for the placement on plaza p (R187, R246). -/
def State.saveOf (s : State) (p : Nat) : Saved :=
  let q := s.plaza p
  ⟨{ q.place with
      ctx := q.place.ctx.map fun (x : Nat × Ctx) => (x.1, x.2.saved)
      blocks := q.place.blocks.map Block.saved
      handles := q.place.handles.map fun (x : Nat × Handle) => (x.1, x.2.idle)
      records := q.place.records ++ q.pending.filter (s.ours p), qmoved := false }, q.wb, q.ab, q.cb, q.scratch, p, q.pubBegun⟩
/-- The plaza that the save of its placement leaves, free (R246). -/
def State.savedPlaza (s : State) (p : Nat) (x : Plaza) : Plaza :=
  { x with res := .free, preempt := false, place := Place.off, pending := x.pending.filter fun r => !s.ours p r }
/-- The state after the save of the placement on plaza p, with what requests are left. -/
def State.saveDone (s : State) (p : Nat) (rs : List Remote) : State :=
  ((({ s with remotes := rs } : State).modPlaza p (s.savedPlaza p)).modPlacer fun y =>
    { y with requests := y.requests.filter fun r => !(r.plaza == p && r.ctx != 5) }).modJob (s.place p).job fun j =>
      { j with saves := j.saves.filter (fun w => w.place.index != (s.place p).index) ++ [s.saveOf p] }
theorem exec_saveComplete (hready : s.saveReady p = true) (hlanes : (s.place p).lanes = []) (hasync : (s.place p).async = []) :
    ∃ rs, exec (.saveComplete p) s = .next (s.saveDone p rs) := by
  obtain ⟨rs, hrs⟩ := forgetAll_eq p [0, 1, 2, 3, 4] s
  refine ⟨rs, ?_⟩
  change execSaveComplete p s = _
  rw [execSaveComplete, hready, keptTrap_of_none hasync, hlanes, hrs]
  rfl

/-- The plaza with its scratchpad of a number of segments, for a tenant (R231). -/
def Plaza.prepared (size : Nat) (key : Nat × Nat) (q : Plaza) : Plaza := { q with segments := size, scratch := [], tenant := some key }
/-- Where no tenant change is due, no line stands in the way of the scratchpad and its time is over, a prepared plaza is done at once (R231). -/
theorem prepare_ready {size n : Nat} {key : Nat × Nat} (hlive : s.live p = true) (hkey : ∀ k, (s.plaza p).tenant = some k → k = key)
    (hbegun : (s.plaza p).begun = some n) (htime : n + 16 * size ≤ s.dev.cycle)
    (hlines : ∀ y ∈ (s.plaza p).l1v, y.way < size → y.way < (s.plaza p).segments) (hnotices : s.noticesFrom p = false) :
    s.prepare p size key = (true, s.modPlaza p (Plaza.prepared size key)) := by
  have hchange : ((s.plaza p).tenant.any fun k => k != key) = false := by
    cases ht : (s.plaza p).tenant with
    | none => rfl
    | some k => simpa using hkey k ht
  have hstay : ∀ y ∈ (s.plaza p).l1v, ¬(s.plaza p).leaving size y = true := fun y hy hl => by
    rw [Plaza.leaving, Bool.and_eq_true, decide_eq_true_iff, decide_eq_true_iff] at hl
    exact absurd (hlines y hy hl.2) (Nat.not_lt.2 hl.1)
  have hleave : s.leaveL1 p size key = (true, s) := by
    rw [State.leaveL1, hchange]
    simp only [Bool.false_eq_true, if_false, Bool.false_and, if_true, List.filter_eq_nil_iff.2 hstay, List.foldl_nil, List.any_eq_false.2 hstay,
      hnotices, Bool.not_false, Bool.and_self]
  rw [State.prepare]
  simp only [hbegun, hlive, hleave, Option.isNone_some, Bool.false_and, Bool.false_eq_true, if_false, Bool.not_true, Bool.or_self, Bool.false_or,
    Option.getD_some, decide_eq_true_iff]
  exact if_neg (Nat.not_lt.2 htime)

variable {j : Job}

/-- PLACEMENT_START makes its placement resident once the plaza is prepared and the launch's release is acquired. -/
theorem exec_placementStart {s1 s2 : State} (hj : s.job (s.place p).job = some j) (hres : (s.plaza p).res = .starting)
    (hprep : s.prepare p (j.launch.scratch / 8192) (s.keyOf j.launch.pasid) = (true, s1))
    (hacq : s1.acquirePlaza p j.launch.plaza j.launch.seq = (true, s2)) :
    exec (.placementStart p) s = .next (s2.modPlaza p fun q => { q with res := .resident }) := by
  change execPlacementStart p s = _
  rw [execPlacementStart, hj]
  simp only [hres, hprep, hacq]
  rfl
theorem exec_placementStart_waits {s1 : State} (hj : s.job (s.place p).job = some j) (hres : (s.plaza p).res = .starting)
    (hprep : s.prepare p (j.launch.scratch / 8192) (s.keyOf j.launch.pasid) = (false, s1)) : exec (.placementStart p) s = .next s1 := by
  change execPlacementStart p s = _
  rw [execPlacementStart, hj]
  simp only [hres, hprep]
  rfl

/-- The placement that PLACEMENT_RESUME makes of a saved one: its contexts and CSRs are those on the plaza already (R69, R247). -/
def Saved.resumed (v : Saved) (now : Place) (cycle : Nat) : Place :=
  { v.place with
    ctx := now.ctx, arrivals := now.arrivals, faultq := now.faultq, viewflags := now.viewflags
    handles := v.place.handles.map fun (x : Nat × Handle) => (x.1, x.2.resume)
    blocks := v.place.blocks.map (fun b => { b with lane := none }), lanes := [], pipes := [], records := [], refused := []
    dispatchAt := cycle }
/-- Nothing pending, nothing opens. -/
theorem openNext_of_empty (h : (s.plaza p).pending = []) : s.openNext p = s := by
  have hnone : s.nextRecord p = none := by rw [State.nextRecord, h]; rfl
  rw [State.openNext, hnone]
  split
  · contradiction
  · rfl
theorem redeliver_of_empty (h : (s.plaza p).pending = []) : s.redeliver p [] = s.modPlaza p fun q => { q with pending := [] } := by
  rw [State.redeliver, openNext_of_empty (by rw [plaza_modPlaza_self, h]; rfl)]
  exact modPlaza_congr (by rw [h]; rfl)
/-- The plaza with the placement saved in v resident again, its buffers with it (R247). -/
def Saved.resumedPlaza (v : Saved) (cycle : Nat) (q : Plaza) : Plaza :=
  { q with res := .resident, place := v.resumed q.place cycle, wb := v.wb, ab := v.ab, cb := v.cb, scratch := v.scratch }
/-- The state in which PLACEMENT_RESUME has made the placement saved in v resident, and its job before it settles. -/
def State.resumeDone (s : State) (p : Nat) (id : Nat) (v : Saved) (cycle : Nat) : State :=
  (s.modPlaza p (v.resumedPlaza cycle)).modJob id fun y => { y with saves := y.saves.filter fun w => w.place.index != v.place.index }
theorem plaza_resumeDone (s : State) (p id : Nat) (v : Saved) (cycle : Nat) :
    (s.resumeDone p id v cycle).plaza p = v.resumedPlaza cycle (s.plaza p) := plaza_modPlaza_self s p (v.resumedPlaza cycle)
theorem exec_placementResume {v : Saved} {s1 : State} (hj : s.job (s.place p).job = some j) (hres : (s.plaza p).res = .resuming)
    (hv : j.saves.find? (fun w => w.place.index == (s.place p).index) = some v)
    (hprep : s.prepare p (v.place.scrsize / 8192) (s.keyOf v.place.pasid) = (true, s1)) (hhere : v.plaza = p)
    (hblocks : v.place.blocks = []) (hrecords : v.place.records = []) (hrefused : v.place.refused = []) :
    exec (.placementResume p) s = .next (((s1.resumeDone p j.id v s.dev.cycle).redeliver p []).settleJob j.id) := by
  have hacq : s1.acquirePlaza p v.plaza v.seq = (true, s1) := if_pos hhere
  have hreseat : ∀ t : State, t.reseat p v.place.lanes v.place.blocks = t := fun t => by rw [hblocks]; rfl
  change execPlacementResume p s = _
  rw [execPlacementResume, hj]
  simp only [hres, hv, hprep, hacq, hreseat, hrecords, hrefused]
  rfl

/-- The job once placement q has ended on plaza p (R145, R302). -/
def Job.withEnd (j : Job) (p : Nat) (q : Place) : Job :=
  { j with left := j.left ++ q.left, ended := j.ended + 1, ends := j.ends ++ [p], halt := firstHalt j.halt q.haltMark }
/-- The end of a placement that is over: of the last one the job's, of another one once its plaza has published (R145, R232). -/
theorem exec_placementEnd (hj : s.job (s.place p).job = some j) (hlanes : (s.place p).lanes = []) (hres : (s.plaza p).res = .resident)
    (hover : (s.place p).over = true) : exec (.placementEnd p) s =
      if j.ended + 1 = j.total then
        match s.writeCompletion p 9 j.launch.pasid j.launch.donewa (completionValue (j.withEnd p (s.place p)).halt) with
        | .ok written t => .next ((t.endJob (j.withEnd p (s.place p)) p (completionValue (j.withEnd p (s.place p)).halt) written).vacate p)
        | .wait t => .next t
        | .fail _ _ _ t => .next t
      else match (s.plaza p).await with
        | some a =>
          if a.done then .next (((s.vacate p).modJob j.id fun _ => j.withEnd p (s.place p)).settleJob j.id)
          else if a.failed then .next (s.modPlaza p fun x => { x with await := none })
          else .next s
        | none => .next ((s.modPlaza p fun x =>
            { x with await := some ⟨0, s.plazaId p, (s.plaza p).pubBegun, true, false, false⟩ }).sendPublish (s.plazaId p) (s.plaza p).pubBegun
              (.ctx p 9)) := by
  change execPlacementEnd p s = _
  rw [execPlacementEnd]
  simp only [hj, hres, hover, hlanes]
  rfl
theorem exec_placementEnd_not_over (hj : s.job (s.place p).job = some j) (hover : (s.place p).over = false) :
    exec (.placementEnd p) s = .next s := by
  change execPlacementEnd p s = _
  rw [execPlacementEnd]
  simp only [hj, hover, Bool.not_false, Bool.or_true, if_true]

/-- The end of a job changes no byte of memory and takes the job away (R145). -/
theorem endJob_keeps (s : State) (j : Job) (p : Nat) (value : Word) (written : Bool) : (s.endJob j p value written).mem = s.mem
    ∧ (s.endJob j p value written).placer.jobs = s.placer.jobs.filter fun x => x.id != j.id := by
  rw [State.endJob]
  split <;> exact ⟨rfl, rfl⟩
end

theorem saveCompletes : Claims.SaveCompletes := by
  intro s p
  refine ⟨fun hno => ?_, fun hready hlanes hasync => ?_⟩
  · change execSaveComplete p s = _
    rw [execSaveComplete, hno]
    rfl
  · obtain ⟨rs, hexec⟩ := exec_saveComplete hready hlanes hasync
    refine ⟨_, s.saveOf p, hexec, rfl, ?_⟩
    have hplaza : (s.saveDone p rs).plaza p = s.savedPlaza p (s.plaza p) :=
      plaza_modPlaza_self { s with remotes := rs } p (s.savedPlaza p)
    rw [State.place, hplaza]
    exact ⟨rfl, rfl, rfl, fun r hr => plaza_modPlaza_ne { s with remotes := rs } (s.savedPlaza p) hr, rfl, rfl, rfl, rfl, rfl, rfl, rfl, rfl, rfl,
      rfl, rfl, rfl, rfl, rfl⟩

section
variable {l : Launch} {job idx c : Nat}

/-- The context that a placement starts with under number c (R243). -/
def Launch.startCtx (l : Launch) (job idx c : Nat) : Ctx :=
  if 3 ≤ c then Ctx.off .dormant else match l.roles.getD c none with
    | some e => l.roleCtx idx job e
    | none => Ctx.off .ended
/-- A table of the values of a function under the numbers of a list, read at one of them. -/
theorem tabGet_map_of_mem {α : Type} {d : α} {f : Nat → α} {k : Nat} {ks : List Nat} (hk : k ∈ ks) :
    tabGet d (ks.map fun n => (n, f n)) k = f k := by
  induction ks with
  | nil => exact absurd hk List.not_mem_nil
  | cons n ks ih =>
    rw [List.map_cons, tabGet]
    split
    case isTrue hn => rw [hn]
    case isFalse hn => exact ih ((List.mem_cons.1 hk).resolve_left (Ne.symm hn))
theorem ctx_place (hc : c < 5) : tabGet (Ctx.off .ended) (l.place job idx).ctx c = l.startCtx job idx c :=
  tabGet_map_of_mem (f := l.startCtx job idx) (mem_jobCtx hc)
theorem startCtx_role {e : Word} (hc : c < 3) (he : l.roles.getD c none = some e) : l.startCtx job idx c = l.roleCtx idx job e := by
  rw [Launch.startCtx, if_neg (by omega), he]

/-- A fold that adds one element at each step. -/
theorem length_foldr_fst {f : Nat → List Nat × Nat → List Nat × Nat} (hf : ∀ i x, (f i x).1.length = x.1.length + 1) (is : List Nat)
    (b : List Nat × Nat) : (is.foldr f b).1.length = b.1.length + is.length := by
  induction is with
  | nil => rfl
  | cons i is ih => rw [List.foldr_cons, hf, ih, List.length_cons]; rfl
theorem length_coords (l : Launch) (idx : Nat) : (l.coords idx).length = 6 :=
  length_foldr_fst (fun i x => by dsimp only; split <;> rfl) ..
/-- The start values of a role context's registers (R243): its coordinates in g1 to g6, then ARGVA, its index and its job; zeros elsewhere. -/
theorem reg_roleCtx (e : Word) (n : Nat) : (l.roleCtx idx job e).reg n =
    if 9 = n then BitVec.ofNat 64 job else if 8 = n then BitVec.ofNat 64 idx else if 7 = n then l.argva
    else if 1 ≤ n ∧ n ≤ 6 then BitVec.ofNat 64 ((l.coords idx).getD (n - 1) 0) else 0 := by
  obtain ⟨a, b, c, d, f, g, hco⟩ : ∃ a b c d f g, l.coords idx = [a, b, c, d, f, g] := by
    match hco : l.coords idx, length_coords l idx with
    | [a, b, c, d, f, g], _ => exact ⟨a, b, c, d, f, g, rfl⟩
  have hg : (l.roleCtx idx job e).reg n = if n = 0 then 0 else tabGet 0 (((List.range 9).zip
      (([a, b, c, d, f, g].map fun v => BitVec.ofNat 64 v) ++ [l.argva, BitVec.ofNat 64 idx, BitVec.ofNat 64 job])).foldl
        (fun t x => tabPut 0 t (x.1 + 1) x.2) []) n := by
    rw [Ctx.reg, Launch.roleCtx, hco]
  rw [hg, hco, show List.range 9 = [0, 1, 2, 3, 4, 5, 6, 7, 8] from rfl]
  simp only [List.map_cons, List.map_nil, List.cons_append, List.nil_append, List.zip_cons_cons, List.zip_nil_right, List.foldl_cons, List.foldl_nil,
    tabGet_tabPut]
  obtain hn | hn : n < 10 ∨ 10 ≤ n := by omega
  · interval_cases n <;> rfl
  · repeat rw [if_neg (by omega)]
    rfl

/-- A table whose entries change under their numbers, read at one of them. -/
theorem tabGet_map_keys {α : Type} {d : α} {t : Tab α} {k : Nat} {f : Nat × α → Nat × α} (hk : k ∈ t.map Prod.fst)
    (hf : ∀ x, (f x).1 = x.1) :
    tabGet d (t.map f) k = (f (k, tabGet d t k)).2 := by
  induction t with
  | nil => exact absurd hk List.not_mem_nil
  | cons x t ih =>
    rw [List.map_cons, tabGet, hf]
    by_cases hx : x.1 = k
    · rw [if_pos hx, tabGet, if_pos hx, ← hx]
    · rw [if_neg hx, tabGet, if_neg hx]
      exact ih ((List.mem_cons.1 hk).resolve_left (Ne.symm hx))
/-- A context of a placement that starts again (R260): where it had retired a CKPT, at the word after that site with the checkpoint word in g10. -/
theorem ctx_restartPlace {r : Restart} {i : Nat} {site : Word} (hc : c < 5) (hr : r.sites.getD c none = some i) (hsite : l.sites[i]? = some site) :
    tabGet (Ctx.off .ended) (l.restartPlace job r).ctx c =
      { l.startCtx job r.index c with pc := site + 4, restart := some (site + 4), g := tabPut 0 (l.startCtx job r.index c).g 10 r.word } := by
  have hkeys : (l.place job r.index).ctx.map Prod.fst = jobCtx := rfl
  have hctx := tabGet_map_keys (d := Ctx.off .ended) (t := (l.place job r.index).ctx) (k := c) (by rw [hkeys]; exact mem_jobCtx hc)
    (f := fun x => match (r.sites.getD x.1 none).bind (fun i => l.sites[i]?) with
      | some site => (x.1, { x.2 with pc := site + 4, restart := some (site + 4), g := tabPut 0 x.2.g 10 r.word })
      | none => x) (fun x => by dsimp only; split <;> rfl)
  rw [ctx_place hc] at hctx
  refine hctx.trans ?_
  dsimp only
  rw [hr, Option.bind_some, hsite]
end

theorem placementStarts : Claims.PlacementStarts := by
  refine ⟨fun s p j hj => ⟨fun hres hready => ?start, fun s1 s2 hres hprep hacq => ?acquired,
    fun s1 hres hprep => exec_placementStart_waits hj hres hprep,
    fun v hres hv hready hblocks hrecords hrefused hpending => ?resume⟩,
    fun s j q idx => ⟨fun hnew => ?assigned, fun v hv => ?reassigned⟩,
    fun l job r c i site hc hr hsite => ?restart, fun l job idx c => ⟨fun e hc he => ?role, fun hc hnone => ?ended, fun hc => ?dormant⟩⟩
  case start =>
    obtain ⟨hlive, hkey, ⟨n, hbegun, htime⟩, hlines, hnotices, hhere⟩ := hready
    refine ⟨_, exec_placementStart hj hres (prepare_ready hlive hkey hbegun htime hlines hnotices) (if_pos hhere), rfl, ?_⟩
    rw [State.place, modPlaza_modPlaza, plaza_modPlaza_self]
    exact ⟨rfl, rfl, rfl, rfl⟩
  case acquired =>
    refine ⟨_, exec_placementStart hj hres hprep hacq, rfl, ?_⟩
    rw [State.place, plaza_modPlaza_self]
    exact ⟨rfl, rfl⟩
  case resume =>
    obtain ⟨hlive, hkey, ⟨n, hbegun, htime⟩, hlines, hnotices, hhere⟩ := hready
    have hexec := exec_placementResume hj hres hv (prepare_ready hlive hkey hbegun htime hlines hnotices) hhere hblocks hrecords hrefused
    have hplaza := plaza_resumeDone (s.modPlaza p (Plaza.prepared (v.place.scrsize / 8192) (s.keyOf v.place.pasid))) p j.id v s.dev.cycle
    rw [plaza_modPlaza_self] at hplaza
    rw [redeliver_of_empty (by rw [hplaza]; exact hpending)] at hexec
    refine ⟨_, hexec, mem_settleJob .., ?_⟩
    rw [State.place, plaza_settleJob, plaza_modPlaza_self, hplaza]
    exact ⟨rfl, rfl, rfl, rfl, rfl, rfl, rfl, rfl, rfl, rfl, rfl, rfl, rfl, rfl⟩
  case assigned =>
    have hagain : (j.restarts.find? fun r => r.index == idx) = none := List.find?_eq_none.2 fun r hr => mt beq_iff_eq.1 (hnew r hr)
    rw [State.assign, place_modJob, State.place, plaza_modPlaza_self, hagain]
    rfl
  case reassigned =>
    have hplace : ((s.assign j q idx true).place q) = { v.place with
        blocks := [], alley := [], lanes := [], pipes := [], freeze := none, copyQ := [], linkQ := [], pendingN := none
        active := none, async := [], records := [], refused := [] } := by
      rw [State.assign, place_modJob, State.place, plaza_modPlaza_self, hv]
      rfl
    rw [hplace]
    exact ⟨rfl, rfl⟩
  case restart =>
    intro q x
    have hx : x = _ := ctx_restartPlace (by omega) hr hsite
    rw [hx]
    refine ⟨rfl, ?_, rfl, rfl, rfl, rfl, rfl⟩
    exact (if_neg (by decide)).trans (tabGet_tabPut_self ..)
  case role =>
    rw [ctx_place (by omega), startCtx_role hc he]
    simp only [reg_roleCtx]
    refine ⟨rfl, rfl, rfl, rfl, fun i hi => ?_, rfl, rfl, rfl, fun n hn => ?_⟩
    · repeat rw [if_neg (by omega)]
      exact if_pos ⟨by omega, by omega⟩
    · repeat rw [if_neg (by omega)]
  case ended =>
    rw [ctx_place (by omega), Launch.startCtx, if_neg (by omega), hnone]
    rfl
  case dormant =>
    rw [ctx_place (by omega), Launch.startCtx, if_pos (by omega)]
    rfl

theorem placementEnds : Claims.PlacementEnds := by
  refine ⟨fun s p j hj hlanes => ⟨fun hover => exec_placementEnd_not_over hj hover, fun hres hover => ?_⟩, by decide, fun a b st => ?value⟩
  · have hexec := exec_placementEnd hj hlanes hres hover
    have hlast (written : Bool) (t : State) (htotal : j.ended + 1 = j.total)
        (hw : s.writeCompletion p 9 j.launch.pasid j.launch.donewa (completionValue (j.withEnd p (s.place p)).halt) = .ok written t) :
        ∃ u, exec (.placementEnd p) s = .next u ∧ u.mem = t.mem ∧ (u.plaza p).res = .free ∧ u.place p = Place.off
          ∧ u.placer.jobs = t.placer.jobs.filter fun x => x.id != j.id := by
      obtain ⟨hmem, hjobs⟩ := endJob_keeps t (j.withEnd p (s.place p)) p (completionValue (j.withEnd p (s.place p)).halt) written
      rw [if_pos htotal, hw] at hexec
      exact ⟨_, hexec, hmem, res_vacate .., place_vacate .., hjobs⟩
    refine ⟨fun t htotal hw => ?_, hlast, fun htotal hnone => hlast false s htotal (if_pos hnone), fun hmore hawait => ?_,
      fun a hmore ha hdone => ?_⟩
    · have hw' : s.writeCompletion p 9 j.launch.pasid j.launch.donewa (completionValue (j.withEnd p (s.place p)).halt) = .wait t := hw
      rw [hexec, if_pos htotal, hw']
    · rw [hexec, if_neg hmore, hawait]
    · rw [if_neg hmore, ha] at hexec
      refine ⟨_, hexec.trans (if_pos hdone), mem_settleJob .., ?_, ?_⟩
      · rw [plaza_settleJob]
        exact res_vacate s p
      · rw [State.place, plaza_settleJob]
        exact place_vacate s p
  case value =>
    have hst := st.isLt
    rw [completionValue, BitVec.toNat_ofNat]
    dsimp only
    omega

/-- Settles O48: the save by what its slot holds, the start and resume by the prepared plaza, the end by the branch that its job is in. -/
theorem placementLife : Obligations.PlacementLife := ⟨saveCompletes, placementStarts, placementEnds⟩

end Sys2Proof.Machine
end

section
/-! Schedules (R129, R304-R306): LSCHED and LGO at the head of the link queue, and the steps, pauses, data and end of a schedule. -/
namespace Sys2Proof.Machine

/-! ### Slots -/

section
variable {s t : State} {d n p : Nat}

theorem slot_modSlot (s : State) (d n : Nat) (f : Slot → Slot) : (s.modSlot d n f).slot d n = f (s.slot d n) := tabGet_tabSet_self ..
theorem slot_of_slots (h : t.slots = s.slots) (d n : Nat) : t.slot d n = s.slot d n := by rw [State.slot, State.slot, h]

/-- A command's change, the release of its pins and of what a step has read leave memory and slots. -/
theorem unpin_keeps (s : State) (p : Nat) (c : Cmd) : (s.unpin p c).mem = s.mem ∧ (s.unpin p c).slots = s.slots :=
  List.foldlRecOn (motive := fun t : State => t.mem = s.mem ∧ t.slots = s.slots) c.pinned _ ⟨rfl, rfl⟩ fun _ ht _ _ => ht
theorem unpinSlot_keeps (s : State) (x : Slot) : (s.unpinSlot x).mem = s.mem ∧ (s.unpinSlot x).slots = s.slots := by
  rw [State.unpinSlot]
  split
  · exact ⟨rfl, rfl⟩
  · split
    · exact unpin_keeps ..
    · exact ⟨rfl, rfl⟩
theorem dropHeld_keeps (s : State) (x : Slot) : (s.dropHeld x).mem = s.mem ∧ (s.dropHeld x).slots = s.slots := by
  rw [State.dropHeld]
  split <;> exact ⟨rfl, rfl⟩
theorem endStep_keeps (s : State) (x : Slot) :
    ((s.unpinSlot x).dropHeld x).mem = s.mem ∧ ((s.unpinSlot x).dropHeld x).slots = s.slots := by
  obtain ⟨hmem, hslots⟩ := unpinSlot_keeps s x
  obtain ⟨hmem', hslots'⟩ := dropHeld_keeps (s.unpinSlot x) x
  exact ⟨hmem'.trans hmem, hslots'.trans hslots⟩
theorem flood_of_no_ports {k : Nat} (h : (s.slot d n).ports = []) : s.flood d n k = s := by rw [State.flood, h]; rfl
end

/-! ### What the link engine reads -/

section
variable {s : State} {p : Nat}

theorem leNat_leBytes (n v : Nat) : leNat (leBytes n v) = v % 256 ^ n := by
  induction n generalizing v with
  | zero => rw [Nat.pow_zero, Nat.mod_one]; rfl
  | succ n ih => exact (congrArg _ (congrArg _ (ih _))).trans (by
    rw [BitVec.toNat_ofNat, show 256 ^ (n + 1) = 256 * 256 ^ n from Nat.pow_succ', Nat.mod_mul])
/-- A step of a schedule lies in one line (R304). -/
theorem linePieces_step {a : Nat} (h : a % 32 = 0) : linePieces a 32 = [(a, 32)] := by
  have hcount : (a % 128 + 32 + 127) / 128 = 1 := by omega
  have hstart : Nat.max a (a / 128 * 128) = a := Nat.max_eq_left (by omega)
  have hend : Nat.min (a + 32) ((a / 128 + 1) * 128) = a + 32 := Nat.min_eq_left (by omega)
  rw [linePieces, hcount]
  simp only [List.range_one, List.map_cons, List.map_nil, Nat.add_zero, hstart, hend, Nat.add_sub_cancel_left]
theorem gather_nil (s : State) (who : Requester) : s.gather who [] = .ok [] s := by
  rw [State.gather]
  simp
theorem pathDown_line (s : State) {key : Nat} (h : key < 2 ^ 45) : s.pathDown (key / 128 * 128) = s.pathDown key := by
  have hbase : Config.tierBase ≤ key / 128 * 128 ↔ Config.tierBase ≤ key := by rw [Config.tierBase]; omega
  have hport (hb : Config.tierBase ≤ key) : tierPort (key / 128 * 128) = tierPort key := by
    rw [tierPort, tierPort, Config.tierSpan]
    rw [Config.tierBase] at hb ⊢
    omega
  rw [State.pathDown, State.pathDown, keyModule, keyModule, if_pos h, if_pos (by omega)]
  dsimp only
  by_cases hb : Config.tierBase ≤ key
  · rw [decide_eq_decide.2 hbase, hport hb]
  · rw [decide_eq_false hb, decide_eq_false (hbase.not.2 hb), Bool.false_and, Bool.false_and]
/-- Bytes at a home that no plaza holds anything of are read as they stand there (R332). -/
theorem engineVa_home {a key n : Nat} {priv : Bool} (hva : s.checkVa p (s.place p).pasid (BitVec.ofNat 64 a) 0 .read = .ok (key, priv) s)
    (h : s.homeOnly p key n) : s.engineVa p [(a, n)] = .ok (leBytes n (memRead s.mem key n)) s := by
  obtain ⟨hnear, hline, hpath, hupd, hpoison, hpriv, hclear⟩ := h
  have hkeys : s.engineKeys p [(a, n)] = .ok [(a, key, n)] s := by rw [State.engineKeys, hva]; rfl
  have hflush : (s.writeBack p (key / 128)).mergeOwn p (key / 128) = s := by
    rw [State.writeBack, writeBackIn_of_no_line (hclear false), writeBackIn_of_no_line (hclear true), mergeOwn_of_no_update (hupd p)]
  have hfar : farLines [(key, n)] = [] := by rw [farLines, List.filter_cons_of_neg (by rw [keyRemote_of_near hnear]; decide)]; rfl
  have hline : s.fetchLine (engineReq p 8) (key / 128) = .ok (s.homeRow (key / 128), s.homePoison (key / 128)) s :=
    fetchLine_home (by omega) ((pathDown_line s hnear).trans hpath) hupd
  rw [State.engineVa, hkeys]
  simp only [Res.andThen, List.foldl_cons, List.foldl_nil, hflush, List.map_cons, List.map_nil, hfar, gather_nil, State.takeVa, State.gathered,
    List.find?_nil, hline, takeBytes_home ‹_› hpoison, Res.at_, List.append_nil]
end

/-! ### LSCHED and LGO at the head of the link queue -/

section
variable {s t : State} {p : Nat} {c : Cmd}

theorem exec_scheduleLoad (hserves : s.serves p = true) (hc : (s.place p).linkHead = some c) (hready : c.ready = true) (hmajor : c.major = majLsched) :
    exec (.scheduleLoad p) s = .next (if c.cancelled = true then s.endCmd p c false else s.loadSchedule p c) := by
  change execScheduleLoad p s = _
  rw [execScheduleLoad, hserves, hc]
  dsimp only
  rw [hready, hmajor]
  exact (apply_ite Host.Outcome.next ..).symm
theorem exec_scheduleStart (hserves : s.serves p = true) (hc : (s.place p).linkHead = some c) (hready : c.ready = true) (hmajor : c.major = majLgo) :
    exec (.scheduleStart p) s = .next (if c.cancelled = true then s.endCmd p c false else s.startSchedule p c) := by
  change execScheduleStart p s = _
  rw [execScheduleStart, hserves, hc]
  dsimp only
  rw [hready, hmajor]
  exact (apply_ite Host.Outcome.next ..).symm

/-- The doublewords of the n steps that stand in a list of bytes (R304). -/
def stepWords (bs : List Byte) (n : Nat) : List Nat := (List.range n).map fun i => leNat ((bs.drop (32 * i)).take 32)
/-- The slot that LSCHED loads from the steps' words (R304). -/
def Slot.loaded (c : Cmd) (p : Nat) (vs : List Nat) (x : Slot) : Slot :=
  { x with job := some c.job, index := c.index, plaza := p, steps := vs.map stepOf, period := bits c.opb.toNat 47 32, next := 0 }
theorem loadSchedule_of_good {bs : List Byte} {m : Nat} (hcount : bits c.opb.toNat 15 0 = m)
    (hidle : (s.slot (dieOf p) c.arg).running = false)
    (hjob : (s.slot (dieOf p) c.arg).job = none ∨ (s.slot (dieOf p) c.arg).job = some c.job) (hlow : 1 ≤ m) (hhigh : m ≤ 4096)
    (hperiod : bits c.opb.toNat 47 32 ≠ 0) (halign : c.opa.toNat % 32 = 0)
    (hread : s.engineVa p (linePieces c.opa.toNat (32 * m)) = .ok bs t) (hok : (stepWords bs m).all stepOk = true)
    (hrise : stepsRise ((stepWords bs m).map stepOf) = true)
    (hfmt : ∀ x ∈ (stepWords bs m).map stepOf, ∀ f ∈ [x.sfmt, x.wfmt, x.dfmt], t.fmtOn p f = true) :
    s.loadSchedule p c = (t.modSlot (dieOf p) c.arg (Slot.loaded c p (stepWords bs m))).endCmd p c true := by
  have hmine : ((s.slot (dieOf p) c.arg).job.isSome && (s.slot (dieOf p) c.arg).job != some c.job) = false := by
    rcases hjob with h | h
    · rw [h]; rfl
    · rw [h, bne_self_eq_false, Bool.and_false]
  have hsize : (decide (m = 0) || decide (4096 < m) || decide (bits c.opb.toNat 47 32 = 0)) = false := by
    rw [decide_eq_false (show m ≠ 0 by omega), decide_eq_false (Nat.not_lt.2 hhigh), decide_eq_false hperiod]
    rfl
  have hformats : (((stepWords bs m).map stepOf).any fun x => [x.sfmt, x.wfmt, x.dfmt].any fun f => !t.fmtOn p f) = false :=
    List.any_eq_false.2 fun x hx h => by
      obtain ⟨f, hf, hoff⟩ := List.any_eq_true.1 h
      rw [hfmt x hx f hf] at hoff
      exact absurd hoff (by decide)
  have hgood : (!((stepWords bs m).all stepOk) || !stepsRise ((stepWords bs m).map stepOf)
      || ((stepWords bs m).map stepOf).any fun x => [x.sfmt, x.wfmt, x.dfmt].any fun f => !t.fmtOn p f) = false := by
    rw [hok, hrise, hformats]
    rfl
  rw [State.loadSchedule, hcount]
  dsimp only
  rw [hidle, if_neg Bool.false_ne_true, hmine, if_neg Bool.false_ne_true, hsize, if_neg Bool.false_ne_true, halign, if_neg (by decide), hread]
  dsimp only
  exact if_neg (Bool.eq_false_iff.1 hgood)

theorem startSchedule_of_good {q : Place} (hidle : (s.slot (dieOf p) c.arg).running = false) (hjob : (s.slot (dieOf p) c.arg).job = some c.job)
    (hlocked : s.dev.locked = true) (htime : s.dev.ns ≤ c.opa.toNat)
    (hplace : s.findPlace c.job (s.slot (dieOf p) c.arg).index = some (some p, q)) (hserves : s.serves p = true) :
    s.startSchedule p c = (s.modCmd p c.id fun x => { x with started := true }).modSlot (dieOf p) c.arg fun x =>
      { x with running := true, start := c.opa.toNat, next := 0, plaza := p, cmd := some (p, c.id), result := none, fail := none } := by
  rw [State.startSchedule]
  dsimp only
  rw [hidle, hjob, if_neg Bool.false_ne_true, if_neg (by rw [Option.isNone_some]; decide), if_neg (by rw [bne_self_eq_false]; decide),
    hlocked, if_neg (by decide), if_neg (Nat.not_lt.2 htime), hplace]
  dsimp only
  rw [hserves, if_neg (by decide), if_pos rfl]
end

theorem scheduleCommands : Claims.ScheduleCommands := by
  intro s p c hserves hc hready sl
  have hload := fun hmajor => exec_scheduleLoad (s := s) hserves hc hready hmajor
  have hstart := fun hmajor => exec_scheduleStart (s := s) hserves hc hready hmajor
  have hloaded := fun hgo hmajor => (hload hmajor).trans (congrArg _ (if_neg (Bool.eq_false_iff.1 hgo)))
  refine ⟨fun hcancel hmajor => (hload hmajor).trans (congrArg _ (if_pos hcancel)),
    fun hcancel hmajor => (hstart hmajor).trans (congrArg _ (if_pos hcancel)),
    fun hgo hmajor hidle hjob hlow hhigh hperiod halign bs t hread hok hrise hfmt => ?steps,
    fun key priv hgo hmajor hidle hjob hone hperiod halign hva hhome hok hfmt => ?step,
    fun y hgo hmajor hidle hjob hlocked htime hplace => ?go⟩
  case steps =>
    exact (hloaded hgo hmajor).trans (congrArg _ (loadSchedule_of_good rfl hidle hjob hlow hhigh hperiod halign hread hok hrise hfmt))
  case step =>
    have hword : stepWords (leBytes 32 (memRead s.mem key 32)) 1 = [memRead s.mem key 32] := by
      have htake : ((leBytes 32 (memRead s.mem key 32)).drop (32 * 0)).take 32 = leBytes 32 (memRead s.mem key 32) :=
        List.take_of_length_le (Nat.le_of_eq (length_leBytes ..))
      rw [stepWords, List.range_one, List.map_cons, List.map_nil, htake, leNat_leBytes]
      exact congrArg (fun v => [v]) (Nat.mod_eq_of_lt (memRead_lt ..))
    have hread : s.engineVa p (linePieces c.opa.toNat (32 * 1)) = .ok (leBytes 32 (memRead s.mem key 32)) s := by
      rw [Nat.mul_one, linePieces_step halign]
      exact engineVa_home (by rw [BitVec.ofNat_toNat, BitVec.setWidth_eq]; exact hva) hhome
    have hload := loadSchedule_of_good hone hidle hjob (Nat.le_refl 1) (by omega) hperiod halign hread (by rw [hword]; simpa using hok)
      (by rw [hword]; rfl) (by rw [hword]; simpa using hfmt)
    rw [hword] at hload
    exact (hloaded hgo hmajor).trans (congrArg _ hload)
  case go =>
    refine ⟨_, (hstart hmajor).trans (congrArg _ ((if_neg (Bool.eq_false_iff.1 hgo)).trans
      (startSchedule_of_good hidle hjob hlocked htime hplace hserves))), rfl, ?_⟩
    exact slot_modSlot ..

/-! ### The run of a schedule -/

section
variable {s t : State} {d n : Nat}

/-- What a step that has run leaves of its slot: the next step's turn (R305). -/
def Slot.stepped (x : Slot) : Slot := { x with next := x.next + 1, result := none, data := x.data.filter fun e => e.1 != x.next }
/-- A step that is due and ready and has its effect is done, and the slot goes on to the next (R305). -/
theorem exec_scheduleStep (hdue : s.stepDue (s.slot d n) = true) (hfail : s.slotFailure (s.slot d n) = none) (hready : s.stepReady (s.slot d n) = true)
    (heffect : s.stepEffect d n = .ok () t) :
    ∃ u, exec (.scheduleStep d n) s = .next u ∧ u.slot d n = (t.slot d n).stepped ∧ u.mem = t.mem := by
  obtain ⟨hmem, hslots⟩ := endStep_keeps t (s.slot d n)
  refine ⟨((t.unpinSlot (s.slot d n)).dropHeld (s.slot d n)).modSlot d n Slot.stepped, ?_, ?_, hmem⟩
  · change execScheduleStep d n s = _
    rw [execScheduleStep, hdue, hfail, hready, heffect]
    rfl
  · rw [slot_modSlot, slot_of_slots hslots]

/-- The step that runs next in slot n of die d. -/
def Slot.step (x : Slot) : SchedStep := x.steps.getD x.next noStep
/-- A token's step has no effect but its turn, where the token has not failed (R305). -/
theorem stepEffect_token (hop : (s.slot d n).step.op = 4)
    (htok : (s.token (s.slot d n).plaza (s.slot d n).step.tok).st ≠ .failed) :
    ∃ fresh, s.stepEffect d n = .ok () { s with fresh := fresh } := by
  rw [Slot.step] at hop htok
  have hraw : ((s.slot d n).steps.getD (s.slot d n).next noStep).rawMix = false := by rw [SchedStep.rawMix, hop]; rfl
  have hbook : ∀ b : Bool, ∃ book fresh, (if b = true then s.freeBook else ((fun _ => 0 : Book), s)) =
      (book, { s with fresh := fresh }) := fun b => by
    cases b
    · exact ⟨_, s.fresh, rfl⟩
    · exact ⟨_, s.fresh + 512, rfl⟩
  rw [State.stepEffect]
  dsimp only
  obtain ⟨book, fresh, hfresh⟩ := hbook ([((s.slot d n).steps.getD (s.slot d n).next noStep).sfmt,
    ((s.slot d n).steps.getD (s.slot d n).next noStep).wfmt, ((s.slot d n).steps.getD (s.slot d n).next noStep).dfmt].contains 0x13)
  rw [hfresh, hraw, hop, if_neg Bool.false_ne_true]
  repeat rw [if_neg (by decide)]
  exact ⟨fresh, if_neg htok⟩

theorem exec_pause_raised {k : Nat} (hdue : s.stepDue (s.slot d n) = true) (hready : s.stepReady (s.slot d n) = false)
    (hfail : s.slotFailure (s.slot d n) = none) (htime : (s.slot d n).time (s.slot d n).next = k) : exec (.pause d n k 0) s =
      .next ((s.modSlot d n fun y => { y with pauses := (k, some y.next) :: y.pauses.filter fun q => q.1 != k }).flood d n k) := by
  change execPause d n k 0 s = _
  rw [execPause, if_pos rfl, hdue, hready, hfail, htime, beq_self_eq_true]
  rfl
theorem exec_pause_received {k : Nat} (hnew : ∀ q ∈ (s.slot d n).pauses, q.1 ≠ k) : exec (.pause d n k 1) s =
    .next ((s.modSlot d n fun y => { y with pauses := (k, none) :: y.pauses }).flood d n k) := by
  change execPause d n k 1 s = _
  rw [execPause]
  exact (if_neg (by decide)).trans (if_neg (by rw [List.any_eq_true]; rintro ⟨q, hq, hk⟩; exact hnew q hq (beq_iff_eq.1 hk)))
/-- A pause received at a time moves the steps after that time by one period (R306). -/
theorem time_paused (x : Slot) (k i : Nat) : ({ x with pauses := (k, none) :: x.pauses } : Slot).time i =
    x.time i + if k < x.start + (x.steps.getD i noStep).tslot then x.period else 0 := by
  rw [Slot.time, Slot.time]
  dsimp only
  rw [List.filter_cons, Bool.or_false]
  by_cases hk : k < x.start + (x.steps.getD i noStep).tslot
  · rw [if_pos hk, decide_eq_true hk, if_pos rfl, List.length_cons, Nat.mul_succ]
    exact (Nat.add_assoc ..).symm
  · rw [if_neg hk, decide_eq_false hk, if_neg Bool.false_ne_true, Nat.add_zero]

/-- The end of a schedule whose steps have all run and whose writes have all been made (R306). -/
theorem exec_scheduleComplete {p id : Nat} {c : Cmd} (hcmd : (s.slot d n).cmd = some (p, id)) (hrun : (s.slot d n).running = true)
    (hfail : (s.slot d n).fail = none) (hlast : (s.slot d n).steps.length ≤ (s.slot d n).next) (hc : (s.place p).cmd id = some c)
    (hplaza : (s.slot d n).plaza = p) (hwrites : s.writesOut p id = false) : exec (.scheduleComplete d n) s =
      .next (((s.endCmd p c true).modSlot d n Slot.stop).modPlace p fun q => { q with linkQ := q.linkQ.filter fun c => c.id != id }) := by
  change execScheduleComplete d n s = _
  rw [execScheduleComplete]
  dsimp only
  rw [hcmd]
  dsimp only
  rw [hrun, hfail, hplaza, hwrites, hc, if_neg (by decide)]
  exact congrArg Host.Outcome.next (if_neg (Nat.not_lt.2 hlast))
end

theorem scheduleRuns : Claims.ScheduleRuns := by
  intro s d n x
  refine ⟨fun hno => ?notDue, fun t hdue hfail hready heffect => ?step, fun hop hdue hfail htok => ?token, fun i hnone => ?time,
    fun k hdue hready hfail htime hports => ?raised, fun k hnew hports => ?received, fun i bs => ?data,
    fun p id c hcmd hrun hfail hlast hc hplaza hwrites htok => ?complete⟩
  case notDue =>
    change execScheduleStep d n s = _
    rw [execScheduleStep]
    exact if_pos (by rw [hno]; rfl)
  case step =>
    obtain ⟨u, hexec, hslot, hmem⟩ := exec_scheduleStep hdue hfail hready heffect
    rw [Slot.stepped] at hslot
    exact ⟨u, hexec, by rw [hslot], by rw [hslot], hmem⟩
  case token =>
    have hready : s.stepReady x = true := by
      rw [State.stepReady, hop]
      rcases htok with h | h <;> rw [h] <;> rfl
    obtain ⟨fresh, heffect⟩ := stepEffect_token (d := d) (n := n) hop (by rcases htok with h | h <;> exact h ▸ by decide)
    obtain ⟨u, hexec, hslot, hmem⟩ := exec_scheduleStep hdue hfail hready heffect
    rw [Slot.stepped] at hslot
    exact ⟨u, hexec, by rw [hslot]; rfl, by rw [hslot], hmem⟩
  case time => rw [Slot.time, hnone]; rfl
  case raised =>
    refine ⟨_, exec_pause_raised hdue hready hfail htime, ?_⟩
    rw [flood_of_no_ports (by rw [slot_modSlot]; exact hports), slot_modSlot]
    exact ⟨rfl, rfl⟩
  case received =>
    refine ⟨_, exec_pause_received hnew, ?_⟩
    rw [flood_of_no_ports (by rw [slot_modSlot]; exact hports), slot_modSlot]
    exact ⟨rfl, rfl, time_paused x k⟩
  case data =>
    refine ⟨_, rfl, rfl, ?_⟩
    rw [slot_modSlot]
    exact ⟨tabGet_tabSet_self .., rfl, fun j hj => tabGet_tabSet_ne _ _ _ hj⟩
  case complete =>
    refine ⟨_, exec_scheduleComplete hcmd hrun hfail hlast hc hplaza hwrites, rfl, ?_⟩
    have hslot : (((s.endCmd p c true).modSlot d n Slot.stop).modPlace p fun q => { q with linkQ := q.linkQ.filter fun c => c.id != id }).slot d n =
        (s.slot d n).stop := slot_modSlot (s.endCmd p c true) d n Slot.stop
    rw [hslot, State.token, place_modPlace_self]
    exact ⟨rfl, rfl, rfl, token_endCmd_self htok⟩

/-- Settles O49: the head commands by the branch that their operands take, the run by what each event leaves of its slot. -/
theorem schedules : Obligations.Schedules := ⟨scheduleCommands, scheduleRuns⟩

end Sys2Proof.Machine
end

section
/-! What a lane instruction reads once its operands have landed (R21-R23), as its turn in its lane group. -/
namespace Sys2Proof.Machine

theorem onLane_lane {s : State} {f : Nat → Nat → Out} {p l : Nat} (ha : s.cur.agent = .lane p l) : onLane s f = f p l := by
  rw [onLane, ha]

section
variable {s : State} {p l : Nat}

theorem operand_of {a : Nat} {x : Row} (h : s.laneOperand p l 32 a = some x) : s.operand p l a = (x, s) := operandW_of s p l 32 a x h
theorem scalarCode_of {a : Nat} (h : s.scalarReady p l (a - 72)) : s.scalarCode p l a = ((s.lane p l).scalar (a - 72), s) :=
  readScalar_of s p l (a - 72) h
theorem maskOf_of {a b : Nat} (ha : s.predReady p l a) (hb : s.predReady p l b) :
    s.maskOf p l a b = (((s.lane p l).pred a &&& (s.lane p l).pred b &&& (s.lane p l).pred 0) >>> s.shift p l, s) := by
  rw [State.maskOf, readPred_of s p l a ha]
  dsimp only
  rw [readPred_of s p l b hb]

/-- An elementwise form of one operand issues its result (R146). -/
theorem lane1_of {bound d a q v len w k : Nat} {f : W32 → W32} {x : Row} {em : W32} (ha : s.cur.agent = .lane p l)
    (hx : s.laneOperand p l 32 a = some x) (hm : s.laneMaskIs p l q v em) :
    lane1 bound f d a q v len w k s = .next ((s.issueRow p l bound d (rowOf fun i => f (rowWord x i)) em).laneRetire p l len w k) := by
  rw [lane1, onLane_lane ha, operand_of hx]
  dsimp only
  rw [effMask_of s p l q v em hm]
/-- An elementwise form of two operands issues its result (R146). -/
theorem lane2_of {bound d a b q v len w k : Nat} {f : W32 → W32 → W32} {x y : Row} {em : W32} (ha : s.cur.agent = .lane p l)
    (hx : s.laneOperand p l 32 a = some x) (hy : s.laneOperand p l 32 b = some y) (hm : s.laneMaskIs p l q v em) :
    lane2 bound f d a b q v len w k s =
      .next ((s.issueRow p l bound d (rowOf fun i => f (rowWord x i) (rowWord y i)) em).laneRetire p l len w k) := by
  rw [lane2, onLane_lane ha, operand_of hx]
  dsimp only
  rw [operand_of hy]
  dsimp only
  rw [effMask_of s p l q v em hm]

/-- A scalar broadcast to every lane (R150). -/
theorem moveScalar_of {n d q w k : Nat} {em : W32} (ha : s.cur.agent = .lane p l) (hn : s.scalarReady p l n) (hm : s.laneMaskIs p l q 0 em) :
    moveScalar n d q w k s = .next ((s.issueRow p l 2 d (broadcast ((s.lane p l).scalar n)) em).laneRetire p l 4 w k) := by
  rw [moveScalar, onLane_lane ha, readScalar_of s p l n hn]
  dsimp only
  rw [effMask_of s p l q 0 em hm]
/-- A predicate operation of two predicates (R157). -/
theorem predOp_of {f : W32 → W32 → W32} {d a b w k : Nat} (ha : s.cur.agent = .lane p l) (hx : s.predReady p l a) (hy : s.predReady p l b) :
    predOp f d a b w k s = .next ((s.issuePred p l 1 d (f ((s.lane p l).pred a) ((s.lane p l).pred b))).laneRetire p l 4 w k) := by
  rw [predOp, onLane_lane ha, readPred_of s p l a hx]
  dsimp only
  rw [readPred_of s p l b hy]
/-- A scalar from the lanes of two predicates and p0 (R157). -/
theorem maskScalar_of {f : Nat → W32 → W32} {d a b w k : Nat} (ha : s.cur.agent = .lane p l) (hx : s.predReady p l a) (hy : s.predReady p l b) :
    maskScalar f d a b w k s = .next ((s.issueScalar p l 1 d
      (f (s.width p) (((s.lane p l).pred a &&& (s.lane p l).pred b &&& (s.lane p l).pred 0) >>> s.shift p l))).laneRetire p l 4 w k) := by
  rw [maskScalar, onLane_lane ha, maskOf_of hx hy]

end

end Sys2Proof.Machine
end

section
/-! Moves, selects, comparisons, predicate operations and pushes of the lanes (R150, R151, R157-R159, R162, R220, R221). -/
namespace Sys2Proof.Machine

theorem laneMoves : Claims.LaneMoves := by
  intro s p l d a b g i t q v w k em ha hm sh wd per
  refine ⟨fun x hv hx => ?vmov, fun hv hs => ?scalar, fun hv hs => ?scalarHigh, fun y hv hy => ?vlid, fun x y hx hy hg => ?vsel,
    fun x hx => ⟨?vbcast, fun hs => ?vbcastScalar⟩, fun x hx => ⟨fun h0 => ?empty, fun h0 => ?vgetl, fun h0 hb hs => ?vgetlScalar⟩⟩
  case vmov =>
    subst hv
    change execVmov d a q w k s = _
    exact lane1_of ha hx hm
  case scalar =>
    subst hv
    change execVmovScalar d a q w k s = _
    exact moveScalar_of ha hs hm
  case scalarHigh =>
    subst hv
    change execVmovScalarHigh d a q w k s = _
    exact moveScalar_of ha hs hm
  case vlid =>
    subst hv
    change execVlid d b q w k s = _
    simp only [execVlid, onLane_lane ha, operand_of hy, effMask_of s p l q 0 em hm]
    rfl
  case vsel =>
    change execVsel d a b g i q v w k s = _
    simp only [execVsel, onLane_lane ha, operand_of hx, operand_of hy, readPred_of s p l g hg, effMask_of s p l q v em hm]
  case vbcast =>
    change execVbcast d a b 0 i t q v w k s = _
    simp only [execVbcast, onLane_lane ha, operandW_of s p l (typeWidth t) a x hx, zero_ne_one, if_false, effMask_of s p l q v em hm]
    rfl
  case vbcastScalar =>
    change execVbcast d a b 1 i t q v w k s = _
    simp only [execVbcast, onLane_lane ha, operandW_of s p l (typeWidth t) a x hx, if_true, scalarCode_of hs, effMask_of s p l q v em hm]
    rfl
  case empty =>
    change execVgetl d a 0 i q v w k s = _
    simp only [execVgetl, onLane_lane ha, operand_of hx, effMask_of s p l q v em hm, h0, if_true]
  case vgetl =>
    change execVgetl d a 0 i q v w k s = _
    simp only [execVgetl, onLane_lane ha, operand_of hx, effMask_of s p l q v em hm, h0, if_true, if_false]
    rfl
  case vgetlScalar =>
    change execVgetl d a b i q v w k s = _
    simp only [execVgetl, onLane_lane ha, operand_of hx, scalarCode_of hs, effMask_of s p l q v em hm, h0, hb, if_false]
    rfl

/-- The word with the bits below n that satisfy P, as a number. -/
theorem getLsbD_ofNat_foldl_pow (P : Nat → Prop) [DecidablePred P] {i : Nat} (hi : i < 32) :
    (BitVec.ofNat 32 ((List.range 32).foldl (fun m j => if P j then m + 2 ^ j else m) 0)).getLsbD i = decide (P i) := by
  rw [BitVec.getLsbD_ofNat, (testBit_foldl_pow P 32).2 i]
  simp [hi]

/-- The first number below n that satisfies a test, n where none does (PFIRST, R157). -/
theorem getD_find?_range (f : Nat → Bool) (n : Nat) :
    let i := ((List.range n).find? f).getD n
    (∀ j, j < i → f j = false) ∧ (i < n ∧ f i = true ∨ i = n) := by
  intro i
  cases h : (List.range n).find? f with
  | none =>
    have hi : i = n := by simp [i, h]
    rw [hi]
    exact ⟨fun j hj => by simpa using List.find?_eq_none.1 h j (List.mem_range.2 hj), .inr rfl⟩
  | some m =>
    have hi : i = m := by simp [i, h]
    rw [hi]
    obtain ⟨hf, hm, hbefore⟩ := List.find?_range_eq_some.1 h
    exact ⟨fun j hj => by simpa using hbefore j hj, .inl ⟨List.mem_range.1 hm, hf⟩⟩

theorem lanePredicates : Claims.LanePredicates := by
  intro s p l d a b n w k ha hx hy x y m
  refine ⟨?pand, ?por, ?pxor, ?pandn, ?pbal, ?ppopc, ⟨_, ?pfirst, getD_find?_range m.getLsbD (s.width p)⟩,
    fun hs => ⟨?pset, fun h8 => ?pushed, fun h8 => ?ninth⟩, fun c t q v u r em hu hr hm => ?vcmp⟩
  case pand => change execPand d a b w k s = _; exact predOp_of ha hx hy
  case por => change execPor d a b w k s = _; exact predOp_of ha hx hy
  case pxor => change execPxor d a b w k s = _; exact predOp_of ha hx hy
  case pandn => change execPandn d a b w k s = _; exact predOp_of ha hx hy
  case pbal => change execPbal d a b w k s = _; exact maskScalar_of ha hx hy
  case ppopc => change execPpopc d a b w k s = _; exact maskScalar_of ha hx hy
  case pfirst => change execPfirst d a b w k s = _; exact maskScalar_of ha hx hy
  case pset =>
    change execPset d b n w k s = _
    simp only [execPset, onLane_lane ha, readScalar_of s p l n hs, readPred_of s p l b hy]
    rfl
  case pushed =>
    change execPushp a b n w k s = _
    simp only [execPushp, onLane_lane ha, maskOf_of hx hy, readScalar_of s p l n hs, if_neg (Nat.not_le.2 h8)]
    rfl
  case ninth =>
    change execPushp a b n w k s = _
    simp only [execPushp, onLane_lane ha, maskOf_of hx hy, readScalar_of s p l n hs, if_pos h8]
  case vcmp =>
    refine ⟨?_, ?issues, fun i hi => ?mask⟩
    case issues =>
      change execVcmp d a b c t q v w k s = _
      simp only [execVcmp, onLane_lane ha, operand_of hu, operand_of hr, effMask_of s p l q v em hm]
      rfl
    case mask =>
      rw [BitVec.getLsbD_and, getLsbD_ofNat_foldl_pow (fun i => compareCond c (typedCmp t (rowWord u i) (rowWord r i)) = true) hi, Bool.decide_eq_true]

/-- Settles O31: each instruction by what it reads at its turn, PFIRST by the search's first hit, VCMP bit by bit. -/
theorem laneMovesAndPredicates : Obligations.LaneMovesAndPredicates := ⟨laneMoves, lanePredicates⟩

end Sys2Proof.Machine
end

section
/-! The instructions that control their lane group's issue, and its region marker (R152, R154-R156, R181). -/
namespace Sys2Proof.Machine

theorem sameButLane_modLane (s : State) (p l : Nat) (f : Lane → Lane) : s.sameButLane (s.modLane p l f) p l := by
  rw [State.sameButLane, lane_modLane_self]; rfl

section
variable {s : State} {p l a w k : Nat}

/-- VWIN and VWINADD set the base, with the one before it still for the packet of the next cycle (R152). -/
theorem moveWindow_of {f : Nat → W32 → Nat} (ha : s.cur.agent = .lane p l) (hs : s.scalarReady p l (a - 72)) :
    moveWindow f a w k s = .next (({ s with fresh := s.fresh + 1 }.modLane p l fun y =>
      { y with oldWindow := y.window, window := f (s.lane p l).window ((s.lane p l).scalar (a - 72)) % 16384, windowAt := s.dev.cycle,
               windowPick := s.fresh + 1 }).laneRetire p l 4 w k) := by
  rw [moveWindow, onLane_lane ha, scalarCode_of hs]
  rfl

theorem exec_vwait {c ll st : Nat} (ha : s.cur.agent = .lane p l) : exec (.vwait c ll st) s = .next (s.modLane p l fun x =>
    { x.retire s.dev.cycle 4 0 0 with nextAt := s.dev.cycle + 1 + c, loadLimit := ll, storeLimit := st }) := by
  change execVwait c ll st s = _
  rw [execVwait, onLane_lane ha, State.laneRetire, modLane_modLane]
theorem exec_vbend (ha : s.cur.agent = .lane p l) : exec .vbend s =
    .next (s.modLane p l fun x => { x with pc := x.pc + 4, nextAt := s.dev.cycle + 1, ended := true, levels := [] }) :=
  onLane_lane ha
theorem exec_vrgn (ha : s.cur.agent = .lane p l) : exec .vrgn s =
    .next (s.modLane p l fun x => { x.retire s.dev.cycle 4 0 0 with marking := true }) := by
  change execVrgn s = _
  rw [execVrgn, onLane_lane ha, State.laneRetire, modLane_modLane]
theorem exec_regionMarker (hbusy : (s.lane p l).busy = true) (hmarking : (s.lane p l).marking = true) (hstopped : (s.lane p l).stopped = false)
    (hquiet : (s.lane p l).quiet = true) : exec (.regionMarker p l) s = .next (s.modLane p l fun y =>
      { y with marking := false, amo := 0, marker := y.record y.pc 0, nextAt := Nat.max y.nextAt (s.dev.cycle + 1) }) := by
  change execRegionMarker p l s = _
  simp [execRegionMarker, hbusy, hmarking, hstopped, hquiet]

end

/-- A lane group none of whose levels is active ends none of them (R50). -/
theorem Lane.noLoopEnd_of_inactive {x : Lane} (h : ∀ j, j < 4 → (levelOf x.levels j).active = false) : x.noLoopEnd := fun j hj hactive => by
  rw [h j hj] at hactive; cases hactive

/-- Settles O34: each instruction by the change it makes of its lane group, and the marker by what it records. -/
theorem laneControl : Obligations.LaneControl := by
  intro s p l a w k ha x
  refine ⟨fun hs => ⟨?vwin, ?vwinadd⟩, fun c ll st hlevels => ?vwait, ?vbend, ?vrgn, fun hbusy hmarking hstopped hquiet => ?marker⟩
  case vwin =>
    change execVwin a w k s = _
    rw [execVwin, moveWindow_of ha hs, Nat.mod_mod]
  case vwinadd =>
    change execVwinadd a w k s = _
    have hlt : wrapInt 14 (((s.lane p l).window : Int) + ((s.lane p l).scalar (a - 72)).toInt) < 16384 := by
      rw [wrapInt]; omega
    rw [execVwinadd, moveWindow_of ha hs, Nat.mod_eq_of_lt hlt]
    rfl
  case vwait =>
    refine ⟨_, exec_vwait ha, sameButLane_modLane s p l _, ?_⟩
    rw [lane_modLane_self, Lane.retire_of_noLoopEnd s.dev.cycle 4 0 (Lane.noLoopEnd_of_inactive hlevels)]
    exact ⟨rfl, rfl, rfl, rfl⟩
  case vbend =>
    refine ⟨_, exec_vbend ha, sameButLane_modLane s p l _, ?_⟩
    rw [lane_modLane_self]
    exact ⟨rfl, rfl⟩
  case vrgn =>
    refine ⟨_, exec_vrgn ha, sameButLane_modLane s p l _, ?_⟩
    rw [lane_modLane_self]
  case marker =>
    refine ⟨_, exec_regionMarker hbusy hmarking hstopped hquiet, sameButLane_modLane s p l _, ?_⟩
    rw [lane_modLane_self]
    exact ⟨rfl, rfl⟩

end Sys2Proof.Machine
end

section
/-! Rounding (R194): the model's step from a truncated magnitude to a code is the rule's choice between the two codes about an exact value. -/
namespace Sys2Proof.Machine

/-- The rule's choice depends on the fact of exactness, not on how it is decided. -/
theorem roundsTo_congr {rnd k : Nat} {neg : Bool} {P Q : Prop} [Decidable P] [Decidable Q] {h h' : Ordering} (hPQ : P ↔ Q) (hh : ¬Q → h = h') :
    roundsTo rnd neg P h k = roundsTo rnd neg Q h' k := by
  by_cases hQ : Q
  · simp [roundsTo, hPQ, hQ]
  · simp [roundsTo, hPQ, hQ, hh hQ]

theorem ordering_lt_iff {a b : Nat} : compare a b = .lt ↔ a < b := Nat.compare_eq_lt
theorem ordering_gt_iff {a b : Nat} : compare a b = .gt ↔ b < a := Nat.compare_eq_gt

/-- A truncated magnitude n with code k rounds up exactly where the rule takes the next code: the discarded part is `rem` of `full`. -/
theorem add_roundsUp {rnd k n rem full : Nat} {neg : Bool} (hrnd : rnd < 4) (hk : k % 2 = n % 2) :
    k + b2n (roundsUp rnd neg n rem full false) = roundsTo rnd neg (rem = 0) (compare (2 * rem) full) k := by
  by_cases hrem : rem = 0
  · have hup : roundsUp rnd neg n rem full false = false := by
      simp [roundsUp, hrem]
      omega
    rw [hup]
    simp [roundsTo, hrem, b2n]
  · have hcases : rnd = 0 ∨ rnd = 1 ∨ rnd = 2 ∨ rnd = 3 := by omega
    rcases hcases with rfl | rfl | rfl | rfl
    · rcases Nat.lt_trichotomy (2 * rem) full with h | h | h
      · have hup : roundsUp 0 neg n rem full false = false := by simp [roundsUp]; omega
        simp [roundsTo, hrem, ordering_lt_iff.2 h, hup, b2n]
      · have hup : roundsUp 0 neg n rem full false = decide (k % 2 = 1) := by
          simp [roundsUp, h, hk, show (full != 0) = true by simp; omega]; rfl
        have hc : compare (2 * rem) full = .eq := Nat.compare_eq_eq.2 h
        rcases Nat.mod_two_eq_zero_or_one k with hp | hp <;> simp [roundsTo, hrem, hc, hup, hp, b2n]
      · have hup : roundsUp 0 neg n rem full false = true := by simp [roundsUp, h]
        simp [roundsTo, hrem, ordering_gt_iff.2 h, hup, b2n]
    · simp [roundsTo, hrem, roundsUp, b2n]
    · cases neg <;> simp [roundsTo, hrem, roundsUp, b2n]
    · cases neg <;> simp [roundsTo, hrem, roundsUp, b2n]

/-- The magnitude of the code that has a full mantissa n at the j-th binade above the subnormals, n itself below them (R190). -/
theorem codeMag_binade {mb j n : Nat} (hle : n ≤ 2 ^ (mb + 1)) (h : j = 0 ∨ 2 ^ mb ≤ n) : codeMag mb (j * 2 ^ mb + n) = n * 2 ^ j := by
  have hpos : 0 < 2 ^ mb := Nat.two_pow_pos mb
  rw [Nat.pow_succ] at hle
  rcases Nat.lt_or_ge n (2 ^ mb) with hlt | hge
  · obtain rfl : j = 0 := h.resolve_right (by omega)
    simp [codeMag, Nat.div_eq_of_lt hlt]
  · rcases Nat.lt_or_ge n (2 ^ mb * 2) with hlt | hge'
    · have hk : j * 2 ^ mb + n = (n - 2 ^ mb) + 2 ^ mb * (j + 1) := by rw [Nat.mul_add, Nat.mul_comm]; omega
      have hdiv : (j * 2 ^ mb + n) / 2 ^ mb = j + 1 := by
        rw [hk, Nat.add_mul_div_left _ _ hpos, Nat.div_eq_of_lt (by omega)]; omega
      have hmod : (j * 2 ^ mb + n) % 2 ^ mb = n - 2 ^ mb := by
        rw [hk, Nat.add_mul_mod_self_left, Nat.mod_eq_of_lt (by omega)]
      rw [codeMag, hdiv, hmod, if_neg (by omega), Nat.add_sub_cancel]
      congr 1; omega
    · have hn : n = 2 ^ mb * 2 := by omega
      have hk : j * 2 ^ mb + n = 2 ^ mb * (j + 2) := by rw [hn, Nat.mul_add, Nat.mul_comm]
      rw [codeMag, hk, Nat.mul_div_cancel_left _ hpos, Nat.mul_mod_right, if_neg (by omega), hn, Nat.add_zero, Nat.mul_assoc, ← Nat.pow_succ']
      rfl

/-! A mantissa m · T / S, cut to n, beside the exact m · E in units of which n stands for n · D. -/

theorem compare_congr {a b c d : Nat} (hlt : a < b ↔ c < d) (heq : a = b ↔ c = d) : compare a b = compare c d := by
  change compareOfLessAndEq a b = compareOfLessAndEq c d
  simp only [compareOfLessAndEq, hlt, heq]

section
variable {m T S E D : Nat}

theorem cut_le (hT : 0 < T) (h : T * D = S * E) : m * T / S * D ≤ m * E := by
  refine Nat.le_of_mul_le_mul_left ?_ hT
  calc T * (m * T / S * D) = m * T / S * S * E := by rw [Nat.mul_left_comm, h]; ring
    _ ≤ m * T * E := Nat.mul_le_mul_right E (Nat.div_mul_le_self ..)
    _ = T * (m * E) := by ring
theorem lt_cut_succ (hS : 0 < S) (hE : 0 < E) (h : T * D = S * E) : m * E < (m * T / S + 1) * D := by
  refine Nat.lt_of_mul_lt_mul_left (a := T) ?_
  calc T * (m * E) = m * T * E := by ring
    _ < (m * T / S + 1) * S * E := Nat.mul_lt_mul_of_pos_right ((Nat.div_lt_iff_lt_mul hS).1 (Nat.lt_succ_self _)) hE
    _ = T * ((m * T / S + 1) * D) := by rw [Nat.mul_left_comm, h]; ring
theorem eq_cut_iff (hT : 0 < T) (hE : 0 < E) (h : T * D = S * E) : m * E = m * T / S * D ↔ m * T % S = 0 := by
  have hdiv := Nat.div_add_mod' (m * T) S
  have hl : T * (m * E) = (m * T / S * S + m * T % S) * E := by rw [hdiv]; ring
  have hr : T * (m * T / S * D) = m * T / S * S * E := by rw [Nat.mul_left_comm, h]; ring
  rw [← Nat.mul_right_inj (Nat.pos_iff_ne_zero.1 hT), hl, hr, Nat.mul_left_inj (Nat.pos_iff_ne_zero.1 hE)]
  omega
theorem compare_cut (hT : 0 < T) (hE : 0 < E) (h : T * D = S * E) :
    compare (2 * (m * E)) ((m * T / S + (m * T / S + 1)) * D) = compare (2 * (m * T % S)) S := by
  have hdiv := Nat.div_add_mod' (m * T) S
  have hl : T * (2 * (m * E)) = 2 * (m * T / S * S + m * T % S) * E := by rw [hdiv]; ring
  have hr : T * ((m * T / S + (m * T / S + 1)) * D) = (m * T / S * S + m * T / S * S + S) * E := by rw [Nat.mul_left_comm, h]; ring
  refine compare_congr ?_ ?_
  · rw [← Nat.mul_lt_mul_left hT, hl, hr, Nat.mul_lt_mul_right hE]; omega
  · rw [← Nat.mul_right_inj (Nat.pos_iff_ne_zero.1 hT), hl, hr, Nat.mul_left_inj (Nat.pos_iff_ne_zero.1 hE)]; omega

end

/-! The code that a finite value rounds to (R194), by its binade. -/

/-- The binade of m · 2^e above the subnormals of a format whose smallest subnormal is 2^u and that has mb mantissa bits. -/
def binade (mb m : Nat) (e u : Int) : Nat := (Nat.log2 m + e - (u + mb)).toNat

theorem two_pow_balance {a b c d : Nat} (h : a + b = c + d) : 2 ^ a * 2 ^ b = 2 ^ c * 2 ^ d := by rw [← Nat.pow_add, ← Nat.pow_add, h]

/-- The mantissa cut at its binade has mb + 1 bits, or at most mb among the subnormals. -/
theorem mantissa_of_binade {mb m : Nat} {e u : Int} (hm : m ≠ 0) :
    let sh : Int := binade mb m e u + u - e
    let n := m * 2 ^ (-sh).toNat / 2 ^ sh.toNat
    n < 2 ^ (mb + 1) ∧ (binade mb m e u = 0 ∨ 2 ^ mb ≤ n) := by
  intro sh n
  have hlow : 2 ^ Nat.log2 m ≤ m := Nat.log2_self_le hm
  have hhigh : m < 2 ^ (Nat.log2 m + 1) := Nat.lt_log2_self
  have hlt {k : Nat} (h : Nat.log2 m + 1 + (-sh).toNat ≤ k + sh.toNat) : n < 2 ^ k := by
    refine Nat.div_lt_of_lt_mul ?_
    calc m * 2 ^ (-sh).toNat < 2 ^ (Nat.log2 m + 1) * 2 ^ (-sh).toNat := Nat.mul_lt_mul_of_pos_right hhigh (Nat.two_pow_pos _)
      _ = 2 ^ (Nat.log2 m + 1 + (-sh).toNat) := (Nat.pow_add ..).symm
      _ ≤ 2 ^ (k + sh.toNat) := Nat.pow_le_pow_right (by omega) h
      _ = 2 ^ sh.toNat * 2 ^ k := by rw [Nat.pow_add, Nat.mul_comm]
  have hsh : sh = binade mb m e u + u - e := rfl
  rw [binade] at hsh
  by_cases hsub : (Nat.log2 m : Int) + e - (u + mb) < 0
  · refine ⟨hlt (by omega), .inl ?_⟩
    rw [binade]; omega
  · refine ⟨hlt (by omega), .inr ?_⟩
    rw [Nat.le_div_iff_mul_le (Nat.two_pow_pos _)]
    calc 2 ^ mb * 2 ^ sh.toNat = 2 ^ Nat.log2 m * 2 ^ (-sh).toNat := two_pow_balance (by omega)
      _ ≤ m * 2 ^ (-sh).toNat := Nat.mul_le_mul_right _ hlow

/-- The code as the cut mantissa at its binade, and one more where the rest rounds up. -/
theorem roundCode_eq (f : Fmt) (rnd : Nat) (neg : Bool) (m : Nat) (e : Int) :
    let u : Int := 1 - f.bias - f.mb
    let sh : Int := binade f.mb m e u + u - e
    let n := m * 2 ^ (-sh).toNat / 2 ^ sh.toNat
    ∃ full, (full = 2 ^ sh.toNat ∨ m * 2 ^ (-sh).toNat % 2 ^ sh.toNat = 0) ∧ roundCode f rnd neg m e false =
      binade f.mb m e u * 2 ^ f.mb + n + b2n (roundsUp rnd neg n (m * 2 ^ (-sh).toNat % 2 ^ sh.toNat) full false) := by
  intro u sh n
  have hex : (if (Nat.log2 m : Int) + e < 1 - f.bias then 1 - (f.bias : Int) else Nat.log2 m + e) = binade f.mb m e u + (1 - f.bias) := by
    rw [binade]; split <;> omega
  have hsh : (binade f.mb m e u : Int) + (1 - f.bias) - f.mb - e = sh := by omega
  have hj : ((binade f.mb m e u : Int) + (1 - f.bias) - (1 - f.bias)).toNat = binade f.mb m e u := by omega
  simp only [roundCode, hex, hsh, hj]
  rcases Int.lt_or_le 0 sh with hpos | hneg
  · refine ⟨2 ^ sh.toNat, .inl rfl, ?_⟩
    simp only [if_neg (Int.not_le.2 hpos), n, show (-sh).toNat = 0 by omega, Nat.pow_zero, Nat.mul_one]
  · refine ⟨0, .inr ?_, ?_⟩
    · rw [show sh.toNat = 0 by omega, Nat.pow_zero, Nat.mod_one]
    · simp only [if_pos hneg, n, show sh.toNat = 0 by omega, Nat.pow_zero, Nat.div_one, Nat.mod_one]

/-- A finite value lies between two neighbouring codes, and rounds to one of them by its mode (R194). -/
theorem roundCode_between {f : Fmt} {rnd m : Nat} {e : Int} (neg : Bool) (hmb : 0 < f.mb) (hrnd : rnd < 4) (hm : m ≠ 0) :
    let u : Int := 1 - f.bias - f.mb
    let num := m * 2 ^ (e - u).toNat
    let den := 2 ^ (u - e).toNat
    ∃ k, codeMag f.mb k * den ≤ num ∧ num < codeMag f.mb (k + 1) * den ∧ roundCode f rnd neg m e false =
      roundsTo rnd neg (num = codeMag f.mb k * den) (compare (2 * num) ((codeMag f.mb k + codeMag f.mb (k + 1)) * den)) k := by
  intro u num den
  obtain ⟨full, hfull, hcode⟩ := roundCode_eq f rnd neg m e
  obtain ⟨hlt, hge⟩ := mantissa_of_binade (mb := f.mb) (e := e) (u := u) hm
  generalize hsh : (binade f.mb m e u : Int) + u - e = sh at hcode hlt hge hfull
  generalize hj : binade f.mb m e u = j at *
  have hscale : 2 ^ (-sh).toNat * (2 ^ j * den) = 2 ^ sh.toNat * 2 ^ (e - u).toNat := by
    rw [← Nat.pow_add, ← Nat.pow_add, ← Nat.pow_add]
    congr 1; omega
  have hT := Nat.two_pow_pos (-sh).toNat
  have hS := Nat.two_pow_pos sh.toNat
  have hE := Nat.two_pow_pos (e - u).toNat
  have hk : codeMag f.mb (j * 2 ^ f.mb + m * 2 ^ (-sh).toNat / 2 ^ sh.toNat) * den = m * 2 ^ (-sh).toNat / 2 ^ sh.toNat * (2 ^ j * den) := by
    rw [codeMag_binade (Nat.le_of_lt hlt) hge, Nat.mul_assoc]
  have hk1 : codeMag f.mb (j * 2 ^ f.mb + m * 2 ^ (-sh).toNat / 2 ^ sh.toNat + 1) * den
      = (m * 2 ^ (-sh).toNat / 2 ^ sh.toNat + 1) * (2 ^ j * den) := by
    rw [Nat.add_assoc, codeMag_binade hlt (hge.imp_right fun h => Nat.le_succ_of_le h), Nat.mul_assoc]
  refine ⟨_, hk ▸ cut_le hT hscale, hk1 ▸ lt_cut_succ hS hE hscale, ?_⟩
  have hparity : (j * 2 ^ f.mb + m * 2 ^ (-sh).toNat / 2 ^ sh.toNat) % 2 = m * 2 ^ (-sh).toNat / 2 ^ sh.toNat % 2 := by
    obtain ⟨b, hb⟩ := Nat.exists_eq_succ_of_ne_zero (Nat.pos_iff_ne_zero.1 hmb)
    rw [hb, Nat.pow_succ, ← Nat.mul_assoc, Nat.add_comm, Nat.add_mul_mod_self_right]
  rw [hcode, add_roundsUp hrnd hparity, Nat.add_mul, hk, hk1, ← Nat.add_mul]
  refine roundsTo_congr (eq_cut_iff hT hE hscale).symm fun hinexact => ?_
  rw [compare_cut hT hE hscale, hfull.resolve_right fun h => hinexact ((eq_cut_iff hT hE hscale).2 h)]

end Sys2Proof.Machine
end

section
/-! The float formats (R190, R194, R195): what their codes stand for, and where exact values round to. -/
namespace Sys2Proof.Machine

/-- The table of R190 and the model's formats agree; every format has a mantissa, and its infinity lies above its finite codes. -/
theorem floatTable_agrees : ∀ f ∈ floatTable, f.fmt.eb = f.eb ∧ f.fmt.mb = f.mb ∧ f.fmt.bias = f.bias ∧ f.fmt.maxCode = f.top ∧ f.fmt.infCode = f.inf
    ∧ nanOf f.fmt = f.nan ∧ f.fmt.infCode.getD (f.fmt.nanCode.getD f.fmt.maxCode) = f.beyond ∧ (∀ i ∈ f.inf, f.top < i) ∧ 0 < f.mb := by
  decide

section
variable {f : Fmt} {code rnd : Nat} {sat neg : Bool}

theorem bit_sign {n : Nat} (h : code < 2 ^ (1 + n)) : bit code n = decide (2 ^ n ≤ code) := by
  have hlt : code / 2 ^ n < 2 := by
    rw [Nat.div_lt_iff_lt_mul (Nat.two_pow_pos n), ← Nat.pow_succ', Nat.succ_eq_one_add]; exact h
  have hge : 1 ≤ code / 2 ^ n ↔ 2 ^ n ≤ code := by rw [Nat.le_div_iff_mul_le (Nat.two_pow_pos n), Nat.one_mul]
  rw [bit, beq_eq_decide]
  generalize code / 2 ^ n = q at hlt hge
  exact decide_eq_decide.2 (by omega)

/-- A code up to the largest finite one stands for its magnitude, in units of the smallest subnormal (R190). -/
theorem decodeF_finite (hinf : some (code % 2 ^ f.signAt) ≠ f.infCode) (hfin : code % 2 ^ f.signAt ≤ f.maxCode) :
    let u : Int := 1 - f.bias - f.mb
    ∃ m e, decodeF f code = .fin (bit code f.signAt) m e ∧ u ≤ e ∧ m * 2 ^ (e - u).toNat = codeMag f.mb (code % 2 ^ f.signAt) := by
  intro u
  rw [decodeF, if_neg hinf, if_neg (Nat.not_lt.2 hfin), codeMag]
  by_cases hsub : code % 2 ^ f.signAt / 2 ^ f.mb = 0
  · refine ⟨_, _, if_pos hsub, Int.le_refl u, ?_⟩
    have hlt := (Nat.div_eq_zero_iff_lt (Nat.two_pow_pos _)).1 hsub
    rw [if_pos hsub, show (1 - (f.bias : Int) - f.mb - u).toNat = 0 by omega, Nat.pow_zero, Nat.mul_one, Nat.mod_eq_of_lt hlt]
  · refine ⟨_, _, if_neg hsub, ?_, ?_⟩
    · generalize code % 2 ^ f.signAt / 2 ^ f.mb = q at hsub
      omega
    rw [if_neg hsub]
    generalize code % 2 ^ f.signAt / 2 ^ f.mb = q at hsub
    congr 2; omega
theorem decodeF_inf (hinf : some (code % 2 ^ f.signAt) = f.infCode) : decodeF f code = .inf (bit code f.signAt) := if_pos hinf
theorem decodeF_nan (hinf : some (code % 2 ^ f.signAt) ≠ f.infCode) (hfin : f.maxCode < code % 2 ^ f.signAt) : decodeF f code = .nan := by
  rw [decodeF, if_neg hinf, if_pos hfin]

/-! What overflows, and what is infinite (R195). -/

theorem overflowCode_inf : overflowCode f rnd sat false neg = if sat then f.maxCode else f.infCode.getD (f.nanCode.getD f.maxCode) := by
  cases sat <;> cases hinf : f.infCode <;> simp [overflowCode, hinf]
theorem overflowCode_finite : overflowCode f rnd sat true neg =
    if sat = true ∨ (rnd = 1 ∨ (rnd = 2 ∧ neg = false) ∨ (rnd = 3 ∧ neg = true)) then f.maxCode else f.infCode.getD (f.nanCode.getD f.maxCode) := by
  have hzero : (rnd == 1 || (rnd == 2 && !neg) || (rnd == 3 && neg)) = true ↔ rnd = 1 ∨ (rnd = 2 ∧ neg = false) ∨ (rnd = 3 ∧ neg = true) := by
    simp [or_assoc]
  rw [overflowCode, Bool.true_and]
  refine ite_congr (propext ?_) (fun _ => rfl) fun _ => ?_
  · rw [Bool.or_eq_true, hzero]
  · cases f.infCode <;> rfl

theorem roundTo_fin {m : Nat} {e : Int} (hm : m ≠ 0) : roundTo f rnd sat (.fin neg m e) =
    signCode f neg (if roundCode f rnd neg m e false ≤ f.maxCode then roundCode f rnd neg m e false else overflowCode f rnd sat true neg) :=
  if_neg hm

end

theorem floatFormats : Claims.FloatFormats := by
  intro f hf u sign
  obtain ⟨heb, hmb, hbias, htop, hinf, hnan, hbeyond, habove, hmant⟩ := floatTable_agrees f hf
  have hsignAt : f.fmt.signAt = f.eb + f.mb := by rw [Fmt.signAt, heb, hmb]
  have hsign : ∀ neg c, signCode f.fmt neg c = sign neg c := fun neg c => by rw [signCode, hsignAt]
  refine ⟨fun code hcode => ?codes, fun rnd sat neg hrnd => ⟨hnan, ?infinite, fun e => ?zero, fun m e hm => ?finite⟩⟩
  case codes =>
    intro k neg
    have hneg : bit code f.fmt.signAt = neg := by
      rw [hsignAt, bit_sign (by rw [← Nat.add_assoc]; exact hcode)]
    have hk : code % 2 ^ f.fmt.signAt = k := by rw [hsignAt]
    refine ⟨fun hle => ?_, fun hi => ?_, fun hlt hi => ?_⟩
    · have hne : some (code % 2 ^ f.fmt.signAt) ≠ f.fmt.infCode := fun h => by
        rw [hk, hinf] at h
        exact absurd (habove k h.symm) (Nat.not_lt.2 hle)
      have h := decodeF_finite hne (by rw [hk, htop]; exact hle)
      rwa [hneg, hk, hbias, hmb] at h
    · rw [decodeF_inf (by rw [hk, hinf, hi]), hneg]
    · exact decodeF_nan (by rw [hk, hinf]; exact fun h => hi h.symm) (by rw [hk, htop]; exact hlt)
  case infinite =>
    change signCode f.fmt neg (overflowCode f.fmt rnd sat false neg) = _
    rw [overflowCode_inf, hbeyond, htop, hsign]
  case zero => exact hsign neg 0
  case finite =>
    intro num den
    obtain ⟨k, hle, hlt, hround⟩ := roundCode_between (f := f.fmt) (e := e) neg (by rw [hmb]; exact hmant) hrnd hm
    rw [hmb, hbias] at hle hlt hround
    refine ⟨k, hle, hlt, ?_⟩
    rw [roundTo_fin hm, overflowCode_finite, hbeyond, htop, hsign, hround]

end Sys2Proof.Machine
end

section
/-! Exact sums and products (R203). -/
namespace Sys2Proof.Machine

/-- A finite value's integer over a smaller power of two. -/
theorem scaledInt_lower {x : Bool} {m : Nat} {e mid lo : Int} (hmid : mid ≤ e) (hlo : lo ≤ mid) :
    scaledInt x m e lo = scaledInt x m e mid * 2 ^ (mid - lo).toNat := by
  have hpow : (m * 2 ^ (e - lo).toNat : Nat) = m * 2 ^ (e - mid).toNat * 2 ^ (mid - lo).toNat := by
    rw [Nat.mul_assoc, ← Nat.pow_add]; congr 2; omega
  cases x
  · simp only [scaledInt, Bool.false_eq_true, if_false, hpow]; push_cast; ring
  · simp only [scaledInt, if_true, hpow]; push_cast; ring
@[simp] theorem scaledInt_zero (x : Bool) (e lo : Int) : scaledInt x 0 e lo = 0 := by simp [scaledInt]
/-- An integer as sign and magnitude, over its own power of two and over a smaller one. -/
theorem scaledInt_natAbs (z lo mid : Int) : scaledInt (decide (z < 0)) z.natAbs mid lo = z * 2 ^ (mid - lo).toNat := by
  by_cases hz : z < 0
  · simp only [scaledInt, hz, decide_true, if_true]
    push_cast
    rw [abs_of_neg hz]; ring
  · simp only [scaledInt, hz, decide_false, Bool.false_eq_true, if_false]
    push_cast
    rw [abs_of_nonneg (Int.not_lt.1 hz)]

/-- A finite sum is the integers' sum over a common power of two; it is -0 only for two terms of -0 (R203). -/
theorem add_fin (x : Bool) (m : Nat) (e : Int) (y : Bool) (n : Nat) (d : Int) : ∃ z k c, (Val.fin x m e).add (.fin y n d) = .fin z k c
    ∧ (∀ lo, lo ≤ e → lo ≤ d → lo ≤ c → scaledInt z k c lo = scaledInt x m e lo + scaledInt y n d lo)
    ∧ (k = 0 → (z = true ↔ x = true ∧ y = true ∧ m = 0 ∧ n = 0)) := by
  by_cases hm : m = 0
  · subst hm
    by_cases hn : n = 0
    · subst hn
      exact ⟨x && y, 0, 0, rfl, fun lo _ _ _ => by simp, fun _ => by simp⟩
    · exact ⟨y, n, d, by simp [Val.add, hn], fun lo _ _ _ => by simp, fun h => absurd h hn⟩
  · by_cases hn : n = 0
    · subst hn
      exact ⟨x, m, e, by simp [Val.add, hm], fun lo _ _ _ => by simp, fun h => absurd h hm⟩
    · have hadd : (Val.fin x m e).add (.fin y n d) = let mid := if e < d then e else d
          let z := scaledInt x m e mid + scaledInt y n d mid
          if z = 0 then .fin false 0 0 else .fin (decide (z < 0)) z.natAbs mid := by simp only [Val.add, hm, hn, if_false]
      have hmid : (if e < d then e else d) ≤ e ∧ (if e < d then e else d) ≤ d ∧ ∀ lo, lo ≤ e → lo ≤ d → lo ≤ (if e < d then e else d) := by
        split <;> exact ⟨by omega, by omega, fun lo h h' => by omega⟩
      dsimp only at hadd
      generalize (if e < d then e else d) = mid at hadd hmid
      obtain ⟨hme, hmd, hmax⟩ := hmid
      have hsum : ∀ lo, lo ≤ mid → scaledInt x m e lo + scaledInt y n d lo = (scaledInt x m e mid + scaledInt y n d mid) * 2 ^ (mid - lo).toNat :=
        fun lo hlo => by rw [scaledInt_lower hme hlo, scaledInt_lower hmd hlo, Int.add_mul]
      generalize scaledInt x m e mid + scaledInt y n d mid = z at hadd hsum
      by_cases hz : z = 0
      · refine ⟨false, 0, 0, by rw [hadd, if_pos hz], fun lo he hd _ => ?_, fun _ => by simp [hm]⟩
        rw [hsum lo (hmax lo he hd), hz, Int.zero_mul, scaledInt_zero]
      · refine ⟨decide (z < 0), z.natAbs, mid, by rw [hadd, if_neg hz], fun lo _ _ hlo => ?_, fun h => absurd (Int.natAbs_eq_zero.1 h) hz⟩
        rw [scaledInt_natAbs, hsum lo hlo]

theorem exactArithmetic : Claims.ExactArithmetic := by
  refine ⟨fun x m e y n d => ⟨add_fin x m e y n d, rfl, rfl, rfl, rfl, rfl⟩, fun x y => ⟨?_, rfl⟩, fun v => ⟨rfl, ?_, rfl, ?_⟩,
    fun x m e => ⟨rfl, rfl, rfl⟩⟩
  · cases x <;> cases y <;> rfl
  · cases v <;> rfl
  · cases v <;> rfl

end Sys2Proof.Machine
end

section
/-! Conversions between element types (R192, R193, R196, R197). -/
namespace Sys2Proof.Machine

/-- The table of the integer types and the model's agree: neither float nor E8M0, with the width, the ends of the range and the signedness. -/
theorem intTypes_agree : ∀ r ∈ intTypes, typeFmt r.1 = none ∧ r.1 ≠ 6 ∧ typeWidth r.1 = r.2.1 ∧ intMin r.1 = r.2.2.1 ∧ intMax r.1 = r.2.2.2
    ∧ r.2.2.1 ≤ r.2.2.2 ∧ (typeSigned r.1 = true ↔ r.2.2.1 < 0) ∧ 0 < r.2.1 := by
  decide

/-- An n-bit number read as signed (R10). -/
theorem sgn_of_lt {n v : Nat} (hn : 0 < n) (hv : v < 2 ^ n) : sgn n v = if 2 ^ (n - 1) ≤ v then (v : Int) - 2 ^ n else v := by
  obtain ⟨b, rfl⟩ := Nat.exists_eq_succ_of_ne_zero (Nat.pos_iff_ne_zero.1 hn)
  rw [sgn, BitVec.toInt_eq_toNat_cond, BitVec.toNat_ofNat, Nat.mod_eq_of_lt hv, Nat.succ_sub_one]
  rw [Nat.pow_succ] at hv ⊢
  push_cast
  rw [pow_succ]
  split <;> split <;> omega

theorem roundsUp_exact (rnd n full : Nat) (neg : Bool) : roundsUp rnd neg n 0 full false = false := by
  simp [roundsUp]; omega

/-- A finite value rounded to an integer by the mode (R196). -/
theorem toInt_eq {rnd : Nat} (hrnd : rnd < 4) (neg : Bool) (m : Nat) (e : Int) : toInt rnd neg m e =
    let num := m * 2 ^ e.toNat
    let den := 2 ^ (-e).toNat
    let q : Int := roundsTo rnd neg (num % den = 0) (compare (2 * (num % den)) den) (num / den)
    if neg then -q else q := by
  rcases Int.lt_or_le e 0 with he | he
  · simp only [toInt, if_neg (Int.not_le.2 he), show e.toNat = 0 by omega, Nat.pow_zero, Nat.mul_one, add_roundsUp hrnd rfl]
  · simp only [toInt, if_pos he, show (-e).toNat = 0 by omega, Nat.pow_zero, Nat.mod_one, Nat.div_one, roundsUp_exact, roundsTo, if_true, b2n,
      Bool.false_eq_true, if_false, Nat.add_zero]
/-- An integer rounds to itself. -/
theorem toInt_ofInt (rnd : Nat) (z : Int) : toInt rnd (decide (z < 0)) z.natAbs 0 = z := by
  simp only [toInt, Int.le_refl, if_true, Int.toNat_zero, Nat.pow_zero, Nat.mul_one, roundsUp_exact, b2n, Bool.false_eq_true, if_false, Nat.add_zero,
    decide_eq_true_eq]
  split <;> omega

/-- The clamp to a type's range by its ends. -/
theorem clampInt_eq {t : Nat} {z : Int} (h : intMin t ≤ intMax t) : clampInt t z = max (intMin t) (min (intMax t) z) := by
  rw [clampInt]
  split
  · omega
  · split <;> omega

theorem ite_not_and {α : Type} {P Q : Prop} [Decidable P] [Decidable Q] (a b : α) :
    (if decide (¬P ∧ Q) = true then a else b) = if P then b else if Q then a else b := by
  by_cases hP : P <;> by_cases hQ : Q <;> simp [hP, hQ]

section
variable {rnd : Nat} {sat fi neg : Bool} {m l : Nat} {e : Int}

theorem convVal_int {t : Nat} (hf : typeFmt t = none) (h6 : t ≠ 6) : convVal t rnd sat fi (.fin neg m e) =
    intCode t (if fi = true ∧ sat = false then toInt rnd neg m e else clampInt t (toInt rnd neg m e)) := by
  rw [apply_ite (intCode t)]
  simp [convVal, hf, h6]

/-- A positive value takes the exponent of its rounding among the powers of two (R197). -/
theorem toE8_pos (hrnd : rnd < 4) (hl : 2 ^ l ≤ m) (hm : m < 2 ^ (l + 1)) : toE8 rnd sat (.fin false m e) =
    let low : Int := l + e
    let ex : Int := if m = 2 ^ l ∨ rnd = 1 ∨ rnd = 2 then low
      else if rnd = 3 ∨ 3 * 2 ^ l < 2 * m ∨ (2 * m = 3 * 2 ^ l ∧ (low + 127) % 2 ≠ 0) then low + 1 else low
    if ex < -127 then 0 else if 127 < ex then (if sat then 254 else 255) else (ex + 127).toNat := by
  have hm0 : m ≠ 0 := by have := Nat.two_pow_pos l; omega
  have hlog : Nat.log2 m = l := (Nat.log2_eq_iff hm0).2 ⟨hl, hm⟩
  have hmode : rnd = 0 ∨ rnd = 1 ∨ rnd = 2 ∨ rnd = 3 := by omega
  have hup : ∀ low : Int, (!(m == 2 ^ l) && (rnd == 3 || (rnd == 0 && (decide (3 * 2 ^ l < 2 * m) || (2 * m == 3 * 2 ^ l && (low + 127) % 2 != 0)))))
      = decide (¬(m = 2 ^ l ∨ rnd = 1 ∨ rnd = 2) ∧ (rnd = 3 ∨ 3 * 2 ^ l < 2 * m ∨ (2 * m = 3 * 2 ^ l ∧ (low + 127) % 2 ≠ 0))) := fun low => by
    rw [Bool.eq_iff_iff]
    rcases hmode with rfl | rfl | rfl | rfl <;> simp
  simp only [toE8, hlog, floorLog2, hm0, Bool.false_or, decide_false, Bool.false_eq_true, if_false, hup, ite_not_and]

end

theorem conversions : Claims.Conversions := by
  refine ⟨fun c => rfl, fun g t rnd sat code => rfl, fun t f rnd sat fi v hf => by simp only [convVal, hf], fun r hr rnd sat neg m e code => ?integers,
    fun rnd sat fi neg m e l hrnd => ⟨rfl, rfl, fun h => ?zero, fun hl hm => toE8_pos hrnd hl hm⟩⟩
  case zero =>
    simp [convVal, typeFmt, toE8, h.symm]
  case integers =>
    obtain ⟨hf, h6, hw, hlow, hhigh, hrange, hsigned, hpos⟩ := intTypes_agree r hr
    obtain ⟨t, w, low, high⟩ := r
    dsimp only at hf h6 hw hlow hhigh hrange hsigned hpos ⊢
    have hput : ∀ z, intCode t z = (z % 2 ^ w).toNat := fun z => by rw [intCode, hw, wrapInt]
    have hclamp : ∀ z, clampInt t z = max low (min high z) := fun z => by
      rw [clampInt_eq (by rw [hlow, hhigh]; exact hrange), hlow, hhigh]
    refine ⟨fun hcode => ⟨?_, ?_⟩, fun fi => ⟨?_, ?_⟩, fun z => ?_, fun hrnd => ?_⟩
    · rw [elemInt, hw, sgn_of_lt hpos hcode, ite_and]
      exact if_congr hsigned rfl rfl
    · simp only [elemVal, hf, if_neg h6]
    · simp only [convVal, hf, if_neg h6]
    · simp only [convVal, hf, if_neg h6, hput, hlow, hhigh]
    · rw [Val.ofInt, convVal_int hf h6, toInt_ofInt, hclamp, hput]
      cases sat <;> rfl
    · rw [convVal_int hf h6, toInt_eq hrnd, hclamp, hput]
      rfl

end Sys2Proof.Machine
end

section
/-! The elementwise lane instructions of two operands, and the FP32 minimum and maximum (R146-R149). -/
namespace Sys2Proof.Machine

section
variable {x y : W32}

theorem fpick32_nan_nan (max : Bool) (hx : (f32 x).isNan = true) (hy : (f32 y).isNan = true) : fpick32 max x y = 0x7FC00000 := by
  rw [f32] at hx hy
  simp only [fpick32, floatPick, hx, hy, if_true]
  rfl
theorem fpick32_nan_left (max : Bool) (hx : (f32 x).isNan = true) (hy : (f32 y).isNan = false) : fpick32 max x y = y := by
  rw [f32] at hx hy
  simp only [fpick32, floatPick, hx, hy, if_true, Bool.false_eq_true, if_false, BitVec.ofNat_toNat, BitVec.setWidth_eq]
theorem fpick32_nan_right (max : Bool) (hx : (f32 x).isNan = false) (hy : (f32 y).isNan = true) : fpick32 max x y = x := by
  rw [f32] at hx hy
  simp only [fpick32, floatPick, hx, hy, if_true, Bool.false_eq_true, if_false, BitVec.ofNat_toNat, BitVec.setWidth_eq]
/-- Of two numbers the pick follows their order, -0 below +0 (R149). -/
theorem fpick32_numbers (max : Bool) (hx : (f32 x).isNan = false) (hy : (f32 y).isNan = false) : fpick32 max x y =
    if ((f32 x).lt (f32 y) || ((f32 x).isZero && (f32 y).isZero && (f32 x).neg && !(f32 y).neg)) = max then y else x := by
  rw [f32] at hx hy
  simp only [fpick32, floatPick, hx, hy, Bool.false_eq_true, if_false, apply_ite (BitVec.ofNat 32), BitVec.ofNat_toNat, BitVec.setWidth_eq, bne_iff_ne, ne_eq,
    ite_not]
  rfl

end

theorem numberPick : Claims.FloatPick := by
  refine ⟨fun x y => ⟨fun hx hy => ⟨fpick32_nan_nan _ hx hy, fpick32_nan_nan _ hx hy⟩, fun hx hy => ⟨fpick32_nan_left _ hx hy, fpick32_nan_left _ hx hy⟩,
    fun hx hy => ⟨fpick32_nan_right _ hx hy, fpick32_nan_right _ hx hy⟩, fun hx hy hlt => ?less, fun hx hy hlt hzero => ?notLess⟩, ?_⟩
  case less => simp [fpick32_numbers _ hx hy, hlt]
  case notLess => simp [fpick32_numbers _ hx hy, hlt, hzero]
  · decide

/-- An instruction whose meaning is an elementwise form of two operands computes its function lane by lane. -/
theorem lanes2_of_lane2 {mk : Nat → Nat → Nat → Nat → Nat → Nat → Instr} {bound : Nat} {f g : W32 → W32 → W32}
    (ex : Nat → Nat → Nat → Nat → Nat → Nat → State → Out) (hexec : ∀ d a b q w k s, exec (mk d a b q w k) s = ex d a b q w k s := by intros; rfl)
    (hlane : ∀ d a b q w k s, ex d a b q w k s = lane2 bound g d a b q 0 4 w k s := by intros; rfl)
    (hfg : ∀ x y, g x y = f x y := by intros; rfl) : lanes2 mk bound f := by
  intro s p l d a b q w k x y em ha hx hy hm
  obtain rfl : g = f := funext fun x => funext fun y => hfg x y
  rw [issuesV, hexec, hlane, lane2_of ha hx hy hm]

theorem elementwise : Claims.LaneElementwise :=
  ⟨lanes2_of_lane2 execVfadd, lanes2_of_lane2 execVfsub, lanes2_of_lane2 execVfmul, lanes2_of_lane2 execVfmin, lanes2_of_lane2 execVfmax,
    lanes2_of_lane2 execViadd, lanes2_of_lane2 execVisub, lanes2_of_lane2 execVimul,
    lanes2_of_lane2 execVimin (hfg := fun _ _ => if_congr BitVec.slt_iff_toInt_lt rfl rfl),
    lanes2_of_lane2 execVimax (hfg := fun _ _ => if_congr BitVec.slt_iff_toInt_lt rfl rfl),
    lanes2_of_lane2 execVnmin (hfg := fun _ _ => if_congr BitVec.ult_iff_lt rfl rfl),
    lanes2_of_lane2 execVnmax (hfg := fun _ _ => if_congr BitVec.ult_iff_lt rfl rfl),
    lanes2_of_lane2 execVand, lanes2_of_lane2 execVor, lanes2_of_lane2 execVxor,
    lanes2_of_lane2 execVshl, lanes2_of_lane2 execVshr, lanes2_of_lane2 execVsra⟩

/-- Settles O30: each instruction by its elementwise form, the formats and conversions by the cut and the rest of the exact value. -/
theorem laneElementwise : Obligations.LaneElementwise :=
  ⟨elementwise, numberPick, floatFormats, exactArithmetic, conversions⟩

end Sys2Proof.Machine
end

section
/-! Rows built lane word by lane word (R23). -/
namespace Sys2Proof.Machine

theorem getLsbD_rowOf_words (f : Nat → W32) {n j : Nat} (hj : j < 1024) :
    ((List.range n).foldl (fun (acc : Row) i => acc ||| ((f i).setWidth 1024 <<< (32 * i))) 0).getLsbD j
      = (decide (j < 32 * n) && (f (j / 32)).getLsbD (j % 32)) := by
  induction n with
  | zero => simp
  | succ n ih =>
    rw [List.range_succ, List.foldl_append, List.foldl_cons, List.foldl_nil, BitVec.getLsbD_or, ih, BitVec.getLsbD_shiftLeft, BitVec.getLsbD_setWidth]
    rcases Nat.lt_or_ge j (32 * n) with hlt | hge
    · simp [hlt, show j < 32 * (n + 1) by omega]
    · rcases Nat.lt_or_ge j (32 * (n + 1)) with hlt | hge'
      · simp [hj, hlt, show ¬ j < 32 * n by omega, show j / 32 = n by omega, show j % 32 = j - 32 * n by omega, show j - 32 * n < 1024 by omega]
      · simp [show ¬ j < 32 * (n + 1) by omega, show ¬ j < 32 * n by omega, BitVec.getLsbD_of_ge (f n) (j - 32 * n) (by omega)]

/-- A lane word of a row built by lane words. -/
theorem rowWord_rowOf (f : Nat → W32) {i : Nat} (hi : i < 32) : rowWord (rowOf f) i = f i := by
  refine BitVec.eq_of_getLsbD_eq fun k hk => ?_
  rw [rowWord, BitVec.getLsbD_extractLsb', rowOf, getLsbD_rowOf_words f (by omega)]
  simp [hk, show 32 * i + k < 1024 by omega, show (32 * i + k) / 32 = i by omega, show k % 32 = k by omega]

/-- Rows are equal whose lane words are built alike. -/
theorem rowOf_congr {f g : Nat → W32} (h : ∀ i, i < 32 → f i = g i) : rowOf f = rowOf g := by
  unfold rowOf
  refine List.foldl_ext _ _ _ fun acc i hi => ?_
  rw [h i (List.mem_range.1 hi)]

end Sys2Proof.Machine
end

section
/-! The cross-lane instructions (R160, R204, R216-R219, R224). -/
namespace Sys2Proof.Machine

theorem findIdx_self {ls : List Nat} (hls : ls.Nodup) {n i : Nat} (h : ls[n]? = some i) (k : Nat) :
    findIdx (fun j => j == i) ls k = some (n + k, i) := by
  induction ls generalizing n k with
  | nil => simp at h
  | cons x xs ih =>
    obtain ⟨hx, hxs⟩ := List.nodup_cons.1 hls
    cases n with
    | zero =>
      obtain rfl : x = i := by simpa using h
      simp [findIdx]
    | succ n =>
      rw [List.getElem?_cons_succ] at h
      have hne : x ≠ i := fun e => hx (e ▸ List.mem_of_getElem? h)
      rw [findIdx, if_neg (by simpa using hne), ih hxs h (k + 1), Nat.add_right_comm, Nat.add_assoc]

theorem lanesOf_isEmpty (em : W32) : (lanesOf em).isEmpty = decide (em = 0) := by
  rw [Bool.eq_iff_iff, List.isEmpty_iff, decide_eq_true_eq, lanesOf, List.filter_eq_nil_iff]
  constructor
  · intro h
    refine BitVec.eq_of_getLsbD_eq fun i hi => ?_
    simpa using h i (List.mem_range.2 hi)
  · rintro rfl i _
    simp

/-- The scale and the codes of VMXQ (R224): none where no lane is enabled. -/
def vmxqCodes (m : Nat) (x : Row) (em : W32) : Nat × List Nat :=
  if (lanesOf em).isEmpty then (0, []) else quantMx (0x10 + m) ((lanesOf em).map fun i => f32 (rowWord x i))
/-- The row of VMXQ (R224): each enabled lane's code is element f of its word of z. -/
def vmxqRow (m f : Nat) (x z : Row) (em : W32) : Row := rowOf fun i => match findIdx (fun j => j == i) (lanesOf em) 0 with
  | some (n, _) => packElems (if m = 2 then 4 else 8) fun j =>
      if j = f then (vmxqCodes m x em).2.getD n 0 else elemOf (if m = 2 then 4 else 8) (rowWord z i) j
  | none => 0

theorem rowWord_vmxqRow {m f n i : Nat} (x z : Row) {em : W32} (h : (lanesOf em)[n]? = some i) :
    rowWord (vmxqRow m f x z em) i = packElems (if m = 2 then 4 else 8) fun j =>
      if j = f then (vmxqCodes m x em).2.getD n 0 else elemOf (if m = 2 then 4 else 8) (rowWord z i) j := by
  have hi : i < 32 := List.mem_range.1 (List.mem_filter.1 (List.mem_of_getElem? h)).1
  have hnodup : (lanesOf em).Nodup := List.nodup_range.filter _
  rw [vmxqRow, rowWord_rowOf _ hi, findIdx_self hnodup h]
  rfl

theorem exec_vmxq {s : State} {p l d a c r f m q v w k : Nat} {x z : Row} {em : W32} (ha : s.cur.agent = .lane p l) (hm : s.laneMaskIs p l q v em)
    (hx : s.laneOperand p l 32 a = some x) (hz : s.laneOperand p l (if m = 2 then 4 else 8) c = some z) (hmx : s.hasFeature p 3 = true) :
    exec (.vmxq d a c r f m q v w k) s =
      .next (((s.issueRow p l 8 d (vmxqRow m f x z em) em).issueScalar p l 8 r (BitVec.ofNat 32 (vmxqCodes m x em).1)).laneRetire p l 8 w k) := by
  change execVmxq d a c r f m q v w k s = _
  simp only [execVmxq, onLane_lane ha, hmx, Bool.not_true, Bool.false_eq_true, if_false, operand_of hx, operandW_of s p l _ c z hz,
    effMask_of s p l q v em hm]
  rfl

theorem crossLanes : Claims.LaneCross := by
  intro s p l d a b c t g q v w k em x y ha hm wd n hx
  refine ⟨fun o => ?vred, fun o e => ?vscan, fun hy u hu => ⟨?vperm2, ?vperm1⟩,
    fun ht hy => ⟨fun m o => ?vshfl, fun o => ?vrotm, fun o hs => ?vrotmScalar⟩, fun ht r f m z hz => ⟨fun hmx => ?off, fun hmx => ?vmxq⟩⟩
  case vred =>
    change execVred d a o g t q v w k s = _
    simp only [execVred, onLane_lane ha, operandW_of s p l (typeWidth t) a x hx, effMask_of s p l q v em hm]
    rfl
  case vscan =>
    change execVscan d a o e g t q v w k s = _
    simp only [execVscan, onLane_lane ha, operandW_of s p l (typeWidth t) a x hx, effMask_of s p l q v em hm]
    rfl
  case vperm2 =>
    change execVperm d a b c 1 t q v w k s = _
    simp only [execVperm, onLane_lane ha, operandW_of s p l (typeWidth t) a x hx, operandW_of s p l (typeWidth t) b y hy, if_true,
      operandW_of s p l (typeWidth t) c u hu, effMask_of s p l q v em hm]
    rfl
  case vperm1 =>
    change execVperm d a b c 0 t q v w k s = _
    simp only [execVperm, onLane_lane ha, operandW_of s p l (typeWidth t) a x hx, operandW_of s p l (typeWidth t) b y hy, zero_ne_one, if_false,
      effMask_of s p l q v em hm]
    rfl
  case vshfl =>
    subst ht
    change execVshfl d a b m g o q v w k s = _
    simp only [execVshfl, onLane_lane ha, operand_of hx, operand_of hy, effMask_of s p l q v em hm]
    rfl
  case vrotm =>
    subst ht
    change execVrotm d a b c 0 o q v w k s = _
    simp only [execVrotm, onLane_lane ha, operand_of hx, operand_of hy, zero_ne_one, if_false, effMask_of s p l q v em hm]
  case vrotmScalar =>
    subst ht
    change execVrotm d a b c 1 o q v w k s = _
    simp only [execVrotm, onLane_lane ha, operand_of hx, operand_of hy, if_true, scalarCode_of hs, effMask_of s p l q v em hm]
  case off =>
    change execVmxq d a c r f m q v w k s = _
    simp only [execVmxq, onLane_lane ha, hmx, Bool.not_false, if_true]
  case vmxq =>
    subst ht
    intro wide mx
    have hcodes : vmxqCodes m x em = if em = 0 then (0, []) else mx := if_congr (by rw [lanesOf_isEmpty, decide_eq_true_eq]) rfl rfl
    refine ⟨vmxqRow m f x z em, ?_, fun i n hi => ?_⟩
    · rw [exec_vmxq ha hm hx hz hmx, hcodes, apply_ite Prod.fst]
    · have hem : em ≠ 0 := by
        rintro rfl
        simp [lanesOf] at hi
      rw [rowWord_vmxqRow x z hi, hcodes, if_neg hem]

/-- A shuffle stays in its reader's segment: each form adds less than a segment's width to the segment's first lane (R160, R258). -/
theorem shuffleStaysInSegment : Claims.ShuffleStaysInSegment := by
  intro m delta w i b j hw h
  have hi := Nat.mod_lt i hw
  have hmod := Nat.mod_add_div i w
  have hseg : ∀ r, r < w → (i - i % w + r) / w = i / w := fun r hr => by
    rw [show i - i % w + r = r + w * (i / w) by omega, Nat.add_mul_div_left _ _ hw, Nat.div_eq_of_lt hr, Nat.zero_add]
  simp only [shuffleFrom] at h
  split_ifs at h with h0 h1 hd h2 hd hx
  · obtain rfl := Option.some.inj h
    exact hseg _ (Nat.mod_lt _ hw)
  · obtain rfl := Option.some.inj h
    rw [show i - delta = i - i % w + (i % w - delta) by omega]
    exact hseg _ (by omega)
  · obtain rfl := Option.some.inj h
    rw [show i + delta = i - i % w + (i % w + delta) by omega]
    exact hseg _ hd
  · obtain rfl := Option.some.inj h
    exact hseg _ hx

theorem permutedElements : Claims.PermutedElements := by
  intro wd n b0 x ta tc hn
  refine ⟨fun h => ⟨?_, ?_⟩, fun h => ?_, fun h h2 => ?_, fun h => ?_, ?_, ?_⟩
  · simp [permElem, h]
  · simp [permElem, h]
  · simp [permElem, Nat.not_lt.2 h]
  · simp [permElem, Nat.not_lt.2 h, h2]
  · simp [permElem, show ¬x < n by omega, Nat.not_lt.2 h]
  · simp [permElem]
  · simp [permElem]

end Sys2Proof.Machine
end

section
/-! Trees and scans over lanes (R204, R216, R217), and the quantising of a group into an MX format (R198, R199). -/
namespace Sys2Proof.Machine

section
variable {t o : Nat}

/-- Every other pair of the first 2n positions is one of the first n pairs. -/
theorem pairUp_take (l : List (Option W32)) (n : Nat) : pairUp t o (l.take (2 * n)) = (pairUp t o l).take n := by
  induction n generalizing l with
  | zero => rfl
  | succ n ih =>
    match l with
    | [] => simp [pairUp]
    | [x] => simp [pairUp, Nat.mul_add]
    | x :: y :: rest => simp [pairUp, Nat.mul_add, ih rest]
theorem pairUp_drop (l : List (Option W32)) (n : Nat) : pairUp t o (l.drop (2 * n)) = (pairUp t o l).drop n := by
  induction n generalizing l with
  | zero => rfl
  | succ n ih =>
    match l with
    | [] => simp [pairUp]
    | [x] => simp [pairUp, Nat.mul_add]
    | x :: y :: rest => simp [pairUp, Nat.mul_add, ih rest]
theorem length_pairUp (l : List (Option W32)) {n : Nat} (h : l.length = 2 * n) : (pairUp t o l).length = n := by
  induction n generalizing l with
  | zero => rw [List.length_eq_zero_iff.1 h]; rfl
  | succ n ih =>
    match l with
    | [] => simp at h
    | [x] => simp at h; omega
    | x :: y :: rest =>
      rw [pairUp, List.length_cons, ih rest (by simp at h; omega)]

/-- A reduction combines the reductions of its halves (R204). -/
theorem treeReduce_halves (k : Nat) (l : List (Option W32)) (h : l.length = 2 ^ (k + 1)) :
    treeReduce t o (k + 1) l = combineOpt t o (treeReduce t o k (l.take (2 ^ k))) (treeReduce t o k (l.drop (2 ^ k))) := by
  induction k generalizing l with
  | zero =>
    match l, h with
    | [x, y], _ => rfl
  | succ k ih =>
    have hlen : (pairUp t o l).length = 2 ^ (k + 1) := length_pairUp l (by rw [h, Nat.pow_succ']; )
    have hpow : 2 ^ (k + 1) = 2 * 2 ^ k := Nat.pow_succ'
    calc treeReduce t o (k + 2) l = treeReduce t o (k + 1) (pairUp t o l) := rfl
      _ = _ := ih _ hlen
      _ = _ := by rw [hpow, ← pairUp_take, ← pairUp_drop]; rfl

theorem treeReduce_single (n : Nat) (x : Option W32) : treeReduce t o n [x] = x := by
  induction n with
  | zero => rfl
  | succ n ih => exact ih
/-- More levels than the tree has change nothing. -/
theorem treeReduce_levels (n k : Nat) (l : List (Option W32)) (h : l.length = 2 ^ k) (hk : k ≤ n) : treeReduce t o n l = treeReduce t o k l := by
  induction k generalizing n l with
  | zero =>
    obtain ⟨x, rfl⟩ := List.length_eq_one_iff.1 h
    rw [treeReduce_single, treeReduce_single]
  | succ k ih =>
    obtain ⟨n, rfl⟩ := Nat.exists_eq_succ_of_ne_zero (show n ≠ 0 by omega)
    exact ih n _ (length_pairUp l (by rw [h, Nat.pow_succ'])) (by omega)

theorem combineOpt_none_right (x : Option W32) : combineOpt t o x none = x := by cases x <;> rfl

/-- What a scan gives at an enabled position (R217): the combination of those before it, itself included or, exclusive, the identity for none. -/
def scanAt (t o e : Nat) (run : Option W32) (before : List (Option W32)) (x : W32) : W32 :=
  if e = 1 then (before.foldl (combineOpt t o) run).getD (scanIdentity t o) else (combineOpt t o (before.foldl (combineOpt t o) run) (some x)).getD 0

theorem scanAt_cons (e : Nat) (run y : Option W32) (before : List (Option W32)) :
    scanAt t o e run (y :: before) = scanAt t o e (combineOpt t o run y) before := rfl
theorem scanList_some (e : Nat) (run : Option W32) (x : W32) (rest : List (Option W32)) :
    scanList t o e run (some x :: rest) = scanAt t o e run [] x :: scanList t o e (combineOpt t o run (some x)) rest := by
  cases run <;> rfl

theorem getElem?_scanList (e : Nat) (run : Option W32) (l : List (Option W32)) (i : Nat) :
    (scanList t o e run l)[i]? = (l[i]?).map fun x => x.elim 0 (scanAt t o e run (l.take i)) := by
  induction l generalizing run i with
  | nil => rfl
  | cons x rest ih =>
    cases i with
    | zero =>
      cases x with
      | none => rfl
      | some x => rw [scanList_some]; rfl
    | succ i =>
      rw [List.getElem?_cons_succ, List.take_succ_cons, scanAt_cons]
      cases x with
      | none => rw [scanList, List.getElem?_cons_succ, ih, combineOpt_none_right]
      | some x => rw [scanList_some, List.getElem?_cons_succ, ih]

theorem getElem?_segElems (b n : Nat) (em : W32) (r : Row) (i : Nat) : (segElems t b n em r)[i]? = let per := 32 / typeWidth t
    if i < n * per then some (if em.getLsbD (b + i / per) then some (widen t (rowElem (typeWidth t) r (b * per + i))) else none) else none := by
  by_cases hi : i < n * (32 / typeWidth t)
  · simp [segElems, hi]
  · simp [segElems, hi]

end

theorem combine_int {t : Nat} (ht : 7 ≤ t) (x y : W32) :
    let less := if t = 7 ∨ t = 9 ∨ t = 11 then x.toInt < y.toInt else x.toNat < y.toNat
    combine t 0 x y = x + y ∧ (less → combine t 1 x y = x ∧ combine t 2 x y = y) ∧ (¬less → combine t 1 x y = y ∧ combine t 2 x y = x)
    ∧ combine t 3 x y = x &&& y ∧ combine t 4 x y = x ||| y ∧ combine t 5 x y = x ^^^ y := by
  intro less
  have hsigned : typeSigned t = true ↔ t = 7 ∨ t = 9 ∨ t = 11 := by simp [typeSigned, or_assoc]
  have hless : (if typeSigned t = true then x.slt y else x.ult y) = true ↔ less := by
    by_cases h : typeSigned t = true
    · simp only [less, if_pos h, if_pos (hsigned.1 h), BitVec.slt_iff_toInt_lt]
    · simp only [less, if_neg h, if_neg fun h' => h (hsigned.2 h'), BitVec.ult_iff_lt, BitVec.lt_def]
  have hge : ¬t < 7 := by omega
  refine ⟨by simp [combine, hge], fun h => ?_, fun h => ?_, by simp [combine, hge], by simp [combine, hge], by simp [combine, hge]⟩
  · simp [combine, hge, hless.2 h]
  · simp [combine, hge, Bool.eq_false_iff.2 fun h' => h (hless.1 h')]

/-- The exact value of a working value is FP32's (R217). -/
theorem narrow_float {t : Nat} {f : Fmt} (hf : typeFmt t = some f) (ht : t ≠ 0) (x : W32) : narrow t x = roundTo f 0 false (f32 x) := by
  have hlt : t < 7 := by
    by_contra h
    simp [typeFmt, show t ≠ 0 by omega, show t ≠ 1 by omega, show t ≠ 2 by omega, show t ≠ 3 by omega, show t ≠ 4 by omega, show t ≠ 5 by omega] at hf
  simp only [narrow, if_neg ht, if_pos hlt, convElem, convVal, hf]
  rfl

theorem treesAndScans : Claims.TreesAndScans := by
  intro t o ht ho
  refine ⟨fun c => rfl, fun x y => ⟨fun h7 => ?floats, fun h7 => combine_int h7 x y⟩, fun x => ⟨rfl, combineOpt_none_right x⟩, fun x y => rfl, fun x => rfl,
    treeReduce_halves, treeReduce_levels, getElem?_segElems, fun e l i => ?scan, ?identity,
    fun x f => ⟨fun h0 => ?word, fun hf h0 => narrow_float hf h0 x, fun h7 => ?low⟩⟩
  case floats => simp only [combine, if_pos h7]; exact ⟨rfl, rfl, rfl⟩
  case scan =>
    intro run
    rw [getElem?_scanList]
    cases hx : l[i]? with
    | none => rfl
    | some x =>
      cases x with
      | none => rfl
      | some x =>
        have hnext : run (l.take (i + 1)) = combineOpt t o (run (l.take i)) (some x) := by
          simp only [run, List.take_add_one, hx, Option.toList_some, List.foldl_append, List.foldl_cons, List.foldl_nil]
        simp only [Option.map_some, Option.elim_some, scanAt, hnext]
        rfl
  case identity =>
    refine ⟨rfl, rfl, rfl, rfl, fun h7 => ?_, fun r hr hrt => ?_⟩
    · simp [scanIdentity, h7]
    · obtain ⟨hf, h6, -, hlow, hhigh, -⟩ := intTypes_agree r hr
      have h7 : ¬t < 7 := by
        subst hrt
        revert r
        decide
      rw [hrt] at hlow hhigh
      simp [scanIdentity, h7, hlow, hhigh]
  case word => rw [narrow, if_pos h0]
  case low => rw [narrow, if_neg (by omega), if_neg (by omega)]

/-- x is the largest exponent of a group's nonzero elements, none where all are zero (R199). -/
def isTopExp (xs : List Val) : Option Int → Prop
  | none => ∀ n m e, Val.fin n m e ∈ xs → m = 0
  | some x => (∃ n m e, Val.fin n m e ∈ xs ∧ m ≠ 0 ∧ floorLog2 m e = x) ∧ ∀ n m e, Val.fin n m e ∈ xs → m ≠ 0 → floorLog2 m e ≤ x

theorem isTopExp_cons_of_no_exp {v : Val} {xs : List Val} {o : Option Int} (hv : ∀ n m e, v = .fin n m e → m = 0) (h : isTopExp xs o) :
    isTopExp (v :: xs) o := by
  cases o with
  | none => exact fun n m e hmem => (List.mem_cons.1 hmem).elim (fun he => hv n m e he.symm) (h n m e)
  | some x =>
    obtain ⟨⟨n, m, e, hmem, hx⟩, hle⟩ := h
    exact ⟨⟨n, m, e, List.mem_cons_of_mem _ hmem, hx⟩, fun n m e hmem hm =>
      (List.mem_cons.1 hmem).elim (fun he => absurd (hv n m e he.symm) hm) fun hmem => hle n m e hmem hm⟩

theorem isTopExp_groupExp (xs : List Val) : isTopExp xs (groupExp xs) := by
  induction xs with
  | nil => intro n m e h; cases h
  | cons v xs ih =>
    cases v with
    | nan => exact isTopExp_cons_of_no_exp (fun _ _ _ h => nomatch h) ih
    | inf neg => exact isTopExp_cons_of_no_exp (fun _ _ _ h => nomatch h) ih
    | fin neg m e =>
      rw [groupExp]
      split
      · next hm => exact isTopExp_cons_of_no_exp (fun _ _ _ h => by cases h; exact hm) ih
      · next hm =>
        cases hg : groupExp xs with
        | none =>
          rw [hg] at ih
          refine ⟨⟨neg, m, e, List.mem_cons_self, hm, rfl⟩, fun n m' e' hmem hm' => ?_⟩
          rcases List.mem_cons.1 hmem with h | h
          · cases h; exact Int.le_refl _
          · exact absurd (ih n m' e' h) hm'
        | some x =>
          rw [hg] at ih
          obtain ⟨⟨n, m', e', hmem, hm', hx⟩, hle⟩ := ih
          dsimp only
          refine ⟨?_, fun n m' e' hmem hm' => ?_⟩
          · split
            · exact ⟨neg, m, e, List.mem_cons_self, hm, rfl⟩
            · exact ⟨n, m', e', List.mem_cons_of_mem _ hmem, hm', hx⟩
          · rcases List.mem_cons.1 hmem with h | h
            · cases h; split <;> omega
            · have := hle n m' e' h hm'
              split <;> omega

/-- The exponent of a group is its only largest one. -/
theorem groupExp_eq_some {xs : List Val} {a : Int} (h : isTopExp xs (some a)) : groupExp xs = some a := by
  have hspec := isTopExp_groupExp xs
  obtain ⟨⟨n, m, e, hmem, hm, rfl⟩, hle⟩ := h
  cases hg : groupExp xs with
  | none => rw [hg] at hspec; exact absurd (hspec n m e hmem) hm
  | some x =>
    rw [hg] at hspec
    obtain ⟨⟨n', m', e', hmem', hm', rfl⟩, hle'⟩ := hspec
    exact congrArg some (Int.le_antisymm (hle n' m' e' hmem' hm') (hle' n m e hmem hm))
theorem groupExp_eq_none {xs : List Val} (h : isTopExp xs none) : groupExp xs = none := by
  have hspec := isTopExp_groupExp xs
  cases hg : groupExp xs with
  | none => rfl
  | some x =>
    rw [hg] at hspec
    obtain ⟨⟨n, m, e, hmem, hm, -⟩, -⟩ := hspec
    exact absurd (h n m e hmem) hm

theorem Val.special_iff (v : Val) : v.special = true ↔ v = .nan ∨ ∃ n, v = .inf n := by
  cases v <;> simp [Val.special]

/-- The MX formats of R120 with their largest exponents (R199). -/
theorem mxFmt_table : ∀ r ∈ [(0x10, e4m3, (8 : Int)), (0x11, e5m2, 15), (0x12, e2m1, 2)], mxFmt r.1 = r.2.1 ∧ mxEmax r.1 = r.2.2 := by
  decide

theorem mxGroups : Claims.MxGroups := by
  intro r hr xs
  obtain ⟨hfmt, hmax⟩ := mxFmt_table r hr
  obtain ⟨f, fmt, emax⟩ := r
  dsimp only at hfmt hmax ⊢
  refine ⟨fun h => ?special, fun h => ?zeros, fun a hnum hatt hle => ?group, fun scale code => ?decode⟩
  case special =>
    obtain ⟨v, hv, hspecial⟩ := h
    exact if_pos (List.any_eq_true.2 ⟨v, hv, v.special_iff.2 hspecial⟩)
  case zeros =>
    have hany : xs.any Val.special = false := List.any_eq_false.2 fun v hv => by
      obtain ⟨n, e, rfl⟩ := h v hv
      exact Bool.false_ne_true
    have hexp : groupExp xs = none := groupExp_eq_none fun n m e hmem => by
      obtain ⟨n', e', heq⟩ := h _ hmem
      cases heq; rfl
    simp only [quantMx, hany, Bool.false_eq_true, if_false, hexp]
    refine congrArg (Prod.mk 0) (List.map_congr_left fun v hv => ?_)
    obtain ⟨n, e, rfl⟩ := h v hv
    rw [hfmt]; rfl
  case group =>
    have hany : xs.any Val.special = false := List.any_eq_false.2 fun v hv hs => hnum v hv (v.special_iff.1 hs)
    have hx : (if a - mxEmax f < -127 then -127 else a - mxEmax f) = max (a - emax) (-127) := by
      rw [hmax]; split <;> omega
    generalize max (a - emax) (-127) = x at hx ⊢
    have hquant : quantMx f xs = (scaleCode x, xs.map fun v => roundTo (mxFmt f) 0 true (v.scale (-x))) := by
      simp only [quantMx, hany, Bool.false_eq_true, if_false, groupExp_eq_some ⟨hatt, hle⟩, hx]
    refine ⟨fun h127 => ?_, ?_⟩
    · rw [hquant]; exact if_pos h127
    · rw [hquant]
      refine List.map_congr_left fun v hv => ?_
      rw [hfmt]
      cases v <;> rfl
  case decode =>
    rw [decodeMx, hfmt]
    refine if_congr Iff.rfl rfl ?_
    cases decodeF fmt code <;> rfl

/-- Settles O33: each instruction by what it reads and builds, the tree by its halves, the scan by its prefixes, the group by its top exponent. -/
theorem laneCross : Obligations.LaneCross := ⟨crossLanes, shuffleStaysInSegment, treesAndScans, permutedElements, mxGroups⟩

end Sys2Proof.Machine
end

section
/-! Reads of the lanes that find their bytes in the lanes' L1 (R230, R322): they change nothing but how recently its lines were used. -/
namespace Sys2Proof.Machine

/-- What the L1s hold after a line of one of plaza p's L1s was replaced. -/
theorem cached_replaceIn {s : State} {p : Nat} {k : Bool} {z : Line} (hz : z.upd = false) (hin : (lineIn ((s.plaza p).l1 k) z.key).isSome = true)
    (q : Nat) (lanes : Bool) (b : Nat) : (s.modPlaza p fun q => q.modL1 k (replaceLine z)).cached q lanes b =
      if q = p ∧ lanes = k ∧ b / 128 = z.key then z.byteAt (b % 128) else s.cached q lanes b := by
  by_cases hq : q = p
  · subst hq
    by_cases hk : lanes = k
    · subst hk
      simp only [State.cached, plaza_modPlaza_self, l1_modL1_self, lineIn_replaceLine hz hin, true_and]
      split <;> rfl
    · rw [if_neg fun h => hk h.2.1]
      refine cached_congr ?_
      rw [plaza_modPlaza_self, Bool.eq_not_of_ne hk, l1_modL1_other]
  · rw [if_neg fun h => hq h.1]
    exact cached_congr (by rw [plaza_modPlaza_ne _ _ hq])

/-- Replacing the only line of its key by one with the same dirty bytes changes no dirty byte of the plaza. -/
theorem dirtyMask_replaceLanes {q : Plaza} {x z : Line} {line : Nat} (h : onlyLine q.l1v z.key x) (hd : z.dirty = x.dirty)
    (hz : z.upd = x.upd) (hk : z.key = x.key) : (q.modL1 true (replaceLine z)).dirtyMask line = q.dirtyMask line := by
  simp only [Plaza.dirtyMask, Plaza.modL1, if_true, List.foldl_append, replaceLine, List.foldl_map]
  refine List.foldl_ext _ _ _ fun m y hy => ?_
  split
  · next e =>
    simp only [Bool.and_eq_true, beq_iff_eq, Bool.not_eq_true'] at e
    rw [h.2 y hy e.1 e.2, hd, hz, hk]
  · rfl

theorem onlyLine_replaceLine_self {ls : List Line} {x z : Line} (hz : z.upd = false) (h : onlyLine ls z.key x) :
    onlyLine (replaceLine z ls) z.key z := by
  refine ⟨by rw [lineIn_replaceLine hz (by rw [h.1]; rfl), if_pos rfl], fun y hy hkey hupd => ?_⟩
  obtain ⟨w, -, rfl⟩ := List.mem_map.1 hy
  split
  · rfl
  · next hw => simp_all
theorem onlyLine_replaceLine_ne {ls : List Line} {x z : Line} {line : Nat} (hz : z.upd = false) (hin : (lineIn ls z.key).isSome = true) (hne : line ≠ z.key)
    (h : onlyLine ls line x) : onlyLine (replaceLine z ls) line x := by
  refine ⟨by rw [lineIn_replaceLine hz hin, if_neg hne, h.1], fun y hy hkey hupd => ?_⟩
  obtain ⟨w, hw, rfl⟩ := List.mem_map.1 hy
  split at hkey
  · exact absurd hkey.symm hne
  · next hc => rw [if_neg hc] at hupd ⊢; exact h.2 w hw hkey hupd

theorem hasUpdate_replaceLanes {q : Plaza} {z : Line} {line : Nat} (hz : z.upd = false) (h : q.hasUpdate line = false) :
    (q.modL1 true (replaceLine z)).hasUpdate line = false := by
  rw [Plaza.hasUpdate, List.any_eq_false] at h ⊢
  intro y hy
  rcases List.mem_append.1 hy with hy | hy
  · exact h y (List.mem_append_left _ hy)
  · obtain ⟨w, hw, rfl⟩ := List.mem_map.1 (show y ∈ replaceLine z q.l1v from hy)
    split
    · simp [hz]
    · exact h w (List.mem_append_right _ hw)

section
variable {s t u : State} {p key n : Nat} {x : Line}

/-- The state after a line of the lanes' L1 was used. -/
def State.touchLanes (s : State) (p : Nat) (x : Line) (used : Nat) : State := s.modPlaza p fun q => q.modL1 true (replaceLine { x with used := used })

theorem privClash_touchLanes {used : Nat} {w : Line} (hx : onlyLine (s.plaza p).l1v x.key x) (mask : BitVec 128)
    (hw : s.privClash p w mask = false) : (s.touchLanes p x used).privClash p w mask = false := by
  rw [State.touchLanes, privClash_modPlaza _ (dirtyMask_replaceLanes (z := { x with used := used }) hx rfl rfl rfl)]
  exact hw

/-- The bytes that the lanes' L1 holds it holds after a use too. -/
theorem l1vHas_touchLanes {used k m : Nat} {w : Line} (hupd : x.upd = false) (hx : onlyLine (s.plaza p).l1v x.key x) (hw : s.l1vHas p k m w) :
    ∃ y, (s.touchLanes p x used).l1vHas p k m y ∧ y.data = w.data := by
  obtain ⟨hfits, hclear, honly, hheld, hpoison, hpriv⟩ := hw
  have hclear' : ((s.touchLanes p x used).plaza p).hasUpdate (k / 128) = false := by
    rw [State.touchLanes, plaza_modPlaza_self]
    exact hasUpdate_replaceLanes (z := { x with used := used }) hupd hclear
  have hl1v : ((s.touchLanes p x used).plaza p).l1v = replaceLine { x with used := used } (s.plaza p).l1v := by
    rw [State.touchLanes, plaza_modPlaza_self]; rfl
  by_cases hk : k / 128 = x.key
  · have hwx : w = x := by
      have h := honly.1
      rw [hk, hx.1] at h
      exact (Option.some.inj h).symm
    subst hwx
    refine ⟨{ w with used := used }, ⟨hfits, hclear', ?_, hheld, hpoison, ?_⟩, rfl⟩
    · rw [hl1v, hk]
      exact onlyLine_replaceLine_self (z := { w with used := used }) hupd hx
    · exact privClash_touchLanes hx _ hpriv
  · refine ⟨w, ⟨hfits, hclear', ?_, hheld, hpoison, privClash_touchLanes hx _ hpriv⟩, rfl⟩
    rw [hl1v]
    exact onlyLine_replaceLine_ne (z := { x with used := used }) hupd (by rw [hx.1]; rfl) hk honly

/-- What reads through the lanes' L1 of plaza p may change: how recently its lines were used, and what the group had asked of other modules. -/
structure LanesRead (p : Nat) (s t : State) : Prop where
  rest : t = { s with plazas := t.plazas, remotes := t.remotes }
  plaza : ∀ r, t.plaza r = { s.plaza r with l1v := (t.plaza r).l1v }
  cached : ∀ r lanes b, t.cached r lanes b = s.cached r lanes b
  has : ∀ key n x, s.l1vHas p key n x → ∃ y, t.l1vHas p key n y ∧ y.data = x.data

theorem LanesRead.refl (p : Nat) (s : State) : LanesRead p s s := ⟨rfl, fun _ => rfl, fun _ _ _ => rfl, fun _ _ x h => ⟨x, h, rfl⟩⟩
theorem LanesRead.trans (h : LanesRead p s t) (k : LanesRead p t u) : LanesRead p s u where
  rest := k.rest.trans (congrArg (fun x : State => { x with plazas := u.plazas, remotes := u.remotes }) h.rest)
  plaza r := (k.plaza r).trans (congrArg (fun x : Plaza => { x with l1v := (u.plaza r).l1v }) (h.plaza r))
  cached r lanes b := (k.cached r lanes b).trans (h.cached r lanes b)
  has key n x hx := by
    obtain ⟨y, hy, hyx⟩ := h.has key n x hx
    obtain ⟨z, hz, hzy⟩ := k.has key n y hy
    exact ⟨z, hz, hzy.trans hyx⟩

theorem lanesRead_endRead (who : Requester) (line : Nat) : LanesRead p s (s.endRead who line) :=
  ⟨rfl, fun _ => rfl, fun _ _ _ => rfl, fun _ _ x h => ⟨x, h, rfl⟩⟩
/-- A use of a line that the lanes' L1 holds once is such a read. -/
theorem lanesRead_touchLanes {used : Nat} (hupd : x.upd = false) (hx : onlyLine (s.plaza p).l1v x.key x) : LanesRead p s (s.touchLanes p x used) where
  rest := rfl
  plaza r := by
    by_cases hr : r = p
    · subst hr
      rw [State.touchLanes, plaza_modPlaza_self]; rfl
    · rw [State.touchLanes, plaza_modPlaza_ne _ _ hr]
  cached r lanes b := by
    have hin : (lineIn ((s.plaza p).l1 true) x.key).isSome = true := by
      rw [show (s.plaza p).l1 true = (s.plaza p).l1v from rfl, hx.1]; rfl
    rw [State.touchLanes, cached_replaceIn (z := { x with used := used }) hupd hin]
    split
    · next h =>
      obtain ⟨rfl, rfl, hb⟩ := h
      rw [State.cached, hb, show (s.plaza r).l1 true = (s.plaza r).l1v from rfl, hx.1]
      rfl
    · rfl
  has _ _ _ := l1vHas_touchLanes hupd hx

theorem loadL1_lanesHit (who : Requester) (priv : Bool) (h : s.l1vHas p key n x) :
    ∃ t, s.loadL1 who p true key n priv = .ok (vecBytes x.data (key % 128) n) t ∧ LanesRead p s t := by
  obtain ⟨-, hclear, honly, hheld, hpoison, hpriv⟩ := h
  obtain ⟨hkey, hupd⟩ := key_of_lineIn honly.1
  have hx : onlyLine (s.plaza p).l1v x.key x := by rwa [hkey]
  have htake : ((s.endRead who (key / 128)).touchLanes p x (nextUse (s.plaza p).l1v)).privClash p x (byteMask (key % 128) n) = false :=
    privClash_touchLanes (s := s.endRead who (key / 128)) hx _ hpriv
  refine ⟨(s.endRead who (key / 128)).touchLanes p x (nextUse (s.plaza p).l1v), ?_,
    (lanesRead_endRead who (key / 128)).trans (lanesRead_touchLanes hupd hx)⟩
  have hset : (s.endRead who (key / 128)).setLine p true x = (s.endRead who (key / 128)).touchLanes p x (nextUse (s.plaza p).l1v) := rfl
  simp only [State.loadL1, mergeOwn_of_no_update hclear, show (s.plaza p).l1 true = (s.plaza p).l1v from rfl, honly.1, Option.getD_some, Option.isSome_some,
    hheld, decide_true, Bool.and_self, if_true, hset, State.takeFrom, htake, Bool.false_eq_true, if_false, takeBytes, hpoison]

end

end Sys2Proof.Machine
end

section
/-! VLDU and VLDG (R161-R167, R230, R322). -/
namespace Sys2Proof.Machine

section
variable {s : State} {p l n : Nat}

theorem splitKey_within {key : Nat} (h : key % 128 + n ≤ 128) : splitKey key n = [(key, n)] := if_pos (by omega)

theorem loadPieces_single {priv : Bool} {key v : Nat} {t : State} (h : s.loadL1 (.lane p l) p true key n priv = .ok v t) :
    s.loadPieces p l priv [(key, n)] = .ok v t := by
  simp [State.loadPieces, h, Res.andThen]

/-- Lanes whose bytes the lanes' L1 holds load them one after another, each leaving the others' where they are. -/
theorem loadLanes_hit (xs : List Access) (data : Nat → Row) (h : ∀ a ∈ xs, ∃ x, s.l1vHas p a.key n x ∧ x.data = data (a.key / 128)) :
    ∃ u, s.loadLanes p l n (xs.map fun a => (a, .plain)) = .ok (xs.map (fun a => (a.lane, vecBytes (data (a.key / 128)) (a.key % 128) n)), []) u
      ∧ LanesRead p s u := by
  induction xs generalizing s with
  | nil => exact ⟨s, rfl, .refl p s⟩
  | cons a xs ih =>
    obtain ⟨x, hx, hdata⟩ := h a List.mem_cons_self
    obtain ⟨t, hload, hread⟩ := loadL1_lanesHit (.lane p l) a.priv hx
    obtain ⟨u, hrest, hread'⟩ := ih (s := t) fun b hb => by
      obtain ⟨y, hy, hydata⟩ := h b (List.mem_cons_of_mem a hb)
      obtain ⟨z, hz, hzdata⟩ := hread.has _ _ _ hy
      exact ⟨z, hz, hzdata.trans hydata⟩
    refine ⟨u, ?_, hread.trans hread'⟩
    rw [List.map_cons, State.loadLanes]
    simp only [splitKey_within hx.1, loadPieces_single hload, hrest, Res.andThen, List.map_cons, hdata]

theorem laneLoadsHit : Claims.LaneLoadsHit := by
  intro s p l n xs line h
  obtain ⟨u, hload, hread⟩ := loadLanes_hit (l := l) xs (fun k => (line k).data) fun a ha => ⟨_, h a ha, rfl⟩
  exact ⟨u, hload, by rw [hread.rest], hread.cached⟩

end

/-! ### The checks of the enabled lanes -/

/-- The offsets of an instruction's enabled lanes. -/
def laneOffs (em : W32) (off : Nat → Nat) : List (Nat × Nat) := (enabled em).map fun j => (j, off j)
/-- The accesses of the enabled lanes where every lane passes its checks. -/
def laneAccesses (em : W32) (off key : Nat → Nat) (priv : Nat → Bool) : List Access := (enabled em).map fun j => ⟨j, off j, key j, priv j⟩

theorem mem_enabled {em : W32} {j : Nat} : j ∈ enabled em ↔ em.getLsbD j = true := by
  rw [enabled, List.mem_filter, List.mem_range]
  exact and_iff_right_of_imp fun h => BitVec.lt_of_getLsbD h

section
variable {s : State} {p l hn n : Nat} {need : Need} {byAddress : Bool} {em : W32} {off key : Nat → Nat} {priv : Nat → Bool}

/-- Lanes that all pass their checks are sorted into their accesses, and no fault (R165). -/
theorem sortLanes_ok {h : Handle} (js : List Nat) (huse : ∀ j ∈ js, s.laneUse p h n need byAddress (off j) = .ok (key j) (priv j)) :
    s.sortLanes p h n need byAddress (js.map fun j => (j, off j)) = (js.map fun j => ⟨j, off j, key j, priv j⟩, []) := by
  induction js with
  | nil => rfl
  | cons j js ih =>
    simp only [List.map_cons, State.sortLanes, ih fun i hi => huse i (List.mem_cons_of_mem j hi), huse j List.mem_cons_self]

theorem withHandle_valid {gone : State} {go : List Access → List Faulted → State → Out} (hv : (s.handle p hn).st = .valid)
    (huse : ∀ j, j < 32 → em.getLsbD j = true → s.laneUse p (s.handle p hn) n need byAddress (off j) = .ok (key j) (priv j)) :
    withHandle p l hn n need byAddress (laneOffs em off) gone s go = go (laneAccesses em off key priv) [] s := by
  have hsort := sortLanes_ok (enabled em) fun j hj => huse j (BitVec.lt_of_getLsbD (mem_enabled.1 hj)) (mem_enabled.1 hj)
  simp only [withHandle, hv, laneOffs, hsort]
  rfl
/-- A PENDING or FAULTED handle holds the instruction, whatever its mask (R112, R163). -/
theorem withHandle_held {offs : List (Nat × Nat)} {gone : State} {go : List Access → List Faulted → State → Out}
    (hh : (s.handle p hn).st = .pending ∨ (s.handle p hn).st = .faulted) (hhalt : (s.place p).halted = false) :
    withHandle p l hn n need byAddress offs gone s go = .next s := by
  rcases hh with hh | hh <;> simp only [withHandle, hh, hhalt, Bool.false_eq_true, if_false]

/-- With no store of the group on its way nothing performs before an access (R167). -/
theorem orderStores_of_no_stores {cls : Nat} {space : StoreSpace} {rs : List (Nat × Nat)} (h : (s.lane p l).stores = []) :
    s.orderStores p l cls space rs = s := by
  simp [State.orderStores, h]

/-- Accesses off view pages read through the L1 (R342). -/
theorem viewLanes_plain (as : List Access) (h : ∀ a ∈ as, s.viewPage a.key = false) :
    s.viewLanes p l n [] as = ((as.map fun a => (a, .plain), [], none), s) := by
  induction as with
  | nil => rfl
  | cons a as ih =>
    have hview := h a List.mem_cons_self
    simp only [State.viewLanes, hview, Bool.and_false, Bool.false_and, Bool.false_eq_true, if_false, viewRead_plain hview (show keptBytes [] a.key n = none from rfl),
      ih fun b hb => h b (List.mem_cons_of_mem a hb), List.map_cons]
/-- Lanes that read through the L1 have no line of another module's view page to gather. -/
theorem gatherLanes_plain (as : List Access) : s.gatherLanes p l n (as.map fun a => (a, .plain)) = .ok (as.map fun a => (a, .plain), []) s := by
  have hnone (f : Access × LaneRead → Bool) (hf : ∀ a, f (a, .plain) = false) : (as.map fun a => (a, LaneRead.plain)).filter f = [] :=
    List.filter_eq_nil_iff.2 fun x hx => by
      obtain ⟨a, -, rfl⟩ := List.mem_map.1 hx
      simp [hf]
  rw [State.gatherLanes]
  dsimp only
  rw [hnone _ fun _ => rfl]
  rfl

end

/-! ### The two instructions -/

section
variable {s : State} {p l d a b h i t c q v w k hn n cls : Nat} {byAddress : Bool} {em : W32} {ext : Nat → W32} {off key : Nat → Nat} {priv : Nat → Bool}

/-- The state after a counted load issued its values (R153, R166). -/
def State.issueLoad (u : State) (p l d : Nat) (row : Row) (em : W32) (w k : Nat) : State :=
  ((u.issue p l 0 true ((u.lane p l).vdest d) true row em).modLane p l fun x => { x with delays := [] }).laneRetire p l 8 w k

/-- A load whose lanes pass their checks and read through the L1 issues the values that it loads (R164-R166). -/
theorem laneLoad_valid {vs : List (Nat × Nat)} {u : State} (hs : (s.lane p l).stores = []) (hd : (s.lane p l).delays = [])
    (hview : ∀ j, em.getLsbD j = true → s.viewPage (key j) = false) (hv : (s.handle p hn).st = .valid)
    (huse : ∀ j, j < 32 → em.getLsbD j = true → s.laneUse p (s.handle p hn) n .read byAddress (off j) = .ok (key j) (priv j))
    (hload : s.loadLanes p l n ((enabled em).map fun j => (⟨j, off j, key j, priv j⟩, .plain)) = .ok (vs, []) u) :
    laneLoad d hn n cls byAddress (laneOffs em off) em ext w k p l s = .next (u.issueLoad p l d (rowFrom vs ext) em w k) := by
  have hplain : ∀ a ∈ laneAccesses em off key priv, s.viewPage a.key = false := by
    intro a ha
    obtain ⟨j, hj, rfl⟩ := List.mem_map.1 ha
    exact hview j (mem_enabled.1 hj)
  have hload' : s.loadLanes p l n ((laneAccesses em off key priv).map fun a => (a, .plain)) = .ok (vs, []) u := by
    rw [laneAccesses, List.map_map]; exact hload
  have hmask : em &&& ~~~ laneMask [] = em := BitVec.and_allOnes
  rw [laneLoad, withHandle_valid hv huse]
  simp only [orderStores_of_no_stores hs, hd, viewLanes_plain _ hplain, gatherLanes_plain, Res.andThen, hload', List.append_nil, List.map_nil, hmask]
  rfl

theorem exec_vldu (ha : s.cur.agent = .lane p l) (hm : s.laneMaskIs p l q v em) (hsc : s.scalarReady p l (a - 72)) :
    exec (.vldu d a h i c q v w k) s = laneLoad d h 4 c false
      (laneOffs em fun j => ((s.lane p l).scalar (a - 72)).toNat + 4 * i + 4 * (j - s.shift p l)) em (BitVec.ofNat 32) w k p l s := by
  change execVldu d a h i c q v w k s = _
  simp only [execVldu, onLane_lane ha, effMask_of s p l q v em hm, State.unitOffs, scalarCode_of hsc]
  rfl
theorem exec_vldg {x y : Row} (ha : s.cur.agent = .lane p l) (hm : s.laneMaskIs p l q v em) (hx : s.laneOperand p l 32 a = some x)
    (hy : s.laneOperand p l 32 b = some y) :
    exec (.vldg d a b h t c q v w k) s = laneLoad d h (typeWidth t / 8) c true (laneOffs em fun j => (rowWord x j).toNat + (rowWord y j).toNat) em
      (gatherExt t) w k p l s := by
  change execVldg d a b h t c q v w k s = _
  simp only [execVldg, onLane_lane ha, effMask_of s p l q v em hm, State.gatherOffs, operand_of hx, operand_of hy]
  rfl

theorem laneLoadsIssue : Claims.LaneLoads := by
  intro s p l d a b h i t c q v w k em key priv ha hm hs hd hview loads
  refine ⟨fun hsc => ?vldu, fun x y hx hy => ?vldg⟩
  case vldu =>
    exact ⟨fun hv huse vs u hload => (exec_vldu ha hm hsc).trans (laneLoad_valid hs hd hview hv huse hload),
      fun hh hhalt => (exec_vldu ha hm hsc).trans (withHandle_held hh hhalt)⟩
  case vldg =>
    exact ⟨fun hv huse vs u hload => (exec_vldg ha hm hx hy).trans (laneLoad_valid hs hd hview hv huse hload),
      fun hh hhalt => (exec_vldg ha hm hx hy).trans (withHandle_held hh hhalt)⟩

/-- The row of the enabled lanes' values: 0 in the others (R166). -/
theorem rowFrom_enabled (val : Nat → Nat) :
    rowFrom ((enabled em).map fun j => (j, val j)) ext = rowOf fun j => if em.getLsbD j then ext (val j) else 0 := by
  refine rowOf_congr fun j hj => ?_
  rw [List.find?_map]
  by_cases hem : em.getLsbD j = true
  · have hfind : (enabled em).find? ((fun x : Nat × Nat => x.1 == j) ∘ fun j => (j, val j)) = some j := by
      cases hz : (enabled em).find? ((fun x : Nat × Nat => x.1 == j) ∘ fun j => (j, val j)) with
      | none => exact absurd (beq_self_eq_true j) (List.find?_eq_none.1 hz j (mem_enabled.2 hem))
      | some z =>
        have hzj := List.find?_some hz
        rw [beq_iff_eq.1 (show (z == j) = true from hzj)]
    rw [hfind, if_pos hem]; rfl
  · have hfind : (enabled em).find? ((fun x : Nat × Nat => x.1 == j) ∘ fun j => (j, val j)) = none := by
      rw [List.find?_eq_none]
      rintro z hz hzj
      exact hem (beq_iff_eq.1 hzj ▸ mem_enabled.1 hz)
    rw [hfind, if_neg hem]; rfl

/-- A load whose lanes' bytes the lanes' L1 holds completes at its issue, and only how recently those lines were used changes. -/
theorem laneLoad_hit (line : Nat → Line) (hs : (s.lane p l).stores = []) (hd : (s.lane p l).delays = []) (hv : (s.handle p hn).st = .valid)
    (hlane : ∀ j, j < 32 → em.getLsbD j = true → s.laneUse p (s.handle p hn) n .read byAddress (off j) = .ok (key j) (priv j)
        ∧ s.viewPage (key j) = false ∧ s.l1vHas p (key j) n (line (key j / 128))) :
    ∃ u, laneLoad d hn n cls byAddress (laneOffs em off) em ext w k p l s = .next (u.issueLoad p l d
        (rowOf fun j => if em.getLsbD j then ext (vecBytes (line (key j / 128)).data (key j % 128) n) else 0) em w k)
      ∧ LanesRead p s u := by
  have hlanes := fun j hem => hlane j (BitVec.lt_of_getLsbD hem) hem
  obtain ⟨u, hload, hread⟩ := loadLanes_hit (l := l) (laneAccesses em off key priv) (fun k => (line k).data) fun x hx => by
    obtain ⟨j, hj, rfl⟩ := List.mem_map.1 hx
    exact ⟨_, (hlanes j (mem_enabled.1 hj)).2.2, rfl⟩
  refine ⟨u, ?_, hread⟩
  rw [laneLoad_valid hs hd (fun j hem => (hlanes j hem).2.1) hv (fun j hj hem => (hlane j hj hem).1) (by rw [← hload, laneAccesses, List.map_map]; rfl), ← rowFrom_enabled, laneAccesses, List.map_map]
  rfl

theorem laneLoadsComplete : Claims.LaneLoadsComplete := by
  intro s p l d a b h i t c q v w k em key priv line ha hm hs hd hv loads
  refine ⟨fun hsc hlane => ?vldu, fun x y hx hy _ hlane => ?vldg⟩
  case vldu =>
    obtain ⟨u, hnext, hread⟩ := laneLoad_hit line hs hd hv hlane
    exact ⟨u, (exec_vldu ha hm hsc).trans hnext, hread.rest, hread.plaza, hread.cached⟩
  case vldg =>
    obtain ⟨u, hnext, hread⟩ := laneLoad_hit line hs hd hv hlane
    exact ⟨u, (exec_vldg ha hm hx hy).trans hnext, hread.rest, hread.plaza, hread.cached⟩

end

/-- Settles O36: an instruction is its checks, its loads and one issue; loads that hit are followed lane by lane, each leaving what the others find. -/
theorem laneLoads : Obligations.LaneLoads := ⟨laneLoadsComplete, laneLoadsIssue, laneLoadsHit⟩

end Sys2Proof.Machine
end

section
/-! VSTU and VSTG put a store on its way; LANE_STORE_PERFORMS performs it (R153, R161-R167). -/
namespace Sys2Proof.Machine

section
variable {s : State} {p l a b y h i t c q v w k hn n cls : Nat} {byAddress : Bool} {em : W32} {data : Row} {off key : Nat → Nat} {priv : Nat → Bool}

/-- A store whose lanes pass their checks is put on its way, with one part for each enabled lane (R166). -/
theorem laneStore_valid (hv : (s.handle p hn).st = .valid)
    (huse : ∀ j, j < 32 → em.getLsbD j = true → s.laneUse p (s.handle p hn) n .write byAddress (off j) = .ok (key j) (priv j)) :
    laneStore hn n cls byAddress (laneOffs em off) data w k p l s =
      .next ((s.issueStore p l cls .mem ((enabled em).map fun j => (key j, n, (rowWord data j).toNat % 2 ^ (8 * n)))
        (((enabled em).head?.map priv).getD false)).laneRetire p l 8 w k) := by
  rw [laneStore, withHandle_valid hv huse]
  simp only [laneAccesses, List.map_map, List.head?_map, Option.map_map, List.isEmpty_nil, if_true]
  rfl

theorem exec_vstu {z : Row} (ha : s.cur.agent = .lane p l) (hm : s.laneMaskIs p l q v em) (hsc : s.scalarReady p l (a - 72))
    (hz : s.laneOperand p l 32 b = some z) :
    exec (.vstu a b h i c q v w k) s = laneStore h 4 c false
      (laneOffs em fun j => ((s.lane p l).scalar (a - 72)).toNat + 4 * i + 4 * (j - s.shift p l)) z w k p l s := by
  change execVstu a b h i c q v w k s = _
  simp only [execVstu, onLane_lane ha, effMask_of s p l q v em hm, State.unitOffs, scalarCode_of hsc, operand_of hz]
  rfl
theorem exec_vstg {x z u : Row} (ha : s.cur.agent = .lane p l) (hm : s.laneMaskIs p l q v em) (hx : s.laneOperand p l 32 a = some x)
    (hz : s.laneOperand p l 32 b = some z) (hu : s.laneOperand p l 32 y = some u) :
    exec (.vstg a b y h t c q v w k) s = laneStore h (typeWidth t / 8) c true (laneOffs em fun j => (rowWord x j).toNat + (rowWord z j).toNat) u
      w k p l s := by
  change execVstg a b y h t c q v w k s = _
  simp only [execVstg, onLane_lane ha, effMask_of s p l q v em hm, State.gatherOffs, operand_of hx, operand_of hz, operand_of hu]
  rfl

theorem laneStoresIssue : Claims.LaneStores := by
  intro s p l a b y h i t c q v w k em key priv ha hm hv stores
  exact ⟨fun z hsc hz huse => (exec_vstu ha hm hsc hz).trans (laneStore_valid hv huse),
    fun x z u hx hz hu huse => (exec_vstg ha hm hx hz hu).trans (laneStore_valid hv huse)⟩

end

/-! ### A store performs -/

section
variable {s : State} {p l key n v : Nat} {x : Line}

theorem lane_wakeLine (line : Nat) : (s.wakeLine p line).lane p l = s.lane p l := by
  simp [State.lane, State.place, State.wakeLine]
theorem lane_modL1 (k : Bool) (f : List Line → List Line) : (s.modPlaza p fun q => q.modL1 k f).lane p l = s.lane p l := by
  cases k <;> simp [State.lane, State.place, Plaza.modL1]
theorem scratch_modLane (f : Lane → Lane) : ((s.modLane p l f).plaza p).scratch = (s.plaza p).scratch := by
  simp [State.modLane, State.modPlace]
theorem l1_modLane (q : Nat) (k : Bool) (f : Lane → Lane) : ((s.modLane p l f).plaza q).l1 k = (s.plaza q).l1 k := by
  by_cases hq : q = p
  · subst hq; simp [State.modLane, State.modPlace, Plaza.l1]
  · rw [State.modLane, State.modPlace, plaza_modPlaza_ne _ _ hq]

/-- One L1 of plaza p, the lanes' or the L1D, has the line of a key and nothing else of the plaza has it. -/
def State.l1Only (s : State) (p : Nat) (k : Bool) (key : Nat) (x : Line) : Prop :=
  (s.plaza p).hasUpdate (key / 128) = false ∧ lineIn ((s.plaza p).l1 k) (key / 128) = some x ∧ lineIn ((s.plaza p).l1 !k) (key / 128) = none

/-- Dropping a line that an L1 does not hold changes nothing. -/
theorem modL1_drop_absent {q : Plaza} {k : Bool} {line : Nat} (h : lineIn (q.l1 k) line = none) :
    (q.modL1 k fun ls => ls.filter fun y => !(y.key == line && !y.upd)) = q := by
  have hkeep : (q.l1 k).filter (fun y => !(y.key == line && !y.upd)) = q.l1 k :=
    List.filter_eq_self.mpr fun y hy => by simpa [imp_iff_not_or] using List.find?_eq_none.mp h y hy
  cases k
  · exact congrArg (fun ls => { q with l1d := ls }) hkeep
  · exact congrArg (fun ls => { q with l1v := ls }) hkeep

/-- A store into a line that the plaza has in the storing L1 only (R58, R167). -/
theorem storeL1_only {k : Bool} (priv : Bool) (h : s.l1Only p k key x) :
    ∃ used, s.storeL1 p k key n v priv =
      (s.wakeLine p (key / 128)).modPlaza p fun q => q.modL1 k (replaceLine (x.stored s.dev.cycle (key % 128) n v used)) := by
  obtain ⟨hupd, hin, hother⟩ := h
  rw [State.storeL1]
  generalize hw : s.wakeLine p (key / 128) = w
  have hl1 (b : Bool) : (w.plaza p).l1 b = (s.plaza p).l1 b := by rw [← hw]; exact l1_wakeLine s p p _ b
  have hm : w.mergeOwn p (key / 128) = w :=
    mergeOwn_of_no_update (by rw [Plaza.hasUpdate, show (w.plaza p).l1d = _ from hl1 false, show (w.plaza p).l1v = _ from hl1 true]; exact hupd)
  have hor : ∀ {m : Nat} (y : BitVec m), y ||| 0 = y := fun _ => BitVec.or_zero
  have hmix : lineMix 0 0 x.data = x.data := by rw [lineMix, if_pos rfl]
  have hdrop := modL1_drop_absent (hother ▸ congrArg (lineIn · (key / 128)) (hl1 !k))
  simp only [hm, plaza_modPlaza_self, hdrop, hl1, hin, hother, otherPoison, hmix, hor]
  refine ⟨nextUse ((s.plaza p).l1 k), ?_⟩
  rw [setLine_eq, modPlaza_modPlaza]
  refine modPlaza_congr ?_
  rw [hdrop, ← hl1 k]
  cases k <;> rfl

/-- What the L1s hold after a store into a line of one of plaza p's L1s: the bytes stored, and every other byte that any of them held. -/
theorem cached_storedIn {k : Bool} {cycle used : Nat} (hin : lineIn ((s.plaza p).l1 k) (key / 128) = some x)
    (hn : key % 128 + n ≤ 128) (q : Nat) (lanes : Bool) (b : Nat) :
    (s.modPlaza p fun q => q.modL1 k (replaceLine (x.stored cycle (key % 128) n v used))).cached q lanes b =
      if q = p ∧ lanes = k ∧ key ≤ b ∧ b < key + n then some (BitVec.ofNat 8 (v / 2 ^ (8 * (b - key)))) else s.cached q lanes b := by
  obtain ⟨hkey, hupd⟩ := key_of_lineIn hin
  have hk : (x.stored cycle (key % 128) n v used).key = key / 128 := hkey
  rw [cached_replaceIn (show (x.stored cycle (key % 128) n v used).upd = false from hupd) (by rw [hk, hin]; rfl), hk]
  by_cases hline : q = p ∧ lanes = k ∧ b / 128 = key / 128
  · obtain ⟨rfl, rfl, hb⟩ := hline
    rw [if_pos ⟨rfl, rfl, hb⟩, byteAt_stored x cycle used v hn (by omega)]
    refine ite_congr (propext ?_) (fun hr => ?_) fun _ => ?_
    · simp only [true_and]; omega
    · rw [show b % 128 - key % 128 = b - key by omega]
    · rw [State.cached, hb, hin]; rfl
  · rw [if_neg hline, if_neg fun h => hline ⟨h.1, h.2.1, by omega⟩]

/-- A word of a lane store that finds its line in the lanes' L1 changes its bytes there, and no lane group. -/
theorem putMem_hit (priv : Bool) (hn : key % 128 + n ≤ 128) (hlt : v < 2 ^ (8 * n)) (h : s.l1Only p true key x) :
    (s.putMem p key n v priv).mem = s.mem ∧ (s.putMem p key n v priv).lane p l = s.lane p l
      ∧ ∀ q lanes b, (s.putMem p key n v priv).cached q lanes b =
        if q = p ∧ lanes = true ∧ key ≤ b ∧ b < key + n then some (BitVec.ofNat 8 (v / 2 ^ (8 * (b - key)))) else s.cached q lanes b := by
  obtain ⟨used, hstore⟩ := storeL1_only (n := n) (v := v) priv h
  have hput : s.putMem p key n v priv = s.storeL1 p true key n v priv := by
    rw [State.putMem, splitKey_within hn]
    simp only [List.foldl_cons, List.foldl_nil, Nat.mod_eq_of_lt hlt]
  have hin : lineIn (((s.wakeLine p (key / 128)).plaza p).l1 true) (key / 128) = some x := by
    rw [l1_wakeLine]; exact h.2.1
  rw [hput, hstore]
  exact ⟨rfl, by rw [lane_modL1, lane_wakeLine], fun q lanes b => by rw [cached_storedIn hin hn, cached_congr (l1_wakeLine ..)]⟩

/-- A performed store leaves its group's store counter; the group's registers stay. -/
theorem performed_left {t : State} {id : Nat} (hmem : t.mem = s.mem) (hlane : t.lane p l = s.lane p l) :
    let u := t.modLane p l fun x => { x with stores := x.stores.filter fun y => y.id != id }
    u.mem = s.mem ∧ (u.lane p l).stores = (s.lane p l).stores.filter (fun y => y.id != id)
      ∧ (u.lane p l).s = (s.lane p l).s ∧ (u.lane p l).p = (s.lane p l).p := by
  intro u
  simp only [u, modLane_mem, lane_modLane_self, hmem, hlane, and_self]

end

theorem storePerforms : Claims.StorePerforms := by
  intro s p l n st key m v hst hparts hfits hm older left
  have hexec : exec (.laneStorePerforms p l n) s = if older = true then .next s else .next (s.performStore p l st) := by
    change execLaneStorePerforms p l n s = _
    simp only [execLaneStorePerforms, hst, hparts, List.map_cons, List.map_nil]
    rfl
  have hnext (hnew : older = false) : exec (.laneStorePerforms p l n) s = .next ((s.performPart p st (key, m, v)).modLane p l fun x =>
      { x with stores := x.stores.filter fun y => y.id != st.id }) := by
    rw [hexec, if_neg (by simp [hnew]), State.performStore, hparts]; rfl
  refine ⟨fun hold => by rw [hexec, if_pos hold], fun hnew hspace => ?scratch, fun x hnew hspace hlt hclear hin hother => ?mem⟩
  case scratch =>
    have hpart : s.performPart p st (key, m, v) = s.modPlaza p fun q =>
        { q with scratch := tabPut 0 q.scratch (key / 128) (vecPut (tabGet 0 q.scratch (key / 128)) (key % 128) m v) } := by
      rw [State.performPart, hspace]
    have hlane : (s.performPart p st (key, m, v)).lane p l = s.lane p l := by simp [hpart, State.lane, State.place]
    refine ⟨_, hnext hnew, performed_left (by rw [hpart]; rfl) hlane, ?_, fun r hr => ?_⟩
    · rw [scratch_modLane, hpart, plaza_modPlaza_self, tabGet_tabPut_self]
    · rw [scratch_modLane, hpart, plaza_modPlaza_self, tabGet_tabPut_ne _ _ _ hr]
  case mem =>
    have hpart : s.performPart p st (key, m, v) = s.putMem p key m v st.priv := by rw [State.performPart, hspace]
    obtain ⟨hmem, hlane, hcached⟩ := putMem_hit (l := l) st.priv hfits hlt ⟨hclear, hin, hother⟩
    refine ⟨_, hnext hnew, performed_left (by rw [hpart, hmem]) (by rw [hpart, hlane]), fun q lanes b => ?_⟩
    rw [cached_congr (l1_modLane ..), hpart, hcached]

/-- Settles O37: an instruction is its checks and one issue; a store that performs is followed to the one scratchpad row or L1 line it changes. -/
theorem laneStores : Obligations.LaneStores := ⟨laneStoresIssue, storePerforms⟩

end Sys2Proof.Machine
end

section
/-! VLDS, VSTS, VLDB and VSTB: the scratchpad and the typed buffers from the lanes (R161-R166, R227, R263). -/
namespace Sys2Proof.Machine

section
variable {s : State} {p l a i c q v w k d b g z row : Nat} {em : W32}

/-- The offset of the scratchpad row that an instruction names (R163). -/
def scratchOff (sc : W32) (i : Nat) : Int := ((sc.toNat : Int) + 128 * sgn 8 i) / 128 * 128

theorem scratchRow_of (hsc : s.scalarReady p l (a - 72)) : s.scratchRow p l a i = (scratchOff ((s.lane p l).scalar (a - 72)) i, s) := by
  rw [State.scratchRow, scalarCode_of hsc]; rfl
/-- A scratchpad access is a fault exactly where a lane is enabled and the row is not within the scratchpad (R163). -/
theorem scratchBad_iff {o : Int} : s.scratchBad p o em = true ↔ ¬(em = 0 ∨ (0 ≤ o ∧ o < (s.place p).scrsize)) := by
  rw [← Bool.not_eq_false, not_iff_not]
  simp only [State.scratchBad, Bool.and_eq_false_iff, bne_eq_false_iff_eq, Bool.or_eq_false_iff, decide_eq_false_iff_not, not_lt, not_le]

theorem exec_vlds (ha : s.cur.agent = .lane p l) (hm : s.laneMaskIs p l q v em) (hsc : s.scalarReady p l (a - 72)) (hs : (s.lane p l).stores = []) :
    exec (.vlds d a i c q v w k) s = let o := scratchOff ((s.lane p l).scalar (a - 72)) i
      if s.scratchBad p o em then .next ((s.skipRing p l).scratchFault p l o em)
      else .next ((s.issueRow p l 10 d (tabGet 0 (s.plaza p).scratch (o.toNat / 128)) em).laneRetire p l 8 w k) := by
  change execVlds d a i c q v w k s = _
  simp only [execVlds, onLane_lane ha, effMask_of s p l q v em hm, scratchRow_of hsc, orderStores_of_no_stores hs]
theorem exec_vsts {x : Row} (ha : s.cur.agent = .lane p l) (hm : s.laneMaskIs p l q v em) (hsc : s.scalarReady p l (a - 72))
    (hx : s.laneOperand p l 32 b = some x) :
    exec (.vsts a b i c q v w k) s = let o := scratchOff ((s.lane p l).scalar (a - 72)) i
      if s.scratchBad p o em then .next (s.scratchFault p l o em)
      else .next ((s.issueStore p l c .scratch ((enabled em).map fun j => (o.toNat + 4 * j, 4, (rowWord x j).toNat)) false).laneRetire p l 8 w k) := by
  change execVsts a b i c q v w k s = _
  simp only [execVsts, onLane_lane ha, effMask_of s p l q v em hm, scratchRow_of hsc, operand_of hx]

/-- VLDB of AB or WB reads a part of the buffer's row (R227). -/
theorem exec_vldb_buffer (ha : s.cur.agent = .lane p l) (hm : s.laneMaskIs p l q v em) (hsc : s.scalarReady p l (a - 72))
    (hs : (s.lane p l).stores = []) (hg : g ≠ 2) :
    exec (.vldb d a g z i c q v w k) s =
      .next ((s.issueRow p l 8 d ((tabGet 0 (if g = 0 then (s.plaza p).ab else (s.plaza p).wb)
        (bufRow ((s.lane p l).scalar (a - 72)) i)).extractLsb' (1024 * z) 1024) em).laneRetire p l 8 w k) := by
  change execVldb d a g z i c q v w k s = _
  simp only [execVldb, onLane_lane ha, effMask_of s p l q v em hm, scalarCode_of hsc, orderStores_of_no_stores hs, if_neg hg]
/-- VLDB of CB reads a row without words in flight (R228). -/
theorem exec_vldb_cb (ha : s.cur.agent = .lane p l) (hm : s.laneMaskIs p l q v em) (hsc : s.scalarReady p l (a - 72)) (hs : (s.lane p l).stores = [])
    (hrow : bufRow ((s.lane p l).scalar (a - 72)) i = row) (hdef : (s.lane p l).undefRow s.dev.cycle row = 0) :
    exec (.vldb d a 2 z i c q v w k) s = .next ((s.issueRow p l 8 d (s.cbRow p row) em).laneRetire p l 8 w k) := by
  change execVldb d a 2 z i c q v w k s = _
  have hread : s.readUnit p l row = (s.cbRow p row, s) := by simp only [State.readUnit, State.readOver, hdef, if_true]
  simp only [execVldb, onLane_lane ha, effMask_of s p l q v em hm, scalarCode_of hsc, orderStores_of_no_stores hs, hrow, if_true, hread]

/-- VSTB to AB puts its store on its way (R227). -/
theorem exec_vstb_ab {x : Row} (ha : s.cur.agent = .lane p l) (hm : s.laneMaskIs p l q v em) (hsc : s.scalarReady p l (a - 72))
    (hx : s.laneOperand p l 32 b = some x) (hrow : bufRow ((s.lane p l).scalar (a - 72)) i = row) :
    exec (.vstb a b 0 z i c q v w k) s = .next
      ((s.issueStore p l c .ab ((enabled em).map fun j => (row * 256 + 128 * z + 4 * j, 4, (rowWord x j).toNat)) false).laneRetire p l 8 w k) := by
  change execVstb a b 0 z i c q v w k s = _
  simp only [execVstb, onLane_lane ha, effMask_of s p l q v em hm, scalarCode_of hsc, operand_of hx, hrow, if_true]
/-- VSTB to CB writes its words at its issue (R180, log 17), and no other row. -/
theorem exec_vstb_cb {x : Row} (ha : s.cur.agent = .lane p l) (hm : s.laneMaskIs p l q v em) (hsc : s.scalarReady p l (a - 72))
    (hs : (s.lane p l).stores = []) (hx : s.laneOperand p l 32 b = some x) (hrow : bufRow ((s.lane p l).scalar (a - 72)) i = row) :
    ∃ t, exec (.vstb a b 2 z i c q v w k) s = .next t ∧ t.mem = s.mem ∧ t.cbRow p row = rowMix em x (s.cbRow p row)
      ∧ ∀ m, m ≠ row → t.cbRow p m = s.cbRow p m := by
  have hmark (t : State) (f : Lane → Lane) (m : Nat) : (if em = 0 then t else t.modLane p l f).cbRow p m = t.cbRow p m := by
    split
    · rfl
    · exact cbRow_modLane ..
  refine ⟨?after, ?exec, ?mem, ?row, fun m hne => ?other⟩
  case exec =>
    change execVstb a b 2 z i c q v w k s = _
    simp only [execVstb, onLane_lane ha, effMask_of s p l q v em hm, scalarCode_of hsc, operand_of hx, hrow, orderStores_of_no_stores hs,
      if_neg (show ¬(2 = 0) by decide)]
    rfl
  case mem => simp only [State.laneRetire, modLane_mem, apply_ite State.mem, modPlaza_mem, ite_self]
  case row => rw [State.laneRetire, cbRow_modLane, hmark, State.cbRow, plaza_modPlaza_self, tabGet_tabPut_self, ← State.cbRow]
  case other => rw [State.laneRetire, cbRow_modLane, hmark, State.cbRow, plaza_modPlaza_self, tabGet_tabPut_ne _ _ _ hne, ← State.cbRow]

end

theorem laneBufferAccesses : Claims.LaneBuffers := by
  intro s p l d a b g z i c q v w k em ha hm hsc hs sc o inside row
  refine ⟨fun hin => ?vlds, fun hout => ?vldsFault, fun hg => ?vldbAb, fun hg => ?vldbWb, fun hg hdef => ?vldbCb, fun x hx =>
    ⟨fun hin => ?vsts, fun hout => ?vstsFault, fun hg => ?vstbAb, fun hg => ?vstbCb⟩⟩
  case vlds => exact (exec_vlds ha hm hsc hs).trans (if_neg fun h => scratchBad_iff.1 h hin)
  case vldsFault => exact (exec_vlds ha hm hsc hs).trans (if_pos (scratchBad_iff.2 hout))
  case vldbAb => subst hg; exact exec_vldb_buffer ha hm hsc hs (by decide)
  case vldbWb => subst hg; exact exec_vldb_buffer ha hm hsc hs (by decide)
  case vldbCb => subst hg; exact exec_vldb_cb ha hm hsc hs rfl hdef
  case vsts => exact (exec_vsts ha hm hsc hx).trans (if_neg fun h => scratchBad_iff.1 h hin)
  case vstsFault => exact (exec_vsts ha hm hsc hx).trans (if_pos (scratchBad_iff.2 hout))
  case vstbAb => subst hg; exact exec_vstb_ab ha hm hsc hx rfl
  case vstbCb => subst hg; exact exec_vstb_cb ha hm hsc hs hx rfl

/-- Settles O38: each access by the one equation of its instruction and buffer; VSTB to CB by the row it writes at its issue. -/
theorem laneBuffers : Obligations.LaneBuffers := laneBufferAccesses

end Sys2Proof.Machine
end
